-- ==== Sys2Proof/Word.lean ====
section
/-! DEFINITION. The words of the YT9400's register interface and memories (00_scope, Registers). -/
namespace Sys2Proof

/-- A register: 32 bits, little-endian (00_scope, Registers). -/
abbrev Word := BitVec 32

/-- A byte of HBM, of host memory, of flash or of a message. -/
abbrev Byte := BitVec 8

end Sys2Proof
end

