-- ==== Sys2Proof/Syntax.lean ====
section
/-! DEFINITION. The commands of the YT9400, one constructor per row of the command table, and the operand forms that the
messages of the outside carry. -/
namespace Sys2Proof

/-- A mailbox request as firmware takes it: the entry's fields (R139) and the header of R140. `arg` holds the bytes that
RANGE0 names where it lies in the caller's host memory; a range in HBM is read from HBM. -/
structure Req where
  qid : Nat
  tag : Nat
  master : Nat
  seq : Nat
  replyQid : Nat
  range0 : Nat
  range1 : Nat
  hdrMaster : Nat
  ifver : Nat
  argLen : Nat
  replyMax : Nat
  checkOnly : Bool
  object : Nat
  a0 : Nat
  a1 : Nat
  a2 : Nat
  a3 : Nat
  arg : List Byte
  deriving DecidableEq, Repr

/-- A Bastu-S packet inside a MIRROR packet (R512), as its type's own row brings it. -/
inductive Inner where
  | frameStart (src : Nat) (crcOk : Bool) (frame width height depth headTime : Nat)
  | line (src : Nat) (crcOk room : Bool) (frame line col : Nat) (last : Bool) (px : List Nat)
  | frameEnd (src : Nat) (crcOk : Bool) (frame : Nat)
  | metadata (src : Nat) (crcOk : Bool) (typ : Nat) (bytes : List Byte)
  | other
  deriving DecidableEq, Repr

/-- The header fields of a Bastu-C packet (R526). -/
structure CHead where
  port : Fin 3
  crcOk : Bool
  origin : Nat
  dest : Nat
  hops : Nat
  seq : Nat
  rig : Nat
  deriving DecidableEq, Repr

/-- A HEARTBEAT packet (R513): its fields, the partner's serial and the one-way delay of the link in ns, which no field carries. -/
structure Beat where
  epoch : Nat
  alive : Nat
  crcOk : Bool
  role : Nat
  hot : Bool
  fail : Bool
  handover : Bool
  mode : Nat
  eff : Nat
  used : Nat
  sendTime : Nat
  gen : Nat
  refStart : Nat
  serial : Nat
  delay : Nat
  deriving DecidableEq, Repr

/-- What the outside shows a register write whose effect reads it: a host ring from the old TAIL on (R108), the host image
(R169), the sensors' raw codes (R541) and the lanes a training run finds in error (R444). -/
structure Shown where
  ring : List Byte
  img : List Byte
  raw : List Int
  lanes : Nat
  deriving DecidableEq, Repr

/-- The commands. Each constructor is one row of the command table; its docstring gives the row's name and its rule. -/
inductive Instr where
  /-- UCB_WAKE (R580) -/
  | ucbWake (m u : Nat)
  /-- UCB_DRAIN (R18) -/
  | ucbDrain (m u : Nat)
  /-- UCB_SLEEP (R18) -/
  | ucbSleep (m u : Nat)
  /-- UCB_OFF (R18) -/
  | ucbOff (m u : Nat)
  /-- UCB_RELOAD (R18) -/
  | ucbReload (m u : Nat)
  /-- DOMAIN_POWER_GOOD (R55) -/
  | domainPowerGood (n : Fin 64)
  /-- RELOAD_COMPLETE (R18) -/
  | reloadComplete (u : Nat) (good : Bool)
  /-- DRAIN_COMPLETE (R18) -/
  | drainComplete (u : Nat)
  /-- DOMAIN_POWER_LOST (R18) -/
  | domainPowerLost (n : Fin 64)
  /-- PACE_WINDOW (R29) -/
  | paceWindow (u n : Nat)
  /-- PACE_LOW_TIMEOUT (R35) -/
  | paceLowTimeout (g : Nat)
  /-- PACE_OK_TIMEOUT (R27) -/
  | paceOkTimeout (g : Nat)
  /-- BAND_RISE_DEFERRED (R32) -/
  | bandRiseDeferred (g : Nat)
  /-- GOVERNOR_RUN (R33) -/
  | governorRun
  /-- UCB_PACE_MIN_READ (R16) -/
  | ucbPaceMinRead (m u : Nat)
  /-- UCB_EVENT_READ (R16) -/
  | ucbEventRead (m u : Nat)
  /-- ACT_LEVEL_SET (R16) -/
  | actLevelSet (m u : Nat) (v : Word)
  /-- BANK_DECIDE (R60) -/
  | bankDecide
  /-- PIP_RELEASE (R62) -/
  | pipRelease (u : Nat)
  /-- BANK_CEIL_WRITE (R58) -/
  | bankCeilWrite (m : Nat) (v : Word)
  /-- BANK_RESERVE_WRITE (R58) -/
  | bankReserveWrite (m : Nat) (v : Word)
  /-- BANK_VOLT_REQ (R583) -/
  | bankVoltReq (m : Nat) (v : Word)
  /-- C0_GRANT_LATE_TIMEOUT (R61) -/
  | c0GrantLateTimeout (u : Nat)
  /-- GRANT_WAIT_TIMEOUT (R61) -/
  | grantWaitTimeout (u : Nat)
  /-- CURRENT_MONITOR_WINDOW (R64) -/
  | currentMonitorWindow (meas : List Nat)
  /-- OVERDRAW (R64) -/
  | overdraw (n : Fin 64)
  /-- OVERDRAW_OFF (R65) -/
  | overdrawOff (n : Fin 64)
  /-- FORCE_SHED_TIMEOUT (R68) -/
  | forceShedTimeout
  /-- PEER_VALID_LOST (R69) -/
  | peerValidLost
  /-- BANK_OVR_READ (R58) -/
  | bankOvrRead (m : Nat)
  /-- BANK_PEAK_READ (R58) -/
  | bankPeakRead (m : Nat)
  /-- PWR_GOOD_FALL (R52) -/
  | pwrGoodFall (cut : Bool)
  /-- RST_N_ASSERT (R53) -/
  | rstNAssert
  /-- RST_N_RELEASE (R163) -/
  | rstNRelease (sel : Fin 4)
  /-- PMB_ALERT (R49) -/
  | pmbAlert (statusWord vout iout : Nat)
  /-- REG_WRITE (R584) -/
  | regWrite (m a size : Nat) (ws : List (Word × Bool)) (x : Shown)
  /-- HELD_OPS_CLOSED (R88) -/
  | heldOpsClosed (isUnit : Bool) (id : Nat)
  /-- BIT_ALIAS_WRITE (R83) -/
  | bitAliasWrite (m : Nat) (a : Fin 0x1000000) (size : Nat) (ws : List (Word × Bool)) (x : Shown)
  /-- COUNTER64_LOW_READ (R79) -/
  | counter64LowRead (m addr : Nat)
  /-- LOCK_CTL_GO (R84) -/
  | lockCtlGo (m index : Nat)
  /-- LOCK_CTL_GLOBAL (R84) -/
  | lockCtlGlobal (m : Nat) (v : Word)
  /-- PRIV_VF_WRITE (R94) -/
  | privVfWrite (m : Nat) (hi : Bool) (v : Word)
  /-- HOLD_SCAN_READ (R94) -/
  | holdScanRead (m : Nat)
  /-- HOLD_RELEASE_WRITE (R91) -/
  | holdReleaseWrite (m : Nat) (v : Word)
  /-- ACC_LOG_READ (R94) -/
  | accLogRead (m : Nat)
  /-- PAR_LOG_READ (R94) -/
  | parLogRead (m : Nat)
  /-- SCRUB_VISIT (R86) -/
  | scrubVisit (bad : List (Nat × Word)) (slots : List Nat)
  /-- PERST_N_ASSERT (R165) -/
  | perstNAssert
  /-- PCIE_FLR (R135) -/
  | pcieFlr (f : Fin 64)
  /-- PCIE_LINK_DOWN (R211) -/
  | pcieLinkDown
  /-- PCIE_LINK_UP (R211) -/
  | pcieLinkUp (width rate : Nat)
  /-- PCIE_AER_ERROR (R211) -/
  | pcieAerError (status : Word)
  /-- BAR1_ACCESS (R73) -/
  | bar1Access (m a : Nat) (wr : Bool) (n : Nat) (bytes : List Byte) (se ue : List Nat) (die : Nat)
  /-- DB_TAIL_WRITE (R108) -/
  | dbTailWrite (m qid off size v : Nat) (ring : List Byte)
  /-- DB_PUSH (R106) -/
  | dbPush (m qid off : Nat) (bytes : List Byte)
  /-- DB_START (R117) -/
  | dbStart (m qid : Nat)
  /-- DB_STOP (R117) -/
  | dbStop (m qid : Nat)
  /-- DB_RESET (R119) -/
  | dbReset (m qid : Nat)
  /-- QUEUE_DISPATCH (R109) -/
  | queueDispatch
  /-- OPERATION_END (R114) -/
  | operationEnd (tag status : Nat) (body : List Byte)
  /-- REPLY_POST_RESUME (R114) -/
  | replyPostResume (qid n : Nat)
  /-- TAG_WAIT_TIMEOUT (R110) -/
  | tagWaitTimeout (qid : Nat)
  /-- QUEUE_RESET_DONE (R119) -/
  | queueResetDone (qid : Nat) (done : List (Nat × Nat × List Byte))
  /-- HOLDOFF_EXPIRY (R121) -/
  | holdoffExpiry (fn vec : Nat)
  /-- QF_READ (R123) -/
  | qfRead (m qid : Nat)
  /-- QF_CREATE (R98) -/
  | qfCreate (m qid : Nat)
  /-- QF_DESTROY (R123) -/
  | qfDestroy (m qid : Nat)
  /-- QF_RETARGET (R123) -/
  | qfRetarget (m qid : Nat)
  /-- QF_START (R117) -/
  | qfStart (m qid : Nat)
  /-- QF_STOP (R117) -/
  | qfStop (m qid : Nat)
  /-- QF_RESET (R119) -/
  | qfReset (m qid : Nat)
  /-- QF_OP_UNUSED (R122) -/
  | qfOpUnused (m qid : Nat)
  /-- QF_ROLE_READ (R122) -/
  | qfRoleRead (m : Nat)
  /-- OZ_LOCKSTEP_MISMATCH (R128) -/
  | ozLockstepMismatch (pairB : Bool)
  /-- OZ_WATCHDOG_EXPIRY (R128) -/
  | ozWatchdogExpiry (pairB : Bool)
  /-- OZ_PAIR_REJOIN (R128) -/
  | ozPairRejoin (pairB : Bool)
  /-- OZ_SRAM_ECC_ERROR (R130) -/
  | ozSramEccError (pairB double : Bool)
  /-- MB_BOOT_GO (R133) -/
  | mbBootGo (m : Nat) (v : Word)
  /-- MB_BOOT_REOPEN_DONE (R134) -/
  | mbBootReopenDone (f : Nat)
  /-- MB_UNKNOWN_SERVICE (R144) -/
  | mbUnknownService (r : Req) (svc verb : Nat)
  /-- LONG_VERB_COMPLETE (R148) -/
  | longVerbComplete (job : Nat)
  /-- SYS_INFO (R150) -/
  | sysInfo (r : Req)
  /-- SYS_OPEN (R137) -/
  | sysOpen (r : Req)
  /-- SYS_CLOSE (R138) -/
  | sysClose (r : Req)
  /-- SYS_QUEUE_CREATE (R150) -/
  | sysQueueCreate (r : Req)
  /-- SYS_QUEUE_DESTROY (R150) -/
  | sysQueueDestroy (r : Req)
  /-- SYS_PRIV_SET (R150) -/
  | sysPrivSet (r : Req)
  /-- SYS_BANK_SET (R151) -/
  | sysBankSet (r : Req)
  /-- SYS_HOLD_LIST (R150) -/
  | sysHoldList (r : Req)
  /-- SYS_HOLD_RELEASE (R150) -/
  | sysHoldRelease (r : Req)
  /-- SYS_UNIT_QUERY (R150) -/
  | sysUnitQuery (r : Req)
  /-- SYS_UNIT_CMD (R151) -/
  | sysUnitCmd (r : Req)
  /-- SYS_JOB_STATUS (R150) -/
  | sysJobStatus (r : Req)
  /-- SYS_PING (R150) -/
  | sysPing (r : Req)
  /-- LOG_INFO (R152) -/
  | logInfo (r : Req)
  /-- LOG_SUBSCRIBE (R153) -/
  | logSubscribe (r : Req)
  /-- LOG_UNSUBSCRIBE (R152) -/
  | logUnsubscribe (r : Req)
  /-- LOG_READ (R153) -/
  | logRead (r : Req)
  /-- LOG_NVM_READ (R152) -/
  | logNvmRead (r : Req)
  /-- LOG_MARK (R153) -/
  | logMark (r : Req)
  /-- LOG_STATS (R152) -/
  | logStats (r : Req)
  /-- BOOT_HOST_GO (R169) -/
  | bootHostGo (m : Nat) (v : Word) (img : List Byte)
  /-- HBM_TRAIN_DONE (R433) -/
  | hbmTrainDone (spares : List (Nat × Nat)) (failed sizes div : List Nat)
  /-- HBM_SEGMENT_LOAD (R174) -/
  | hbmSegmentLoad (img : List Byte)
  /-- SERVICE_READY (R163) -/
  | serviceReady (quads : List (Fin 24 × Word))
  /-- UPDATE_INFO (R180) -/
  | updateInfo (r : Req)
  /-- UPDATE_BEGIN (R181) -/
  | updateBegin (r : Req)
  /-- UPDATE_WRITE (R181) -/
  | updateWrite (r : Req)
  /-- UPDATE_VERIFY (R181) -/
  | updateVerify (r : Req)
  /-- UPDATE_ACTIVATE (R181) -/
  | updateActivate (r : Req)
  /-- UPDATE_CONFIRM (R181) -/
  | updateConfirm (r : Req)
  /-- UPDATE_ABORT (R180) -/
  | updateAbort (r : Req)
  /-- UPDATE_RESTART (R181) -/
  | updateRestart (r : Req)
  /-- UPDATE_RESTART_RESET (R181) -/
  | updateRestartReset
  /-- UPDATE_SVN_ADVANCE (R181) -/
  | updateSvnAdvance (r : Req)
  /-- UPDATE_KEY_ADD (R180) -/
  | updateKeyAdd (r : Req)
  /-- UPDATE_REVOKE (R181) -/
  | updateRevoke (r : Req)
  /-- ATTEST_INFO (R186) -/
  | attestInfo (r : Req)
  /-- ATTEST_REPORT (R177) -/
  | attestReport (r : Req)
  /-- ATTEST_CERT (R186) -/
  | attestCert (r : Req)
  /-- ATTEST_DEBUG_CHALLENGE (R179) -/
  | attestDebugChallenge (r : Req)
  /-- ATTEST_DEBUG_UNLOCK (R179) -/
  | attestDebugUnlock (r : Req)
  /-- DEBUG_NONCE_EXPIRY (R179) -/
  | debugNonceExpiry
  /-- QUAD_CFG_WRITE (R190) -/
  | quadCfgWrite (m : Nat) (q : Fin 24) (v : Word)
  /-- LNK_MAP_WRITE (R207) -/
  | lnkMapWrite (m : Nat) (n : Fin 8) (v : Word)
  /-- LN_CTL_RETRAIN (R206) -/
  | lnCtlRetrain (m : Nat) (l : Fin 96)
  /-- LN_CTL_FULL (R206) -/
  | lnCtlFull (m : Nat) (l : Fin 96)
  /-- LINK_BLOCK_RX (R202) -/
  | linkBlockRx (l : Fin 96) (far tap act seq : Nat)
  /-- ALIGN_COLUMN_RX (R196) -/
  | alignColumnRx (n : Fin 20) (skew : Nat) (col : List (Nat × Nat × Nat))
  /-- BLOCK_LOCK_LOST (R204) -/
  | blockLockLost (l : Fin 96)
  /-- ELASTIC_OVERFLOW (R193) -/
  | elasticOverflow (l : Fin 96)
  /-- REMOTE_FAULT_RX (R204) -/
  | remoteFaultRx (l : Fin 96)
  /-- REF_LOST (R204) -/
  | refLost (q : Fin 24)
  /-- REF_RETRAIN_TIMER (R204) -/
  | refRetrainTimer (q : Fin 24)
  /-- FAST_RETRAIN_TIMEOUT (R205) -/
  | fastRetrainTimeout (n : Fin 20)
  /-- FULL_TRAIN_TIMEOUT (R205) -/
  | fullTrainTimeout (n : Fin 20)
  /-- LINK_FAIL_RETRY (R205) -/
  | linkFailRetry (n : Fin 20)
  /-- BASTU_PACKET_RX (R199) -/
  | bastuPacketRx (link : Fin 20) (bytes : List Byte)
  /-- ETH_LINK_CHANGE (R209) -/
  | ethLinkChange (n : Fin 8) (up : Bool)
  /-- LNK_STAT_READ (R207) -/
  | lnkStatRead (m : Nat) (n : Fin 20)
  /-- LN_COUNTER_READ (R208) -/
  | lnCounterRead (m : Nat) (l : Fin 96) (which : Fin 4)
  /-- FRAME_START (R228) -/
  | frameStart (link : Fin 8) (src : Fin 16) (crcOk : Bool) (frame width height depth headTime : Nat)
  /-- LINE (R226) -/
  | line (link : Fin 8) (src : Fin 16) (crcOk room : Bool) (frame lineNo col : Nat) (last : Bool) (px : List Nat)
  /-- FRAME_END (R226) -/
  | frameEnd (link : Fin 8) (src : Fin 16) (crcOk : Bool) (frame : Nat)
  /-- META (R229) -/
  | metaPkt (link : Fin 8) (src : Fin 16) (crcOk : Bool) (typ : Nat) (bytes : List Byte)
  /-- REG_RESP (R221) -/
  | regResp (link : Fin 8) (src : Fin 16) (crcOk : Bool) (tid status : Nat) (bytes : List Byte)
  /-- BC_TIMEOUT (R221) -/
  | bcTimeout (link : Fin 8) (tid : Nat)
  /-- LINE_COMMIT (R411) -/
  | lineCommit (seen : Option (List Byte))
  /-- CAM_SKEW_TIMEOUT (R230) -/
  | camSkewTimeout (c : Fin 16)
  /-- CAM_CLOSE_TIMEOUT (R231) -/
  | camCloseTimeout (c : Fin 16)
  /-- CAM_FRAME_TIMEOUT (R231) -/
  | camFrameTimeout (c : Fin 16)
  /-- CAM_ENABLE (R241) -/
  | camEnable (m : Nat) (c : Fin 16) (v : Word)
  /-- CAM_DISABLE (R241) -/
  | camDisable (m : Nat) (c : Fin 16) (v : Word)
  /-- DF_STAT_READ (R240) -/
  | dfStatRead (m : Nat) (link : Fin 8)
  /-- SRC_STAT_READ (R240) -/
  | srcStatRead (m : Nat) (link : Fin 8) (src : Fin 16)
  /-- CAM_FLAGS_READ (R241) -/
  | camFlagsRead (m : Nat) (c : Fin 16) (cnt : Bool)
  /-- INGEST_INFO (R242) -/
  | ingestInfo (r : Req)
  /-- INGEST_LINK_SET (R242) -/
  | ingestLinkSet (r : Req)
  /-- INGEST_LINK_OFF (R242) -/
  | ingestLinkOff (r : Req)
  /-- INGEST_SOURCE_SET (R242) -/
  | ingestSourceSet (r : Req)
  /-- INGEST_CAMERA_SET (R242) -/
  | ingestCameraSet (r : Req)
  /-- INGEST_CAMERA_START (R242) -/
  | ingestCameraStart (r : Req)
  /-- INGEST_CAMERA_STOP (R242) -/
  | ingestCameraStop (r : Req)
  /-- INGEST_FRAME_INFO (R242) -/
  | ingestFrameInfo (r : Req)
  /-- INGEST_HEAD_WRITE (R242) -/
  | ingestHeadWrite (r : Req)
  /-- INGEST_HEAD_READ (R242) -/
  | ingestHeadRead (r : Req)
  /-- INGEST_HEAD_TRIGGER (R222) -/
  | ingestHeadTrigger (r : Req)
  /-- INGEST_STATS (R242) -/
  | ingestStats (r : Req)
  /-- STRIPE_START (R245) -/
  | stripeStart (n : Fin 72)
  /-- STRIPE_END (R281) -/
  | stripeEnd (n : Fin 72)
  /-- TILE_TABLE_UE (R272) -/
  | tileTableUe (n : Fin 72) (colour : Bool)
  /-- PX_COUNTER_READ (R270) -/
  | pxCounterRead (m : Nat) (n : Fin 72) (which : Fin 3)
  /-- PIPE_INFO (R273) -/
  | pipeInfo (r : Req)
  /-- PIPE_SENSOR_SET (R273) -/
  | pipeSensorSet (r : Req)
  /-- PIPE_MOSAIC_SET (R253) -/
  | pipeMosaicSet (r : Req)
  /-- PIPE_DEFECT_LOAD (R256) -/
  | pipeDefectLoad (r : Req)
  /-- PIPE_FLAT_LOAD (R260) -/
  | pipeFlatLoad (r : Req)
  /-- PIPE_SPECTRAL_LOAD (R265) -/
  | pipeSpectralLoad (r : Req)
  /-- PIPE_MATRIX_LOAD (R273) -/
  | pipeMatrixLoad (r : Req)
  /-- PIPE_IR_SET (R266) -/
  | pipeIrSet (r : Req)
  /-- PIPE_COMMIT (R268) -/
  | pipeCommit (r : Req)
  /-- PIPE_DISCARD (R269) -/
  | pipeDiscard (r : Req)
  /-- PIPE_TABLE_INFO (R273) -/
  | pipeTableInfo (r : Req)
  /-- PIPE_TILE_STATS (R273) -/
  | pipeTileStats (r : Req)
  /-- AUTO_CONTROL_RUN (R282) -/
  | autoControlRun (c : Fin 16) (frame : Nat)
  /-- AUTO_LIMIT_TIMEOUT (R282) -/
  | autoLimitTimeout (c : Fin 16)
  /-- LUT_SLOT_UE (R300) -/
  | lutSlotUe (g : Fin 18) (slot : Fin 4)
  /-- CL_COUNTER_READ (R298) -/
  | clCounterRead (m : Nat) (n : Fin 72) (which : Fin 4)
  /-- COLOUR_INFO (R301) -/
  | colourInfo (r : Req)
  /-- COLOUR_OT_SET (R287) -/
  | colourOtSet (r : Req)
  /-- COLOUR_SHAPER_LOAD (R290) -/
  | colourShaperLoad (r : Req)
  /-- COLOUR_LUT_LOAD (R291) -/
  | colourLutLoad (r : Req)
  /-- COLOUR_TNR_SET (R283) -/
  | colourTnrSet (r : Req)
  /-- COLOUR_STAT_SET (R301) -/
  | colourStatSet (r : Req)
  /-- COLOUR_FRAME_SET (R297) -/
  | colourFrameSet (r : Req)
  /-- COLOUR_AUTO_SET (R282) -/
  | colourAutoSet (r : Req)
  /-- COLOUR_STATS (R301) -/
  | colourStats (r : Req)
  /-- COLOUR_QUERY (R301) -/
  | colourQuery (r : Req)
  /-- COLOUR_TILE_STATS (R301) -/
  | colourTileStats (r : Req)
  /-- STRIPE_JOB_DISPATCH (R308) -/
  | stripeJobDispatch (part : Fin 5)
  /-- TILE_FAIL (R314) -/
  | tileFail (n : Fin 72)
  /-- COMPAT_SLOT_WAIT (R315) -/
  | compatSlotWait
  /-- STREAM_FRAME_DONE (R328) -/
  | streamFrameDone (str : Fin 8) (frame : Nat) (hostBad : Bool)
  /-- ALIGN_DEADLINE (R332) -/
  | alignDeadline (g : Fin 4) (ref : Nat)
  /-- POINT_C_VERDICT (R413) -/
  | pointCVerdict (c : Fin 16) (frame : Nat) (m : Fin 16) (lineNo : Nat) (seen : Option (List Byte))
  /-- OUT_COUNTER_READ (R334) -/
  | outCounterRead (m : Nat) (which : Fin 4) (k : Fin 8)
  /-- OUT_INFO (R337) -/
  | outInfo (r : Req)
  /-- OUT_CAMERA_ALLOC (R305) -/
  | outCameraAlloc (r : Req)
  /-- OUT_CAMERA_FREE (R337) -/
  | outCameraFree (r : Req)
  /-- OUT_POOL_SET (R307) -/
  | outPoolSet (r : Req)
  /-- OUT_STREAM_SET (R326) -/
  | outStreamSet (r : Req)
  /-- OUT_STREAM_START (R337) -/
  | outStreamStart (r : Req)
  /-- OUT_STREAM_STOP (R330) -/
  | outStreamStop (r : Req)
  /-- OUT_COEF_LOAD (R321) -/
  | outCoefLoad (r : Req)
  /-- OUT_ALIGN_SET (R331) -/
  | outAlignSet (r : Req)
  /-- OUT_ALIGN_JOIN (R333) -/
  | outAlignJoin (r : Req)
  /-- OUT_COMPAT_SET (R317) -/
  | outCompatSet (r : Req)
  /-- OUT_ROTATE (R313) -/
  | outRotate (r : Req)
  /-- OUT_STREAM_INFO (R337) -/
  | outStreamInfo (r : Req)
  /-- OUT_STATS (R337) -/
  | outStats (r : Req)
  /-- CHUNK_CODE (R353) -/
  | chunkCode (e : Fin 18) (fault : Fin 3)
  /-- SRC_VERDICT (R354) -/
  | srcVerdict (n : Fin 32) (frame row : Nat) (good : Bool)
  /-- SLICE_MOVE (R362) -/
  | sliceMove (n : Fin 32) (slice : Fin 16)
  /-- ENGINE_FAIL (R363) -/
  | engineFail (e : Fin 18) (chunk ue : Bool)
  /-- CODEC_STARVED_TIMEOUT (R366) -/
  | codecStarvedTimeout (n : Fin 32) (slice : Fin 16)
  /-- PS_COUNTER_READ (R369) -/
  | psCounterRead (m : Nat) (n : Fin 18) (ecc : Bool)
  /-- CODEC_INFO (R371) -/
  | codecInfo (r : Req)
  /-- CODEC_STREAM_SET (R372) -/
  | codecStreamSet (r : Req)
  /-- CODEC_STREAM_START (R361) -/
  | codecStreamStart (r : Req)
  /-- CODEC_STREAM_STOP (R371) -/
  | codecStreamStop (r : Req)
  /-- CODEC_STREAM_INFO (R371) -/
  | codecStreamInfo (r : Req)
  /-- CODEC_DECODE (R368) -/
  | codecDecode (r : Req)
  /-- CODEC_CTX_SAVE (R371) -/
  | codecCtxSave (r : Req)
  /-- CODEC_CTX_LOAD (R359) -/
  | codecCtxLoad (r : Req)
  /-- CODEC_MOVE (R362) -/
  | codecMove (r : Req)
  /-- CODEC_KEY (R367) -/
  | codecKey (r : Req)
  /-- CODEC_ENGINE_STATS (R371) -/
  | codecEngineStats (r : Req)
  /-- CMD (R381) -/
  | cmd (n q : Fin 8) (ctag : Nat) (cmdBytes : List Byte)
  /-- XFER_RDY (R379) -/
  | xferRdy (n q : Fin 8) (ctag off len : Nat)
  /-- DATA_OUT (R379) -/
  | dataOut (n q : Fin 8) (ctag off : Nat) (bytes : List Byte)
  /-- DATA_IN (R379) -/
  | dataIn (n q : Fin 8) (ctag off : Nat) (bytes : List Byte)
  /-- RESP (R377) -/
  | resp (n q : Fin 8) (ctag status : Nat)
  /-- QRESET (R388) -/
  | qreset (n q : Fin 8)
  /-- QRESET_DONE (R378) -/
  | qresetDone (n q : Fin 8) (count : Nat)
  /-- CONNECT (R378) -/
  | connect (n : Fin 8) (serial queues : Nat)
  /-- CONNECT_ACK (R375) -/
  | connectAck (n : Fin 8) (queues depth burst : Nat) (page : List Byte)
  /-- PM (R378) -/
  | pm (n : Fin 8) (state : Fin 4)
  /-- PM_ACK (R390) -/
  | pmAck (n : Fin 8) (state : Fin 4) (late : Bool)
  /-- XFER_TIMEOUT (R379) -/
  | xferTimeout (n q : Fin 8) (ctag : Nat)
  /-- PACK_TIMEOUT (R377) -/
  | packTimeout (n : Fin 8)
  /-- MEDIA_RECONNECT (R380) -/
  | mediaReconnect (n : Fin 8)
  /-- IDLE_TIMER_EXPIRY (R390) -/
  | idleTimerExpiry (n : Fin 8) (state : Fin 4)
  /-- HOST_MEDIA_SUBMIT (R384) -/
  | hostMediaSubmit (tag : Nat) (host : List Byte)
  /-- MQ_CQH_WRITE (R404) -/
  | mqCqhWrite (m : Nat) (n : Fin 64) (v : Word)
  /-- AU_WRITE_DONE (R397) -/
  | auWriteDone (clip au : Nat)
  /-- POINT_E_ASSEMBLY (R417) -/
  | pointEAssembly (clip : Nat) (reads : List (Nat × Bool × List Byte))
  /-- FLUSH_TIMER (R397) -/
  | flushTimer
  /-- BURST_FRAME_COPY (R400) -/
  | burstFrameCopy (ring : Nat)
  /-- BURST_DRAIN_DONE (R401) -/
  | burstDrainDone (ring : Nat)
  /-- MP_CNT_READ (R403) -/
  | mpCntRead (m : Nat) (n : Fin 8)
  /-- MEDIA_INFO (R405) -/
  | mediaInfo (r : Req)
  /-- MEDIA_PORT_SET (R374) -/
  | mediaPortSet (r : Req)
  /-- MEDIA_PACK_INFO (R405) -/
  | mediaPackInfo (r : Req)
  /-- MEDIA_CONFIG_SET (R387) -/
  | mediaConfigSet (r : Req)
  /-- MEDIA_QP_CREATE (R383) -/
  | mediaQpCreate (r : Req)
  /-- MEDIA_QP_DELETE (R405) -/
  | mediaQpDelete (r : Req)
  /-- MEDIA_NS_CREATE (R389) -/
  | mediaNsCreate (r : Req)
  /-- MEDIA_NS_DELETE (R405) -/
  | mediaNsDelete (r : Req)
  /-- MEDIA_VOLUME_FORMAT (R392) -/
  | mediaVolumeFormat (r : Req)
  /-- MEDIA_VOLUME_MOUNT (R399) -/
  | mediaVolumeMount (r : Req) (packs : List (Nat × List (Nat × List Byte)))
  /-- MEDIA_VOLUME_UNMOUNT (R405) -/
  | mediaVolumeUnmount (r : Req)
  /-- MEDIA_RECORD_START (R396) -/
  | mediaRecordStart (r : Req)
  /-- MEDIA_RECORD_STOP (R398) -/
  | mediaRecordStop (r : Req)
  /-- MEDIA_CLIP_LIST (R405) -/
  | mediaClipList (r : Req)
  /-- MEDIA_CLIP_INFO (R405) -/
  | mediaClipInfo (r : Req) (head : List Byte)
  /-- MEDIA_CLIP_MAP (R402) -/
  | mediaClipMap (r : Req)
  /-- MEDIA_CLIP_DELETE (R405) -/
  | mediaClipDelete (r : Req)
  /-- MEDIA_BURST_ARM (R400) -/
  | mediaBurstArm (r : Req)
  /-- MEDIA_BURST_TRIGGER (R401) -/
  | mediaBurstTrigger (r : Req)
  /-- MEDIA_BURST_DISARM (R405) -/
  | mediaBurstDisarm (r : Req)
  /-- MEDIA_OFFLOAD (R402) -/
  | mediaOffload (r : Req) (aus : List (List Byte))
  /-- MEDIA_MARK (R405) -/
  | mediaMark (r : Req)
  /-- MEDIA_STATS (R405) -/
  | mediaStats (r : Req)
  /-- SESSION_INFO (R406) -/
  | sessionInfo (r : Req)
  /-- SESSION_SAVE (R406) -/
  | sessionSave (r : Req)
  /-- SESSION_LOAD (R406) -/
  | sessionLoad (r : Req) (regs : List (Nat × Word))
  /-- SESSION_STANDBY (R440) -/
  | sessionStandby (r : Req)
  /-- SESSION_RESUME (R441) -/
  | sessionResume (r : Req)
  /-- CVU_CHECK (R421) -/
  | cvuCheck (n : Fin 8) (tag : Nat) (host : List Byte)
  /-- CVU_ALIVE (R422) -/
  | cvuAlive (n : Fin 8) (tag : Nat)
  /-- ALIVE_TIMEOUT (R422) -/
  | aliveTimeout (n : Fin 8)
  /-- CVU_CTL_WRITE (R424) -/
  | cvuCtlWrite (m : Nat) (n : Fin 8) (v : Word)
  /-- CVU_COUNTER_READ (R424) -/
  | cvuCounterRead (m : Nat) (n : Fin 8) (alive : Bool)
  /-- RC_MISM_READ (R425) -/
  | rcMismRead (m : Nat) (second : Bool)
  /-- RGN_READ (R442) -/
  | rgnRead (m idx : Nat)
  /-- RGN_WRITE (R442) -/
  | rgnWrite (m idx : Nat)
  /-- RGN_CLEAR (R442) -/
  | rgnClear (m idx : Nat)
  /-- RGN_OP_UNUSED (R442) -/
  | rgnOpUnused (m idx : Nat)
  /-- PC_TR_GO (R435) -/
  | pcTrGo (m : Nat) (n : Fin 64) (v : Word) (lanes : Nat)
  /-- HBM_SCRUB_STEP (R437) -/
  | hbmScrubStep (n : Nat) (se ue : List Nat)
  /-- HBM_TEMP_READ (R438) -/
  | hbmTempRead (stack : Fin 2) (t : Int) (fails : Nat)
  /-- PC_COUNTER_READ (R444) -/
  | pcCounterRead (m : Nat) (n : Fin 64) (ecc : Bool)
  /-- SCAN_FRAME_START (R452) -/
  | scanFrameStart
  /-- VB_MAX_EXPIRY (R452) -/
  | vbMaxExpiry
  /-- LAYER_UNDERRUN (R457) -/
  | layerUnderrun (layer : Fin 4) (lineNo : Nat)
  /-- HPD_CHANGE (R450) -/
  | hpdChange (out : Fin 2) (kind : Fin 3) (lost : Bool) (edid dpcd : List Byte)
  /-- HPD_LOW_TIMEOUT (R450) -/
  | hpdLowTimeout (out : Fin 2)
  /-- DP_TRAIN_RETRY (R450) -/
  | dpTrainRetry (out : Fin 2)
  /-- SC_TIM_GO (R456) -/
  | scTimGo (m : Nat) (v : Word)
  /-- FLIP_ENTRY (R460) -/
  | flipEntry (layer : Fin 4)
  /-- SCAN_COUNTER_READ (R463) -/
  | scanCounterRead (m : Nat) (which : Fin 3) (k : Fin 4)
  /-- SCAN_INFO (R465) -/
  | scanInfo (r : Req)
  /-- SCAN_TIMING_SET (R456) -/
  | scanTimingSet (r : Req)
  /-- SCAN_OUTPUT_SET (R453) -/
  | scanOutputSet (r : Req)
  /-- SCAN_BASE_BIND (R459) -/
  | scanBaseBind (r : Req)
  /-- SCAN_LAYER_BIND (R460) -/
  | scanLayerBind (r : Req)
  /-- SCAN_LAYER_UNBIND (R465) -/
  | scanLayerUnbind (r : Req)
  /-- SCAN_LAYER_SET (R455) -/
  | scanLayerSet (r : Req)
  /-- SCAN_PALETTE_SET (R465) -/
  | scanPaletteSet (r : Req)
  /-- SCAN_SINK_INFO (R465) -/
  | scanSinkInfo (r : Req)
  /-- SCAN_STATS (R465) -/
  | scanStats (r : Req)
  /-- AUDIO_BLOCK_DONE (R478) -/
  | audioBlockDone (n : Fin 4) (time : Nat) (frames : List (List Nat)) (cs : List Byte)
  /-- ZC_TIMEOUT (R474) -/
  | zcTimeout (n : Fin 4) (mask : Nat)
  /-- MCLK_LOST (R475) -/
  | mclkLost (n : Fin 4)
  /-- MCLK_RETURN (R475) -/
  | mclkReturn (n : Fin 4) (ppm : Int)
  /-- AUDIO_RATE_CHANGE (R475) -/
  | audioRateChange (n : Fin 4) (aes : Bool) (time : Nat) (frames : List (List Nat))
  /-- FS_GLITCH (R475) -/
  | fsGlitch (n : Fin 4) (run time : Nat) (frames : List (List Nat))
  /-- AES_UNLOCK (R471) -/
  | aesUnlock (n : Fin 4)
  /-- AES_RELOCK (R471) -/
  | aesRelock (n : Fin 4)
  /-- NONAUDIO_DETECT (R472) -/
  | nonaudioDetect (n : Fin 4)
  /-- NONAUDIO_CLEAR (R472) -/
  | nonaudioClear (n : Fin 4)
  /-- AU_CNT_READ (R479) -/
  | auCntRead (m : Nat) (n : Fin 4)
  /-- AUDIO_INFO (R480) -/
  | audioInfo (r : Req)
  /-- AUDIO_PORT_SET (R478) -/
  | audioPortSet (r : Req)
  /-- AUDIO_START (R480) -/
  | audioStart (r : Req)
  /-- AUDIO_STOP (R480) -/
  | audioStop (r : Req)
  /-- AUDIO_MUTE (R474) -/
  | audioMute (r : Req)
  /-- AUDIO_STATUS (R480) -/
  | audioStatus (r : Req)
  /-- AUDIO_STATS (R480) -/
  | audioStats (r : Req)
  /-- D_INC_WRITE (R483) -/
  | dIncWrite (m : Nat) (dom : Fin 2) (v : Word)
  /-- D_SET_GO (R483) -/
  | dSetGo (m : Nat) (dom : Fin 2) (v : Word)
  /-- D_ADJ_GO (R483) -/
  | dAdjGo (m : Nat) (dom : Fin 2) (v : Word)
  /-- TM_SNAP (R484) -/
  | tmSnap (m : Nat) (v : Word)
  /-- TM_SWITCH (R486) -/
  | tmSwitch (m : Nat) (v : Word)
  /-- TM_SWITCH_FORCE (R487) -/
  | tmSwitchForce (m : Nat) (v : Word)
  /-- ETH_FRAME_RX (R489) -/
  | ethFrameRx (port : Fin 8) (bytes : List Byte)
  /-- ETH_LAUNCH (R491) -/
  | ethLaunch (port : Fin 8) (host : List Byte)
  /-- FRAME_EDGE (R492) -/
  | frameEdge
  /-- REF_IN_EDGE (R493) -/
  | refInEdge
  /-- REF_WINDOW_CLOSE (R493) -/
  | refWindowClose
  /-- TIMED_ACTION_FIRE (R497) -/
  | timedActionFire (slot : Fin 64)
  /-- TRIG_OUT_PULSE_END (R497) -/
  | trigOutPulseEnd (pin : Fin 4)
  /-- TRIG_IN_EDGE (R499) -/
  | trigInEdge (input : Fin 4) (rising : Bool)
  /-- TIME_COUNTER_READ (R500) -/
  | timeCounterRead (m : Nat) (which : Fin 4) (k : Fin 8)
  /-- TIME_INFO (R501) -/
  | timeInfo (r : Req)
  /-- TIME_NOW (R501) -/
  | timeNow (r : Req)
  /-- TIME_SELECT (R486) -/
  | timeSelect (r : Req)
  /-- TIME_FRAME_SET (R495) -/
  | timeFrameSet (r : Req)
  /-- TIME_ETH_BIND (R489) -/
  | timeEthBind (r : Req)
  /-- TIME_ETH_UNBIND (R501) -/
  | timeEthUnbind (r : Req)
  /-- TIME_ACTION_ARM (R498) -/
  | timeActionArm (r : Req)
  /-- TIME_ACTION_CANCEL (R501) -/
  | timeActionCancel (r : Req)
  /-- TIME_TRIG_IN_SET (R499) -/
  | timeTrigInSet (r : Req)
  /-- TIME_STATS (R501) -/
  | timeStats (r : Req)
  /-- HEARTBEAT_SEND (R515) -/
  | heartbeatSend
  /-- HEARTBEAT (R515) -/
  | heartbeat (b : Beat)
  /-- HEARTBEAT_TIMEOUT (R516) -/
  | heartbeatTimeout
  /-- TWIN_PRESENT_CHANGE (R516) -/
  | twinPresentChange (level : Bool)
  /-- TWIN_LINK_WAIT_TIMEOUT (R506) -/
  | twinLinkWaitTimeout
  /-- TAKEOVER (R517) -/
  | takeover (packs : List (Nat × List (Nat × List Byte)))
  /-- MIRROR (R512) -/
  | mirror (epoch : Nat) (crcOk : Bool) (mseq : Nat) (link : Fin 8) (inner : List (Nat × Inner))
  /-- MIRROR_CLOSE_TIMEOUT (R513) -/
  | mirrorCloseTimeout
  /-- STATE (R522) -/
  | state (epoch : Nat) (crcOk : Bool) (seg off : Nat) (bytes : List Byte)
  /-- STATE_ACK (R513) -/
  | stateAck (epoch : Nat) (crcOk : Bool) (bytes : Nat)
  /-- CLIPSYNC (R513) -/
  | clipsync (epoch : Nat) (crcOk : Bool) (clip auseq rseq start bytes : Nat) (sha : List Nat)
  /-- HANDOVER_REQ (R521) -/
  | handoverReq (crcOk : Bool) (start : Nat)
  /-- HANDOVER_GO (R521) -/
  | handoverGo (crcOk : Bool) (packs : List (Nat × List (Nat × List Byte)))
  /-- HANDOVER_DONE (R521) -/
  | handoverDone (epoch : Nat) (crcOk : Bool)
  /-- DETACH (R524) -/
  | detach (crcOk : Bool)
  /-- ATTACH_REQ (R522) -/
  | attachReq (crcOk : Bool) (major : Nat)
  /-- ATTACH_REFUSE (R522) -/
  | attachRefuse (crcOk : Bool) (reason : Nat)
  /-- HOT (R522) -/
  | hot (crcOk : Bool)
  /-- TWIN_MSG (R514) -/
  | twinMsg (epoch : Nat) (crcOk : Bool) (bytes : List Byte)
  /-- ATTACH_BASE_FREEZE (R522) -/
  | attachBaseFreeze
  /-- TW_CNT_READ (R532) -/
  | twCntRead (m : Nat)
  /-- SYNC (R529) -/
  | sync (h : CHead) (frame edge send : Nat)
  /-- ACTION (R530) -/
  | action (h : CHead) (block : List Byte)
  /-- CHAIN_MSG (R527) -/
  | chainMsg (h : CHead) (entry : List Byte)
  /-- MEDIA (R531) -/
  | media (h : CHead) (pt : Nat) (q : Fin 8) (ctag p1 : Nat) (bytes : List Byte)
  /-- PROBE (R526) -/
  | probe (h : CHead) (send reply : Nat)
  /-- PROBE_SEND (R526) -/
  | probeSend
  /-- TOPO (R525) -/
  | topo (h : CHead) (serial : Nat)
  /-- CH_CNT_READ (R533) -/
  | chCntRead (m : Nat)
  /-- TWIN_INFO (R534) -/
  | twinInfo (r : Req)
  /-- TWIN_MODE_SET (R510) -/
  | twinModeSet (r : Req)
  /-- TWIN_ATTACH (R522) -/
  | twinAttach (r : Req)
  /-- TWIN_DETACH (R524) -/
  | twinDetach (r : Req)
  /-- TWIN_HANDOVER (R521) -/
  | twinHandover (r : Req)
  /-- TWIN_STATUS (R534) -/
  | twinStatus (r : Req)
  /-- CHAIN_INFO (R535) -/
  | chainInfo (r : Req)
  /-- CHAIN_JOIN (R525) -/
  | chainJoin (r : Req)
  /-- CHAIN_LEAVE (R535) -/
  | chainLeave (r : Req)
  /-- CHAIN_ROUTE_SET (R531) -/
  | chainRouteSet (r : Req)
  /-- CHAIN_ACTION (R530) -/
  | chainAction (r : Req)
  /-- CHAIN_SEND (R535) -/
  | chainSend (r : Req)
  /-- CHAIN_TOPO (R535) -/
  | chainTopo (r : Req)
  /-- THERM_SAMPLE (R538) -/
  | thermSample (raw : List Int) (fails : Nat)
  /-- TH_SAMPLE_WRITE (R541) -/
  | thSampleWrite (m : Nat) (v : Word) (raw : List Int)
  /-- FAST_SCHEDULE_EXIT (R541) -/
  | fastScheduleExit
  /-- RISE_BONUS_END (R542) -/
  | riseBonusEnd
  /-- SELFTEST_DONE (R549) -/
  | selftestDone (u : Nat) (res : List (Nat × Bool × Bool × Nat)) (fails : Nat)
  /-- SELFTEST_RETEST (R551) -/
  | selftestRetest (u : Nat)
  /-- ROLL_TICK (R552) -/
  | rollTick
  /-- EVENT_HANDLING (R557) -/
  | eventHandling (fails : Nat)
  /-- HEALTH_INFO (R563) -/
  | healthInfo (r : Req)
  /-- HEALTH_TEMP (R563) -/
  | healthTemp (r : Req) (raw : List Int)
  /-- HEALTH_THERM_ACK (R544) -/
  | healthThermAck (r : Req)
  /-- HEALTH_SENSOR_CLEAR (R539) -/
  | healthSensorClear (r : Req)
  /-- HEALTH_SELFTEST (R563) -/
  | healthSelftest (r : Req)
  /-- HEALTH_TEST_INFO (R563) -/
  | healthTestInfo (r : Req)
  /-- HEALTH_ROLL_SET (R563) -/
  | healthRollSet (r : Req)
  /-- HEALTH_ROLL_NOW (R563) -/
  | healthRollNow (r : Req)
  /-- HEALTH_UNIT_LIST (R563) -/
  | healthUnitList (r : Req)
  /-- HEALTH_EQ_STATS (R563) -/
  | healthEqStats (r : Req)
  /-- OZ_ECC_READ (R136) -/
  | ozEccRead (m : Nat)
  /-- STANDBY_SELF_REFRESH_REENTRY (R441) -/
  | standbySelfRefreshReentry (stack : Fin 2)
  /-- REF_OK_RETURN (R204) -/
  | refOkReturn (q : Fin 24) (ppm : Int)
  /-- PERST_N_RELEASE (R163) -/
  | perstNRelease
  /-- DP_LINK_TRAINING_DONE (R450) -/
  | dpLinkTrainingDone (out : Fin 2) (ok : Bool)
  /-- MB_UNKNOWN_VERB (R145) -/
  | mbUnknownVerb (r : Req) (svc verb : Nat)
  /-- BLOCK_LOCK_ACQUIRED (R202) -/
  | blockLockAcquired (l : Fin 96)
  deriving DecidableEq, Repr

end Sys2Proof
end

