-- ==== Sys2Proof/Config.lean ====
section
/-! DEFINITION. What the spec leaves to the implementation, to the firmware image or to standards outside it: constants
with NO body, so that no proof can lean on a value of theirs, and fixed choices of the model (each with its log entry). -/
namespace Sys2Proof.Config

/-- A fresh free value for the k-th use (log entry 1): applied to the state's counter of free values. -/
opaque free : Nat → Nat
/-- Whether the device is a YT9400-X (R4, R94 CODE: fixed per device). -/
opaque codeX : Bool
/-- Silicon stepping (R94 STEP: fixed per device). -/
opaque stepping : Nat
/-- The pip table of the running firmware image (R56): pips at 0.72 V of a unit by its index and band; entry 0 is the wake
charge and entry n+1 the charge at ACT_LEVEL n. The image's table is not in the spec (log entry 2). -/
opaque pips : (unit band entry : Nat) → Nat
/-- The pace floor of a unit from the image's floor table and the fused calibration (R30; log entry 2). -/
opaque floor : (unit : Nat) → Nat
/-- The unit an internal DMA master ID 0x080-0x0FF belongs to (R74, R89): the manual gives no assignment (log entry 8). -/
opaque dmaUnit : (master : Nat) → Nat
/-- The die sensor nearest to an asynchronous group (R31): the spec gives no placement (log entry 17). -/
opaque nearestSensor : (group : Nat) → Fin 24
/-- SHA-384 (FIPS 180-4) of a byte string: outside the spec (log entry 3). -/
opaque sha384 : List Byte → List Byte
/-- SHA-512 (FIPS 180-4; log entry 3). -/
opaque sha512 : List Byte → List Byte
/-- Ed25519 verification under RFC 8032: key, message, signature (log entry 3). -/
opaque edVerify : List Byte → List Byte → List Byte → Bool
/-- ML-DSA-65 verification under FIPS 204: key, message, signature (log entry 3). -/
opaque mlVerify : List Byte → List Byte → List Byte → Bool
/-- The device's Ed25519 identity signature over a message (R176, R177; log entry 3). -/
opaque edSign : List Byte → List Byte
/-- The device's ML-DSA-65 identity signature over a message (R176, R177; log entry 3). -/
opaque mlSign : List Byte → List Byte
/-- The certificate store's object n (R176, R186): its DER bytes are not in the spec (log entry 3). -/
opaque certificate : Nat → List Byte
/-- The SHA-384 of the Askotte key of slot 0, by algorithm (0 Ed25519, 1 ML-DSA-65), as fused at production (R175). -/
opaque fusedHash : (alg : Nat) → List Byte
/-- The fused device serial (R175). -/
opaque serial : Nat
/-- Whether a debug token verifies (R179): its MAGIC, serial and nonce, the keys of a slot pair whose fuse hashes are
given, and both signatures. The token's byte layout is not in the spec (log entry 15). -/
opaque debugToken : (token : List Byte) → (serial : Nat) → (nonce : List Byte) → (keys : List (List Byte × List Byte)) → Bool
/-- Where firmware places a request ring or queue ring that lies in HBM, by QID (R133, R150): the spec gives no address
(log entry 11). -/
opaque ringPlace : (qid : Nat) → Nat
/-- Bits of the AON entropy source, the k-th draw (R552, R179; log entry 1). -/
opaque entropy : Nat → Nat
/-- B_k(380 + 5j) of R261 in binary64 (a cosine squared; its last bits depend on the firmware's library; log entry 21). -/
opaque bump64 : (k j : Nat) → Nat
/-- RHO to the power √d2 in binary64 (R265), RHO a binary32 pattern (log entry 21). -/
opaque rhoPow : (rho d2 : Nat) → Nat
/-- The CIE 1931 2° colour-matching functions at 380 + 5j nm, i = 0, 1, 2 for x̄, ȳ, z̄, as binary64: tabulated in ISO/CIE
11664-1, outside the spec (R276; log entry 22). -/
opaque cmf : (i j : Nat) → Nat
/-- The fixed transfer functions of R292 above their linear segments, of a working float, as a working float: they err by at
most 2⁻¹⁴ of full scale and so are not fixed bit for bit (log entry 23): 1 BT.709, 2 BT.2020, 3 PQ, 4 HLG. -/
opaque transfer : (enc x : Nat) → Nat
/-- The quotient of m × 2^e by zero in binary32 or binary64 arithmetic of firmware (none stated; log entry 20). -/
opaque divZero : (m e : Int) → Int
/-- log₂ of a positive binary32, as a binary32 (R290; log entry 23). -/
opaque log2 : Nat → Nat
/-- A_Ck, the predicted reading of a clear pixel, for a set that was loaded directly, whose characterisation is unknown
(R267; log entry 24): component k as a working float. -/
opaque clearRow : Nat → Nat
/-- Coefficient c[φ][t] of the default scaler for ratio r = num/den before the scaling to 16,384 (R321), as a binary64: a
product of sinc functions (log entry 21). -/
opaque lanczos : (num den phase tap : Nat) → Nat

/-- Which match an encoder offers at a group (R348: an encoder may use any match that its rules allow): a number that spells F, V, the
column offset and the length. -/
opaque matchPick : (seed position : Nat) → Nat

/-- Whether the copies of a burst ring, of so many bytes a frame at so many frames per 1,000 s, fit the C1 traffic left (R400, R405
E_MD_RATE): the manual gives no figure (log entry 30). -/
opaque copyFits : (bytes rate : Nat) → Bool
/-- Entry of a shaper or LUT that no verb has loaded (R290, R291: none stated; log entry 24). -/
opaque emptyTable : (entry : Nat) → Nat
/-- Whether a session record that this device has not saved itself loads (R406: the record is opaque; log entry 31). -/
opaque sessionLoads : List Byte → Bool

end Sys2Proof.Config
end

