-- ==== Sys2Proof/Machine/Bits.lean ====
section
/-! DEFINITION. Bit fields of registers, little-endian byte order, signed readings, saturating counts and the
check codes the manual names (CRC-32C, CRC-32, CRC-64/XZ, CRC-16/IBM-3740), each written once. -/
namespace Sys2Proof.Machine

/-- Bits hi:lo of a register, as a number. -/
def getF (w : Word) (hi lo : Nat) : Nat := (w.toNat >>> lo) % 2 ^ (hi + 1 - lo)

/-- The mask of bits hi:lo. -/
def maskF (hi lo : Nat) : Word := BitVec.ofNat 32 ((2 ^ (hi + 1 - lo) - 1) <<< lo)

/-- A register with bits hi:lo set to v (cut to the field's width) and its other bits kept. -/
def setF (w : Word) (hi lo v : Nat) : Word :=
  (w &&& ~~~ maskF hi lo) ||| ((BitVec.ofNat 32 v <<< lo) &&& maskF hi lo)

/-- Bits hi:lo of a number (for 64-bit words and addresses). -/
def bitsN (v hi lo : Nat) : Nat := (v >>> lo) % 2 ^ (hi + 1 - lo)

/-- Saturating addition at a field's maximum. -/
def satAdd (a b max : Nat) : Nat := min (a + b) max

/-- A w-bit number read as two's complement. -/
def sgn (w v : Nat) : Int := if v % 2 ^ w < 2 ^ (w - 1) then (v % 2 ^ w : Int) else (v % 2 ^ w : Int) - 2 ^ w

/-- An integer written as a w-bit two's complement number. -/
def unsgn (w : Nat) (i : Int) : Nat := (i % (2 ^ w : Int)).toNat

/-- n bytes of v, least significant first. -/
def leBytes : Nat → Nat → List Byte
  | 0, _ => []
  | n + 1, v => BitVec.ofNat 8 v :: leBytes n (v / 256)

/-- The number whose bytes, least significant first, are bs. -/
def leNat : List Byte → Nat
  | [] => 0
  | b :: bs => b.toNat + 256 * leNat bs

/-- n bytes of bs from byte off, missing bytes reading 0. -/
def sliceB (bs : List Byte) (off n : Nat) : List Byte :=
  let t := (bs.drop off).take n
  t ++ List.replicate (n - t.length) 0

/-- The little-endian field of n bytes at byte off. -/
def rdLe (bs : List Byte) (off n : Nat) : Nat := leNat (sliceB bs off n)

/-- Exactly n bytes of bs, cut or padded with zero. -/
def fitB (bs : List Byte) (n : Nat) : List Byte := sliceB bs 0 n

/-- One bit step of a reflected CRC. -/
def crcBitR (poly c : Nat) : Nat := if c % 2 = 1 then (c >>> 1) ^^^ poly else c >>> 1

/-- One byte of a reflected CRC. -/
def crcByteR (poly c : Nat) (b : Byte) : Nat :=
  let c := c ^^^ b.toNat
  crcBitR poly (crcBitR poly (crcBitR poly (crcBitR poly (crcBitR poly (crcBitR poly (crcBitR poly (crcBitR poly c)))))))

/-- A reflected CRC over bytes, from the register value c. -/
def crcRunR (poly : Nat) (c : Nat) (bs : List Byte) : Nat := bs.foldl (crcByteR poly) c

/-- CRC-32C (Castagnoli): reflected, initial and final all ones. -/
def crc32c (bs : List Byte) : Nat := crcRunR 0x82F63B78 0xFFFFFFFF bs ^^^ 0xFFFFFFFF

/-- CRC-32 (IEEE 802.3): reflected, initial and final all ones. -/
def crc32 (bs : List Byte) : Nat := crcRunR 0xEDB88320 0xFFFFFFFF bs ^^^ 0xFFFFFFFF

/-- CRC-64/XZ: reflected ECMA-182, initial and final all ones. -/
def crc64 (bs : List Byte) : Nat :=
  crcRunR 0xC96C5795D7870F42 0xFFFFFFFFFFFFFFFF bs ^^^ 0xFFFFFFFFFFFFFFFF

/-- One bit step of CRC-16/IBM-3740 (not reflected). -/
def crc16Bit (c : Nat) : Nat := if c ≥ 0x8000 then ((c * 2) ^^^ 0x1021) % 0x10000 else c * 2

/-- CRC-16/IBM-3740: polynomial 0x1021, initial all ones, no final change. -/
def crc16 (bs : List Byte) : Nat :=
  bs.foldl (fun c b => crc16Bit (crc16Bit (crc16Bit (crc16Bit (crc16Bit (crc16Bit (crc16Bit (crc16Bit
    (c ^^^ (b.toNat * 256)))))))))) 0xFFFF

/-- Division rounded up. -/
def ceilDiv (a b : Nat) : Nat := (a + b - 1) / b

/-- Division rounded to nearest, halves up. -/
def roundDiv (a b : Nat) : Nat := (2 * a + b) / (2 * b)

end Sys2Proof.Machine
end

