-- ==== Sys2Proof/Machine/Assoc.lean ====
section
/-! DEFINITION. Tables keyed by a number, and byte memories, as lists in ONE canonical form: keys strictly rising, and
(for a memory or the register store) no entry equal to what an unlisted key reads as. -/
namespace Sys2Proof.Machine

/-- A table: keys strictly rising. -/
abbrev Tab (α : Type) := List (Nat × α)

/-- The entry at key k. -/
def tget {α : Type} : Tab α → Nat → Option α
  | [], _ => none
  | (j, a) :: t, k => if j = k then some a else tget t k

/-- The table with key k holding a. -/
def tset {α : Type} : Tab α → Nat → α → Tab α
  | [], k, a => [(k, a)]
  | (j, b) :: t, k, a => if k < j then (k, a) :: (j, b) :: t else if k = j then (k, a) :: t else (j, b) :: tset t k a

/-- The table without key k. -/
def tdel {α : Type} : Tab α → Nat → Tab α
  | [], _ => []
  | (j, b) :: t, k => if j = k then tdel t k else (j, b) :: tdel t k

/-- The table with the entry at k, where there is one, changed by f. -/
def tmod {α : Type} (t : Tab α) (k : Nat) (f : α → α) : Tab α :=
  match tget t k with
  | some a => tset t k (f a)
  | none => t

/-- Keys strictly rise. -/
def tsorted {α : Type} : Tab α → Bool
  | [] => true
  | [_] => true
  | a :: b :: t => decide (a.1 < b.1) && tsorted (b :: t)

/-- One byte of a memory whose unlisted bytes read dflt. -/
def mget (dflt : Byte) (m : Tab Byte) (a : Nat) : Byte := (tget m a).getD dflt

/-- A memory with byte b at address a; the default byte is not listed. -/
def mset (dflt : Byte) (m : Tab Byte) (a : Nat) (b : Byte) : Tab Byte :=
  if b = dflt then tdel m a else tset m a b

/-- n bytes from address a. -/
def mread (dflt : Byte) (m : Tab Byte) (a : Nat) : Nat → List Byte
  | 0 => []
  | n + 1 => mget dflt m a :: mread dflt m (a + 1) n

/-- The bytes bs stored from address a. -/
def mwrite (dflt : Byte) (m : Tab Byte) (a : Nat) : List Byte → Tab Byte
  | [] => m
  | b :: bs => mwrite dflt (mset dflt m a b) (a + 1) bs

/-- The memory with every listed byte of [a, b) back at the default. -/
def merase (m : Tab Byte) (a b : Nat) : Tab Byte := m.filter fun c => !(decide (a ≤ c.1) && decide (c.1 < b))

/-- The canonical form of a memory. -/
def mwf (dflt : Byte) (m : Tab Byte) : Bool := tsorted m && m.all fun c => decide (c.2 ≠ dflt)

/-- A register store: a word per key, dflt being what an unlisted key reads as. -/
def rget (dflt : Nat → Word) (m : Tab Word) (k : Nat) : Word := (tget m k).getD (dflt k)

/-- The store with register k holding w; a register at its reset value is not listed. -/
def rput (dflt : Nat → Word) (m : Tab Word) (k : Nat) (w : Word) : Tab Word :=
  if w = dflt k then tdel m k else tset m k w

end Sys2Proof.Machine
end

