-- ==== Sys2Proof/Machine/Units.lean ====
section
/-! DEFINITION. The tree of units (R13 to R15): kinds, indices, parents and members, power domains (R54) and timing.
The spec gives no unit index but the root's and that of the worked example; the numbering is log entry 4. -/
namespace Sys2Proof.Machine

/-- The kinds of unit of R13. -/
inductive Kind where
  | root | lanes | quad | ingest | deframer | pipe | tileGroup | tile | codec | engine | qf | arbiter | cache
  | hbm | stack | mover | media | pack | scan | compositor | outPhy | audio | audioPort | time | pcie | integ | cvu
  | twin | chain | chainPort | ozder | aon | bank | therm | nvm | boot
  deriving DecidableEq, Repr

/-- A run of consecutive indices of one kind (log entry 4): first index, count, kind, parent of member n, and the power
domain of member n (none: unswitched or without logic of its own). -/
structure Run where
  base : Nat
  count : Nat
  kind : Kind
  deriving DecidableEq, Repr

/-- The index runs of the tree (R13, R15; log entry 4). -/
def runs : List Run :=
  [⟨0, 1, .root⟩, ⟨1, 1, .lanes⟩, ⟨2, 1, .ingest⟩, ⟨3, 1, .pipe⟩, ⟨4, 1, .codec⟩, ⟨5, 1, .qf⟩, ⟨6, 1, .hbm⟩, ⟨7, 1, .media⟩,
   ⟨8, 1, .scan⟩, ⟨9, 1, .audio⟩, ⟨10, 1, .time⟩, ⟨11, 1, .pcie⟩, ⟨12, 1, .integ⟩, ⟨13, 1, .twin⟩, ⟨14, 1, .chain⟩,
   ⟨15, 1, .ozder⟩, ⟨16, 1, .aon⟩, ⟨0x011, 24, .quad⟩, ⟨0x029, 8, .deframer⟩, ⟨0x031, 18, .tileGroup⟩, ⟨0x043, 18, .engine⟩,
   ⟨0x055, 4, .arbiter⟩, ⟨0x059, 1, .cache⟩, ⟨0x05A, 2, .stack⟩, ⟨0x05C, 64, .mover⟩, ⟨0x09C, 8, .pack⟩, ⟨0x0A4, 1, .compositor⟩,
   ⟨0x0A5, 4, .outPhy⟩, ⟨0x0A9, 4, .audioPort⟩, ⟨0x0AD, 8, .cvu⟩, ⟨0x0B5, 3, .chainPort⟩, ⟨0x0B8, 1, .bank⟩, ⟨0x0B9, 1, .therm⟩,
   ⟨0x0BA, 1, .nvm⟩, ⟨0x0BB, 1, .boot⟩, ⟨0x289, 72, .tile⟩]

/-- The run that holds unit index u. -/
def runOf (u : Nat) : Option Run := runs.find? fun r => decide (r.base ≤ u) && decide (u < r.base + r.count)

/-- The kind of unit index u; none where the index names no unit (R72). -/
def kindOf (u : Nat) : Option Kind := (runOf u).map (·.kind)

/-- The member number of u within its run. -/
def memberNo (u : Nat) : Nat := u - ((runOf u).map (·.base)).getD 0

/-- Unit indices of members, by number. -/
def uQuad (n : Nat) : Nat := 0x011 + n
def uDeframer (n : Nat) : Nat := 0x029 + n
def uTileGroup (n : Nat) : Nat := 0x031 + n
def uTile (n : Nat) : Nat := 0x289 + n
def uEngine (n : Nat) : Nat := 0x043 + n
def uStack (n : Nat) : Nat := 0x05A + n
def uMover (n : Nat) : Nat := 0x05C + n
def uPack (n : Nat) : Nat := 0x09C + n
def uAudioPort (n : Nat) : Nat := 0x0A9 + n
def uCvu (n : Nat) : Nat := 0x0AD + n
def uChainPort (n : Nat) : Nat := 0x0B5 + n
/-- Unit indices of the top groups and AON units. -/
def uLanes : Nat := 1
def uIngest : Nat := 2
def uPipe : Nat := 3
def uCodec : Nat := 4
def uQf : Nat := 5
def uHbm : Nat := 6
def uMedia : Nat := 7
def uScan : Nat := 8
def uAudio : Nat := 9
def uTime : Nat := 10
def uPcie : Nat := 11
def uInteg : Nat := 12
def uTwin : Nat := 13
def uChain : Nat := 14
def uOzder : Nat := 15
def uAon : Nat := 16
def uCompositor : Nat := 0x0A4
def uBank : Nat := 0x0B8
def uTherm : Nat := 0x0B9
def uNvm : Nat := 0x0BA
def uBoot : Nat := 0x0BB

/-- First member and member count of a unit (R15, UCB_LINK, UCB_ID); count 0 for a leaf. -/
def childrenOf (u : Nat) : Nat × Nat :=
  match kindOf u with
  | some .root => (1, 16)
  | some .lanes => (0x011, 24)
  | some .ingest => (0x029, 8)
  | some .pipe => (0x031, 18)
  | some .codec => (0x043, 18)
  | some .qf => (0x055, 5)
  | some .hbm => (0x05A, 66)
  | some .media => (0x09C, 8)
  | some .scan => (0x0A4, 5)
  | some .audio => (0x0A9, 4)
  | some .integ => (0x0AD, 8)
  | some .chain => (0x0B5, 3)
  | some .aon => (0x0B8, 4)
  | some .tileGroup => (0x289 + 4 * memberNo u, 4)
  | _ => (0, 0)

/-- The members of a unit in ascending index; none for a leaf. -/
def membersOf (u : Nat) : List Nat := (List.range (childrenOf u).2).map ((childrenOf u).1 + ·)

/-- The parent of a unit (UCB_LINK PARENT). -/
def parentOf (u : Nat) : Nat :=
  match kindOf u with
  | some .quad => 1
  | some .deframer => 2
  | some .tileGroup => 3
  | some .engine => 4
  | some .arbiter => 5
  | some .cache => 5
  | some .stack => 6
  | some .mover => 6
  | some .pack => 7
  | some .compositor => 8
  | some .outPhy => 8
  | some .audioPort => 9
  | some .cvu => 12
  | some .chainPort => 14
  | some .bank => 16
  | some .therm => 16
  | some .nvm => 16
  | some .boot => 16
  | some .tile => 0x031 + memberNo u / 4
  | _ => 0

/-- The units above u, nearest first, the root last (at most four: R15). -/
def ancestorsOf (u : Nat) : List Nat :=
  let p := parentOf u
  let q := parentOf p
  let r := parentOf q
  ([p, q, r].filter fun v => decide (v ≠ u)).eraseDups

/-- Whether u is a group (R14). -/
def isGroup (u : Nat) : Bool := decide (0 < (childrenOf u).2)

/-- The power domain of a unit's logic (R54); none for AON units, ozder and groups without logic of their own. -/
def domainOf (u : Nat) : Option Nat :=
  let n := memberNo u
  match kindOf u with
  | some .tileGroup => some n
  | some .tile => some (n / 4)
  | some .engine => some (18 + n / 2)
  | some .deframer => some (27 + n)
  | some .mover => some (35 + n / 8)
  | some .stack => some (43 + n)
  | some .pack => some (45 + n / 2)
  | some .arbiter => some (49 + n)
  | some .cache => some 53
  | some .compositor => some 54
  | some .outPhy => some 54
  | some .cvu => some (55 + n / 4)
  | some .twin => some 57
  | some .chainPort => some 58
  | some .pcie => some 59
  | some .audioPort => some 60
  | some .time => some 61
  | some .quad => some (if n < 8 then 62 else 63)
  | _ => none

/-- Every unit index, ascending. -/
def allUnits : List Nat := List.range 0x0BC ++ (List.range 72).map (0x289 + ·)

/-- Units that lie on unswitched supplies (R581). -/
def isAon (u : Nat) : Bool :=
  match kindOf u with
  | some .ozder | some .aon | some .bank | some .therm | some .nvm | some .boot => true
  | _ => false

/-- Whether a unit has a state of its own: every leaf, and a tile group's own logic (R54). -/
def hasLogic (u : Nat) : Bool := (domainOf u).isSome || isAon u

/-- Asynchronous leaf units (R13, timing "handshake"). -/
def isAsyncLeaf (u : Nat) : Bool :=
  match kindOf u with
  | some .deframer | some .tile | some .engine | some .arbiter | some .cache | some .mover | some .pack | some .cvu
  | some .twin | some .chainPort | some .compositor => true
  | _ => false

/-- Asynchronous units: leaves, and groups with an asynchronous member (R29). -/
def isAsync (u : Nat) : Bool :=
  isAsyncLeaf u ||
  match kindOf u with
  | some .root | some .ingest | some .pipe | some .tileGroup | some .codec | some .qf | some .hbm | some .media
  | some .scan | some .integ | some .chain => true
  | _ => false

/-- Units on the C0 path by their place (R38): the deframers and the twin port; tiles and movers by their work class. -/
def unitsInDomain (dm : Nat) : List Nat := allUnits.filter fun u => decide (domainOf u = some dm)

/-- The units with logic of their own within u and its members at every depth, ascending (R14). -/
def subtree (u : Nat) : List Nat := allUnits.filter fun v => decide (v = u) || (ancestorsOf v).contains u

end Sys2Proof.Machine
end

