-- ==== Sys2Proof/Machine/RegMap.lean ====
section
/-! DEFINITION. The register map: every register the manual's tables give (R16, R58, R94, R105, R122, R136, R170, R207, R208,
R240, R241, R270, R271, R298, R299, R334 to R336, R369, R370, R403, R404, R424, R425, R442 to R444, R463, R464, R479,
R500, R532, R533, R561, R562), with the place, the type and the reset value of every field. -/
namespace Sys2Proof.Machine

/-- Register field types (00_scope, Registers). -/
inductive FTy where
  | rw | ro | w1c | wo | woo
  deriving DecidableEq, Repr

/-- A field's row: bits hi:lo, type, PRIV, LK, CFG, reset value (0 where the spec says fixed, fused, strap or "—":
log entry 5 says where those values come from). -/
structure FRow where
  hi : Nat
  lo : Nat
  ty : FTy
  priv : Bool
  lk : Bool
  cfg : Bool
  reset : Nat
  deriving DecidableEq, Repr

/-- The window a register lies in: the global registers, the UCB of every unit, or the window of one kind of unit. -/
inductive Win where
  | glob | ucb | unit (k : Kind)
  deriving DecidableEq, Repr

/-- A register's row: window, offset within it, instance stride and count, fields. -/
structure RRow where
  win : Win
  off : Nat
  stride : Nat
  count : Nat
  fields : List FRow
  deriving DecidableEq, Repr

/-- The registers, by the manual's names. -/
inductive Reg where
  | ucbId | ucbLink | ucbState | ucbEpoch | ucbGen | ucbPip | ucbEvent | ucbPace | ucbPaceMin | ucbCtx | bankCeil
  | bankReserve | bankEff | bankUse | bankVolt | bankVscale | bankCtl | bankStatus | bankPeer | bankOvr | bankPeak
  | bankDom | devId | whoAmI | lockCtl | holdSel | holdScan | holdStatus | holdInfo | holdRelease | accLog | accAddr
  | parCtl | parLog | privVfLo | privVfHi | qfCmd | qfWeight | qfTags | qfCache | qfHoldoff | qfRole | qfData
  | ozStatus | ozFwver | ozEcc | mbBootCtl | mbBootQid | mbBootEpoch | mbBootLo | mbBootHi | bootStatus | bootBanks
  | fuseSvn | fuseKeys | bootHostCtl | devSerialLo | devSerialHi | bootHostLo | bootHostHi | lnkMap | lnkStat
  | quadCfg | quadStatus | lnTx | lnRx | lnStatus | lnFill | lnCtl | lnEth | dfCtl | dfStat | dfDelay | dfPktsLo
  | dfPktsHi | srcCfg | srcGeom | srcPos | srcStat | camCfg | camSize | camFill | camTimeout | camStride | camSlot
  | camFrame | camRows | camFlags | camCnt | camBaseLo | camBaseHi | pxStripe | pxCols | pxFrame | pxGen | pxDef
  | pxSat | pxEcc | pipeGen | clParam | clExp | clTnr | clClip | clEcc | lutStat | colPset | outCam | outPool
  | outDisp | outPart | strCfg | strDecim | strBufq | strRowb | strFrame | strCnt | strCrop0 | strCrop1 | strSize
  | algCfg | algLate | algFrame | algUnm | cptCfg | cptSlot | cptSw | psBind | psLoad | psCnt | psEcc | cst | mpStat
  | mpIdle | mpCnt | mpBytesLo | mpBytesHi | mdCfg | mqCqh | cvuCtl | cvuStat | cvuLastLo | cvuLastHi | cvuAlive
  | rcMism0 | rcMism1 | rcGringLo | rcGringHi | hbmLayout | hbmMyrgn | hbmState | hbmScrub | hbmWeight | rgnCmd
  | rgnData0 | rgnData1 | rgnData2 | hsStat | hsBytesLo | hsBytesHi | pcStat | pcEcc | pcUeAddr | pcTrCtl | pcTrRes
  | scCtl | scTimVb | scPclk | scTimGo | scBg | scTimH | scTimV | scTimHs | scTimVs | scStat | scFrame | scCnt
  | scPal | opStat | lyCtl | lyPos | lySize | lyBufLo | lyBufHi | lyOwner | lyCnt | auCfg | auMask | auBlk | auBlkf
  | auStat | auCnt | tmCtl | tmOfs | dIncNs | dIncFrac | dAdj | dSetSlo | dSetShi | dSetNs | dSnapSlo | dSnapShi
  | dSnapNs | devSnapLo | devSnapHi | ftCtl | ftRate | ftPhase | ftStat | ftCnt | ftFrame | tiCtl | tiCnt | taArmedLo
  | taArmedHi | taCnt | ethCnt | twStat | twHb | twCnt | twSkew | twMpktsLo | twMpktsHi | twPeerLo | twPeerHi
  | chNode | chBudget | chCnt | chRoute | cpStat | thCtl | thStat | thRate | thFault | ts | nvStat | nvSeq
  deriving DecidableEq, Repr

/-- Each register's row, from the table of the rule named. -/
def Reg.row : Reg → RRow
  | .ucbId => ⟨.ucb, 0x0, 4, 1, [
      ⟨31, 24, .ro, false, false, false, 0⟩, ⟨23, 21, .ro, false, false, false, 0⟩,
      ⟨20, 20, .ro, false, false, false, 0⟩, ⟨19, 12, .ro, false, false, false, 0⟩,
      ⟨11, 0, .ro, false, false, false, 0⟩]⟩
  | .ucbLink => ⟨.ucb, 0x4, 4, 1, [⟨27, 16, .ro, false, false, false, 0⟩, ⟨11, 0, .ro, false, false, false, 0⟩]⟩
  | .ucbState => ⟨.ucb, 0x8, 4, 1, [
      ⟨31, 28, .wo, true, false, false, 0⟩, ⟨27, 27, .ro, false, false, false, 0⟩,
      ⟨26, 26, .ro, false, false, false, 0⟩, ⟨25, 25, .ro, false, false, false, 0⟩,
      ⟨9, 8, .ro, false, false, false, 0⟩, ⟨7, 4, .ro, false, false, false, 0⟩, ⟨3, 0, .ro, false, false, false, 0⟩]⟩
  | .ucbEpoch => ⟨.ucb, 0xC, 4, 1, [⟨31, 16, .ro, false, false, false, 0⟩, ⟨15, 0, .ro, false, false, false, 0⟩]⟩
  | .ucbGen => ⟨.ucb, 0x10, 4, 1, [⟨31, 16, .ro, false, false, false, 0⟩, ⟨15, 0, .ro, false, false, false, 0⟩]⟩
  | .ucbPip => ⟨.ucb, 0x14, 4, 1, [
      ⟨27, 16, .ro, false, false, false, 0⟩, ⟨15, 15, .ro, false, false, false, 0⟩,
      ⟨14, 12, .rw, true, false, false, 0⟩, ⟨11, 0, .ro, false, false, false, 0⟩]⟩
  | .ucbEvent => ⟨.ucb, 0x18, 4, 1, [⟨31, 24, .ro, false, false, false, 0⟩, ⟨15, 0, .ro, false, false, false, 0⟩]⟩
  | .ucbPace => ⟨.ucb, 0x1C, 4, 1, [⟨31, 16, .rw, true, true, true, 0⟩, ⟨15, 0, .ro, false, false, false, 0⟩]⟩
  | .ucbPaceMin => ⟨.ucb, 0x20, 4, 1, [
      ⟨31, 16, .ro, false, false, false, 0⟩, ⟨15, 0, .ro, false, false, false, 0xFFFF⟩]⟩
  | .ucbCtx => ⟨.ucb, 0x24, 4, 1, [⟨15, 8, .ro, false, false, false, 0⟩, ⟨7, 0, .ro, false, false, false, 0⟩]⟩
  | .bankCeil => ⟨.unit .bank, 0x40, 4, 1, [⟨11, 0, .rw, true, false, true, 0x960⟩]⟩
  | .bankReserve => ⟨.unit .bank, 0x44, 4, 1, [⟨11, 0, .rw, true, false, true, 0x140⟩]⟩
  | .bankEff => ⟨.unit .bank, 0x48, 4, 1, [
      ⟨27, 16, .ro, false, false, false, 0x960⟩, ⟨2, 0, .ro, false, false, false, 0⟩]⟩
  | .bankUse => ⟨.unit .bank, 0x4C, 4, 1, [
      ⟨27, 16, .ro, false, false, false, 0⟩, ⟨11, 0, .ro, false, false, false, 0⟩]⟩
  | .bankVolt => ⟨.unit .bank, 0x50, 4, 1, [
      ⟨31, 31, .wo, true, false, false, 0⟩, ⟨30, 30, .ro, false, false, false, 0⟩,
      ⟨29, 29, .ro, false, false, false, 0⟩, ⟨25, 16, .rw, true, false, false, 0x2D0⟩,
      ⟨9, 0, .ro, false, false, false, 0x2D0⟩]⟩
  | .bankVscale => ⟨.unit .bank, 0x54, 4, 1, [⟨10, 0, .ro, false, false, false, 0x400⟩]⟩
  | .bankCtl => ⟨.unit .bank, 0x58, 4, 1, [⟨1, 1, .rw, true, false, true, 0⟩, ⟨0, 0, .rw, true, false, true, 0x1⟩]⟩
  | .bankStatus => ⟨.unit .bank, 0x5C, 4, 1, [
      ⟨31, 31, .ro, false, false, false, 0⟩, ⟨30, 30, .ro, false, false, false, 0⟩,
      ⟨29, 29, .ro, false, false, false, 0⟩, ⟨26, 24, .ro, false, false, false, 0⟩,
      ⟨11, 0, .ro, false, false, false, 0⟩]⟩
  | .bankPeer => ⟨.unit .bank, 0x60, 4, 1, [
      ⟨27, 16, .ro, false, false, false, 0⟩, ⟨11, 0, .ro, false, false, false, 0⟩]⟩
  | .bankOvr => ⟨.unit .bank, 0x64, 4, 1, [
      ⟨31, 24, .ro, false, false, false, 0⟩, ⟨21, 16, .ro, false, false, false, 0⟩,
      ⟨11, 0, .ro, false, false, false, 0⟩]⟩
  | .bankPeak => ⟨.unit .bank, 0x68, 4, 1, [⟨11, 0, .ro, false, false, false, 0⟩]⟩
  | .bankDom => ⟨.unit .bank, 0x100, 4, 64, [
      ⟨31, 31, .ro, false, false, false, 0⟩, ⟨30, 30, .ro, false, false, false, 0⟩,
      ⟨27, 16, .ro, false, false, false, 0⟩, ⟨11, 0, .ro, false, false, false, 0⟩]⟩
  | .devId => ⟨.glob, 0x0, 4, 1, [
      ⟨31, 16, .ro, false, false, false, 0x9400⟩, ⟨15, 8, .ro, false, false, false, 0⟩,
      ⟨7, 0, .ro, false, false, false, 0⟩]⟩
  | .whoAmI => ⟨.glob, 0x4, 4, 1, [
      ⟨31, 31, .ro, false, false, false, 0⟩, ⟨30, 30, .ro, false, false, false, 0⟩,
      ⟨29, 29, .ro, false, false, false, 0⟩, ⟨9, 0, .ro, false, false, false, 0⟩]⟩
  | .lockCtl => ⟨.glob, 0x20, 4, 1, [
      ⟨31, 31, .wo, true, false, false, 0⟩, ⟨30, 30, .woo, true, false, false, 0⟩,
      ⟨29, 29, .ro, false, false, false, 0⟩, ⟨11, 0, .rw, true, false, false, 0⟩]⟩
  | .holdSel => ⟨.glob, 0x40, 4, 1, [
      ⟨31, 31, .rw, true, false, false, 0⟩, ⟨30, 30, .rw, true, false, false, 0x1⟩,
      ⟨28, 26, .ro, false, false, false, 0⟩, ⟨11, 0, .rw, true, false, false, 0⟩]⟩
  | .holdScan => ⟨.glob, 0x44, 4, 1, [
      ⟨31, 31, .ro, false, false, false, 0⟩, ⟨30, 30, .ro, false, false, false, 0⟩,
      ⟨11, 0, .ro, false, false, false, 0⟩]⟩
  | .holdStatus => ⟨.glob, 0x48, 4, 1, [
      ⟨31, 31, .ro, true, false, false, 0⟩, ⟨30, 27, .ro, true, false, false, 0⟩,
      ⟨26, 16, .ro, true, false, false, 0⟩, ⟨15, 0, .ro, true, false, false, 0⟩]⟩
  | .holdInfo => ⟨.glob, 0x4C, 4, 1, [⟨31, 0, .ro, true, false, false, 0⟩]⟩
  | .holdRelease => ⟨.glob, 0x50, 4, 1, [
      ⟨31, 31, .wo, true, false, false, 0⟩, ⟨27, 16, .wo, true, false, false, 0⟩,
      ⟨15, 0, .wo, true, false, false, 0⟩]⟩
  | .accLog => ⟨.glob, 0x60, 4, 1, [
      ⟨31, 28, .ro, false, false, false, 0⟩, ⟨25, 16, .ro, false, false, false, 0⟩,
      ⟨7, 0, .ro, false, false, false, 0⟩]⟩
  | .accAddr => ⟨.glob, 0x64, 4, 1, [⟨27, 0, .ro, false, false, false, 0⟩]⟩
  | .parCtl => ⟨.glob, 0x70, 4, 1, [⟨31, 31, .rw, true, true, true, 0x1⟩, ⟨7, 0, .rw, true, true, true, 0xA⟩]⟩
  | .parLog => ⟨.glob, 0x74, 4, 1, [
      ⟨31, 28, .ro, false, false, false, 0⟩, ⟨27, 16, .ro, false, false, false, 0⟩,
      ⟨11, 0, .ro, false, false, false, 0⟩]⟩
  | .privVfLo => ⟨.glob, 0x10, 4, 1, [⟨31, 1, .rw, true, true, true, 0⟩]⟩
  | .privVfHi => ⟨.glob, 0x14, 4, 1, [⟨31, 0, .rw, true, true, true, 0⟩]⟩
  | .qfCmd => ⟨.unit .qf, 0x40, 4, 1, [
      ⟨31, 31, .wo, true, false, false, 0⟩, ⟨30, 30, .ro, false, false, false, 0⟩,
      ⟨29, 27, .ro, false, false, false, 0⟩, ⟨26, 24, .rw, true, false, false, 0⟩,
      ⟨19, 0, .rw, true, false, false, 0⟩]⟩
  | .qfWeight => ⟨.unit .qf, 0x64, 4, 1, [
      ⟨23, 16, .rw, true, true, true, 0x1⟩, ⟨15, 8, .rw, true, true, true, 0x4⟩, ⟨7, 0, .rw, true, true, true, 0x8⟩]⟩
  | .qfTags => ⟨.unit .qf, 0x68, 4, 1, [
      ⟨31, 17, .ro, false, false, false, 0x4000⟩, ⟨16, 0, .ro, false, false, false, 0x1C000⟩]⟩
  | .qfCache => ⟨.unit .qf, 0x6C, 4, 1, [⟨27, 16, .ro, false, false, false, 0⟩, ⟨14, 0, .ro, false, false, false, 0⟩]⟩
  | .qfHoldoff => ⟨.unit .qf, 0x70, 4, 1, [⟨7, 0, .rw, true, false, true, 0⟩]⟩
  | .qfRole => ⟨.unit .qf, 0x74, 4, 1, [⟨15, 0, .ro, false, false, false, 0⟩]⟩
  | .qfData => ⟨.unit .qf, 0x44, 4, 8, [⟨31, 0, .rw, true, false, false, 0⟩]⟩
  | .ozStatus => ⟨.unit .ozder, 0x40, 4, 1, [
      ⟨31, 31, .ro, false, false, false, 0⟩, ⟨30, 30, .ro, false, false, false, 0x1⟩,
      ⟨29, 28, .ro, false, false, false, 0⟩, ⟨27, 26, .ro, false, false, false, 0⟩,
      ⟨3, 0, .ro, false, false, false, 0⟩]⟩
  | .ozFwver => ⟨.unit .ozder, 0x44, 4, 1, [
      ⟨31, 24, .ro, false, false, false, 0⟩, ⟨23, 16, .ro, false, false, false, 0⟩,
      ⟨15, 0, .ro, false, false, false, 0⟩]⟩
  | .ozEcc => ⟨.unit .ozder, 0x48, 4, 1, [⟨31, 16, .ro, false, false, false, 0⟩, ⟨15, 0, .ro, false, false, false, 0⟩]⟩
  | .mbBootCtl => ⟨.unit .ozder, 0x88, 4, 1, [
      ⟨31, 31, .wo, false, false, false, 0⟩, ⟨30, 30, .ro, false, false, false, 0⟩,
      ⟨29, 29, .ro, false, false, false, 0⟩, ⟨26, 16, .rw, false, false, false, 0⟩,
      ⟨10, 0, .rw, false, false, false, 0⟩]⟩
  | .mbBootQid => ⟨.unit .ozder, 0x8C, 4, 1, [⟨19, 0, .ro, false, false, false, 0⟩]⟩
  | .mbBootEpoch => ⟨.unit .ozder, 0x90, 4, 1, [⟨15, 0, .ro, false, false, false, 0⟩]⟩
  | .mbBootLo => ⟨.unit .ozder, 0x80, 4, 1, [⟨31, 0, .rw, false, false, false, 0⟩]⟩
  | .mbBootHi => ⟨.unit .ozder, 0x84, 4, 1, [⟨31, 0, .rw, false, false, false, 0⟩]⟩
  | .bootStatus => ⟨.unit .boot, 0x40, 4, 1, [
      ⟨31, 30, .ro, false, false, false, 0x3⟩, ⟨29, 28, .ro, false, false, false, 0⟩,
      ⟨27, 27, .ro, false, false, false, 0⟩, ⟨26, 26, .ro, false, false, false, 0⟩,
      ⟨19, 16, .ro, false, false, false, 0⟩, ⟨15, 0, .ro, false, false, false, 0⟩]⟩
  | .bootBanks => ⟨.unit .boot, 0x44, 4, 1, [
      ⟨15, 14, .ro, false, false, false, 0⟩, ⟨13, 12, .ro, false, false, false, 0⟩,
      ⟨11, 8, .ro, false, false, false, 0⟩, ⟨7, 0, .ro, false, false, false, 0⟩]⟩
  | .fuseSvn => ⟨.unit .boot, 0x48, 4, 1, [⟨6, 0, .ro, false, false, false, 0⟩]⟩
  | .fuseKeys => ⟨.unit .boot, 0x4C, 4, 1, [
      ⟨15, 12, .ro, false, false, false, 0⟩, ⟨11, 8, .ro, false, false, false, 0⟩,
      ⟨7, 4, .ro, false, false, false, 0⟩, ⟨3, 0, .ro, false, false, false, 0⟩]⟩
  | .bootHostCtl => ⟨.unit .boot, 0x60, 4, 1, [
      ⟨31, 31, .wo, true, false, false, 0⟩, ⟨30, 30, .ro, false, false, false, 0⟩,
      ⟨29, 29, .ro, false, false, false, 0⟩, ⟨28, 28, .ro, false, false, false, 0⟩,
      ⟨15, 0, .rw, true, false, false, 0⟩]⟩
  | .devSerialLo => ⟨.unit .boot, 0x50, 4, 1, [⟨31, 0, .ro, false, false, false, 0⟩]⟩
  | .devSerialHi => ⟨.unit .boot, 0x54, 4, 1, [⟨31, 0, .ro, false, false, false, 0⟩]⟩
  | .bootHostLo => ⟨.unit .boot, 0x58, 4, 1, [⟨31, 0, .rw, true, false, false, 0⟩]⟩
  | .bootHostHi => ⟨.unit .boot, 0x5C, 4, 1, [⟨31, 0, .rw, true, false, false, 0⟩]⟩
  | .lnkMap => ⟨.unit .lanes, 0x40, 4, 8, [
      ⟨31, 31, .rw, true, false, true, 0⟩, ⟨11, 8, .rw, true, false, true, 0x1⟩, ⟨4, 0, .rw, true, false, true, 0⟩]⟩
  | .lnkStat => ⟨.unit .lanes, 0x80, 4, 20, [
      ⟨31, 29, .ro, false, false, false, 0⟩, ⟨28, 24, .ro, false, false, false, 0⟩,
      ⟨23, 16, .ro, false, false, false, 0⟩, ⟨15, 0, .ro, false, false, false, 0⟩]⟩
  | .quadCfg => ⟨.unit .quad, 0x40, 4, 1, [
      ⟨31, 28, .rw, true, false, false, 0⟩, ⟨27, 24, .rw, true, false, true, 0⟩, ⟨23, 20, .rw, true, false, true, 0⟩,
      ⟨19, 16, .rw, true, false, false, 0⟩, ⟨15, 14, .rw, true, false, true, 0⟩]⟩
  | .quadStatus => ⟨.unit .quad, 0x44, 4, 1, [
      ⟨31, 31, .ro, false, false, false, 0⟩, ⟨30, 30, .ro, false, false, false, 0⟩,
      ⟨15, 0, .ro, false, false, false, 0⟩]⟩
  | .lnTx => ⟨.unit .quad, 0x80, 32, 4, [
      ⟨31, 31, .rw, true, false, false, 0⟩, ⟨30, 30, .rw, true, false, true, 0⟩,
      ⟨23, 20, .rw, true, false, false, 0xA⟩, ⟨19, 13, .ro, false, false, false, 0x38⟩,
      ⟨12, 8, .rw, true, false, false, 0x8⟩, ⟨3, 0, .rw, true, false, false, 0⟩]⟩
  | .lnRx => ⟨.unit .quad, 0x84, 32, 4, [
      ⟨31, 31, .rw, true, false, true, 0⟩, ⟨30, 30, .rw, true, false, true, 0⟩, ⟨29, 28, .rw, true, false, false, 0⟩,
      ⟨12, 8, .ro, false, false, false, 0⟩, ⟨7, 0, .ro, false, false, false, 0⟩]⟩
  | .lnStatus => ⟨.unit .quad, 0x88, 32, 4, [
      ⟨31, 29, .ro, false, false, false, 0⟩, ⟨28, 28, .ro, false, false, false, 0⟩,
      ⟨27, 27, .ro, false, false, false, 0⟩, ⟨15, 0, .ro, false, false, false, 0⟩]⟩
  | .lnFill => ⟨.unit .quad, 0x8C, 32, 4, [
      ⟨31, 24, .ro, false, false, false, 0⟩, ⟨23, 16, .ro, false, false, false, 0⟩,
      ⟨15, 0, .ro, false, false, false, 0⟩]⟩
  | .lnCtl => ⟨.unit .quad, 0x90, 32, 4, [
      ⟨31, 31, .wo, true, false, false, 0⟩, ⟨30, 30, .wo, true, false, false, 0⟩,
      ⟨29, 28, .rw, true, false, false, 0⟩, ⟨15, 0, .ro, false, false, false, 0⟩]⟩
  | .lnEth => ⟨.unit .quad, 0x94, 32, 4, [⟨31, 16, .ro, false, false, false, 0⟩, ⟨15, 0, .ro, false, false, false, 0⟩]⟩
  | .dfCtl => ⟨.unit .deframer, 0x40, 4, 1, [
      ⟨31, 31, .rw, true, false, true, 0⟩, ⟨30, 30, .rw, true, false, true, 0⟩,
      ⟨23, 16, .rw, true, false, true, 0xA⟩]⟩
  | .dfStat => ⟨.unit .deframer, 0x44, 4, 1, [
      ⟨31, 16, .ro, false, false, false, 0⟩, ⟨15, 0, .ro, false, false, false, 0⟩]⟩
  | .dfDelay => ⟨.unit .deframer, 0x48, 4, 1, [⟨15, 0, .ro, false, false, false, 0⟩]⟩
  | .dfPktsLo => ⟨.unit .deframer, 0x50, 4, 1, [⟨31, 0, .ro, false, false, false, 0⟩]⟩
  | .dfPktsHi => ⟨.unit .deframer, 0x54, 4, 1, [⟨31, 0, .ro, false, false, false, 0⟩]⟩
  | .srcCfg => ⟨.unit .deframer, 0x80, 16, 16, [
      ⟨31, 31, .rw, true, false, true, 0⟩, ⟨30, 30, .rw, true, false, true, 0⟩, ⟨29, 29, .rw, true, false, true, 0⟩,
      ⟨28, 27, .rw, true, false, true, 0x1⟩, ⟨23, 20, .rw, true, false, true, 0⟩,
      ⟨19, 16, .rw, true, false, true, 0⟩]⟩
  | .srcGeom => ⟨.unit .deframer, 0x84, 16, 16, [
      ⟨31, 16, .rw, true, false, true, 0x1000⟩, ⟨15, 0, .rw, true, false, true, 0x800⟩]⟩
  | .srcPos => ⟨.unit .deframer, 0x88, 16, 16, [
      ⟨31, 16, .rw, true, false, true, 0⟩, ⟨15, 0, .rw, true, false, true, 0⟩]⟩
  | .srcStat => ⟨.unit .deframer, 0x8C, 16, 16, [
      ⟨31, 16, .ro, false, false, false, 0⟩, ⟨15, 0, .ro, false, false, false, 0⟩]⟩
  | .camCfg => ⟨.unit .ingest, 0x40, 64, 16, [
      ⟨31, 31, .rw, true, false, true, 0⟩, ⟨30, 30, .ro, false, false, false, 0⟩,
      ⟨29, 29, .rw, true, false, true, 0⟩, ⟨28, 27, .rw, true, false, true, 0x1⟩,
      ⟨26, 22, .rw, true, false, true, 0x1⟩, ⟨15, 8, .rw, true, false, true, 0x4⟩, ⟨7, 0, .rw, true, false, true, 0⟩]⟩
  | .camSize => ⟨.unit .ingest, 0x44, 64, 16, [
      ⟨31, 16, .rw, true, false, true, 0x1000⟩, ⟨15, 0, .rw, true, false, true, 0x800⟩]⟩
  | .camFill => ⟨.unit .ingest, 0x48, 64, 16, [
      ⟨31, 16, .rw, true, false, true, 0⟩, ⟨15, 8, .rw, true, false, true, 0x14⟩,
      ⟨7, 0, .rw, true, false, true, 0x14⟩]⟩
  | .camTimeout => ⟨.unit .ingest, 0x4C, 64, 16, [⟨15, 0, .rw, true, false, true, 0x3E8⟩]⟩
  | .camStride => ⟨.unit .ingest, 0x58, 64, 16, [⟨19, 0, .rw, true, false, true, 0x1800⟩]⟩
  | .camSlot => ⟨.unit .ingest, 0x5C, 64, 16, [⟨19, 0, .rw, true, false, true, 0⟩]⟩
  | .camFrame => ⟨.unit .ingest, 0x60, 64, 16, [⟨31, 0, .ro, false, false, false, 0xFFFFFFFF⟩]⟩
  | .camRows => ⟨.unit .ingest, 0x64, 64, 16, [
      ⟨31, 24, .ro, false, false, false, 0⟩, ⟨23, 0, .ro, false, false, false, 0⟩]⟩
  | .camFlags => ⟨.unit .ingest, 0x68, 64, 16, [⟨31, 0, .ro, false, false, false, 0⟩]⟩
  | .camCnt => ⟨.unit .ingest, 0x6C, 64, 16, [
      ⟨31, 16, .ro, false, false, false, 0⟩, ⟨15, 0, .ro, false, false, false, 0⟩]⟩
  | .camBaseLo => ⟨.unit .ingest, 0x50, 64, 16, [⟨31, 0, .rw, true, false, true, 0⟩]⟩
  | .camBaseHi => ⟨.unit .ingest, 0x54, 64, 16, [⟨31, 0, .rw, true, false, true, 0⟩]⟩
  | .pxStripe => ⟨.unit .tile, 0x40, 4, 1, [
      ⟨31, 31, .ro, false, false, false, 0⟩, ⟨27, 24, .ro, false, false, false, 0⟩,
      ⟨23, 12, .ro, false, false, false, 0⟩]⟩
  | .pxCols => ⟨.unit .tile, 0x44, 4, 1, [⟨31, 16, .ro, false, false, false, 0⟩, ⟨10, 0, .ro, false, false, false, 0⟩]⟩
  | .pxFrame => ⟨.unit .tile, 0x48, 4, 1, [⟨31, 0, .ro, false, false, false, 0xFFFFFFFF⟩]⟩
  | .pxGen => ⟨.unit .tile, 0x4C, 4, 1, [
      ⟨31, 16, .ro, false, false, false, 0⟩, ⟨15, 15, .ro, false, false, false, 0⟩,
      ⟨10, 8, .ro, false, false, false, 0⟩]⟩
  | .pxDef => ⟨.unit .tile, 0x50, 4, 1, [⟨31, 16, .ro, false, false, false, 0⟩, ⟨15, 0, .ro, false, false, false, 0⟩]⟩
  | .pxSat => ⟨.unit .tile, 0x54, 4, 1, [⟨31, 0, .ro, false, false, false, 0⟩]⟩
  | .pxEcc => ⟨.unit .tile, 0x58, 4, 1, [
      ⟨31, 24, .ro, false, false, false, 0⟩, ⟨15, 8, .ro, false, false, false, 0⟩,
      ⟨7, 0, .ro, false, false, false, 0⟩]⟩
  | .pipeGen => ⟨.unit .pipe, 0x40, 4, 16, [
      ⟨31, 16, .ro, false, false, false, 0⟩, ⟨15, 0, .ro, false, false, false, 0⟩]⟩
  | .clParam => ⟨.unit .tile, 0x80, 4, 1, [
      ⟨31, 16, .ro, false, false, false, 0⟩, ⟨15, 12, .ro, false, false, false, 0⟩,
      ⟨9, 9, .ro, false, false, false, 0⟩, ⟨8, 8, .ro, false, false, false, 0⟩, ⟨0, 0, .ro, false, false, false, 0⟩]⟩
  | .clExp => ⟨.unit .tile, 0x84, 4, 1, [⟨23, 0, .ro, false, false, false, 0x3F8000⟩]⟩
  | .clTnr => ⟨.unit .tile, 0x88, 4, 1, [⟨31, 16, .ro, false, false, false, 0⟩, ⟨15, 0, .ro, false, false, false, 0⟩]⟩
  | .clClip => ⟨.unit .tile, 0x8C, 4, 1, [⟨31, 16, .ro, false, false, false, 0⟩, ⟨15, 0, .ro, false, false, false, 0⟩]⟩
  | .clEcc => ⟨.unit .tile, 0x90, 4, 1, [⟨15, 8, .ro, false, false, false, 0⟩, ⟨7, 0, .ro, false, false, false, 0⟩]⟩
  | .lutStat => ⟨.unit .tileGroup, 0x40, 4, 1, [
      ⟨31, 28, .ro, false, false, false, 0⟩, ⟨27, 24, .ro, false, false, false, 0⟩,
      ⟨15, 8, .ro, false, false, false, 0⟩, ⟨7, 0, .ro, false, false, false, 0⟩]⟩
  | .colPset => ⟨.unit .pipe, 0x80, 4, 16, [⟨31, 0, .ro, false, false, false, 0xFFFFFFFF⟩]⟩
  | .outCam => ⟨.unit .pipe, 0x100, 4, 16, [
      ⟨31, 30, .ro, false, false, false, 0⟩, ⟨29, 23, .ro, false, false, false, 0⟩,
      ⟨22, 16, .ro, false, false, false, 0⟩, ⟨12, 11, .ro, false, false, false, 0⟩,
      ⟨10, 0, .ro, false, false, false, 0⟩]⟩
  | .outPool => ⟨.unit .pipe, 0x140, 4, 1, [
      ⟨31, 24, .ro, false, false, false, 0⟩, ⟨23, 16, .ro, false, false, false, 0⟩,
      ⟨15, 8, .ro, false, false, false, 0⟩, ⟨7, 0, .ro, false, false, false, 0⟩]⟩
  | .outDisp => ⟨.unit .pipe, 0x144, 4, 1, [
      ⟨31, 16, .ro, false, false, false, 0⟩, ⟨15, 8, .ro, false, false, false, 0⟩,
      ⟨7, 0, .ro, false, false, false, 0⟩]⟩
  | .outPart => ⟨.unit .pipe, 0x150, 4, 4, [⟨17, 0, .ro, false, false, false, 0⟩]⟩
  | .strCfg => ⟨.unit .pipe, 0x200, 64, 8, [
      ⟨31, 31, .ro, false, false, false, 0⟩, ⟨30, 28, .ro, false, false, false, 0⟩,
      ⟨27, 26, .ro, false, false, false, 0⟩, ⟨25, 24, .ro, false, false, false, 0x2⟩,
      ⟨23, 20, .ro, false, false, false, 0⟩, ⟨19, 18, .ro, false, false, false, 0⟩,
      ⟨17, 17, .ro, false, false, false, 0⟩, ⟨16, 16, .ro, false, false, false, 0⟩,
      ⟨15, 15, .ro, false, false, false, 0⟩, ⟨14, 14, .ro, false, false, false, 0⟩,
      ⟨13, 13, .ro, false, false, false, 0⟩, ⟨3, 2, .ro, false, false, false, 0⟩,
      ⟨1, 0, .ro, false, false, false, 0⟩]⟩
  | .strDecim => ⟨.unit .pipe, 0x210, 64, 8, [
      ⟨15, 8, .ro, false, false, false, 0x1⟩, ⟨7, 0, .ro, false, false, false, 0⟩]⟩
  | .strBufq => ⟨.unit .pipe, 0x214, 64, 8, [⟨19, 0, .ro, false, false, false, 0⟩]⟩
  | .strRowb => ⟨.unit .pipe, 0x218, 64, 8, [⟨31, 0, .ro, false, false, false, 0⟩]⟩
  | .strFrame => ⟨.unit .pipe, 0x21C, 64, 8, [⟨31, 0, .ro, false, false, false, 0xFFFFFFFF⟩]⟩
  | .strCnt => ⟨.unit .pipe, 0x220, 64, 8, [
      ⟨31, 24, .ro, false, false, false, 0⟩, ⟨23, 16, .ro, false, false, false, 0⟩,
      ⟨15, 8, .ro, false, false, false, 0⟩]⟩
  | .strCrop0 => ⟨.unit .pipe, 0x204, 64, 8, [
      ⟨31, 16, .ro, false, false, false, 0⟩, ⟨15, 0, .ro, false, false, false, 0⟩]⟩
  | .strCrop1 => ⟨.unit .pipe, 0x208, 64, 8, [
      ⟨31, 16, .ro, false, false, false, 0⟩, ⟨15, 0, .ro, false, false, false, 0⟩]⟩
  | .strSize => ⟨.unit .pipe, 0x20C, 64, 8, [
      ⟨31, 16, .ro, false, false, false, 0⟩, ⟨15, 0, .ro, false, false, false, 0⟩]⟩
  | .algCfg => ⟨.unit .pipe, 0x400, 16, 4, [
      ⟨31, 31, .ro, false, false, false, 0⟩, ⟨27, 24, .ro, false, false, false, 0⟩,
      ⟨23, 16, .ro, false, false, false, 0⟩, ⟨15, 8, .ro, false, false, false, 0x8⟩,
      ⟨7, 0, .ro, false, false, false, 0x64⟩]⟩
  | .algLate => ⟨.unit .pipe, 0x404, 16, 4, [⟨31, 0, .ro, false, false, false, 0⟩]⟩
  | .algFrame => ⟨.unit .pipe, 0x408, 16, 4, [⟨31, 0, .ro, false, false, false, 0xFFFFFFFF⟩]⟩
  | .algUnm => ⟨.unit .pipe, 0x40C, 16, 4, [⟨31, 0, .ro, false, false, false, 0⟩]⟩
  | .cptCfg => ⟨.unit .pipe, 0x440, 4, 1, [
      ⟨31, 30, .ro, false, false, false, 0⟩, ⟨29, 12, .ro, false, false, false, 0⟩,
      ⟨11, 8, .ro, false, false, false, 0⟩]⟩
  | .cptSlot => ⟨.unit .pipe, 0x444, 4, 2, [⟨31, 0, .ro, false, false, false, 0⟩]⟩
  | .cptSw => ⟨.unit .pipe, 0x44C, 4, 1, [⟨31, 16, .ro, false, false, false, 0⟩, ⟨15, 0, .ro, false, false, false, 0⟩]⟩
  | .psBind => ⟨.unit .engine, 0x40, 4, 1, [
      ⟨31, 30, .ro, false, false, false, 0⟩, ⟨20, 16, .ro, false, false, false, 0⟩,
      ⟨10, 6, .ro, false, false, false, 0⟩, ⟨3, 0, .ro, false, false, false, 0⟩]⟩
  | .psLoad => ⟨.unit .engine, 0x44, 4, 1, [⟨15, 0, .ro, false, false, false, 0⟩]⟩
  | .psCnt => ⟨.unit .engine, 0x48, 4, 1, [
      ⟨31, 16, .ro, false, false, false, 0⟩, ⟨15, 8, .ro, false, false, false, 0⟩,
      ⟨7, 0, .ro, false, false, false, 0⟩]⟩
  | .psEcc => ⟨.unit .engine, 0x4C, 4, 1, [⟨15, 8, .ro, false, false, false, 0⟩, ⟨7, 0, .ro, false, false, false, 0⟩]⟩
  | .cst => ⟨.unit .codec, 0x40, 4, 32, [
      ⟨31, 31, .ro, false, false, false, 0⟩, ⟨30, 29, .ro, false, false, false, 0⟩,
      ⟨28, 25, .ro, false, false, false, 0⟩, ⟨24, 21, .ro, false, false, false, 0⟩,
      ⟨20, 20, .ro, false, false, false, 0⟩, ⟨19, 0, .ro, false, false, false, 0⟩]⟩
  | .mpStat => ⟨.unit .pack, 0x40, 4, 1, [
      ⟨31, 29, .ro, false, false, false, 0⟩, ⟨28, 27, .ro, false, false, false, 0⟩,
      ⟨26, 25, .ro, false, false, false, 0⟩, ⟨15, 0, .ro, false, false, false, 0⟩]⟩
  | .mpIdle => ⟨.unit .pack, 0x44, 4, 1, [
      ⟨31, 24, .ro, false, false, false, 0xA⟩, ⟨23, 16, .ro, false, false, false, 0xA⟩,
      ⟨15, 0, .ro, false, false, false, 0x64⟩]⟩
  | .mpCnt => ⟨.unit .pack, 0x48, 4, 1, [
      ⟨31, 24, .ro, false, false, false, 0⟩, ⟨23, 16, .ro, false, false, false, 0⟩,
      ⟨15, 0, .ro, false, false, false, 0⟩]⟩
  | .mpBytesLo => ⟨.unit .pack, 0x50, 4, 1, [⟨31, 0, .ro, false, false, false, 0⟩]⟩
  | .mpBytesHi => ⟨.unit .pack, 0x54, 4, 1, [⟨31, 0, .ro, false, false, false, 0⟩]⟩
  | .mdCfg => ⟨.unit .media, 0x40, 4, 1, [
      ⟨31, 31, .ro, false, false, false, 0⟩, ⟨23, 16, .ro, false, false, false, 0⟩,
      ⟨15, 8, .ro, false, false, false, 0⟩, ⟨7, 0, .ro, false, false, false, 0⟩]⟩
  | .mqCqh => ⟨.unit .media, 0x100, 4, 64, [⟨15, 0, .rw, true, false, false, 0⟩]⟩
  | .cvuCtl => ⟨.unit .cvu, 0x40, 4, 1, [
      ⟨31, 31, .rw, true, false, true, 0x1⟩, ⟨30, 30, .rw, true, false, true, 0⟩,
      ⟨29, 29, .rw, true, false, true, 0⟩, ⟨15, 0, .rw, true, false, true, 0⟩]⟩
  | .cvuStat => ⟨.unit .cvu, 0x44, 4, 1, [
      ⟨31, 16, .ro, false, false, false, 0⟩, ⟨15, 4, .ro, false, false, false, 0⟩,
      ⟨3, 0, .ro, false, false, false, 0⟩]⟩
  | .cvuLastLo => ⟨.unit .cvu, 0x48, 4, 1, [⟨31, 0, .ro, false, false, false, 0⟩]⟩
  | .cvuLastHi => ⟨.unit .cvu, 0x4C, 4, 1, [⟨31, 0, .ro, false, false, false, 0⟩]⟩
  | .cvuAlive => ⟨.unit .cvu, 0x50, 4, 1, [
      ⟨31, 16, .ro, false, false, false, 0⟩, ⟨15, 8, .ro, false, false, false, 0⟩,
      ⟨7, 0, .ro, false, false, false, 0⟩]⟩
  | .rcMism0 => ⟨.unit .integ, 0x40, 4, 1, [
      ⟨31, 24, .ro, false, false, false, 0⟩, ⟨23, 16, .ro, false, false, false, 0⟩,
      ⟨15, 8, .ro, false, false, false, 0⟩, ⟨7, 0, .ro, false, false, false, 0⟩]⟩
  | .rcMism1 => ⟨.unit .integ, 0x44, 4, 1, [
      ⟨31, 24, .ro, false, false, false, 0⟩, ⟨23, 16, .ro, false, false, false, 0⟩]⟩
  | .rcGringLo => ⟨.unit .integ, 0x48, 4, 1, [⟨31, 0, .ro, false, false, false, 0⟩]⟩
  | .rcGringHi => ⟨.unit .integ, 0x4C, 4, 1, [⟨31, 0, .ro, false, false, false, 0⟩]⟩
  | .hbmLayout => ⟨.unit .hbm, 0x40, 4, 8, [
      ⟨31, 16, .ro, false, false, false, 0⟩, ⟨15, 0, .ro, false, false, false, 0⟩]⟩
  | .hbmMyrgn => ⟨.unit .hbm, 0x60, 4, 1, [
      ⟨31, 16, .ro, false, false, false, 0⟩, ⟨15, 0, .ro, false, false, false, 0⟩]⟩
  | .hbmState => ⟨.unit .hbm, 0x64, 4, 1, [
      ⟨31, 30, .ro, false, false, false, 0⟩, ⟨29, 28, .ro, false, false, false, 0x3⟩,
      ⟨27, 27, .ro, false, false, false, 0⟩, ⟨26, 26, .ro, false, false, false, 0⟩,
      ⟨25, 25, .ro, false, false, false, 0⟩]⟩
  | .hbmScrub => ⟨.unit .hbm, 0x68, 4, 1, [
      ⟨31, 31, .rw, true, true, true, 0x1⟩, ⟨23, 16, .ro, false, false, false, 0⟩,
      ⟨15, 0, .rw, true, true, true, 0x18⟩]⟩
  | .hbmWeight => ⟨.unit .hbm, 0x6C, 4, 1, [
      ⟨23, 16, .rw, true, true, true, 0x1⟩, ⟨15, 8, .rw, true, true, true, 0x4⟩, ⟨7, 0, .rw, true, true, true, 0x8⟩]⟩
  | .rgnCmd => ⟨.unit .hbm, 0x80, 4, 1, [
      ⟨31, 31, .wo, true, false, false, 0⟩, ⟨30, 30, .ro, false, false, false, 0⟩,
      ⟨29, 28, .ro, false, false, false, 0⟩, ⟨27, 26, .rw, true, false, false, 0⟩,
      ⟨8, 0, .rw, true, false, false, 0⟩]⟩
  | .rgnData0 => ⟨.unit .hbm, 0x84, 4, 1, [
      ⟨31, 31, .rw, true, false, false, 0⟩, ⟨30, 30, .rw, true, false, false, 0⟩,
      ⟨29, 29, .rw, true, false, false, 0⟩, ⟨28, 28, .rw, true, false, false, 0⟩,
      ⟨23, 0, .rw, true, false, false, 0⟩]⟩
  | .rgnData1 => ⟨.unit .hbm, 0x88, 4, 1, [⟨23, 0, .rw, true, false, false, 0⟩]⟩
  | .rgnData2 => ⟨.unit .hbm, 0x8C, 4, 1, [⟨25, 16, .rw, true, false, false, 0⟩, ⟨9, 0, .rw, true, false, false, 0⟩]⟩
  | .hsStat => ⟨.unit .stack, 0x40, 4, 1, [
      ⟨31, 30, .ro, false, false, false, 0⟩, ⟨29, 29, .ro, false, false, false, 0⟩,
      ⟨23, 16, .ro, false, false, false, 0⟩]⟩
  | .hsBytesLo => ⟨.unit .stack, 0x50, 8, 4, [⟨31, 0, .ro, false, false, false, 0⟩]⟩
  | .hsBytesHi => ⟨.unit .stack, 0x54, 8, 4, [⟨31, 0, .ro, false, false, false, 0⟩]⟩
  | .pcStat => ⟨.unit .mover, 0x40, 4, 1, [
      ⟨31, 31, .ro, false, false, false, 0⟩, ⟨30, 29, .ro, false, false, false, 0⟩,
      ⟨15, 0, .ro, false, false, false, 0⟩]⟩
  | .pcEcc => ⟨.unit .mover, 0x44, 4, 1, [
      ⟨31, 16, .ro, false, false, false, 0⟩, ⟨15, 8, .ro, false, false, false, 0⟩,
      ⟨7, 0, .ro, false, false, false, 0⟩]⟩
  | .pcUeAddr => ⟨.unit .mover, 0x48, 4, 1, [⟨30, 0, .ro, false, false, false, 0⟩]⟩
  | .pcTrCtl => ⟨.unit .mover, 0x4C, 4, 1, [
      ⟨31, 31, .wo, true, false, false, 0⟩, ⟨30, 30, .ro, false, false, false, 0⟩,
      ⟨29, 28, .rw, true, false, false, 0⟩, ⟨27, 26, .rw, true, false, false, 0⟩,
      ⟨25, 21, .rw, true, false, false, 0xA⟩, ⟨7, 0, .rw, true, false, false, 0x80⟩]⟩
  | .pcTrRes => ⟨.unit .mover, 0x50, 4, 1, [⟨31, 0, .ro, false, false, false, 0⟩]⟩
  | .scCtl => ⟨.unit .scan, 0x40, 4, 1, [
      ⟨31, 28, .ro, false, false, false, 0⟩, ⟨27, 27, .rw, true, false, true, 0⟩,
      ⟨26, 26, .rw, true, false, true, 0x1⟩, ⟨25, 24, .rw, true, false, true, 0x2⟩]⟩
  | .scTimVb => ⟨.unit .scan, 0x58, 4, 1, [
      ⟨31, 16, .ro, false, false, false, 0x5A⟩, ⟨15, 0, .rw, true, false, true, 0x5A⟩]⟩
  | .scPclk => ⟨.unit .scan, 0x5C, 4, 1, [
      ⟨31, 31, .rw, true, false, true, 0⟩, ⟨19, 0, .rw, true, false, true, 0x91050⟩]⟩
  | .scTimGo => ⟨.unit .scan, 0x60, 4, 1, [
      ⟨31, 31, .wo, true, false, false, 0⟩, ⟨30, 30, .ro, false, false, false, 0⟩]⟩
  | .scBg => ⟨.unit .scan, 0x44, 4, 1, [⟨29, 0, .rw, true, false, false, 0⟩]⟩
  | .scTimH => ⟨.unit .scan, 0x48, 4, 1, [
      ⟨31, 16, .rw, true, false, true, 0x1130⟩, ⟨15, 0, .rw, true, false, true, 0xF00⟩]⟩
  | .scTimV => ⟨.unit .scan, 0x50, 4, 1, [
      ⟨31, 16, .rw, true, false, true, 0x5A⟩, ⟨15, 0, .rw, true, false, true, 0x870⟩]⟩
  | .scTimHs => ⟨.unit .scan, 0x4C, 4, 1, [
      ⟨31, 31, .rw, true, false, true, 0x1⟩, ⟨27, 16, .rw, true, false, true, 0xB0⟩,
      ⟨11, 0, .rw, true, false, true, 0x58⟩]⟩
  | .scTimVs => ⟨.unit .scan, 0x54, 4, 1, [
      ⟨31, 31, .rw, true, false, true, 0x1⟩, ⟨27, 16, .rw, true, false, true, 0x8⟩,
      ⟨11, 0, .rw, true, false, true, 0xA⟩]⟩
  | .scStat => ⟨.unit .scan, 0x64, 4, 1, [⟨31, 30, .ro, false, false, false, 0⟩, ⟨15, 0, .ro, false, false, false, 0⟩]⟩
  | .scFrame => ⟨.unit .scan, 0x68, 4, 1, [⟨31, 0, .ro, false, false, false, 0⟩]⟩
  | .scCnt => ⟨.unit .scan, 0x6C, 4, 1, [
      ⟨31, 24, .ro, false, false, false, 0⟩, ⟨23, 16, .ro, false, false, false, 0⟩,
      ⟨15, 8, .ro, false, false, false, 0⟩]⟩
  | .scPal => ⟨.unit .scan, 0x180, 4, 3, [⟨31, 0, .rw, true, false, false, 0⟩]⟩
  | .opStat => ⟨.unit .scan, 0x1A0, 4, 4, [
      ⟨31, 29, .ro, false, false, false, 0⟩, ⟨28, 28, .ro, false, false, false, 0⟩,
      ⟨27, 24, .ro, false, false, false, 0⟩, ⟨23, 20, .ro, false, false, false, 0⟩,
      ⟨7, 0, .ro, false, false, false, 0⟩]⟩
  | .lyCtl => ⟨.unit .scan, 0x100, 32, 4, [
      ⟨31, 31, .rw, true, false, false, 0⟩, ⟨30, 30, .ro, false, false, false, 0⟩,
      ⟨29, 28, .ro, false, false, false, 0⟩, ⟨27, 20, .rw, true, false, false, 0xFF⟩,
      ⟨19, 0, .ro, false, false, false, 0⟩]⟩
  | .lyPos => ⟨.unit .scan, 0x104, 32, 4, [⟨31, 16, .rw, true, false, false, 0⟩, ⟨15, 0, .rw, true, false, false, 0⟩]⟩
  | .lySize => ⟨.unit .scan, 0x108, 32, 4, [
      ⟨31, 16, .ro, false, false, false, 0⟩, ⟨15, 0, .ro, false, false, false, 0⟩]⟩
  | .lyBufLo => ⟨.unit .scan, 0x10C, 32, 4, [⟨31, 0, .ro, false, false, false, 0⟩]⟩
  | .lyBufHi => ⟨.unit .scan, 0x110, 32, 4, [⟨31, 0, .ro, false, false, false, 0⟩]⟩
  | .lyOwner => ⟨.unit .scan, 0x114, 32, 4, [⟨9, 0, .ro, false, false, false, 0⟩]⟩
  | .lyCnt => ⟨.unit .scan, 0x118, 32, 4, [
      ⟨31, 16, .ro, false, false, false, 0⟩, ⟨15, 8, .ro, false, false, false, 0⟩,
      ⟨7, 0, .ro, false, false, false, 0⟩]⟩
  | .auCfg => ⟨.unit .audioPort, 0x40, 4, 1, [
      ⟨31, 29, .ro, false, false, false, 0⟩, ⟨28, 27, .ro, false, false, false, 0⟩,
      ⟨26, 26, .ro, false, false, false, 0⟩, ⟨25, 25, .ro, false, false, false, 0⟩,
      ⟨24, 24, .ro, false, false, false, 0⟩, ⟨23, 23, .ro, false, false, false, 0⟩,
      ⟨22, 20, .ro, false, false, false, 0x2⟩, ⟨19, 17, .ro, false, false, false, 0x1⟩,
      ⟨16, 15, .ro, false, false, false, 0x1⟩, ⟨14, 11, .ro, false, false, false, 0x1⟩,
      ⟨7, 0, .ro, false, false, false, 0xA⟩]⟩
  | .auMask => ⟨.unit .audioPort, 0x44, 4, 1, [
      ⟨31, 16, .ro, false, false, false, 0⟩, ⟨15, 0, .ro, false, false, false, 0x3⟩]⟩
  | .auBlk => ⟨.unit .audioPort, 0x48, 4, 1, [⟨19, 0, .ro, false, false, false, 0⟩]⟩
  | .auBlkf => ⟨.unit .audioPort, 0x4C, 4, 1, [⟨12, 0, .ro, false, false, false, 0x200⟩]⟩
  | .auStat => ⟨.unit .audioPort, 0x50, 4, 1, [
      ⟨31, 31, .ro, false, false, false, 0⟩, ⟨30, 30, .ro, false, false, false, 0⟩,
      ⟨29, 29, .ro, false, false, false, 0⟩, ⟨15, 0, .ro, false, false, false, 0⟩]⟩
  | .auCnt => ⟨.unit .audioPort, 0x54, 4, 1, [
      ⟨31, 24, .ro, false, false, false, 0⟩, ⟨23, 16, .ro, false, false, false, 0⟩,
      ⟨15, 8, .ro, false, false, false, 0⟩, ⟨7, 0, .ro, false, false, false, 0⟩]⟩
  | .tmCtl => ⟨.unit .time, 0x40, 4, 1, [
      ⟨31, 31, .wo, true, false, false, 0⟩, ⟨30, 30, .wo, true, false, false, 0⟩,
      ⟨29, 29, .wo, true, false, false, 0⟩, ⟨28, 28, .ro, false, false, false, 0⟩,
      ⟨15, 0, .rw, true, false, true, 0x64⟩]⟩
  | .tmOfs => ⟨.unit .time, 0x44, 4, 1, [⟨31, 0, .ro, false, false, false, 0⟩]⟩
  | .dIncNs => ⟨.unit .time, 0x80, 64, 2, [⟨3, 0, .rw, true, false, false, 0x4⟩]⟩
  | .dIncFrac => ⟨.unit .time, 0x84, 64, 2, [⟨31, 0, .rw, true, false, false, 0⟩]⟩
  | .dAdj => ⟨.unit .time, 0x88, 64, 2, [⟨31, 31, .wo, true, false, false, 0⟩, ⟨29, 0, .rw, true, false, false, 0⟩]⟩
  | .dSetSlo => ⟨.unit .time, 0x8C, 64, 2, [⟨31, 0, .rw, true, false, false, 0⟩]⟩
  | .dSetShi => ⟨.unit .time, 0x90, 64, 2, [⟨31, 31, .wo, true, false, false, 0⟩, ⟨15, 0, .rw, true, false, false, 0⟩]⟩
  | .dSetNs => ⟨.unit .time, 0x94, 64, 2, [⟨29, 0, .rw, true, false, false, 0⟩]⟩
  | .dSnapSlo => ⟨.unit .time, 0x98, 64, 2, [⟨31, 0, .ro, false, false, false, 0⟩]⟩
  | .dSnapShi => ⟨.unit .time, 0x9C, 64, 2, [
      ⟨31, 16, .ro, false, false, false, 0⟩, ⟨15, 0, .ro, false, false, false, 0⟩]⟩
  | .dSnapNs => ⟨.unit .time, 0xA0, 64, 2, [⟨29, 0, .ro, false, false, false, 0⟩]⟩
  | .devSnapLo => ⟨.unit .time, 0x100, 4, 1, [⟨31, 0, .ro, false, false, false, 0⟩]⟩
  | .devSnapHi => ⟨.unit .time, 0x104, 4, 1, [⟨31, 0, .ro, false, false, false, 0⟩]⟩
  | .ftCtl => ⟨.unit .time, 0x110, 4, 1, [
      ⟨31, 31, .rw, true, false, true, 0⟩, ⟨30, 30, .rw, true, false, true, 0⟩, ⟨29, 29, .rw, true, false, true, 0⟩,
      ⟨14, 0, .rw, true, false, true, 0x465⟩]⟩
  | .ftRate => ⟨.unit .time, 0x114, 4, 1, [
      ⟨31, 16, .rw, true, false, true, 0x19⟩, ⟨15, 0, .rw, true, false, true, 0x1⟩]⟩
  | .ftPhase => ⟨.unit .time, 0x118, 4, 1, [⟨31, 0, .rw, true, false, true, 0⟩]⟩
  | .ftStat => ⟨.unit .time, 0x11C, 4, 1, [
      ⟨31, 30, .ro, false, false, false, 0⟩, ⟨23, 16, .ro, false, false, false, 0⟩,
      ⟨15, 0, .ro, false, false, false, 0⟩]⟩
  | .ftCnt => ⟨.unit .time, 0x120, 4, 1, [
      ⟨31, 16, .ro, false, false, false, 0⟩, ⟨15, 8, .ro, false, false, false, 0⟩,
      ⟨7, 0, .ro, false, false, false, 0⟩]⟩
  | .ftFrame => ⟨.unit .time, 0x124, 4, 1, [⟨31, 0, .ro, false, false, false, 0⟩]⟩
  | .tiCtl => ⟨.unit .time, 0x130, 4, 4, [
      ⟨31, 31, .rw, true, false, true, 0⟩, ⟨30, 29, .rw, true, false, true, 0x1⟩, ⟨15, 8, .rw, true, false, true, 0⟩,
      ⟨7, 0, .rw, true, false, true, 0x2⟩]⟩
  | .tiCnt => ⟨.unit .time, 0x140, 4, 4, [
      ⟨31, 31, .ro, false, false, false, 0⟩, ⟨15, 8, .ro, false, false, false, 0⟩,
      ⟨7, 0, .ro, false, false, false, 0⟩]⟩
  | .taArmedLo => ⟨.unit .time, 0x150, 4, 1, [⟨31, 0, .ro, false, false, false, 0⟩]⟩
  | .taArmedHi => ⟨.unit .time, 0x154, 4, 1, [⟨31, 0, .ro, false, false, false, 0⟩]⟩
  | .taCnt => ⟨.unit .time, 0x158, 4, 1, [⟨31, 16, .ro, false, false, false, 0⟩, ⟨15, 0, .ro, false, false, false, 0⟩]⟩
  | .ethCnt => ⟨.unit .time, 0x160, 4, 8, [
      ⟨31, 24, .ro, false, false, false, 0⟩, ⟨23, 16, .ro, false, false, false, 0⟩,
      ⟨15, 0, .ro, false, false, false, 0⟩]⟩
  | .twStat => ⟨.unit .twin, 0x40, 4, 1, [
      ⟨31, 29, .ro, false, false, false, 0⟩, ⟨28, 28, .ro, false, false, false, 0⟩,
      ⟨27, 26, .ro, false, false, false, 0⟩, ⟨25, 25, .ro, false, false, false, 0⟩,
      ⟨24, 24, .ro, false, false, false, 0⟩, ⟨15, 0, .ro, false, false, false, 0⟩]⟩
  | .twHb => ⟨.unit .twin, 0x44, 4, 1, [⟨31, 16, .ro, false, false, false, 0⟩, ⟨15, 0, .ro, false, false, false, 0⟩]⟩
  | .twCnt => ⟨.unit .twin, 0x48, 4, 1, [
      ⟨31, 24, .ro, false, false, false, 0⟩, ⟨23, 16, .ro, false, false, false, 0⟩,
      ⟨15, 8, .ro, false, false, false, 0⟩, ⟨7, 0, .ro, false, false, false, 0⟩]⟩
  | .twSkew => ⟨.unit .twin, 0x60, 4, 1, [⟨31, 16, .ro, false, false, false, 0⟩, ⟨15, 0, .ro, false, false, false, 0⟩]⟩
  | .twMpktsLo => ⟨.unit .twin, 0x50, 4, 1, [⟨31, 0, .ro, false, false, false, 0⟩]⟩
  | .twMpktsHi => ⟨.unit .twin, 0x54, 4, 1, [⟨31, 0, .ro, false, false, false, 0⟩]⟩
  | .twPeerLo => ⟨.unit .twin, 0x58, 4, 1, [⟨31, 0, .ro, false, false, false, 0⟩]⟩
  | .twPeerHi => ⟨.unit .twin, 0x5C, 4, 1, [⟨31, 0, .ro, false, false, false, 0⟩]⟩
  | .chNode => ⟨.unit .chain, 0x40, 4, 1, [
      ⟨31, 31, .ro, false, false, false, 0⟩, ⟨30, 30, .ro, false, false, false, 0⟩,
      ⟨27, 16, .ro, false, false, false, 0⟩, ⟨15, 0, .ro, false, false, false, 0⟩]⟩
  | .chBudget => ⟨.unit .chain, 0x44, 4, 1, [
      ⟨15, 8, .ro, false, false, false, 0x1E⟩, ⟨7, 0, .ro, false, false, false, 0x32⟩]⟩
  | .chCnt => ⟨.unit .chain, 0x48, 4, 1, [
      ⟨31, 16, .ro, false, false, false, 0⟩, ⟨15, 8, .ro, false, false, false, 0⟩,
      ⟨7, 0, .ro, false, false, false, 0⟩]⟩
  | .chRoute => ⟨.unit .chain, 0x400, 4, 256, [⟨31, 0, .ro, false, false, false, 0xFFFFFFFF⟩]⟩
  | .cpStat => ⟨.unit .chainPort, 0x40, 4, 1, [
      ⟨31, 30, .ro, false, false, false, 0⟩, ⟨27, 16, .ro, false, false, false, 0⟩,
      ⟨15, 0, .ro, false, false, false, 0⟩]⟩
  | .thCtl => ⟨.unit .therm, 0x40, 4, 1, [⟨31, 31, .wo, true, false, false, 0⟩, ⟨15, 8, .rw, true, false, true, 0x5F⟩]⟩
  | .thStat => ⟨.unit .therm, 0x44, 4, 1, [
      ⟨31, 31, .ro, false, false, false, 0⟩, ⟨30, 30, .ro, false, false, false, 0⟩,
      ⟨29, 29, .ro, false, false, false, 0⟩, ⟨28, 24, .ro, false, false, false, 0⟩,
      ⟨20, 16, .ro, false, false, false, 0⟩, ⟨11, 0, .ro, false, false, false, 0⟩]⟩
  | .thRate => ⟨.unit .therm, 0x48, 4, 1, [⟨15, 0, .ro, false, false, false, 0⟩]⟩
  | .thFault => ⟨.unit .therm, 0x4C, 4, 1, [⟨23, 0, .ro, false, false, false, 0⟩]⟩
  | .ts => ⟨.unit .therm, 0x80, 4, 26, [
      ⟨31, 31, .ro, false, false, false, 0⟩, ⟨30, 30, .ro, false, false, false, 0⟩,
      ⟨29, 29, .ro, false, false, false, 0⟩, ⟨27, 16, .ro, false, false, false, 0⟩,
      ⟨11, 0, .ro, false, false, false, 0⟩]⟩
  | .nvStat => ⟨.unit .nvm, 0x40, 4, 1, [
      ⟨31, 31, .ro, false, false, false, 0⟩, ⟨30, 30, .ro, false, false, false, 0⟩,
      ⟨24, 16, .ro, false, false, false, 0⟩, ⟨15, 10, .ro, false, false, false, 0⟩,
      ⟨9, 0, .ro, false, false, false, 0⟩]⟩
  | .nvSeq => ⟨.unit .nvm, 0x44, 4, 1, [⟨31, 0, .ro, false, false, false, 0⟩]⟩

/-- The registers of a window, in ascending place in the manual's tables. -/
def regsOfWin : Win → List Reg
  | .ucb => [.ucbId, .ucbLink, .ucbState, .ucbEpoch, .ucbGen, .ucbPip, .ucbEvent, .ucbPace, .ucbPaceMin, .ucbCtx]
  | .unit .bank => [.bankCeil, .bankReserve, .bankEff, .bankUse, .bankVolt, .bankVscale, .bankCtl, .bankStatus,
      .bankPeer, .bankOvr, .bankPeak, .bankDom]
  | .glob => [.devId, .whoAmI, .lockCtl, .holdSel, .holdScan, .holdStatus, .holdInfo, .holdRelease, .accLog,
      .accAddr, .parCtl, .parLog, .privVfLo, .privVfHi]
  | .unit .qf => [.qfCmd, .qfWeight, .qfTags, .qfCache, .qfHoldoff, .qfRole, .qfData]
  | .unit .ozder => [.ozStatus, .ozFwver, .ozEcc, .mbBootCtl, .mbBootQid, .mbBootEpoch, .mbBootLo, .mbBootHi]
  | .unit .boot => [.bootStatus, .bootBanks, .fuseSvn, .fuseKeys, .bootHostCtl, .devSerialLo, .devSerialHi,
      .bootHostLo, .bootHostHi]
  | .unit .lanes => [.lnkMap, .lnkStat]
  | .unit .quad => [.quadCfg, .quadStatus, .lnTx, .lnRx, .lnStatus, .lnFill, .lnCtl, .lnEth]
  | .unit .deframer => [.dfCtl, .dfStat, .dfDelay, .dfPktsLo, .dfPktsHi, .srcCfg, .srcGeom, .srcPos, .srcStat]
  | .unit .ingest => [.camCfg, .camSize, .camFill, .camTimeout, .camStride, .camSlot, .camFrame, .camRows, .camFlags,
      .camCnt, .camBaseLo, .camBaseHi]
  | .unit .tile => [.pxStripe, .pxCols, .pxFrame, .pxGen, .pxDef, .pxSat, .pxEcc, .clParam, .clExp, .clTnr, .clClip,
      .clEcc]
  | .unit .pipe => [.pipeGen, .colPset, .outCam, .outPool, .outDisp, .outPart, .strCfg, .strDecim, .strBufq,
      .strRowb, .strFrame, .strCnt, .strCrop0, .strCrop1, .strSize, .algCfg, .algLate, .algFrame, .algUnm, .cptCfg,
      .cptSlot, .cptSw]
  | .unit .tileGroup => [.lutStat]
  | .unit .engine => [.psBind, .psLoad, .psCnt, .psEcc]
  | .unit .codec => [.cst]
  | .unit .pack => [.mpStat, .mpIdle, .mpCnt, .mpBytesLo, .mpBytesHi]
  | .unit .media => [.mdCfg, .mqCqh]
  | .unit .cvu => [.cvuCtl, .cvuStat, .cvuLastLo, .cvuLastHi, .cvuAlive]
  | .unit .integ => [.rcMism0, .rcMism1, .rcGringLo, .rcGringHi]
  | .unit .hbm => [.hbmLayout, .hbmMyrgn, .hbmState, .hbmScrub, .hbmWeight, .rgnCmd, .rgnData0, .rgnData1, .rgnData2]
  | .unit .stack => [.hsStat, .hsBytesLo, .hsBytesHi]
  | .unit .mover => [.pcStat, .pcEcc, .pcUeAddr, .pcTrCtl, .pcTrRes]
  | .unit .scan => [.scCtl, .scTimVb, .scPclk, .scTimGo, .scBg, .scTimH, .scTimV, .scTimHs, .scTimVs, .scStat,
      .scFrame, .scCnt, .scPal, .opStat, .lyCtl, .lyPos, .lySize, .lyBufLo, .lyBufHi, .lyOwner, .lyCnt]
  | .unit .audioPort => [.auCfg, .auMask, .auBlk, .auBlkf, .auStat, .auCnt]
  | .unit .time => [.tmCtl, .tmOfs, .dIncNs, .dIncFrac, .dAdj, .dSetSlo, .dSetShi, .dSetNs, .dSnapSlo, .dSnapShi,
      .dSnapNs, .devSnapLo, .devSnapHi, .ftCtl, .ftRate, .ftPhase, .ftStat, .ftCnt, .ftFrame, .tiCtl, .tiCnt,
      .taArmedLo, .taArmedHi, .taCnt, .ethCnt]
  | .unit .twin => [.twStat, .twHb, .twCnt, .twSkew, .twMpktsLo, .twMpktsHi, .twPeerLo, .twPeerHi]
  | .unit .chain => [.chNode, .chBudget, .chCnt, .chRoute]
  | .unit .chainPort => [.cpStat]
  | .unit .therm => [.thCtl, .thStat, .thRate, .thFault, .ts]
  | .unit .nvm => [.nvStat, .nvSeq]
  | _ => []

/-- A field: its register and bits. -/
structure Fld where
  reg : Reg
  hi : Nat
  lo : Nat
  deriving DecidableEq, Repr

namespace F

def ucbId_type : Fld := ⟨.ucbId, 31, 24⟩
def ucbId_level : Fld := ⟨.ucbId, 23, 21⟩
def ucbId_group : Fld := ⟨.ucbId, 20, 20⟩
def ucbId_childCount : Fld := ⟨.ucbId, 19, 12⟩
def ucbId_index : Fld := ⟨.ucbId, 11, 0⟩
def ucbLink_parent : Fld := ⟨.ucbLink, 27, 16⟩
def ucbLink_firstChild : Fld := ⟨.ucbLink, 11, 0⟩
def ucbState_cmd : Fld := ⟨.ucbState, 31, 28⟩
def ucbState_tst : Fld := ⟨.ucbState, 27, 27⟩
def ucbState_degraded : Fld := ⟨.ucbState, 26, 26⟩
def ucbState_mixed : Fld := ⟨.ucbState, 25, 25⟩
def ucbState_band : Fld := ⟨.ucbState, 9, 8⟩
def ucbState_reason : Fld := ⟨.ucbState, 7, 4⟩
def ucbState_state : Fld := ⟨.ucbState, 3, 0⟩
def ucbEpoch_epochExp : Fld := ⟨.ucbEpoch, 31, 16⟩
def ucbEpoch_epoch : Fld := ⟨.ucbEpoch, 15, 0⟩
def ucbGen_genExp : Fld := ⟨.ucbGen, 31, 16⟩
def ucbGen_gen : Fld := ⟨.ucbGen, 15, 0⟩
def ucbPip_grant : Fld := ⟨.ucbPip, 27, 16⟩
def ucbPip_pend : Fld := ⟨.ucbPip, 15, 15⟩
def ucbPip_actLevel : Fld := ⟨.ucbPip, 14, 12⟩
def ucbPip_request : Fld := ⟨.ucbPip, 11, 0⟩
def ucbEvent_evCount : Fld := ⟨.ucbEvent, 31, 24⟩
def ucbEvent_lastEvent : Fld := ⟨.ucbEvent, 15, 0⟩
def ucbPace_floor : Fld := ⟨.ucbPace, 31, 16⟩
def ucbPace_pace : Fld := ⟨.ucbPace, 15, 0⟩
def ucbPaceMin_below : Fld := ⟨.ucbPaceMin, 31, 16⟩
def ucbPaceMin_paceMin : Fld := ⟨.ucbPaceMin, 15, 0⟩
def ucbCtx_reloadTry : Fld := ⟨.ucbCtx, 15, 8⟩
def ucbCtx_ctxSlot : Fld := ⟨.ucbCtx, 7, 0⟩
def bankCeil_ceil : Fld := ⟨.bankCeil, 11, 0⟩
def bankReserve_reserve : Fld := ⟨.bankReserve, 11, 0⟩
def bankEff_eff : Fld := ⟨.bankEff, 27, 16⟩
def bankEff_limit : Fld := ⟨.bankEff, 2, 0⟩
def bankUse_usedC0 : Fld := ⟨.bankUse, 27, 16⟩
def bankUse_usedOther : Fld := ⟨.bankUse, 11, 0⟩
def bankVolt_req : Fld := ⟨.bankVolt, 31, 31⟩
def bankVolt_granted : Fld := ⟨.bankVolt, 30, 30⟩
def bankVolt_refused : Fld := ⟨.bankVolt, 29, 29⟩
def bankVolt_target : Fld := ⟨.bankVolt, 25, 16⟩
def bankVolt_present : Fld := ⟨.bankVolt, 9, 0⟩
def bankVscale_vscale : Fld := ⟨.bankVscale, 10, 0⟩
def bankCtl_pairMin : Fld := ⟨.bankCtl, 1, 1⟩
def bankCtl_forceShed : Fld := ⟨.bankCtl, 0, 0⟩
def bankStatus_over : Fld := ⟨.bankStatus, 31, 31⟩
def bankStatus_lowRes : Fld := ⟨.bankStatus, 30, 30⟩
def bankStatus_peerValid : Fld := ⟨.bankStatus, 29, 29⟩
def bankStatus_thLevel : Fld := ⟨.bankStatus, 26, 24⟩
def bankStatus_pending : Fld := ⟨.bankStatus, 11, 0⟩
def bankPeer_peerEff : Fld := ⟨.bankPeer, 27, 16⟩
def bankPeer_peerUsed : Fld := ⟨.bankPeer, 11, 0⟩
def bankOvr_ovrCount : Fld := ⟨.bankOvr, 31, 24⟩
def bankOvr_domain : Fld := ⟨.bankOvr, 21, 16⟩
def bankOvr_excess : Fld := ⟨.bankOvr, 11, 0⟩
def bankPeak_peak : Fld := ⟨.bankPeak, 11, 0⟩
def bankDom_on : Fld := ⟨.bankDom, 31, 31⟩
def bankDom_ovr : Fld := ⟨.bankDom, 30, 30⟩
def bankDom_meas : Fld := ⟨.bankDom, 27, 16⟩
def bankDom_grant : Fld := ⟨.bankDom, 11, 0⟩
def devId_part : Fld := ⟨.devId, 31, 16⟩
def devId_code : Fld := ⟨.devId, 15, 8⟩
def devId_step : Fld := ⟨.devId, 7, 0⟩
def whoAmI_priv : Fld := ⟨.whoAmI, 31, 31⟩
def whoAmI_secure : Fld := ⟨.whoAmI, 30, 30⟩
def whoAmI_held : Fld := ⟨.whoAmI, 29, 29⟩
def whoAmI_master : Fld := ⟨.whoAmI, 9, 0⟩
def lockCtl_go : Fld := ⟨.lockCtl, 31, 31⟩
def lockCtl_global : Fld := ⟨.lockCtl, 30, 30⟩
def lockCtl_locked : Fld := ⟨.lockCtl, 29, 29⟩
def lockCtl_index : Fld := ⟨.lockCtl, 11, 0⟩
def holdSel_kind : Fld := ⟨.holdSel, 31, 31⟩
def holdSel_start : Fld := ⟨.holdSel, 30, 30⟩
def holdSel_result : Fld := ⟨.holdSel, 28, 26⟩
def holdSel_id : Fld := ⟨.holdSel, 11, 0⟩
def holdScan_valid : Fld := ⟨.holdScan, 31, 31⟩
def holdScan_kind : Fld := ⟨.holdScan, 30, 30⟩
def holdScan_id : Fld := ⟨.holdScan, 11, 0⟩
def holdStatus_held : Fld := ⟨.holdStatus, 31, 31⟩
def holdStatus_cause : Fld := ⟨.holdStatus, 30, 27⟩
def holdStatus_refused : Fld := ⟨.holdStatus, 26, 16⟩
def holdStatus_seq : Fld := ⟨.holdStatus, 15, 0⟩
def holdInfo_info : Fld := ⟨.holdInfo, 31, 0⟩
def holdRelease_kind : Fld := ⟨.holdRelease, 31, 31⟩
def holdRelease_id : Fld := ⟨.holdRelease, 27, 16⟩
def holdRelease_seq : Fld := ⟨.holdRelease, 15, 0⟩
def accLog_kind : Fld := ⟨.accLog, 31, 28⟩
def accLog_master : Fld := ⟨.accLog, 25, 16⟩
def accLog_count : Fld := ⟨.accLog, 7, 0⟩
def accAddr_offset : Fld := ⟨.accAddr, 27, 0⟩
def parCtl_scrubEn : Fld := ⟨.parCtl, 31, 31⟩
def parCtl_scrubPeriod : Fld := ⟨.parCtl, 7, 0⟩
def parLog_count : Fld := ⟨.parLog, 31, 28⟩
def parLog_index : Fld := ⟨.parLog, 27, 16⟩
def parLog_offset : Fld := ⟨.parLog, 11, 0⟩
def privVfLo_vf : Fld := ⟨.privVfLo, 31, 1⟩
def privVfHi_vf : Fld := ⟨.privVfHi, 31, 0⟩
def qfCmd_go : Fld := ⟨.qfCmd, 31, 31⟩
def qfCmd_busy : Fld := ⟨.qfCmd, 30, 30⟩
def qfCmd_result : Fld := ⟨.qfCmd, 29, 27⟩
def qfCmd_op : Fld := ⟨.qfCmd, 26, 24⟩
def qfCmd_qid : Fld := ⟨.qfCmd, 19, 0⟩
def qfWeight_w3 : Fld := ⟨.qfWeight, 23, 16⟩
def qfWeight_w2 : Fld := ⟨.qfWeight, 15, 8⟩
def qfWeight_w1 : Fld := ⟨.qfWeight, 7, 0⟩
def qfTags_c0Free : Fld := ⟨.qfTags, 31, 17⟩
def qfTags_genFree : Fld := ⟨.qfTags, 16, 0⟩
def qfCache_c0Pinned : Fld := ⟨.qfCache, 27, 16⟩
def qfCache_used : Fld := ⟨.qfCache, 14, 0⟩
def qfHoldoff_holdoff : Fld := ⟨.qfHoldoff, 7, 0⟩
def qfRole_returns : Fld := ⟨.qfRole, 15, 0⟩
def qfData_data : Fld := ⟨.qfData, 31, 0⟩
def ozStatus_svcReady : Fld := ⟨.ozStatus, 31, 31⟩
def ozStatus_booting : Fld := ⟨.ozStatus, 30, 30⟩
def ozStatus_pairA : Fld := ⟨.ozStatus, 29, 28⟩
def ozStatus_pairB : Fld := ⟨.ozStatus, 27, 26⟩
def ozStatus_ifver : Fld := ⟨.ozStatus, 3, 0⟩
def ozFwver_major : Fld := ⟨.ozFwver, 31, 24⟩
def ozFwver_minor : Fld := ⟨.ozFwver, 23, 16⟩
def ozFwver_patch : Fld := ⟨.ozFwver, 15, 0⟩
def ozEcc_ce : Fld := ⟨.ozEcc, 31, 16⟩
def ozEcc_ue : Fld := ⟨.ozEcc, 15, 0⟩
def mbBootCtl_go : Fld := ⟨.mbBootCtl, 31, 31⟩
def mbBootCtl_ready : Fld := ⟨.mbBootCtl, 30, 30⟩
def mbBootCtl_error : Fld := ⟨.mbBootCtl, 29, 29⟩
def mbBootCtl_vecEvent : Fld := ⟨.mbBootCtl, 26, 16⟩
def mbBootCtl_vecReply : Fld := ⟨.mbBootCtl, 10, 0⟩
def mbBootQid_qid : Fld := ⟨.mbBootQid, 19, 0⟩
def mbBootEpoch_epoch : Fld := ⟨.mbBootEpoch, 15, 0⟩
def mbBootLo_addr : Fld := ⟨.mbBootLo, 31, 0⟩
def mbBootHi_addr : Fld := ⟨.mbBootHi, 31, 0⟩
def bootStatus_src : Fld := ⟨.bootStatus, 31, 30⟩
def bootStatus_sel : Fld := ⟨.bootStatus, 29, 28⟩
def bootStatus_trial : Fld := ⟨.bootStatus, 27, 27⟩
def bootStatus_debugOpen : Fld := ⟨.bootStatus, 26, 26⟩
def bootStatus_stage : Fld := ⟨.bootStatus, 19, 16⟩
def bootStatus_lastFail : Fld := ⟨.bootStatus, 15, 0⟩
def bootBanks_bState : Fld := ⟨.bootBanks, 15, 14⟩
def bootBanks_bTries : Fld := ⟨.bootBanks, 13, 12⟩
def bootBanks_bFail : Fld := ⟨.bootBanks, 11, 8⟩
def bootBanks_aStateATriesAFail : Fld := ⟨.bootBanks, 7, 0⟩
def fuseSvn_count : Fld := ⟨.fuseSvn, 6, 0⟩
def fuseKeys_mlRev : Fld := ⟨.fuseKeys, 15, 12⟩
def fuseKeys_edRev : Fld := ⟨.fuseKeys, 11, 8⟩
def fuseKeys_mlSet : Fld := ⟨.fuseKeys, 7, 4⟩
def fuseKeys_edSet : Fld := ⟨.fuseKeys, 3, 0⟩
def bootHostCtl_go : Fld := ⟨.bootHostCtl, 31, 31⟩
def bootHostCtl_wait : Fld := ⟨.bootHostCtl, 30, 30⟩
def bootHostCtl_busy : Fld := ⟨.bootHostCtl, 29, 29⟩
def bootHostCtl_err : Fld := ⟨.bootHostCtl, 28, 28⟩
def bootHostCtl_lenPages : Fld := ⟨.bootHostCtl, 15, 0⟩
def devSerialLo_serial : Fld := ⟨.devSerialLo, 31, 0⟩
def devSerialHi_serial : Fld := ⟨.devSerialHi, 31, 0⟩
def bootHostLo_addr : Fld := ⟨.bootHostLo, 31, 0⟩
def bootHostHi_addr : Fld := ⟨.bootHostHi, 31, 0⟩
def lnkMap_en : Fld := ⟨.lnkMap, 31, 31⟩
def lnkMap_count : Fld := ⟨.lnkMap, 11, 8⟩
def lnkMap_first : Fld := ⟨.lnkMap, 4, 0⟩
def lnkStat_lstate : Fld := ⟨.lnkStat, 31, 29⟩
def lnkStat_skew : Fld := ⟨.lnkStat, 28, 24⟩
def lnkStat_retrains : Fld := ⟨.lnkStat, 23, 16⟩
def lnkStat_hdrErr : Fld := ⟨.lnkStat, 15, 0⟩
def quadCfg_pers : Fld := ⟨.quadCfg, 31, 28⟩
def quadCfg_index : Fld := ⟨.quadCfg, 27, 24⟩
def quadCfg_rate : Fld := ⟨.quadCfg, 23, 20⟩
def quadCfg_laneEn : Fld := ⟨.quadCfg, 19, 16⟩
def quadCfg_fec : Fld := ⟨.quadCfg, 15, 14⟩
def quadStatus_pllLock : Fld := ⟨.quadStatus, 31, 31⟩
def quadStatus_refOk : Fld := ⟨.quadStatus, 30, 30⟩
def quadStatus_refPpm : Fld := ⟨.quadStatus, 15, 0⟩
def lnTx_txEn : Fld := ⟨.lnTx, 31, 31⟩
def lnTx_txInv : Fld := ⟨.lnTx, 30, 30⟩
def lnTx_amp : Fld := ⟨.lnTx, 23, 20⟩
def lnTx_cMain : Fld := ⟨.lnTx, 19, 13⟩
def lnTx_cPost : Fld := ⟨.lnTx, 12, 8⟩
def lnTx_cPre : Fld := ⟨.lnTx, 3, 0⟩
def lnRx_rxInv : Fld := ⟨.lnRx, 31, 31⟩
def lnRx_eqFixed : Fld := ⟨.lnRx, 30, 30⟩
def lnRx_lpbk : Fld := ⟨.lnRx, 29, 28⟩
def lnRx_ctle : Fld := ⟨.lnRx, 12, 8⟩
def lnRx_margin : Fld := ⟨.lnRx, 7, 0⟩
def lnStatus_lstate : Fld := ⟨.lnStatus, 31, 29⟩
def lnStatus_blockLock : Fld := ⟨.lnStatus, 28, 28⟩
def lnStatus_farFault : Fld := ⟨.lnStatus, 27, 27⟩
def lnStatus_syncErr : Fld := ⟨.lnStatus, 15, 0⟩
def lnFill_del : Fld := ⟨.lnFill, 31, 24⟩
def lnFill_ins : Fld := ⟨.lnFill, 23, 16⟩
def lnFill_offset : Fld := ⟨.lnFill, 15, 0⟩
def lnCtl_retrain : Fld := ⟨.lnCtl, 31, 31⟩
def lnCtl_full : Fld := ⟨.lnCtl, 30, 30⟩
def lnCtl_prbs : Fld := ⟨.lnCtl, 29, 28⟩
def lnCtl_prbsErr : Fld := ⟨.lnCtl, 15, 0⟩
def lnEth_fcsErr : Fld := ⟨.lnEth, 31, 16⟩
def lnEth_pause : Fld := ⟨.lnEth, 15, 0⟩
def dfCtl_en : Fld := ⟨.dfCtl, 31, 31⟩
def dfCtl_bcEn : Fld := ⟨.dfCtl, 30, 30⟩
def dfCtl_bcTimeout : Fld := ⟨.dfCtl, 23, 16⟩
def dfStat_ptErr : Fld := ⟨.dfStat, 31, 16⟩
def dfStat_crcErr : Fld := ⟨.dfStat, 15, 0⟩
def dfDelay_delay : Fld := ⟨.dfDelay, 15, 0⟩
def dfPktsLo_v : Fld := ⟨.dfPktsLo, 31, 0⟩
def dfPktsHi_v : Fld := ⟨.dfPktsHi, 31, 0⟩
def srcCfg_en : Fld := ⟨.srcCfg, 31, 31⟩
def srcCfg_hflip : Fld := ⟨.srcCfg, 30, 30⟩
def srcCfg_vflip : Fld := ⟨.srcCfg, 29, 29⟩
def srcCfg_depth : Fld := ⟨.srcCfg, 28, 27⟩
def srcCfg_camera : Fld := ⟨.srcCfg, 23, 20⟩
def srcCfg_member : Fld := ⟨.srcCfg, 19, 16⟩
def srcGeom_width : Fld := ⟨.srcGeom, 31, 16⟩
def srcGeom_height : Fld := ⟨.srcGeom, 15, 0⟩
def srcPos_x : Fld := ⟨.srcPos, 31, 16⟩
def srcPos_y : Fld := ⟨.srcPos, 15, 0⟩
def srcStat_discarded : Fld := ⟨.srcStat, 31, 16⟩
def srcStat_frames : Fld := ⟨.srcStat, 15, 0⟩
def camCfg_en : Fld := ⟨.camCfg, 31, 31⟩
def camCfg_run : Fld := ⟨.camCfg, 30, 30⟩
def camCfg_inline : Fld := ⟨.camCfg, 29, 29⟩
def camCfg_depth : Fld := ⟨.camCfg, 28, 27⟩
def camCfg_members : Fld := ⟨.camCfg, 26, 22⟩
def camCfg_slots : Fld := ⟨.camCfg, 15, 8⟩
def camCfg_metaKb : Fld := ⟨.camCfg, 7, 0⟩
def camSize_width : Fld := ⟨.camSize, 31, 16⟩
def camSize_height : Fld := ⟨.camSize, 15, 0⟩
def camFill_fill : Fld := ⟨.camFill, 31, 16⟩
def camFill_skewUs : Fld := ⟨.camFill, 15, 8⟩
def camFill_closeUs : Fld := ⟨.camFill, 7, 0⟩
def camTimeout_timeoutMs : Fld := ⟨.camTimeout, 15, 0⟩
def camStride_stride : Fld := ⟨.camStride, 19, 0⟩
def camSlot_slotSize : Fld := ⟨.camSlot, 19, 0⟩
def camFrame_frame : Fld := ⟨.camFrame, 31, 0⟩
def camRows_slot : Fld := ⟨.camRows, 31, 24⟩
def camRows_lines : Fld := ⟨.camRows, 23, 0⟩
def camFlags_flags : Fld := ⟨.camFlags, 31, 0⟩
def camCnt_flagged : Fld := ⟨.camCnt, 31, 16⟩
def camCnt_suppressed : Fld := ⟨.camCnt, 15, 0⟩
def camBaseLo_base : Fld := ⟨.camBaseLo, 31, 0⟩
def camBaseHi_base : Fld := ⟨.camBaseHi, 31, 0⟩
def pxStripe_valid : Fld := ⟨.pxStripe, 31, 31⟩
def pxStripe_camera : Fld := ⟨.pxStripe, 27, 24⟩
def pxStripe_stripe : Fld := ⟨.pxStripe, 23, 12⟩
def pxCols_left : Fld := ⟨.pxCols, 31, 16⟩
def pxCols_width : Fld := ⟨.pxCols, 10, 0⟩
def pxFrame_frame : Fld := ⟨.pxFrame, 31, 0⟩
def pxGen_tgen : Fld := ⟨.pxGen, 31, 16⟩
def pxGen_bank : Fld := ⟨.pxGen, 15, 15⟩
def pxGen_sets : Fld := ⟨.pxGen, 10, 8⟩
def pxDef_corrected : Fld := ⟨.pxDef, 31, 16⟩
def pxDef_unfixed : Fld := ⟨.pxDef, 15, 0⟩
def pxSat_sat : Fld := ⟨.pxSat, 31, 0⟩
def pxEcc_range : Fld := ⟨.pxEcc, 31, 24⟩
def pxEcc_ce : Fld := ⟨.pxEcc, 15, 8⟩
def pxEcc_ue : Fld := ⟨.pxEcc, 7, 0⟩
def pipeGen_committed : Fld := ⟨.pipeGen, 31, 16⟩
def pipeGen_pending : Fld := ⟨.pipeGen, 15, 0⟩
def clParam_pseq : Fld := ⟨.clParam, 31, 16⟩
def clParam_otEn : Fld := ⟨.clParam, 15, 12⟩
def clParam_tnr : Fld := ⟨.clParam, 9, 9⟩
def clParam_hist : Fld := ⟨.clParam, 8, 8⟩
def clParam_hilite : Fld := ⟨.clParam, 0, 0⟩
def clExp_exposure : Fld := ⟨.clExp, 23, 0⟩
def clTnr_resets : Fld := ⟨.clTnr, 31, 16⟩
def clTnr_waits : Fld := ⟨.clTnr, 15, 0⟩
def clClip_shpClip : Fld := ⟨.clClip, 31, 16⟩
def clClip_lutClip : Fld := ⟨.clClip, 15, 0⟩
def clEcc_ce : Fld := ⟨.clEcc, 15, 8⟩
def clEcc_ue : Fld := ⟨.clEcc, 7, 0⟩
def lutStat_used : Fld := ⟨.lutStat, 31, 28⟩
def lutStat_bank : Fld := ⟨.lutStat, 27, 24⟩
def lutStat_ce : Fld := ⟨.lutStat, 15, 8⟩
def lutStat_ue : Fld := ⟨.lutStat, 7, 0⟩
def colPset_frame : Fld := ⟨.colPset, 31, 0⟩
def outCam_mode : Fld := ⟨.outCam, 31, 30⟩
def outCam_stripes : Fld := ⟨.outCam, 29, 23⟩
def outCam_tiles : Fld := ⟨.outCam, 22, 16⟩
def outCam_part : Fld := ⟨.outCam, 12, 11⟩
def outCam_sw : Fld := ⟨.outCam, 10, 0⟩
def outPool_parts : Fld := ⟨.outPool, 31, 24⟩
def outPool_inline : Fld := ⟨.outPool, 23, 16⟩
def outPool_compat : Fld := ⟨.outPool, 15, 8⟩
def outPool_spare : Fld := ⟨.outPool, 7, 0⟩
def outDisp_waiting : Fld := ⟨.outDisp, 31, 16⟩
def outDisp_redo : Fld := ⟨.outDisp, 15, 8⟩
def outDisp_overrun : Fld := ⟨.outDisp, 7, 0⟩
def outPart_groups : Fld := ⟨.outPart, 17, 0⟩
def strCfg_run : Fld := ⟨.strCfg, 31, 31⟩
def strCfg_format : Fld := ⟨.strCfg, 30, 28⟩
def strCfg_ot : Fld := ⟨.strCfg, 27, 26⟩
def strCfg_class : Fld := ⟨.strCfg, 25, 24⟩
def strCfg_camera : Fld := ⟨.strCfg, 23, 20⟩
def strCfg_group : Fld := ⟨.strCfg, 19, 18⟩
def strCfg_grouped : Fld := ⟨.strCfg, 17, 17⟩
def strCfg_fill : Fld := ⟨.strCfg, 16, 16⟩
def strCfg_coef : Fld := ⟨.strCfg, 15, 15⟩
def strCfg_corr : Fld := ⟨.strCfg, 14, 14⟩
def strCfg_conf : Fld := ⟨.strCfg, 13, 13⟩
def strCfg_ph : Fld := ⟨.strCfg, 3, 2⟩
def strCfg_pv : Fld := ⟨.strCfg, 1, 0⟩
def strDecim_decim : Fld := ⟨.strDecim, 15, 8⟩
def strDecim_phase : Fld := ⟨.strDecim, 7, 0⟩
def strBufq_qid : Fld := ⟨.strBufq, 19, 0⟩
def strRowb_rowBytes : Fld := ⟨.strRowb, 31, 0⟩
def strFrame_frame : Fld := ⟨.strFrame, 31, 0⟩
def strCnt_subst : Fld := ⟨.strCnt, 31, 24⟩
def strCnt_skip : Fld := ⟨.strCnt, 23, 16⟩
def strCnt_consec : Fld := ⟨.strCnt, 15, 8⟩
def strCrop0_x : Fld := ⟨.strCrop0, 31, 16⟩
def strCrop0_y : Fld := ⟨.strCrop0, 15, 0⟩
def strCrop1_w : Fld := ⟨.strCrop1, 31, 16⟩
def strCrop1_h : Fld := ⟨.strCrop1, 15, 0⟩
def strSize_outW : Fld := ⟨.strSize, 31, 16⟩
def strSize_outH : Fld := ⟨.strSize, 15, 0⟩
def algCfg_en : Fld := ⟨.algCfg, 31, 31⟩
def algCfg_refCam : Fld := ⟨.algCfg, 27, 24⟩
def algCfg_members : Fld := ⟨.algCfg, 23, 16⟩
def algCfg_subLimit : Fld := ⟨.algCfg, 15, 8⟩
def algCfg_windowUs : Fld := ⟨.algCfg, 7, 0⟩
def algLate_lateUs : Fld := ⟨.algLate, 31, 0⟩
def algFrame_frame : Fld := ⟨.algFrame, 31, 0⟩
def algUnm_unmatched : Fld := ⟨.algUnm, 31, 0⟩
def cptCfg_mode : Fld := ⟨.cptCfg, 31, 30⟩
def cptCfg_groups : Fld := ⟨.cptCfg, 29, 12⟩
def cptCfg_slots : Fld := ⟨.cptCfg, 11, 8⟩
def cptSlot_cams : Fld := ⟨.cptSlot, 31, 0⟩
def cptSw_switches : Fld := ⟨.cptSw, 31, 16⟩
def cptSw_slotWaitUs : Fld := ⟨.cptSw, 15, 0⟩
def psBind_role : Fld := ⟨.psBind, 31, 30⟩
def psBind_slices : Fld := ⟨.psBind, 20, 16⟩
def psBind_stream : Fld := ⟨.psBind, 10, 6⟩
def psBind_slice : Fld := ⟨.psBind, 3, 0⟩
def psLoad_load : Fld := ⟨.psLoad, 15, 0⟩
def psCnt_chunks : Fld := ⟨.psCnt, 31, 16⟩
def psCnt_literal : Fld := ⟨.psCnt, 15, 8⟩
def psCnt_switches : Fld := ⟨.psCnt, 7, 0⟩
def psEcc_ce : Fld := ⟨.psEcc, 15, 8⟩
def psEcc_ue : Fld := ⟨.psEcc, 7, 0⟩
def cst_run : Fld := ⟨.cst, 31, 31⟩
def cst_mode : Fld := ⟨.cst, 30, 29⟩
def cst_qcur : Fld := ⟨.cst, 28, 25⟩
def cst_slices : Fld := ⟨.cst, 24, 21⟩
def cst_fhist : Fld := ⟨.cst, 20, 20⟩
def cst_bufq : Fld := ⟨.cst, 19, 0⟩
def mpStat_port : Fld := ⟨.mpStat, 31, 29⟩
def mpStat_role : Fld := ⟨.mpStat, 28, 27⟩
def mpStat_pstate : Fld := ⟨.mpStat, 26, 25⟩
def mpStat_outstanding : Fld := ⟨.mpStat, 15, 0⟩
def mpIdle_idle1 : Fld := ⟨.mpIdle, 31, 24⟩
def mpIdle_idle2 : Fld := ⟨.mpIdle, 23, 16⟩
def mpIdle_idle3 : Fld := ⟨.mpIdle, 15, 0⟩
def mpCnt_retries : Fld := ⟨.mpCnt, 31, 24⟩
def mpCnt_timeouts : Fld := ⟨.mpCnt, 23, 16⟩
def mpCnt_mediaErr : Fld := ⟨.mpCnt, 15, 0⟩
def mpBytesLo_v : Fld := ⟨.mpBytesLo, 31, 0⟩
def mpBytesHi_v : Fld := ⟨.mpBytesHi, 31, 0⟩
def mdCfg_ext : Fld := ⟨.mdCfg, 31, 31⟩
def mdCfg_qps : Fld := ⟨.mdCfg, 23, 16⟩
def mdCfg_conns : Fld := ⟨.mdCfg, 15, 8⟩
def mdCfg_clips : Fld := ⟨.mdCfg, 7, 0⟩
def mqCqh_head : Fld := ⟨.mqCqh, 15, 0⟩
def cvuCtl_en : Fld := ⟨.cvuCtl, 31, 31⟩
def cvuCtl_alEn : Fld := ⟨.cvuCtl, 30, 30⟩
def cvuCtl_alW : Fld := ⟨.cvuCtl, 29, 29⟩
def cvuCtl_alTimeout : Fld := ⟨.cvuCtl, 15, 0⟩
def cvuStat_jobs : Fld := ⟨.cvuStat, 31, 16⟩
def cvuStat_mismatch : Fld := ⟨.cvuStat, 15, 4⟩
def cvuStat_stale : Fld := ⟨.cvuStat, 3, 0⟩
def cvuLastLo_v : Fld := ⟨.cvuLastLo, 31, 0⟩
def cvuLastHi_v : Fld := ⟨.cvuLastHi, 31, 0⟩
def cvuAlive_value : Fld := ⟨.cvuAlive, 31, 16⟩
def cvuAlive_repeats : Fld := ⟨.cvuAlive, 15, 8⟩
def cvuAlive_skips : Fld := ⟨.cvuAlive, 7, 0⟩
def rcMism0_b : Fld := ⟨.rcMism0, 31, 24⟩
def rcMism0_c : Fld := ⟨.rcMism0, 23, 16⟩
def rcMism0_d : Fld := ⟨.rcMism0, 15, 8⟩
def rcMism0_e : Fld := ⟨.rcMism0, 7, 0⟩
def rcMism1_f : Fld := ⟨.rcMism1, 31, 24⟩
def rcMism1_g : Fld := ⟨.rcMism1, 23, 16⟩
def rcGringLo_base : Fld := ⟨.rcGringLo, 31, 0⟩
def rcGringHi_base : Fld := ⟨.rcGringHi, 31, 0⟩
def hbmLayout_base : Fld := ⟨.hbmLayout, 31, 16⟩
def hbmLayout_size : Fld := ⟨.hbmLayout, 15, 0⟩
def hbmMyrgn_base : Fld := ⟨.hbmMyrgn, 31, 16⟩
def hbmMyrgn_size : Fld := ⟨.hbmMyrgn, 15, 0⟩
def hbmState_order : Fld := ⟨.hbmState, 31, 30⟩
def hbmState_keep : Fld := ⟨.hbmState, 29, 28⟩
def hbmState_standby : Fld := ⟨.hbmState, 27, 27⟩
def hbmState_zeroing : Fld := ⟨.hbmState, 26, 26⟩
def hbmState_ready : Fld := ⟨.hbmState, 25, 25⟩
def hbmScrub_en : Fld := ⟨.hbmScrub, 31, 31⟩
def hbmScrub_passes : Fld := ⟨.hbmScrub, 23, 16⟩
def hbmScrub_period : Fld := ⟨.hbmScrub, 15, 0⟩
def hbmWeight_w3 : Fld := ⟨.hbmWeight, 23, 16⟩
def hbmWeight_w2 : Fld := ⟨.hbmWeight, 15, 8⟩
def hbmWeight_w1 : Fld := ⟨.hbmWeight, 7, 0⟩
def rgnCmd_go : Fld := ⟨.rgnCmd, 31, 31⟩
def rgnCmd_busy : Fld := ⟨.rgnCmd, 30, 30⟩
def rgnCmd_result : Fld := ⟨.rgnCmd, 29, 28⟩
def rgnCmd_op : Fld := ⟨.rgnCmd, 27, 26⟩
def rgnCmd_index : Fld := ⟨.rgnCmd, 8, 0⟩
def rgnData0_valid : Fld := ⟨.rgnData0, 31, 31⟩
def rgnData0_wr : Fld := ⟨.rgnData0, 30, 30⟩
def rgnData0_rd : Fld := ⟨.rgnData0, 29, 29⟩
def rgnData0_rsvd : Fld := ⟨.rgnData0, 28, 28⟩
def rgnData0_base : Fld := ⟨.rgnData0, 23, 0⟩
def rgnData1_pages : Fld := ⟨.rgnData1, 23, 0⟩
def rgnData2_mask : Fld := ⟨.rgnData2, 25, 16⟩
def rgnData2_master : Fld := ⟨.rgnData2, 9, 0⟩
def hsStat_refMult : Fld := ⟨.hsStat, 31, 30⟩
def hsStat_selfRef : Fld := ⟨.hsStat, 29, 29⟩
def hsStat_temp : Fld := ⟨.hsStat, 23, 16⟩
def hsBytesLo_v : Fld := ⟨.hsBytesLo, 31, 0⟩
def hsBytesHi_v : Fld := ⟨.hsBytesHi, 31, 0⟩
def pcStat_trained : Fld := ⟨.pcStat, 31, 31⟩
def pcStat_repaired : Fld := ⟨.pcStat, 30, 29⟩
def pcStat_c0Over : Fld := ⟨.pcStat, 15, 0⟩
def pcEcc_ce : Fld := ⟨.pcEcc, 31, 16⟩
def pcEcc_die : Fld := ⟨.pcEcc, 15, 8⟩
def pcEcc_ue : Fld := ⟨.pcEcc, 7, 0⟩
def pcUeAddr_addr : Fld := ⟨.pcUeAddr, 30, 0⟩
def pcTrCtl_go : Fld := ⟨.pcTrCtl, 31, 31⟩
def pcTrCtl_busy : Fld := ⟨.pcTrCtl, 30, 30⟩
def pcTrCtl_mode : Fld := ⟨.pcTrCtl, 29, 28⟩
def pcTrCtl_pat : Fld := ⟨.pcTrCtl, 27, 26⟩
def pcTrCtl_bursts : Fld := ⟨.pcTrCtl, 25, 21⟩
def pcTrCtl_delay : Fld := ⟨.pcTrCtl, 7, 0⟩
def pcTrRes_errLanes : Fld := ⟨.pcTrRes, 31, 0⟩
def scCtl_outEn : Fld := ⟨.scCtl, 31, 28⟩
def scCtl_lock : Fld := ⟨.scCtl, 27, 27⟩
def scCtl_range : Fld := ⟨.scCtl, 26, 26⟩
def scCtl_dpFmt : Fld := ⟨.scCtl, 25, 24⟩
def scTimVb_vbEff : Fld := ⟨.scTimVb, 31, 16⟩
def scTimVb_vbMax : Fld := ⟨.scTimVb, 15, 0⟩
def scPclk_m1001 : Fld := ⟨.scPclk, 31, 31⟩
def scPclk_pclk : Fld := ⟨.scPclk, 19, 0⟩
def scTimGo_go : Fld := ⟨.scTimGo, 31, 31⟩
def scTimGo_refused : Fld := ⟨.scTimGo, 30, 30⟩
def scBg_rgb : Fld := ⟨.scBg, 29, 0⟩
def scTimH_hTotal : Fld := ⟨.scTimH, 31, 16⟩
def scTimH_hActive : Fld := ⟨.scTimH, 15, 0⟩
def scTimV_vbMin : Fld := ⟨.scTimV, 31, 16⟩
def scTimV_vActive : Fld := ⟨.scTimV, 15, 0⟩
def scTimHs_pol : Fld := ⟨.scTimHs, 31, 31⟩
def scTimHs_start : Fld := ⟨.scTimHs, 27, 16⟩
def scTimHs_width : Fld := ⟨.scTimHs, 11, 0⟩
def scTimVs_pol : Fld := ⟨.scTimVs, 31, 31⟩
def scTimVs_start : Fld := ⟨.scTimVs, 27, 16⟩
def scTimVs_width : Fld := ⟨.scTimVs, 11, 0⟩
def scStat_phase : Fld := ⟨.scStat, 31, 30⟩
def scStat_line : Fld := ⟨.scStat, 15, 0⟩
def scFrame_frame : Fld := ⟨.scFrame, 31, 0⟩
def scCnt_repeat : Fld := ⟨.scCnt, 31, 24⟩
def scCnt_dropped : Fld := ⟨.scCnt, 23, 16⟩
def scCnt_short : Fld := ⟨.scCnt, 15, 8⟩
def scPal_argb : Fld := ⟨.scPal, 31, 0⟩
def opStat_state : Fld := ⟨.opStat, 31, 29⟩
def opStat_hpd : Fld := ⟨.opStat, 28, 28⟩
def opStat_lanes : Fld := ⟨.opStat, 27, 24⟩
def opStat_rate : Fld := ⟨.opStat, 23, 20⟩
def opStat_retrains : Fld := ⟨.opStat, 7, 0⟩
def lyCtl_en : Fld := ⟨.lyCtl, 31, 31⟩
def lyCtl_off : Fld := ⟨.lyCtl, 30, 30⟩
def lyCtl_cause : Fld := ⟨.lyCtl, 29, 28⟩
def lyCtl_galpha : Fld := ⟨.lyCtl, 27, 20⟩
def lyCtl_queue : Fld := ⟨.lyCtl, 19, 0⟩
def lyPos_x : Fld := ⟨.lyPos, 31, 16⟩
def lyPos_y : Fld := ⟨.lyPos, 15, 0⟩
def lySize_w : Fld := ⟨.lySize, 31, 16⟩
def lySize_h : Fld := ⟨.lySize, 15, 0⟩
def lyBufLo_addr : Fld := ⟨.lyBufLo, 31, 0⟩
def lyBufHi_addr : Fld := ⟨.lyBufHi, 31, 0⟩
def lyOwner_master : Fld := ⟨.lyOwner, 9, 0⟩
def lyCnt_underrun : Fld := ⟨.lyCnt, 31, 16⟩
def lyCnt_lease : Fld := ⟨.lyCnt, 15, 8⟩
def lyCnt_rowchk : Fld := ⟨.lyCnt, 7, 0⟩
def auCfg_state : Fld := ⟨.auCfg, 31, 29⟩
def auCfg_mode : Fld := ⟨.auCfg, 28, 27⟩
def auCfg_master : Fld := ⟨.auCfg, 26, 26⟩
def auCfg_bclkInv : Fld := ⟨.auCfg, 25, 25⟩
def auCfg_delay : Fld := ⟨.auCfg, 24, 24⟩
def auCfg_doutEn : Fld := ⟨.auCfg, 23, 23⟩
def auCfg_rate : Fld := ⟨.auCfg, 22, 20⟩
def auCfg_mratio : Fld := ⟨.auCfg, 19, 17⟩
def auCfg_width : Fld := ⟨.auCfg, 16, 15⟩
def auCfg_slots : Fld := ⟨.auCfg, 14, 11⟩
def auCfg_zcMs : Fld := ⟨.auCfg, 7, 0⟩
def auMask_mute : Fld := ⟨.auMask, 31, 16⟩
def auMask_slotMask : Fld := ⟨.auMask, 15, 0⟩
def auBlk_qid : Fld := ⟨.auBlk, 19, 0⟩
def auBlkf_frames : Fld := ⟨.auBlkf, 12, 0⟩
def auStat_mclkOk : Fld := ⟨.auStat, 31, 31⟩
def auStat_aesLock : Fld := ⟨.auStat, 30, 30⟩
def auStat_nonaudio : Fld := ⟨.auStat, 29, 29⟩
def auStat_mclkPpm : Fld := ⟨.auStat, 15, 0⟩
def auCnt_overflow : Fld := ⟨.auCnt, 31, 24⟩
def auCnt_glitch : Fld := ⟨.auCnt, 23, 16⟩
def auCnt_parity : Fld := ⟨.auCnt, 15, 8⟩
def auCnt_zcTo : Fld := ⟨.auCnt, 7, 0⟩
def tmCtl_snap : Fld := ⟨.tmCtl, 31, 31⟩
def tmCtl_switch : Fld := ⟨.tmCtl, 30, 30⟩
def tmCtl_force : Fld := ⟨.tmCtl, 29, 29⟩
def tmCtl_sel : Fld := ⟨.tmCtl, 28, 28⟩
def tmCtl_slew : Fld := ⟨.tmCtl, 15, 0⟩
def tmOfs_ofs : Fld := ⟨.tmOfs, 31, 0⟩
def dIncNs_incNs : Fld := ⟨.dIncNs, 3, 0⟩
def dIncFrac_incFrac : Fld := ⟨.dIncFrac, 31, 0⟩
def dAdj_go : Fld := ⟨.dAdj, 31, 31⟩
def dAdj_adj : Fld := ⟨.dAdj, 29, 0⟩
def dSetSlo_secLo : Fld := ⟨.dSetSlo, 31, 0⟩
def dSetShi_go : Fld := ⟨.dSetShi, 31, 31⟩
def dSetShi_secHi : Fld := ⟨.dSetShi, 15, 0⟩
def dSetNs_ns : Fld := ⟨.dSetNs, 29, 0⟩
def dSnapSlo_secLo : Fld := ⟨.dSnapSlo, 31, 0⟩
def dSnapShi_frac : Fld := ⟨.dSnapShi, 31, 16⟩
def dSnapShi_secHi : Fld := ⟨.dSnapShi, 15, 0⟩
def dSnapNs_ns : Fld := ⟨.dSnapNs, 29, 0⟩
def devSnapLo_time : Fld := ⟨.devSnapLo, 31, 0⟩
def devSnapHi_time : Fld := ⟨.devSnapHi, 31, 0⟩
def ftCtl_en : Fld := ⟨.ftCtl, 31, 31⟩
def ftCtl_src : Fld := ⟨.ftCtl, 30, 30⟩
def ftCtl_edge : Fld := ⟨.ftCtl, 29, 29⟩
def ftCtl_lines : Fld := ⟨.ftCtl, 14, 0⟩
def ftRate_num : Fld := ⟨.ftRate, 31, 16⟩
def ftRate_den : Fld := ⟨.ftRate, 15, 0⟩
def ftPhase_phase : Fld := ⟨.ftPhase, 31, 0⟩
def ftStat_state : Fld := ⟨.ftStat, 31, 30⟩
def ftStat_good : Fld := ⟨.ftStat, 23, 16⟩
def ftStat_err : Fld := ⟨.ftStat, 15, 0⟩
def ftCnt_ignored : Fld := ⟨.ftCnt, 31, 16⟩
def ftCnt_losses : Fld := ⟨.ftCnt, 15, 8⟩
def ftCnt_relocks : Fld := ⟨.ftCnt, 7, 0⟩
def ftFrame_frame : Fld := ⟨.ftFrame, 31, 0⟩
def tiCtl_en : Fld := ⟨.tiCtl, 31, 31⟩
def tiCtl_edge : Fld := ⟨.tiCtl, 30, 29⟩
def tiCtl_dead : Fld := ⟨.tiCtl, 15, 8⟩
def tiCtl_filter : Fld := ⟨.tiCtl, 7, 0⟩
def tiCnt_level : Fld := ⟨.tiCnt, 31, 31⟩
def tiCnt_dropped : Fld := ⟨.tiCnt, 15, 8⟩
def tiCnt_ignored : Fld := ⟨.tiCnt, 7, 0⟩
def taArmedLo_slots : Fld := ⟨.taArmedLo, 31, 0⟩
def taArmedHi_slots : Fld := ⟨.taArmedHi, 31, 0⟩
def taCnt_fired : Fld := ⟨.taCnt, 31, 16⟩
def taCnt_late : Fld := ⟨.taCnt, 15, 0⟩
def ethCnt_late : Fld := ⟨.ethCnt, 31, 24⟩
def ethCnt_nobuf : Fld := ⟨.ethCnt, 23, 16⟩
def ethCnt_timed : Fld := ⟨.ethCnt, 15, 0⟩
def twStat_role : Fld := ⟨.twStat, 31, 29⟩
def twStat_hot : Fld := ⟨.twStat, 28, 28⟩
def twStat_mode : Fld := ⟨.twStat, 27, 26⟩
def twStat_present : Fld := ⟨.twStat, 25, 25⟩
def twStat_active : Fld := ⟨.twStat, 24, 24⟩
def twStat_pairEpoch : Fld := ⟨.twStat, 15, 0⟩
def twHb_aliveTx : Fld := ⟨.twHb, 31, 16⟩
def twHb_aliveRx : Fld := ⟨.twHb, 15, 0⟩
def twCnt_missed : Fld := ⟨.twCnt, 31, 24⟩
def twCnt_stale : Fld := ⟨.twCnt, 23, 16⟩
def twCnt_crcBad : Fld := ⟨.twCnt, 15, 8⟩
def twCnt_lost : Fld := ⟨.twCnt, 7, 0⟩
def twSkew_delay : Fld := ⟨.twSkew, 31, 16⟩
def twSkew_skew : Fld := ⟨.twSkew, 15, 0⟩
def twMpktsLo_v : Fld := ⟨.twMpktsLo, 31, 0⟩
def twMpktsHi_v : Fld := ⟨.twMpktsHi, 31, 0⟩
def twPeerLo_v : Fld := ⟨.twPeerLo, 31, 0⟩
def twPeerHi_v : Fld := ⟨.twPeerHi, 31, 0⟩
def chNode_en : Fld := ⟨.chNode, 31, 31⟩
def chNode_root : Fld := ⟨.chNode, 30, 30⟩
def chNode_node : Fld := ⟨.chNode, 27, 16⟩
def chNode_rig : Fld := ⟨.chNode, 15, 0⟩
def chBudget_depthMax : Fld := ⟨.chBudget, 15, 8⟩
def chBudget_budget : Fld := ⟨.chBudget, 7, 0⟩
def chCnt_dup : Fld := ⟨.chCnt, 31, 16⟩
def chCnt_depth : Fld := ⟨.chCnt, 15, 8⟩
def chCnt_late : Fld := ⟨.chCnt, 7, 0⟩
def chRoute_routes : Fld := ⟨.chRoute, 31, 0⟩
def cpStat_state : Fld := ⟨.cpStat, 31, 30⟩
def cpStat_neighbour : Fld := ⟨.cpStat, 27, 16⟩
def cpStat_delay : Fld := ⟨.cpStat, 15, 0⟩
def thCtl_sample : Fld := ⟨.thCtl, 31, 31⟩
def thCtl_warn : Fld := ⟨.thCtl, 15, 8⟩
def thStat_pendingAck : Fld := ⟨.thStat, 31, 31⟩
def thStat_fast : Fld := ⟨.thStat, 30, 30⟩
def thStat_rise : Fld := ⟨.thStat, 29, 29⟩
def thStat_hottest : Fld := ⟨.thStat, 28, 24⟩
def thStat_valid : Fld := ⟨.thStat, 20, 16⟩
def thStat_temp : Fld := ⟨.thStat, 11, 0⟩
def thRate_rate : Fld := ⟨.thRate, 15, 0⟩
def thFault_faulty : Fld := ⟨.thFault, 23, 0⟩
def ts_valid : Fld := ⟨.ts, 31, 31⟩
def ts_faulty : Fld := ⟨.ts, 30, 30⟩
def ts_repl : Fld := ⟨.ts, 29, 29⟩
def ts_raw : Fld := ⟨.ts, 27, 16⟩
def ts_temp : Fld := ⟨.ts, 11, 0⟩
def nvStat_ready : Fld := ⟨.nvStat, 31, 31⟩
def nvStat_busy : Fld := ⟨.nvStat, 30, 30⟩
def nvStat_next : Fld := ⟨.nvStat, 24, 16⟩
def nvStat_bad : Fld := ⟨.nvStat, 15, 10⟩
def nvStat_count : Fld := ⟨.nvStat, 9, 0⟩
def nvSeq_nseq : Fld := ⟨.nvSeq, 31, 0⟩

end F

/-- The store key of instance k of register r in the window of unit u. -/
def Reg.key (r : Reg) (u k : Nat) : Nat := (r.ctorIdx * 0x1000 + u) * 0x100 + k

/-- A register's reset value from its fields. -/
def RRow.resetWord (r : RRow) : Word := r.fields.foldl (fun w f => setF w f.hi f.lo f.reset) 0

/-- The reset value of register r in unit u, where it differs between units (R16 STATE and PACE_MIN, R208 PERS, RATE and
LANE_EN), else the table's. -/
def Reg.reset (r : Reg) (u : Nat) : Word :=
  match r with
  | .ucbState => if isAon u then 3 else 0
  | .ucbPaceMin => if isAsync u then 0xFFFF else 0
  | .quadCfg =>
    let n := memberNo u
    let w := Reg.quadCfg.row.resetWord
    if n < 8 then setF (setF w 31 28 1) 23 20 3
    else if 20 ≤ n then setF (setF w 31 28 6) 19 16 0xF else w
  | _ => r.row.resetWord

/-- Where a BAR0 offset below the bit-alias region leads (R71, R72): register, unit and instance. -/
def findReg (win : Win) (off : Nat) : Option (Reg × Nat) :=
  (regsOfWin win).findSome? fun r =>
    let w := r.row
    if w.off ≤ off ∧ (off - w.off) % w.stride = 0 ∧ (off - w.off) / w.stride < w.count
    then some (r, (off - w.off) / w.stride) else none

/-- The register at an aligned BAR0 offset (R71, R72): register, unit, instance; none where nothing is mapped. -/
def regAt (a : Nat) : Option (Reg × Nat × Nat) :=
  if a < 0x10000 then (findReg .glob a).map fun p => (p.1, 0, p.2)
  else if a < 0x1010000 then
    let u := (a - 0x10000) / 0x1000
    let off := (a - 0x10000) % 0x1000
    match kindOf u with
    | none => none
    | some kd =>
      match (if off < 0x40 then findReg .ucb off else findReg (.unit kd) off) with
      | some (r, k) => some (r, u, k)
      | none => none
  else none

/-- The BAR0 offset of a register (R71). -/
def regOffset (r : Reg) (u k : Nat) : Nat :=
  let w := r.row
  match w.win with
  | .glob => w.off + w.stride * k
  | _ => 0x10000 + u * 0x1000 + w.off + w.stride * k

end Sys2Proof.Machine
end

