-- ==== Sys2Proof/Machine/State.lean ====
section
/-! DEFINITION. The state of the YT9400: what survives RST_N (fuses, flash, event NVM), the device itself (its register
store and the state the chapters give each unit), and the queue of commands that wait, first in, first out. -/
namespace Sys2Proof.Machine

/-! ### Events and records (R142) -/

/-- An error record (R142): every field of the 32 bytes. -/
structure EvRec where
  code : Nat
  lost : Bool
  esc : Bool
  sev : Nat
  cls : Nat
  c0 : Bool
  unit : Nat
  master : Nat
  timeS : Nat
  timeNs : Nat
  recseq : Nat
  d0 : Nat
  d1 : Nat
  d2 : Nat
  deriving DecidableEq, Repr

/-- What a unit raises: an event before the device stamps and numbers it. -/
structure Ev where
  code : Nat
  sev : Nat
  unit : Nat := 0
  master : Nat := 0x3FF
  d0 : Nat := 0
  d1 : Nat := 0
  d2 : Nat := 0
  deriving DecidableEq, Repr

/-- An event NVM record that waits to be written (R546): kind, the error record that caused it, INFO bytes. -/
structure NvJob where
  kind : Nat
  err : EvRec
  info : List Byte
  deriving DecidableEq, Repr

/-! ### Architecture and the bank (chapters 01 and 02) -/

/-- What a bank request asks for (R66, R580, R16). -/
inductive ReqKind where
  | wake | work | raise (level : Nat) | test
  deriving DecidableEq, Repr

/-- A request waiting at the bank (R60); `told` once E_C0_GRANT_LATE or E_GRANT_WAIT is raised for it. -/
structure BankReq where
  unit : Nat
  kind : ReqKind
  cls : Nat
  told : Bool := false
  deriving DecidableEq, Repr

/-- What a unit holds: the pip-table entry granted (before VSCALE) and whether the request was C0 (R56, R60). -/
structure Grant where
  base : Nat
  c0 : Bool
  deriving DecidableEq, Repr

/-- A unit's slot in its parent's context store (R22, R57): what is not shown in UCB_EPOCH and UCB_GEN. -/
structure CtxSlot where
  cls : Nat := 3
  bad : Bool := false
  deriving DecidableEq, Repr

/-- The architecture and the bank, beyond their registers. -/
structure BankSt where
  /-- requests in arrival order (R60) -/
  reqs : List BankReq := []
  /-- grants by unit -/
  grants : Tab Grant := []
  /-- entries units have come down to, their current not yet settled (R62) -/
  settling : Tab Nat := []
  /-- releases reported and not yet credited (R62) -/
  credits : Tab Nat := []
  /-- a voltage request waits for the next decision (R60) -/
  voltReq : Bool := false
  /-- the bank grants (false after PWR_GOOD falls or a thermal shutdown: R52, R543) -/
  granting : Bool := true
  /-- domains that report power good (R55) -/
  good : List Nat := []
  /-- consecutive windows of excess by domain (R64) -/
  excess : Tab Nat := []
  /-- windows of excess since the hold by domain (R65) -/
  heldExcess : Tab Nat := []
  /-- measured total of the windows since BANK_PEAK was read -/
  peakOpen : Bool := false
  /-- regulator set point, mV (R48, R49, R583) -/
  setPoint : Nat := 720
  /-- consecutive governor runs at 1.15 or more (R33) -/
  highRuns : Nat := 0
  /-- classes withheld by group: 0 to 3, C3 first (R33) -/
  withheld : Tab Nat := []
  /-- groups that raised E_PACE_LOW (R35) -/
  paceLow : List Nat := []
  /-- time of each group's last band switch, ns, and band rises that wait (R32) -/
  bandAt : Tab Nat := []
  bandDue : Tab Nat := []
  /-- context-store slots by unit (R22, R57) -/
  ctx : Tab CtxSlot := []
  /-- a level the unit waits to be granted (R16 ACT_LEVEL) -/
  wantLevel : Tab Nat := []
  /-- OVER and LOW_RES as last reported by E_BANK_OVER (R70) -/
  overTold : Bool := false
  /-- heartbeats missed in a row (R69) -/
  missed : Nat := 0
  /-- reloads that failed in a row, by unit (R18) -/
  reloadFails : Tab Nat := []
  /-- units whose DRAIN is to be followed by RELOAD (R272) -/
  reload : List Nat := []
  /-- conditions of E_C0_AT_RISK that firmware has reported and that still hold (R41) -/
  riskTold : List Nat := []
  deriving DecidableEq, Repr

/-! ### Register fabric (chapter 03) -/

/-- A hold (R88 to R90). -/
structure Hold where
  isUnit : Bool
  id : Nat
  cause : Nat
  refused : Nat
  seq : Nat
  info : Nat
  deriving DecidableEq, Repr

/-- The latched high word of a 64-bit counter and the reader it is tagged with (R79). -/
structure Latch where
  master : Nat
  key : Nat
  word : Word
  deriving DecidableEq, Repr

/-- The register fabric, beyond its registers. -/
structure FabSt where
  holds : List Hold := []
  /-- last hold sequence given (R90) -/
  holdSeq : Nat := 0
  /-- units whose windows are locked, and the lock of the global registers (R84) -/
  locked : List Nat := []
  lockGlobal : Bool := false
  /-- store keys of WOO fields that have taken their write (R85) -/
  wooDone : List Nat := []
  latches : List Latch := []
  /-- the debug gate (R74, R179) -/
  debugOpen : Bool := false
  /-- registers with bad parity already found, by store key (R86) -/
  badFound : List Nat := []
  /-- units with a parity mark (R86) -/
  marks : List Nat := []
  /-- firmware's shadow copy of global CFG registers written since reset (R86) -/
  shadow : Tab Word := []
  /-- the word the last read row returned, and the bytes of the last BAR1 read (with its poison mark: R436) -/
  rdata : Word := 0
  rbytes : List Byte := []
  poison : Bool := false
  deriving DecidableEq, Repr

/-! ### Queue fabric (chapter 04) -/

/-- A queue entry (R101). -/
structure Entry where
  opcode : Nat
  typ : Nat
  ord : Bool
  notify : Bool
  suspect : Bool
  notag : Bool
  epoch : Nat
  unit : Nat
  replyQid : Nat
  master : Nat
  tag : Nat
  status : Nat
  seq : Nat
  range0 : Nat
  range1 : Nat
  body : List Byte
  deriving DecidableEq, Repr

/-- A queue: the record of R97 and the entries between HEAD and TAIL, oldest first. -/
structure Queue where
  owner : Nat
  cls : Nat
  mode : Nat
  rstate : Nat
  depthLog2 : Nat
  ringHost : Bool
  noabort : Bool
  intEn : Bool
  inflLog2 : Nat
  epoch : Nat
  unit : Nat
  pinned : Bool
  vector : Nat
  errQid : Nat
  head : Nat
  tail : Nat
  ringBase : Nat
  inflight : Nat
  ents : List Entry
  /-- a number for each submission, so that order within the queue is kept (R111, R112) -/
  nsub : Nat
  /-- entries discarded and operations cancelled by the reset in progress (R119) -/
  resetCount : Nat
  /-- a hold fell while RESETTING (R118) -/
  lostEv : Bool
  deriving DecidableEq, Repr

/-- An operation holding a tag (R110, R114): its queue, its number within the queue, its entry and its target. -/
structure Op where
  tag : Nat
  qid : Nat
  num : Nat
  entry : Entry
  unit : Nat
  cls : Nat
  /-- finished before the reset point or not (R111, R119) -/
  finished : Bool
  /-- the master's hold stopped it, or a reset cancels it -/
  dying : Bool
  deriving DecidableEq, Repr

/-- A post that waits for room in a full queue (R114), or for earlier entries of a FIFO_DONE queue (R112). -/
structure Wait where
  qid : Nat
  entry : Entry
  src : Nat
  num : Nat
  deriving DecidableEq, Repr

/-- A PCIe vector (R121): masked, pending bit, a HOLDOFF window open, a post fell inside it. -/
structure Vec where
  masked : Bool := false
  pend : Bool := false
  window : Bool := false
  fell : Bool := false
  deriving DecidableEq, Repr

/-- The queue fabric, beyond its registers. -/
structure QfSt where
  qs : Tab Queue := []
  ops : List Op := []
  waits : List Wait := []
  fifo : List Wait := []
  /-- reply queues whose full episode has been reported (R114) -/
  fullTold : List Nat := []
  /-- queue last served in each class (R109) -/
  served : Tab Nat := []
  /-- the class now served in the round and its dispatches so far (R109) -/
  turnCls : Nat := 1
  turnCnt : Nat := 0
  /-- queues that have waited for a tag since their last dispatch (R110) -/
  tagWait : List Nat := []
  /-- queues whose dispatch a full completion ring stops (R384) -/
  stopped : List Nat := []
  /-- on-chip records of C1 to C3 queues, least recently used first (R100) -/
  cached : List Nat := []
  /-- vectors by function × 0x1000 + vector (R121) -/
  vecs : Tab Vec := []
  /-- messages sent, newest first: function × 0x1000 + vector -/
  msgs : List Nat := []
  deriving DecidableEq, Repr

/-! ### Ozder, mailboxes and the log (chapter 05) -/

/-- A mailbox (R131 to R138). -/
structure Mbox where
  req : Nat
  reply : Nat
  event : Nat
  owner : Nat
  boot : Bool
  epoch : Nat
  closing : Bool
  /-- subscriptions (R152): minimum severity and area bitmap -/
  subs : List (Nat × Nat)
  deriving DecidableEq, Repr

/-- A long verb's job (R148). -/
structure Job where
  job : Nat
  owner : Nat
  mbox : Nat
  seq : Nat
  svc : Nat
  verb : Nat
  req : Req
  /-- 0 running, 1 done, 2 failed (R150) -/
  state : Nat
  outcome : Nat
  /-- an outcome the device has already decided -/
  decided : Option Nat
  /-- a handle or count the verb gave the job -/
  aux : Nat
  deriving DecidableEq, Repr

/-- A core pair (R128): fault count within 24 h and whether it stays halted until RST_N. -/
structure Pair where
  faults : Nat := 0
  faultAt : Nat := 0
  stuck : Bool := false
  deriving DecidableEq, Repr

/-- Ozder, beyond its registers. -/
structure OzSt where
  mboxes : List Mbox := []
  jobs : List Job := []
  nextJob : Nat := 1
  nextQid : Nat := 0x200
  nextEpoch : Nat := 1
  /-- last RECSEQ given (R142) -/
  recseq : Nat := 0
  /-- the log ring, oldest first (at most 65,536 records), records lost, and counts by code (R152) -/
  log : List EvRec := []
  lost : Nat := 0
  stats : Tab Nat := []
  pairA : Pair := {}
  pairB : Pair := {}
  /-- both pairs halted: Ozder service has ended (R128) -/
  failed : Bool := false
  /-- device error queues S1 to S4: waiting records, oldest first (R556) -/
  q1 : List EvRec := []
  q2 : List EvRec := []
  q3 : List EvRec := []
  q4 : List EvRec := []
  /-- discards of each device error queue since its E_HL_EQ_LOST was taken, since the last EQ_STATS, and LOST owed (R559) -/
  disc : Tab Nat := []
  discStats : Tab Nat := []
  lostNext : List Nat := []
  /-- units recovering (R558) -/
  recovering : List Nat := []
  /-- boot mailboxes whose GO waits for service-ready (R133) -/
  bootWait : List Nat := []
  deriving DecidableEq, Repr

/-- The pins that carry state (chapters 02, 06, 19, 20, 21). -/
structure Pins where
  rstN : Bool := false
  pwrGood : Bool := true
  perstN : Bool := true
  bootSel : Nat := 0
  twinPresent : Bool := false
  twinActive : Bool := false
  /-- THERM_TRIP_N, driven low at a shutdown (R543) -/
  thermTripN : Bool := true
  deriving DecidableEq, Repr


/-! ### Boot, fuses and updates (chapter 06) -/

/-- A fuse slot: the SHA-384 of a public key once programmed, and its revocation bit (R175). -/
structure FuseSlot where
  hash : Option (List Byte)
  revoked : Bool
  deriving DecidableEq, Repr

/-- A manifest entry (R172). -/
structure Seg where
  off : Nat
  len : Nat
  typ : Nat
  dest : Nat
  load : Nat
  digest : List Byte
  deriving DecidableEq, Repr

/-- The facts of a verified image that the device keeps while it runs it (R171, R172). -/
structure Image where
  fwver : Nat
  svn : Nat
  edSlot : Nat
  mlSlot : Nat
  pmbus : Nat
  /-- SHA-512 of the manifest (R177) -/
  digest : List Byte
  /-- boot source as BOOT_STATUS SRC -/
  src : Nat
  segs : List Seg
  /-- the training parameters segment's bytes, where the image carries exactly one (R582) -/
  train : Option (List Byte)
  deriving DecidableEq, Repr

/-- An update session (R180, R181). -/
structure Session where
  handle : Nat
  bank : Nat
  len : Nat
  verified : Bool
  deriving DecidableEq, Repr

/-- Boot state beyond the registers. -/
structure BootSt where
  image : Option Image := none
  session : Option Session := none
  nextHandle : Nat := 1
  /-- a RESTART waits for its 5 ms (R181) -/
  restart : Bool := false
  /-- events the ROM recorded, raised once firmware runs (R168) -/
  romEvents : List Ev := []
  /-- event NVM records to be written within the command under way -/
  nvOut : List NvJob := []
  /-- debug nonces outstanding (R179) -/
  nonces : List (List Byte) := []
  deriving DecidableEq, Repr

/-- A record of the event NVM (R546), and whether its CRC verifies (R545). -/
structure NvRec where
  nseq : Nat
  kind : Nat
  boots : Nat
  err : EvRec
  temps : List Int
  valid : Nat
  info : List Byte
  good : Bool
  deriving DecidableEq, Repr

/-- What survives RST_N: fuses (R175), the two flash banks (R161), the event NVM (R53, R545). -/
structure Nv where
  ed : List FuseSlot := []
  ml : List FuseSlot := []
  svn : Nat := 0
  serial : Nat := 0
  /-- flash of banks A and B; an erased byte reads 0xFF and is not listed (R166) -/
  flashA : Tab Byte := []
  flashB : Tab Byte := []
  /-- event NVM records by slot 0 to 511 -/
  recs : Tab NvRec := []
  boots : Nat := 0
  nseq : Nat := 0
  deriving DecidableEq, Repr

/-! ### Lanes and links (chapter 07) -/

/-- A Bastu link in training (R202, R205): mode 0 none, 1 fast retrain, 2 full training; full trainings begun since the
cause; consecutive consistent ALIGN columns; whether E_LINK_TRAIN_FAIL stands; headers discarded since the last E_LINK_HDR. -/
structure LinkSt where
  mode : Nat := 0
  tries : Nat := 0
  aligned : Nat := 0
  failed : Bool := false
  deriving DecidableEq, Repr

/-- A lane's LINK protocol (R194, R202): far end's state, our response to its last request and that request's sequence. -/
structure LaneSt where
  far : Nat := 0
  resp : Nat := 0
  seq : Nat := 0
  deriving DecidableEq, Repr

/-- Lanes beyond their registers. -/
structure LnSt where
  links : Tab LinkSt := []
  lanes : Tab LaneSt := []
  /-- times of the packets discarded in the last 1 ms by link, newest first (R213) -/
  hdrAt : Tab (List Nat) := []
  deriving DecidableEq, Repr

/-! ### Sensor ingest (chapter 08) -/

/-- A source line being received (R218, R226): line number, stamp, samples placed so far from source column 0, segments
accepted, fill samples, line flags of R235. -/
structure LineRx where
  no : Nat
  stamp : Nat
  px : List Nat
  segs : Nat
  fill : Nat
  flags : Nat
  /-- the source column after the last segment, cut or not -/
  reach : Nat := 0
  deriving DecidableEq, Repr

/-- A source (R228): its open frame, whether that frame is discarded (R230 step 4), FRAME of the last FRAME_START, the next
line due, the line being received, lines received and filled. -/
structure SrcSt where
  opn : Bool := false
  slip : Bool := false
  last : Option Nat := none
  next : Nat := 0
  cur : Option LineRx := none
  deriving DecidableEq, Repr

/-- A member's part of the open camera frame (R236 MEMBERS). -/
structure MemSt where
  joined : Bool := false
  closed : Bool := false
  /-- byte 1 of the member's entry -/
  flags : Nat := 0
  head : Nat := 0
  got : Nat := 0
  filled : Nat := 0
  headTime : Nat := 0
  deriving DecidableEq, Repr

/-- A camera (R230, R231): its open frame and the number of that, or the next, frame; whether a stop waits for the close. -/
structure CamSt where
  opn : Bool := false
  no : Nat := 0
  start : Nat := 0
  flags : Nat := 0
  fillLines : Nat := 0
  metaLen : Nat := 0
  skewPast : Bool := false
  stopping : Bool := false
  mems : List MemSt := []
  deriving DecidableEq, Repr

/-- A closed line that waits in a deframer's line buffer for its commit (R235, R411). -/
structure LineJob where
  cam : Nat
  frame : Nat
  link : Nat
  member : Nat
  line : Nat
  row : Nat
  stamp : Nat
  crc : Nat
  flags : Nat
  segs : Nat
  fill : Nat
  bytes : List Byte
  deriving DecidableEq, Repr

/-- A closed camera frame as reported (R232). -/
structure FrameRep where
  cam : Nat
  frame : Nat
  slot : Nat
  start : Nat
  stop : Nat
  flags : Nat
  deriving DecidableEq, Repr

/-- A register transaction of a back-channel (R221). -/
structure BcOp where
  link : Nat
  tid : Nat
  src : Nat
  wr : Bool
  job : Nat
  sent : Bool
  packet : List Byte
  deriving DecidableEq, Repr

/-- Ingest beyond its registers. -/
structure IngSt where
  srcs : Tab SrcSt := []
  cams : Tab CamSt := []
  /-- lines waiting for their commit, oldest first -/
  lines : List LineJob := []
  /-- frames reported and not yet taken by the develop and codec paths, oldest first (R232) -/
  frames : List FrameRep := []
  /-- START_TIME of recent frames by camera, newest first: frame and stamp (R331) -/
  opened : Tab (List (Nat × Nat)) := []
  /-- lines of the in-line camera handed to the tiles (R237), oldest first -/
  inl : List LineJob := []
  bc : List BcOp := []
  nextTid : Nat := 0
  nextTrig : Nat := 0
  /-- packets sent on the back-channels, newest first: link and bytes from PFIELD0 on (R217) -/
  back : List (Nat × List Byte) := []
  /-- times of the packets discarded in the last 1 ms, newest first: by link, 0x100 on for CRC-32C (R243) -/
  errAt : Tab (List Nat) := []
  deriving DecidableEq, Repr


/-! ### Colour (chapter 10) -/

/-- A parameter set (R296): binary32 patterns, but for the flags. -/
structure FrameSet where
  wmode : Nat := 0
  hilite : Nat := 0
  exposure : Nat := 0x3F800000
  white : List Nat := [0x3F800000, 0x3F800000, 0x3F800000, 0x3F800000, 0x3F800000, 0x3F800000]
  d : Nat := 0x3F800000
  aMin : Nat := 0x3E800000
  tLo : Nat := 0x3F800000
  tHi : Nat := 0x40400000
  n0 : Nat := 0x358637BD
  n1 : Nat := 0x38D1B717
  deriving DecidableEq, Repr


/-! ### Raw reconstruction and its tables (chapters 09 and 10) -/

/-- An entry of a defect map, native coordinates (R255). -/
structure Defect where
  col : Nat
  row : Nat
  kind : Nat
  len : Nat
  deriving DecidableEq, Repr

/-- A matrix set (R263): 9,600 working floats, and the record it was derived from (empty for a set loaded directly, which a
later map change makes stale: R273). -/
structure MSet where
  coef : List Nat
  src : List Byte
  stale : Bool
  deriving DecidableEq, Repr

/-- A table generation of a camera (R268, R295). -/
structure TabGen where
  gen : Nat := 0
  white : Tab Nat := []
  bl : Tab (List Nat) := []
  maps : Tab (List Nat) := []
  defs : Tab (List Defect) := []
  ffMode : Nat := 0
  ffS : Nat := 1
  ff : List Byte := []
  sets : Tab MSet := []
  ir : List Nat := []
  ots : Tab (List Byte) := []
  shapers : Tab (List Nat) := []
  luts : Tab (List Nat) := []
  tnr : Bool := false
  uf32 : Bool := false
  hist : Nat := 0
  rate : Nat := 0
  statLo : Nat := 0x3A800000
  statHi : Nat := 0x3F666666
  deriving DecidableEq, Repr

/-- A parameter set with its effect frame and PSEQ (R297); `mask` the fields it changes until it takes effect. -/
structure PSet where
  effect : Nat
  pseq : Nat
  mask : Nat
  set : FrameSet
  deriving DecidableEq, Repr

/-- A camera in the pipeline: table generations (R268), parameter sets (R297), automatic control (R282). -/
structure PipeCam where
  committed : TabGen := {}
  pending : Option TabGen := none
  old : TabGen := {}
  nextGen : Nat := 1
  commitFrame : Nat := 0
  /-- time at which the pending tables were loaded, a COMMIT running (R268), and its job -/
  loadAt : Option Nat := none
  job : Nat := 0
  /-- the commit frame's first stripe has not started -/
  announce : Bool := false
  /-- sets in effect, newest first, and sets that wait -/
  sets : List PSet := []
  waiting : List PSet := []
  nextPseq : Nat := 1
  autoMask : Nat := 0
  target : Nat := 0x3E3851EC
  expMin : Nat := 0
  expMax : Nat := 0
  autoAt : Option Nat := none
  /-- first frame after the stripe layout changed, or TNR was enabled (R285) -/
  layoutFrame : Option Nat := none
  tnrFrame : Option Nat := none
  /-- base of the statistics area; frames whose stripes it holds: frame mod 16 to (frame, stripes written) -/
  stats : Nat := 0
  statFrames : Tab (Nat × Nat) := []
  /-- TNR stripe tags: buffer × 256 + stripe to (frame, exposure, lines) (R283) -/
  tags : Tab (Nat × Nat × Nat) := []
  deriving DecidableEq, Repr

/-! ### Sharing the pipeline and output streams (chapter 11) -/

/-- A tile's role (R303). -/
inductive Role where
  | inl (cam stripe : Nat) | reserve | part (k : Nat) | compat | spare
  deriving DecidableEq, Repr

/-- A camera's allocation (R305): mode as OUT_CAM, stripes, frame rate in mHz, partition. -/
structure CamAlloc where
  mode : Nat
  n : Nat
  rate : Nat
  part : Nat
  deriving DecidableEq, Repr

/-- A stripe job (R308, R314): not yet started; `redo` for redo work. -/
structure SJob where
  cam : Nat
  frame : Nat
  stripe : Nat
  redo : Bool
  part : Nat
  deriving DecidableEq, Repr

/-- A stripe a tile holds: assigned, and started once its tables are latched (R245). -/
structure TileRun where
  cam : Nat
  frame : Nat
  stripe : Nat
  redo : Bool
  started : Bool
  part : Nat
  deriving DecidableEq, Repr

/-- A camera frame in development: its report, stripes not finished, whether work was redone, point-C verdicts in (member ×
65536 + line), and whether a mismatch has been redone (R413). -/
structure FrameDev where
  rep : FrameRep
  left : List Nat
  redone : Bool
  verdicts : List Nat
  again : Bool
  /-- its first stripe has started, so its streams have taken their buffers -/
  begun : Bool
  deriving DecidableEq, Repr

/-- A stream's frame in progress (R328): camera frame, OUT_FRAME, the buffer's operation and place; `stopped` once a
substitute was posted for it (R332). -/
structure StrFrame where
  frame : Nat
  out : Nat
  tag : Nat
  base : Nat
  space : Nat
  owner : Nat
  deriving DecidableEq, Repr

/-- An output stream beyond its registers. -/
structure StrSt where
  internal : Bool := false
  owner : Nat := 0
  epoch : Nat := 0
  depthLog2 : Nat := 0
  coef : List Nat := []
  frames : List StrFrame := []
  skipped : Nat := 0
  lastGood : Nat := 0xFFFFFFFF
  /-- OUT_FRAME of frames completed, substituted or skipped, newest first -/
  outs : List Nat := []
  stopping : Bool := false
  firstFrame : Nat := 0
  /-- alignment group the stream was dropped from, and the reference frame at which it joins again -/
  dropped : Option Nat := none
  joinAt : Option Nat := none
  deriving DecidableEq, Repr

/-- A rotation that waits for a frame start (R311): from, to. -/
structure Rotation where
  a : Nat
  b : Nat
  job : Nat
  deriving DecidableEq, Repr

/-- The pipeline beyond its registers. -/
structure PipeSt where
  cams : Tab PipeCam := []
  roles : Tab Role := []
  allocs : Tab CamAlloc := []
  jobs : List SJob := []
  runs : Tab TileRun := []
  frames : List FrameDev := []
  strs : Tab StrSt := []
  rots : List Rotation := []
  /-- compatibility: slot now served, stripe cursor, and the camera each tile developed last (R315, R316) -/
  cptSlot : Nat := 0
  cptLast : Tab Nat := []
  /-- E_OUT_NO_SPARE stands -/
  noSpare : Bool := false
  deriving DecidableEq, Repr



/-! ### The codec (chapter 12) -/

/-- What a coder or decoder of a slice keeps (R345, R347): contexts (A, N) by component × 8 + context, rows of the current frame by
row × 4 + component, the first row since the last window reset, rows of the previous frame. -/
structure Coder where
  ctx : List (Nat × Nat) := []
  rows : Tab (List Nat) := []
  base : Nat := 0
  prev : Tab (List Nat) := []
  deriving DecidableEq, Repr

/-- A slice of a stream (R343, R356, R362): engine, columns, position, rate state, coder; a move that waits: engine and job. -/
structure PsSlice where
  engine : Nat
  x0 : Nat
  w : Nat
  row : Nat
  seq : Nat
  q : Nat
  last : Nat
  spent : Nat
  coder : Coder
  hreset : Bool
  moveTo : Option (Nat × Nat)
  deriving DecidableEq, Repr

/-- A committed chunk (R353, R365): its buffer, and the rows that have their verdict; `bad` and `unchk` as R354 found. -/
structure PsChunk where
  slice : Nat
  seq : Nat
  row0 : Nat
  rows : Nat
  tag : Nat
  base : Nat
  space : Nat
  owner : Nat
  bytes : Nat
  cflags : Nat
  q : Nat
  posted : Bool
  deriving DecidableEq, Repr

/-- A stream frame (R351): the slices that still code it, its chunks, the rows with a verdict. -/
structure PsFrame where
  no : Nat
  cam : Nat
  start : Nat
  inFlags : Nat
  outFlags : Nat
  tgen : Nat
  pseq : Nat
  /-- base of the source buffer of an output stream's frame -/
  base : Nat
  key : Bool
  skipped : Bool
  hdr : Bool
  left : List Nat
  bytes : Nat
  chunks : List PsChunk
  checked : List Nat
  deriving DecidableEq, Repr

/-- An encode stream (R340, R372). -/
structure PsStream where
  /-- the 32 bytes of its configuration block -/
  cfg : List Byte := []
  run : Bool := false
  epoch : Nat := 0
  cfgGen : Nat := 0
  depthLog2 : Nat := 0
  frames : List PsFrame := []
  nextFrame : Nat := 0
  /-- frames that CODEC.KEY named; frames were lost before the next one -/
  keyAt : List Nat := []
  lost : Bool := false
  stopping : Bool := false
  /-- saved and waiting (CTX_SAVE); a save that waits for its frame boundary: destination and job -/
  waiting : Bool := false
  save : Option (Nat × Nat) := none
  stopJob : Nat := 0
  parts : List PsSlice := []
  /-- queue that takes the bound output stream's completions; base of the history area -/
  replyQ : Nat := 0
  hist : Nat := 0
  /-- camera frame of the last frame coded -/
  prevCam : Option Nat := none
  deriving DecidableEq, Repr

/-- An engine (R360, R369): role 0 idle, 1 active, 2 spare, 3 under test; a self-test is due (R355). -/
structure EngineSt where
  role : Nat := 0
  testDue : Bool := false
  deriving DecidableEq, Repr

/-- The codec beyond its registers. -/
structure PsSt where
  strs : Tab PsStream := []
  engines : Tab EngineSt := []
  /-- closed camera frames reported and not yet taken by encode streams, oldest first -/
  reps : List FrameRep := []
  deriving DecidableEq, Repr

/-! ### Integrity (chapter 14) -/

/-- Integrity beyond its registers: CVUs that have taken a first alive value, CVUs whose E_RC_ALIVE_STALE is told (R422). -/
structure IntegSt where
  seen : List Nat := []
  stale : List Nat := []
  deriving DecidableEq, Repr


/-! ### HBM (chapter 15) -/

/-- An entry of the region table (R431, R442). -/
structure Rgn where
  wr : Bool
  rd : Bool
  rsvd : Bool
  base : Nat
  pages : Nat
  mask : Nat
  master : Nat
  deriving DecidableEq, Repr

/-- A range of a region that firmware has allocated (R431): base, bytes, the owner's tag, region-table entry granted. -/
structure Area where
  base : Nat
  size : Nat
  tag : Nat
  deriving DecidableEq, Repr

/-- HBM beyond its registers. -/
structure HbmSt where
  /-- the 48 GiB; an unlisted byte reads 0 (R433) -/
  mem : Tab Byte := []
  /-- 256-bit words (address / 32) with a single-bit error, and uncorrectable or poisoned words (R436) -/
  sbe : List Nat := []
  ue : List Nat := []
  rgn : Tab Rgn := []
  /-- firmware's allocations, ascending (R430, R431) -/
  areas : List Area := []
  /-- user regions by function: base and size in 32 MiB units (R432) -/
  user : Tab (Nat × Nat) := []
  /-- rows recorded for repair since the last training: pseudo-channel and row (R434) -/
  rows : List (Nat × Nat) := []
  /-- mode registers written at training, by stack × 256 + number (R582) -/
  mr : Tab Nat := []
  /-- next word of the scrubber (R437) -/
  scrubAt : Nat := 0
  /-- stacks woken from self-refresh by an access (R441) -/
  woken : List Nat := []
  deriving DecidableEq, Repr

/-! ### The media service (chapter 13) -/

/-- A volume header (R393), member index and CRC apart. -/
structure VolHdr where
  members : Nat
  id : List Byte
  pau : Nat
  rtAu : Nat
  rtCount : Nat
  dataAu : Nat
  runs : Nat
  gen : Nat
  created : Nat
  serials : List Nat
  label : List Byte
  deriving DecidableEq, Repr

/-- A clip entry (R394). -/
structure Clip where
  state : Nat
  kind : Nat
  tracks : Nat
  first : Nat
  length : Nat
  start : Nat
  stop : Nat
  frames : Nat
  flags : Nat
  sha : List Byte
  aus : Nat
  triggers : Nat
  name : List Byte
  uuid : List Byte
  deriving DecidableEq, Repr

/-- What a pack write carries: bytes, or an AU of volume metadata as it stood when the write was made (R391, R392): a header copy, an
AU of the clip table, an AU of the run table, with their GEN. -/
inductive MData where
  | empty
  | bytes (b : List Byte)
  | header (member gen : Nat) (h : VolHdr)
  | clips (au gen : Nat) (vol : List Byte) (t : Tab Clip)
  | runs (au gen : Nat) (vol : List Byte) (t : Tab Nat)
  deriving DecidableEq, Repr

/-- Who a media command answers: a host queue pair's entry, a connection's command, an AU of a clip, volume metadata (with the job it
decides, 0 none), a fence, or nobody (discarded or dropped, run to its end). -/
inductive MOrig where
  | host (qp tag : Nat)
  | tgt (key queue ctag : Nat)
  | au (clip auseq : Nat)
  | tab (job : Nat)
  | fence (port : Nat)
  | dead
  deriving DecidableEq, Repr

/-- A command to one pack (R381, R385): its parent and byte offset there, the command it waits for (0 none), whether it is issued,
and where. -/
structure PCmd where
  port : Nat
  parent : Nat
  opc : Nat
  lba : Nat
  nblk : Nat
  cdw0 : Nat
  off : Nat
  data : MData
  after : Nat
  issued : Bool := false
  q : Nat := 0
  ctag : Nat := 0
  deriving DecidableEq, Repr

/-- A media command (R381): its pack commands not ended, first error, data received; for a target's WRITE the burst outstanding. -/
structure MCmd where
  id : Nat
  orig : MOrig
  opc : Nat
  ord : Bool
  cid : Nat
  nsid : Nat
  lba : Nat
  nblk : Nat
  owner : Nat
  buf : Nat
  begun : Bool
  left : Nat
  status : Nat := 0
  data : List Byte := []
  burst : Option (Nat × Nat) := none
  rx : Nat := 0
  deriving DecidableEq, Repr

/-- A pack port (R374 to R377): PACK_TIMEOUT in ms, the pack's IDENTIFY page, what CONNECT_ACK granted (no queues: not connected),
reconnects since the last answer, the job of PORT_SET, the last QRESET_DONE received. -/
structure PackPort where
  timeout : Nat := 2000
  ident : List Byte := []
  queues : Nat := 0
  depth : Nat := 0
  burst : Nat := 0
  attempts : Nat := 0
  job : Nat := 0
  reset : Option (Nat × Nat) := none
  deriving DecidableEq, Repr

/-- A connection that the device serves as target (R378): port 0 to 7, or 0x1000 + node over a chain (R531). -/
structure Conn where
  key : Nat
  serial : Nat
  queues : Nat
  depth : Nat
  deriving DecidableEq, Repr

/-- A host queue pair (R383): its queues, the completion ring's place, the next index written, completions that wait for room. -/
structure QPair where
  owner : Nat
  sq : Nat
  errQ : Nat
  cqBase : Nat
  cqLog2 : Nat
  vector : Nat
  tail : Nat := 0
  waiting : List (List Byte) := []
  closeJob : Nat := 0
  deriving DecidableEq, Repr

/-- A namespace (R389). -/
structure NSpace where
  vol : Bool
  members : List Nat
  blocks : Nat
  deriving DecidableEq, Repr

/-- A mounted volume (R392 to R394): its header, its members' ports in member order, clips in use, their CLIP_HEAD payloads, run-table
entries that are not free, GEN of metadata AUs, and whether it serves reads only (R398). -/
structure Vol where
  hdr : VolHdr
  ports : List Nat
  clips : Tab Clip
  heads : Tab (List Byte)
  runs : Tab Nat
  gens : Tab Nat
  readOnly : Bool
  deriving DecidableEq, Repr

/-- A track of a recording (R395): KIND, camera, codec stream or audio port, the descriptor; codec frames whose header has come
(number, camera frame, START_TIME, recorded), the last camera frame recorded. -/
structure Track where
  kind : Nat
  obj : Nat
  desc : List Byte
  frames : List (Nat × Nat × Nat × Bool) := []
  last : Option Nat := none
  deriving DecidableEq, Repr

/-- A record that waits for its AU (R395): payload in HBM (`len` bytes at `addr`) or held by firmware (`inl`); for raw rows the line
checks as offset, length and CRC-64; the RECBUF part it frees once it is in its AU (0 none). -/
structure RecItem where
  typ : Nat
  track : Nat
  time : Nat
  frame : Nat
  addr : Nat := 0
  len : Nat := 0
  inl : List Byte := []
  lines : List (Nat × Nat × Nat) := []
  buf : Nat := 0
  deriving DecidableEq, Repr

/-- The end of a record in the stream: offset, SHA-256 state there, its RSEQ, TIME and FRAME. -/
structure RecEnd where
  off : Nat
  sha : List Nat
  rseq : Nat
  time : Nat
  frame : Nat
  deriving DecidableEq, Repr

/-- A clip being recorded or drained (R396 to R398, R401). `phase`: 0 recording, 1 stopping, 2 final AU issued. -/
structure Rec where
  clip : Nat
  ring : Option Nat := none
  tracks : List Track
  /-- RECBUF: place and size, parts in use, the part given to each codec or audio buffer (with its track), next part -/
  base : Nat := 0
  size : Nat := 0
  used : List Area := []
  fed : Tab Nat := []
  nextBuf : Nat := 1
  rate : Nat := 0
  replyQ : Nat := 0
  started : Bool := true
  startAt : Nat := 0
  stopAt : Option Nat := none
  reps : List FrameRep := []
  items : List RecItem := []
  rseq : Nat := 0
  /-- stream bytes of the AU now filling, its AUSEQ, the GEN last written for it, whether all of it has been written -/
  part : List Byte := []
  au : Nat := 0
  gen : Nat := 0
  flushed : Bool := false
  /-- stream bytes assembled, the SHA-256 state after them and at the start of the AU now filling -/
  total : Nat := 0
  sha : List Nat := []
  auSha : List Nat := []
  /-- ends of records beyond what is durable, and the last one before that, newest first -/
  ends : List RecEnd := []
  /-- AUs issued and not done: AUSEQ, bytes through it, SHA-256 state there; AUs whose write has ended (with STATUS) -/
  out : List (Nat × Nat × List Nat) := []
  ended : List (Nat × Nat) := []
  issued : Nat := 0
  doneTo : Nat := 0
  /-- the metadata write that AUs wait for (0 none) -/
  after : Nat := 0
  frames : Nat := 0
  flags : Nat := 0
  phase : Nat := 0
  job : Nat := 0
  deriving DecidableEq, Repr

/-- A burst ring (R400, R401): frames reported and not copied, frames copied (frame, START_TIME, slot, records), oldest first; next
slot; the trigger frame and time; repeats; triggers counted; whether it is frozen, and the clip it drains to. -/
structure Ring where
  cam : Nat
  frames : Nat
  pre : Nat
  post : Nat
  auto : Bool
  mask : Nat
  base : Nat
  slot : Nat
  reps : List FrameRep := []
  copied : List (Nat × Nat × Nat × List RecItem) := []
  next : Nat := 0
  trig : Option (Nat × Nat) := none
  repeats : List Nat := []
  triggers : Nat := 0
  frozen : Bool := false
  drain : Option Nat := none
  deriving DecidableEq, Repr

/-- A saved session (R406): the opaque record, and the configuration registers and tables it stands for. -/
structure SessRec where
  bytes : List Byte
  regs : Tab Word
  cams : Tab PipeCam
  codec : Tab (List Byte)
  deriving DecidableEq, Repr

/-- The media service and the session beyond their registers. -/
structure MediaSt where
  ports : Tab PackPort := []
  pcmds : List PCmd := []
  cmds : List MCmd := []
  nextCmd : Nat := 1
  conns : List Conn := []
  qps : Tab QPair := []
  spaces : Tab NSpace := []
  vol : Option Vol := none
  recs : List Rec := []
  rings : Tab Ring := []
  nextRing : Nat := 1
  /-- packets sent on the Bastu-M links, newest first: port, or 0x1000 + node, and the bytes from PTYPE on -/
  sent : List (Nat × List Byte) := []
  /-- the fence value kept as a target, and the last value accepted by port (R376) -/
  fence : Option Nat := none
  fenced : Tab Nat := []
  /-- saved sessions; cameras, output and codec streams that RESUME restarts (R406) -/
  saved : List SessRec := []
  resume : Option (List Nat × List Nat × List Nat) := none
  deriving DecidableEq, Repr


/-! ### Scan-out (chapter 16) -/

/-- A buffer that a layer holds on a read lease (R461): tag of its flip (or number of the base buffer), geometry, owner, first and
last frame fetched, FLAGS, and for the base its camera frame. -/
structure ScanBuf where
  tag : Nat
  base : Nat
  pitch : Nat
  w : Nat
  h : Nat
  owner : Nat
  first : Option Nat := none
  last : Nat := 0
  flags : Nat := 0
  cam : Nat := 0
  deriving DecidableEq, Repr

/-- A layer beyond its registers: owner and epoch of its binding, buffer shown, buffers that wait to retire, the job of an unbind. -/
structure ScanLayer where
  owner : Nat := 0
  epoch : Nat := 0
  bound : Bool := false
  cur : Option ScanBuf := none
  old : List ScanBuf := []
  closing : Bool := false
  job : Nat := 0
  deriving DecidableEq, Repr

/-- A DisplayPort output's sink as read by AUX (R450), trainings failed in a row, the job of an enable. -/
structure Sink where
  edid : List Byte := []
  dpcd : List Byte := []
  tries : Nat := 0
  deriving DecidableEq, Repr

/-- The base layer's binding (R459): stream, buffers and their place and size, the caller, the internal reply queue. -/
structure BaseBind where
  stream : Nat
  nbuf : Nat
  area : Nat
  size : Nat
  owner : Nat
  replyQ : Nat
  deriving DecidableEq, Repr

/-- Scan-out beyond its registers: the timing in force (SC_TIM_H to SC_PCLK in register order), DP_FMT and RANGE in force, base frames
ready (buffer, camera frame, oldest first), the rows of the frame in progress and the last whole picture, pixels as 12-bit R′G′B′. -/
structure ScanSt where
  tim : List Nat := [0x11300F00, 0x80B00058, 0x005A0870, 0x8008000A, 0x005A005A, 0x00091050]
  dpFmt : Nat := 2
  range : Nat := 1
  layers : Tab ScanLayer := []
  sinks : Tab Sink := []
  base : Option BaseBind := none
  ready : List (Nat × Nat) := []
  rows : List (List Nat) := []
  picture : List (List Nat) := []
  /-- ENC that every output signals (R447) -/
  enc : Nat := 0
  rowTold : Bool := false
  deriving DecidableEq, Repr

/-! ### Audio (chapter 17) -/

/-- What applies to a port from a device time on (R471 to R475): a start, a stop, mute or unmute of channels, changes of channels that
apply at once, a mute of every channel by a fault, its end, an FS glitch. -/
inductive AudEv where
  | start
  | stop
  | mute (on : Bool) (mask : Nat)
  | due (mask : Nat)
  | hold
  | release
  | glitch
  deriving DecidableEq, Repr

/-- A channel (R474): passing samples, muted, the changes that wait, software's mute target, its previous sample. -/
structure AudChan where
  on : Bool := false
  muted : Bool := false
  wantOn : Option Bool := none
  wantMute : Option Bool := none
  sw : Bool := false
  prev : Option Nat := none
  deriving DecidableEq, Repr

/-- An audio port beyond its registers: queue figures, channels, changes by device time in ns, MCLK lost, BSEQ of the block gathered,
blocks lost since the last one delivered, FLAGS set so far in that block, channel status, slots of the last frame, DOUT frames of the
last block (R470), the job of STOP, whether the stop has begun, whether its first block is still to come. -/
structure AudPort where
  owner : Nat := 0
  internal : Bool := false
  epoch : Nat := 0
  depthLog2 : Nat := 0
  set : Bool := false
  chans : List AudChan := []
  evs : List (Nat × AudEv) := []
  mclkLost : Bool := false
  bseq : Nat := 0
  lost : Nat := 0
  flags : Nat := 0
  cs : List Byte := []
  last : List Nat := []
  dout : List (List Nat) := []
  stopJob : Nat := 0
  stopping : Bool := false
  fresh : Bool := false
  deriving DecidableEq, Repr

/-- The audio ports beyond their registers. -/
structure AudSt where
  ports : Tab AudPort := []
  deriving DecidableEq, Repr


/-! ### Time (chapter 18) -/

/-- A domain clock (R482): its value and the increment in force, ns and 2⁻³² ns. -/
structure Clock where
  sec : Nat := 0
  ns : Nat := 0
  frac : Nat := 0
  incNs : Nat := 4
  incFrac : Nat := 0
  deriving DecidableEq, Repr

/-- An armed action slot (R496): KIND, FLAGS, COUNT, device time of the next fire in ns, PERIOD, OFFSET and DIV of a FRAME_REF
action, the 12 bytes of PARAM, who armed it, fires made; for kinds 3 and 4 the clip that starts or stops. -/
structure Act where
  kind : Nat
  late : Bool
  frameRef : Bool
  count : Nat
  time : Nat
  period : Nat
  offset : Nat
  div : Nat
  param : List Byte
  owner : Nat
  fires : Nat := 0
  obj : Nat := 0
  deriving DecidableEq, Repr

/-- A bound Ethernet port (R489). -/
structure EthPort where
  owner : Nat
  epoch : Nat
  rx : Nat
  launch : List Nat
  /-- device time at which the head of a launch queue reached the head, by QID (R491) -/
  headAt : Tab Nat := []
  closing : Bool := false
  job : Nat := 0
  deriving DecidableEq, Repr

/-- A trigger input (R499): capture queue, accepted edges, time of the last accepted one. -/
structure TrigIn where
  qid : Nat := 0
  seq : Nat := 0
  last : Option Nat := none
  deriving DecidableEq, Repr

/-- The frame timing generator (R492 to R495): time of the last frame edge in 1/NUM ns, the last REF_IN edge in ns, periods in a row
without any edge and without one in the window, an edge seen since the last window closed, and whether RELOCKING began within the
frame in progress, whose length then stands. -/
structure FrameGen where
  edge : Nat := 0
  ref : Option Nat := none
  noneRow : Nat := 0
  outRow : Nat := 0
  seen : Bool := false
  begun : Bool := false
  deriving DecidableEq, Repr

/-- The time unit beyond its registers. -/
structure TimeSt where
  c0 : Clock := {}
  c1 : Clock := {}
  sel : Nat := 0
  /-- OFS in ns (R485), and the part of its next ns already slewed, in 10⁻⁶ ns -/
  ofs : Int := 0
  slewed : Nat := 0
  acts : Tab Act := []
  /-- slots whose last fire was STEPPED (R498) -/
  stepped : List Nat := []
  eths : Tab EthPort := []
  trigs : Tab TrigIn := []
  /-- TRIG_OUT levels as a bitmap, and the level each running pulse restores (R497) -/
  trigOut : Nat := 0
  pulses : Tab Nat := []
  gen : FrameGen := {}
  /-- frames launched, newest first: port and bytes without FCS (R491) -/
  sent : List (Nat × List Byte) := []
  /-- next role epoch of an Ethernet binding (R489) -/
  nextEpoch : Nat := 1
  deriving DecidableEq, Repr


/-! ### Twin and chain (chapter 19) -/

/-- What a CLIPSYNC told of a clip (R513). -/
structure ClipMark where
  auseq : Nat
  rseq : Nat
  start : Nat
  bytes : Nat
  sha : List Nat
  deriving DecidableEq, Repr

/-- What a transfer stream or a STATE delta of the twin stands for (R508, R523), its byte layout not being in the spec: session register
words by store key, table generations, codec blocks and which codec streams run, armed action blocks, boot mailboxes (page, reply vector,
event vector, epoch by function), the mounted volume, clips being recorded (clip, START_TIME, rate, track descriptors) and clips that
stop (clip, stop time), CLIPSYNC marks, burst rings as the requests that arm them. -/
structure TwinLoad where
  regs : Tab Word := []
  cams : Tab PipeCam := []
  codec : Tab (List Byte) := []
  psRun : Tab Bool := []
  acts : List (List Byte) := []
  boots : Tab (Nat × Nat × Nat × Nat) := []
  vol : Option Vol := none
  clips : List (Nat × Nat × Nat × List (List Byte)) := []
  stops : List (Nat × Nat) := []
  marks : Tab ClipMark := []
  rings : List Req := []
  deriving Inhabited

/-- The twin beyond its registers. -/
structure TwinSt where
  /-- a planned handover, an attach is in progress, with the jobs that wait for them (R521, R522, R524) -/
  handing : Bool := false
  attaching : Bool := false
  handJob : Nat := 0
  attachJob : Nat := 0
  detachJob : Nat := 0
  /-- START_TIME at which a handover takes effect, as a stamp -/
  handAt : Nat := 0
  /-- Bastu-T packets sent, newest first, from PTYPE on -/
  sent : List (List Byte) := []
  /-- the partner's role, HOT and session generation as its last valid heartbeat told -/
  peerRole : Option Nat := none
  peerHot : Bool := false
  peerGen : Nat := 0
  /-- a partner is attached: STATE deltas and CLIPSYNC go to it (R508, R513) -/
  attached : Bool := false
  /-- this device's session generation, advanced by each committed configuration change -/
  gen : Nat := 0
  /-- consecutive heartbeats with a difference above 1 µs (R509) -/
  skewRow : Nat := 0
  /-- device time at which this device took SOLO at service-ready, waiting for its partner (R506) -/
  waiting : Bool := false
  readyAt : Nat := 0
  /-- the lead is lost; takeover waits for its boundary (R516, R517) -/
  lost : Bool := false
  /-- MSEQ of the next mirror packet sent; the one expected; inner packets (with stamp) not yet closed into a packet -/
  mseq : Nat := 0
  mseqRx : Option Nat := none
  inner : List (Nat × List Byte) := []
  innerLink : Nat := 0
  /-- the transfer stream being received, and the one frozen and sent; bytes acknowledged -/
  rx : List Byte := []
  base : List Byte := []
  acked : Nat := 0
  freezing : Bool := false
  /-- consecutive frames closed that match the lead's (R522 step 4) -/
  matched : Nat := 0
  clips : Tab ClipMark := []
  /-- queue entries of the internal mailbox received, oldest first (R514) -/
  msgs : List (List Byte) := []
  /-- the transfer stream has been loaded (R522 step 3); the REF_START last matched -/
  loaded : Bool := false
  lastRef : Nat := 0
  /-- boot mailboxes of the lead's functions (R523): page, reply vector, event vector, epoch -/
  boots : Tab (Nat × Nat × Nat × Nat) := []
  /-- the last takeover's time and cause (R534) -/
  takeAt : Nat := 0
  takeCause : Nat := 0
  deriving DecidableEq, Repr

/-- Sequences seen from an origin (R527): the highest, and a bitmap of the 64 below it. -/
structure Seen where
  top : Nat
  win : Nat
  deriving DecidableEq, Repr

/-- The chain beyond its registers. -/
structure ChainSt where
  seen : Tab Seen := []
  /-- this node's next SEQ -/
  seq : Nat := 0
  /-- packets sent, newest first: port and bytes from PTYPE on -/
  sent : List (Nat × List Byte) := []
  /-- rig frame number of the next edge (R529), neighbours' serials by port, ports that forward nothing (R525) -/
  rigFrame : Nat := 0
  serials : Tab Nat := []
  msgs : List (List Byte) := []
  deriving DecidableEq, Repr


/-! ### Health (chapter 20) -/

/-- A die sensor's history (R539, R542). -/
structure Sensor where
  disagree : Nat := 0
  /-- last scheduled readings, newest first: time ns and 1/8 °C -/
  hist : List (Nat × Int) := []
  deriving DecidableEq, Repr

/-- A unit's self-test history (R551, R563). -/
structure TestHist where
  last : Nat := 0
  runs : Nat := 0
  fails : Nat := 0
  incompletes : Nat := 0
  failsRow : Nat := 0
  patterns : Nat := 0
  /-- device time of the last pass, ns -/
  passAt : Nat := 0
  /-- FAIL or INCOMPLETE awaits its retest -/
  retest : Bool := false
  /-- excluded until HEALTH.SELFTEST or RST_N -/
  excluded : Bool := false
  deriving DecidableEq, Repr

/-- A self-test run in progress or waiting for its grant: unit, job of HEALTH.SELFTEST (0 none), whether it is the roll's,
power stayed good so far. -/
structure TestRun where
  unit : Nat
  job : Nat
  roll : Bool
  good : Bool
  deriving DecidableEq, Repr

/-- Health beyond its registers. -/
structure HealthSt where
  sensors : Tab Sensor := []
  /-- the thermal unit's own time, ns: it advances by the schedule's period at each scheduled sample (log entry 16) -/
  clk : Nat := 0
  /-- temperature level of R67 without bonus, and the time TH_LEVEL last changed (clk) -/
  level : Nat := 0
  levelAt : Nat := 0
  warned : Bool := false
  rangeTold : Bool := false
  few : Bool := false
  shutdown : Bool := false
  /-- NSEQ of the unacknowledged shutdown (R544) -/
  unacked : Option Nat := none
  /-- time from which the hottest valid reading has stayed below 95 °C (R544) -/
  coolSince : Option Nat := none
  hist : Tab TestHist := []
  runs : List TestRun := []
  /-- units drained for a self-test that is not asked for yet; whether it is the roll's -/
  testWait : Tab Bool := []
  rollPeriod : Nat := 600
  rollSkips : Nat := 0
  /-- the roll's run: target and spare -/
  roll : Option (Nat × Nat) := none
  rollJob : Nat := 0
  fatal : Bool := false
  entropyAt : Nat := 0
  deriving DecidableEq, Repr

/-! ### The device -/

/-- The device between RST_N releases. Every register of the map stands in `regs`, by store key; a register that is
not listed stands at its reset value. -/
structure Dev where
  /-- the register store -/
  regs : Tab Word := []
  /-- the model's own counter of free values (log entry 1) -/
  free : Nat := 0
  /-- time since reset in ns, advanced by the idle tick (log entry 6) -/
  up : Nat := 0
  /-- when each "at most once" event was last raised, by code and object -/
  once : Tab Nat := []
  /-- architecture and the bank -/
  bank : BankSt := {}
  /-- register fabric -/
  fab : FabSt := {}
  /-- queue fabric -/
  qf : QfSt := {}
  /-- Ozder, mailboxes, the log -/
  oz : OzSt := {}
  /-- boot and updates -/
  boot : BootSt := {}
  /-- HBM -/
  hbm : HbmSt := {}
  /-- health -/
  hl : HealthSt := {}
  /-- host memory as the device wrote it, by function; unlisted bytes read 0 (log entry 7) -/
  host : Tab (Tab Byte) := []
  /-- pins the device drives and samples -/
  pins : Pins := {}
  /-- time -/
  tm : TimeSt := {}
  /-- the twin -/
  tw : TwinSt := {}
  /-- the chain -/
  ch : ChainSt := {}
  /-- lanes and links -/
  ln : LnSt := {}
  /-- sensor ingest -/
  ing : IngSt := {}
  /-- integrity -/
  integ : IntegSt := {}
  /-- the pipeline -/
  pipe : PipeSt := {}
  /-- the codec -/
  ps : PsSt := {}
  /-- the media service -/
  md : MediaSt := {}
  /-- audio -/
  au : AudSt := {}
  /-- scan-out -/
  sc : ScanSt := {}
  deriving DecidableEq, Repr

/-- The machine's state. -/
structure State where
  nv : Nv
  dev : Dev
  /-- commands waiting, first in, first out -/
  pending : List Instr
  deriving DecidableEq, Repr

/-- What stops the machine. -/
inductive Fault where
  /-- an access or message carries a master ID that R74 never issues; raised by the access commands; safe: no run of the
  hardware has such an access -/
  | neverIssued (master : Nat)
  deriving DecidableEq, Repr

/-- What has no meaning. -/
inductive Refusal where
  /-- raised by exec's arm of a command not modelled yet; safe: the model stops -/
  | notModelled (mnemonic : String)
  deriving DecidableEq, Repr

/-- The persistent part as produced (R175): slot 0 of each algorithm programmed; what the fuses hold is device data
(log entry 5). -/
def Nv.initial : Nv :=
  { ed := [⟨some (Config.fusedHash 0), false⟩, ⟨none, false⟩, ⟨none, false⟩, ⟨none, false⟩],
    ml := [⟨some (Config.fusedHash 1), false⟩, ⟨none, false⟩, ⟨none, false⟩, ⟨none, false⟩],
    serial := Config.serial }

/-- The device in reset: every register at its reset value, every list empty (R53). -/
def Dev.reset : Dev := {}

/-- The machine right after reset. -/
def State.reset : State := ⟨Nv.initial, Dev.reset, []⟩

/-- A meaning that changes only the device. -/
def State.onDev (f : Dev → Dev) (s : State) : Host.Outcome State Fault Refusal := .next { s with dev := f s.dev }

/-- A meaning that may also change what survives reset. -/
def State.onBoth (f : Nv → Dev → Nv × Dev) (s : State) : Host.Outcome State Fault Refusal :=
  .next { s with nv := (f s.nv s.dev).1, dev := (f s.nv s.dev).2 }

/-- Master IDs that are issued (R74). -/
def issued (m : Nat) : Bool :=
  decide (m < 0x48) || (decide (0x80 ≤ m) && decide (m ≤ 0xFF)) || (decide (0x100 ≤ m) && decide (m ≤ 0x103)) || decide (m = 0x110)

/-- A meaning that is an access by master m. -/
def State.access (m : Nat) (f : Dev → Dev) (s : State) : Host.Outcome State Fault Refusal :=
  if issued m then s.onDev f else .fault (.neverIssued m)

end Sys2Proof.Machine
end

