-- ==== Sys2Proof/Machine/Ops.lean ====
section
/-! DEFINITION. The named operations over the device's state that every family uses: the register store, free values, time
stamps, events into the device error queues (R142, R556, R558, R559), HBM and host memory, and unit states (R17 to R21). -/
namespace Sys2Proof.Machine

/-! ### The register store -/

/-- The reset value of a store key. -/
def keyReset (r : Reg) (u : Nat) : Word := r.reset u

/-- Register r of unit u, instance k. -/
def Dev.rd (d : Dev) (r : Reg) (u : Nat := 0) (k : Nat := 0) : Word := (tget d.regs (r.key u k)).getD (r.reset u)

/-- The device with register r of unit u, instance k, holding w. -/
def Dev.wr (d : Dev) (r : Reg) (u k : Nat) (w : Word) : Dev :=
  { d with regs := if w = r.reset u then tdel d.regs (r.key u k) else tset d.regs (r.key u k) w }

/-- A field of a register. -/
def Dev.fg (d : Dev) (f : Fld) (u : Nat := 0) (k : Nat := 0) : Nat := getF (d.rd f.reg u k) f.hi f.lo

/-- The device with a field set to v. -/
def Dev.fs (d : Dev) (f : Fld) (v : Nat) (u : Nat := 0) (k : Nat := 0) : Dev :=
  d.wr f.reg u k (setF (d.rd f.reg u k) f.hi f.lo v)

/-- A saturating counter field, n added. -/
def Dev.fadd (d : Dev) (f : Fld) (n : Nat) (u : Nat := 0) (k : Nat := 0) : Dev :=
  d.fs f (satAdd (d.fg f u k) n (2 ^ (f.hi + 1 - f.lo) - 1)) u k

/-- A one-bit field as a truth value. -/
def Dev.fb (d : Dev) (f : Fld) (u : Nat := 0) (k : Nat := 0) : Bool := decide (d.fg f u k = 1)

/-- A truth value as a bit. -/
def bit (b : Bool) : Nat := if b then 1 else 0

/-- A 64-bit counter pair, low word first, n added (R79). -/
def Dev.add64 (d : Dev) (lo hi : Reg) (n : Nat) (u : Nat := 0) (k : Nat := 0) : Dev :=
  let v := ((d.rd hi u k).toNat * 2 ^ 32 + (d.rd lo u k).toNat + n) % 2 ^ 64
  (d.wr lo u k (BitVec.ofNat 32 v)).wr hi u k (BitVec.ofNat 32 (v / 2 ^ 32))

/-- A 64-bit register pair. -/
def Dev.get64 (d : Dev) (lo hi : Reg) (u : Nat := 0) (k : Nat := 0) : Nat :=
  (d.rd hi u k).toNat * 2 ^ 32 + (d.rd lo u k).toNat

/-- A 64-bit register pair set to v. -/
def Dev.set64 (d : Dev) (lo hi : Reg) (v : Nat) (u : Nat := 0) (k : Nat := 0) : Dev :=
  (d.wr lo u k (BitVec.ofNat 32 v)).wr hi u k (BitVec.ofNat 32 (v / 2 ^ 32))

/-! ### Free values and time -/

/-- The next free value (log entry 1). -/
def Dev.freeVal (d : Dev) : Nat := Config.free d.free

/-- The device after one free value is used. -/
def Dev.useFree (d : Dev) : Dev := { d with free := d.free + 1 }

/-- A domain clock in nanoseconds. -/
def Clock.total (c : Clock) : Nat := c.sec * 1000000000 + c.ns

/-- The selected domain's clock (R485). -/
def TimeSt.selected (t : TimeSt) : Clock := if t.sel = 0 then t.c0 else t.c1

/-- Device time in nanoseconds: the selected domain plus OFS (R485). -/
def Dev.devNs (d : Dev) : Nat := ((d.tm.selected.total : Int) + d.tm.ofs).toNat

/-- Device time in the form of R142 bytes 8-15. -/
def stamp64 (ns : Nat) : Nat := (ns / 1000000000 % 2 ^ 34) * 2 ^ 30 + ns % 1000000000

/-- Device time as a 64-bit stamp. -/
def Dev.stamp (d : Dev) : Nat := stamp64 d.devNs

/-- A 64-bit stamp in nanoseconds. -/
def stampNs (s : Nat) : Nat := (s / 2 ^ 30) * 1000000000 + s % 2 ^ 30

/-! ### Work classes and the C0 path -/

/-- A unit's context-store slot. -/
def Dev.slot (d : Dev) (u : Nat) : CtxSlot := (tget d.bank.ctx u).getD {}

/-- The work class of a unit (R57): C0 for deframers and the twin port, which lie on the C0 path by their place (R37),
else what firmware recorded. -/
def Dev.workCls (d : Dev) (u : Nat) : Nat :=
  match kindOf u with
  | some .deframer | some .twin => 0
  | _ => (d.slot u).cls

/-- The class of a group: the most urgent among its members. -/
def Dev.clsOf (d : Dev) (u : Nat) : Nat :=
  if isGroup u && decide (0 < u) then ((subtree u).map d.workCls).foldl min 3 else d.workCls u

/-! ### Events (R142, R556 to R559) -/

/-- Waiting records of a device error queue. -/
def OzSt.eq (o : OzSt) (sev : Nat) : List EvRec :=
  if sev ≤ 1 then o.q1 else if sev = 2 then o.q2 else if sev = 3 then o.q3 else o.q4

/-- Ozder with a device error queue replaced. -/
def OzSt.setEq (o : OzSt) (sev : Nat) (l : List EvRec) : OzSt :=
  if sev ≤ 1 then { o with q1 := l } else if sev = 2 then { o with q2 := l }
  else if sev = 3 then { o with q3 := l } else { o with q4 := l }

/-- Depth of a device error queue (R556). -/
def eqDepth (sev : Nat) : Nat := if sev ≤ 1 then 4096 else if sev = 2 then 1024 else if sev = 3 then 256 else 64

/-- The QID of a device error queue (R556). -/
def eqQid (sev : Nat) : Nat := 0xEF + sev

/-- An event stamped, numbered and classed as R142 lays down. -/
def Dev.mkRec (d : Dev) (e : Ev) (sev : Nat) (esc lost : Bool) : EvRec :=
  { code := e.code, lost := lost, esc := esc, sev := sev, cls := d.clsOf e.unit, c0 := decide (d.clsOf e.unit = 0),
    unit := e.unit, master := e.master, timeS := d.devNs / 1000000000 % 2 ^ 34, timeNs := d.devNs % 1000000000,
    recseq := d.oz.recseq + 1, d0 := e.d0 % 2 ^ 32, d1 := e.d1 % 2 ^ 32, d2 := e.d2 % 2 ^ 32 }

/-- Records an error queue holds besides its E_HL_EQ_LOST (R559). -/
def isEqLost (r : EvRec) : Bool := decide (r.code = 0x130E)

/-- A record offered to its device error queue (R116, R556, R559): kept while an entry stays free for E_HL_EQ_LOST; else
discarded and counted, the first discard placing E_HL_EQ_LOST in the last entry. -/
def Dev.postErr (d : Dev) (r : EvRec) : Dev :=
  let q := d.oz.eq r.sev
  if q.length + 1 < eqDepth r.sev then
    let lost := d.oz.lostNext.contains r.sev
    { d with oz := { d.oz.setEq r.sev (q ++ [{ r with lost := r.lost || lost }]) with
        recseq := r.recseq, lostNext := d.oz.lostNext.filter (· ≠ r.sev) } }
  else
    let n := (tget d.oz.disc r.sev).getD 0 + 1
    let m := (tget d.oz.discStats r.sev).getD 0 + 1
    let o := { d.oz with disc := tset d.oz.disc r.sev n, discStats := tset d.oz.discStats r.sev m,
                         lost := d.oz.lost + 1, recseq := r.recseq,
                         lostNext := if d.oz.lostNext.contains r.sev then d.oz.lostNext else r.sev :: d.oz.lostNext }
    if q.any isEqLost then
      { d with oz := o.setEq r.sev (q.map fun x => if isEqLost x then { x with d1 := n } else x) }
    else
      let w := { d.mkRec { code := 0x130E, sev := 3, d0 := eqQid r.sev, d1 := n } 3 false false with recseq := r.recseq + 1 }
      { d with oz := { o.setEq r.sev (q ++ [w]) with recseq := r.recseq + 1 } }

/-- A unit raises an event: LAST_EVENT and EV_COUNT of its UCB (R16), its severity raised by one for a recovering unit
(R558), and its record posted to the error queue of its severity (R556). -/
def Dev.raise (d : Dev) (e : Ev) : Dev :=
  let esc := decide (2 ≤ e.sev) && decide (e.sev < 4) && decide (e.unit ≠ 0) && d.oz.recovering.contains e.unit
  let sev := if esc then e.sev + 1 else e.sev
  let d := (d.fs F.ucbEvent_lastEvent e.code e.unit).fadd F.ucbEvent_evCount 1 e.unit
  d.postErr (d.mkRec e sev esc false)

/-- An event raised at most once per `ns` of time for one object (R124, R436 and the like). -/
def Dev.raiseOnce (d : Dev) (obj ns : Nat) (e : Ev) : Dev :=
  let k := e.code * 2 ^ 24 + obj
  match tget d.once k with
  | some t => if d.up < t + ns then d else { d.raise e with once := tset d.once k d.up }
  | none => { d.raise e with once := tset d.once k d.up }

/-- Times within the last 1 ms, the present one added, newest first: an event's "count in the last 1 ms" is their number. -/
def Dev.lastMs (d : Dev) (l : List Nat) : List Nat := d.up :: l.filter fun t => decide (d.up < t + 1000000)

/-- Severity of an event that is S3 on the C0 path and S2 elsewhere. -/
def Dev.sevC0 (d : Dev) (u : Nat) : Nat := if d.clsOf u = 0 then 3 else 2

/-- E_C0_AT_RISK with its condition (R41, R143). -/
def Dev.c0Risk (d : Dev) (cond obj : Nat) : Dev := d.raise { code := 0x0109, sev := 3, d0 := cond, d1 := obj }

/-! ### Severities (the events tables of R142's chapters) -/

/-- Codes of severity S2, S3 and S4 (a code whose severity depends on its object stands at its lower one); others are S1. -/
def codesS2 : List Nat :=
  [0x0105, 0x0112, 0x0115, 0x0116, 0x0204, 0x0205, 0x0210, 0x0220, 0x0304, 0x0308, 0x030B, 0x0406, 0x0409, 0x040B] ++
  [0x040E, 0x0412, 0x0502, 0x0503, 0x0504, 0x0505, 0x0506, 0x0507, 0x0508, 0x0509, 0x050D, 0x050E, 0x050F, 0x0510] ++
  [0x0602, 0x0605, 0x0606, 0x0609, 0x060A, 0x060B, 0x060C, 0x0702, 0x0703, 0x0704, 0x0706, 0x0803, 0x0807, 0x0808] ++
  [0x0905, 0x0906, 0x0A03, 0x0A04, 0x0A06, 0x0A07, 0x0A08, 0x0A0C, 0x0B03, 0x0B05, 0x0B08, 0x0B09, 0x0B0A, 0x0B10] ++
  [0x0B11, 0x0B12, 0x0B13, 0x0B14, 0x0B15, 0x0C02, 0x0C06, 0x0C08, 0x0C09, 0x0C0D, 0x0C0E, 0x0C10, 0x0C11, 0x0C14] ++
  [0x0C15, 0x0D01, 0x0D03, 0x0D04, 0x0D05, 0x0E03, 0x0F02, 0x0F03, 0x0F04, 0x1002, 0x1004, 0x1005, 0x1006, 0x1008] ++
  [0x1103, 0x1104, 0x1106, 0x1202, 0x1207, 0x1209, 0x120A, 0x120B, 0x1211, 0x1212, 0x1213, 0x1214, 0x1301, 0x1303] ++
  [0x1305, 0x1308, 0x1309, 0x130F, 0x1310]
def codesS3 : List Nat :=
  [0x0103, 0x0108, 0x0109, 0x0110, 0x0111, 0x0113, 0x011A, 0x0221, 0x0410, 0x0604, 0x0608, 0x0708, 0x0B04, 0x0C07] ++
  [0x0C0B, 0x0C12, 0x0E02, 0x0E06, 0x1203, 0x1204, 0x1208, 0x1304, 0x130B, 0x130E]
def codesS4 : List Nat := [0x0118, 0x0213, 0x0411, 0x0414, 0x050A, 0x0E04, 0x1306]

/-- Severity of a code. -/
def sevOf (c : Nat) : Nat :=
  if codesS4.contains c then 4 else if codesS3.contains c then 3 else if codesS2.contains c then 2 else 1

/-! ### Memory -/

/-- Bytes of HBM. -/
def Dev.hbmR (d : Dev) (a n : Nat) : List Byte := mread 0 d.hbm.mem a n

/-- Bytes stored into HBM; a 256-bit word covered whole loses any earlier error (R436). -/
def Dev.hbmW (d : Dev) (a : Nat) (bs : List Byte) : Dev :=
  let whole := fun w => decide (a ≤ w * 32) && decide (w * 32 + 32 ≤ a + bs.length)
  { d with hbm := { d.hbm with mem := mwrite 0 d.hbm.mem a bs,
                               sbe := d.hbm.sbe.filter fun w => !whole w, ue := d.hbm.ue.filter fun w => !whole w } }

/-- Bytes of a function's host memory, as the device last wrote them. -/
def Dev.hostR (d : Dev) (f a n : Nat) : List Byte := mread 0 ((tget d.host f).getD []) a n

/-- Bytes the device writes into a function's host memory. -/
def Dev.hostW (d : Dev) (f a : Nat) (bs : List Byte) : Dev :=
  { d with host := tset d.host f (mwrite 0 ((tget d.host f).getD []) a bs) }

/-! ### Unit states (R17 to R21) -/

def stOff : Nat := 0
def stWaking : Nat := 1
def stQuarantine : Nat := 2
def stReady : Nat := 3
def stActive : Nat := 4
def stDraining : Nat := 5
def stSleep : Nat := 6
def stUnusable : Nat := 7
def stHeld : Nat := 8

/-- The order of R21, from least to most advanced; HELD counts as OFF. -/
def advance (st : Nat) : Nat :=
  if st = stSleep then 1 else if st = stWaking then 2 else if st = stQuarantine then 3
  else if st = stDraining then 4 else if st = stReady then 5 else if st = stActive then 6 else 0

/-- A unit's own STATE field. -/
def Dev.own (d : Dev) (u : Nat) : Nat := d.fg F.ucbState_state u

/-- The most advanced state of a list under R21; UNUSABLE where all are. -/
def mostAdvanced (l : List Nat) : Nat :=
  let us := l.filter (· ≠ stUnusable)
  if us = [] then stUnusable
  else us.foldl (fun best st => if advance best < advance st then st else best) stOff

/-- Reported STATE of a unit (R21), looking down n levels. -/
def Dev.stateN (d : Dev) : Nat → Nat → Nat
  | 0, u => d.own u
  | n + 1, u =>
    if isGroup u then
      if d.own u = stHeld then stHeld
      else mostAdvanced ((membersOf u).map (d.stateN n))
    else d.own u

/-- Reported STATE of a unit. -/
def Dev.ust (d : Dev) (u : Nat) : Nat := d.stateN 3 u

/-- A unit's own state and REASON changed; the REASON of each group above it whose reported STATE changes follows. A group's own REASON
shows its own hold and release only (R21). -/
def Dev.setUst (d : Dev) (u st reason : Nat) : Dev :=
  let before := (ancestorsOf u).map fun g => (g, d.ust g)
  let d1 := (d.fs F.ucbState_state st u)
  let d1 := if isGroup u && decide (st ≠ stHeld) && decide (d.own u ≠ stHeld) then d1 else d1.fs F.ucbState_reason reason u
  before.foldl (fun e p => if e.ust p.1 = p.2 then e else e.fs F.ucbState_reason reason p.1) d1

/-- Whether a unit accepts work (R17). -/
def Dev.accepts (d : Dev) (u : Nat) : Bool :=
  (decide (d.ust u = stReady) || decide (d.ust u = stActive)) && !d.fb F.ucbState_tst u

/-- DEGRADED and MIXED of a group (R16, R21). -/
def Dev.degraded (d : Dev) (u : Nat) : Bool :=
  (membersOf u).any fun m => decide (d.ust m = stUnusable) || decide (d.ust m = stHeld)
def Dev.mixed (d : Dev) (u : Nat) : Bool :=
  match ((membersOf u).map d.ust).filter fun x => decide (x ≠ stUnusable) && decide (x ≠ stHeld) with
  | [] => false
  | x :: xs => xs.any (· ≠ x)

end Sys2Proof.Machine
end

