-- ==== Sys2Proof/Machine/Operands.lean ====
section
/-! DEFINITION. Operand forms: masters and privilege (R74), declared ranges (R102, R103), the 64-byte queue entry (R101), the
error record (R142), the mailbox header and reply header (R140, R141), queue-state records (R97), event NVM records (R546). -/
namespace Sys2Proof.Machine

/-! ### Masters (R74) -/

/-- An Ozder (secure) master. -/
def isOz (m : Nat) : Bool := decide (0x40 ≤ m) && decide (m ≤ 0x47)

/-- A PCIe function. -/
def isFn (m : Nat) : Bool := decide (m < 0x40)

/-- Whether a master is privileged (R74): PF0 and Ozder masters always, a VF by its bit, debug while the gate is open. -/
def Dev.priv (d : Dev) (m : Nat) : Bool :=
  decide (m = 0) || isOz m || (decide (m = 0x110) && d.fab.debugOpen) ||
  (decide (0 < m) && decide (m < 32) && (d.rd .privVfLo).getLsbD m) ||
  (decide (32 ≤ m) && decide (m < 64) && (d.rd .privVfHi).getLsbD (m - 32))

/-- The hold of a master, where it is held. -/
def Dev.holdOf (d : Dev) (isUnit : Bool) (id : Nat) : Option Hold :=
  d.fab.holds.find? fun h => (h.isUnit == isUnit) && decide (h.id = id)

/-- Whether a master is held. -/
def Dev.isHeld (d : Dev) (m : Nat) : Bool := (d.holdOf false m).isSome

/-! ### Declared ranges (R102, R103) -/

def rgLen (r : Nat) : Nat := bitsN r 63 48
def rgBytes (r : Nat) : Nat := 64 * rgLen r
def rgAddr (r : Nat) : Nat := bitsN r 47 6 * 64
def rgSpace (r : Nat) : Nat := bitsN r 5 4
def rgWr (r : Nat) : Bool := decide (bitsN r 3 3 = 1)

/-- A malformed range (R103). -/
def rgBad (r : Nat) : Bool := decide (rgLen r ≠ 0) && (decide (rgSpace r = 3) || decide (bitsN r 2 0 ≠ 0))

/-- Two declared ranges overlap in one space (R111 case 3). -/
def rgOverlap (a b : Nat) : Bool :=
  decide (rgLen a ≠ 0) && decide (rgLen b ≠ 0) && decide (rgSpace a = rgSpace b) &&
  decide (rgAddr a < rgAddr b + rgBytes b) && decide (rgAddr b < rgAddr a + rgBytes a)

/-- A declared range word built from its parts. -/
def mkRange (len64 addr space : Nat) (wr : Bool) : Nat :=
  len64 * 2 ^ 48 + (addr / 64 % 2 ^ 42) * 64 + space * 16 + bit wr * 8

/-! ### Queue entries (R101) -/

/-- An empty entry. -/
def Entry.zero : Entry := ⟨0, 0, false, false, false, false, 0, 0, 0, 0, 0, 0, 0, 0, 0, []⟩

/-- The 64 bytes of an entry. -/
def Entry.enc (e : Entry) : List Byte :=
  leBytes 4 (e.opcode % 256 * 2 ^ 24 + e.typ % 16 * 2 ^ 20 + bit e.ord * 2 ^ 19 + bit e.notify * 2 ^ 18 +
    bit e.suspect * 2 ^ 17 + bit e.notag * 2 ^ 16 + e.epoch % 2 ^ 16) ++
  leBytes 4 (e.unit % 2 ^ 12 * 2 ^ 20 + e.replyQid % 2 ^ 20) ++
  leBytes 4 (e.master % 2 ^ 10 * 2 ^ 17 + e.tag % 2 ^ 17) ++
  leBytes 4 (e.status % 2 ^ 16 * 2 ^ 16 + e.seq % 2 ^ 16) ++
  leBytes 8 e.range0 ++ leBytes 8 e.range1 ++ fitB e.body 32

/-- The entry that 64 bytes spell. -/
def Entry.dec (bs : List Byte) : Entry :=
  let w0 := rdLe bs 0 4
  let w1 := rdLe bs 4 4
  let w2 := rdLe bs 8 4
  let w3 := rdLe bs 12 4
  { opcode := bitsN w0 31 24, typ := bitsN w0 23 20, ord := decide (bitsN w0 19 19 = 1),
    notify := decide (bitsN w0 18 18 = 1), suspect := decide (bitsN w0 17 17 = 1), notag := decide (bitsN w0 16 16 = 1),
    epoch := bitsN w0 15 0, unit := bitsN w1 31 20, replyQid := bitsN w1 19 0, master := bitsN w2 26 17,
    tag := bitsN w2 16 0, status := bitsN w3 31 16, seq := bitsN w3 15 0, range0 := rdLe bs 16 8,
    range1 := rdLe bs 24 8, body := sliceB bs 32 32 }

/-- The malformed test of an entry (R103). -/
def Entry.bad (e : Entry) : Bool := rgBad e.range0 || rgBad e.range1

/-- Two entries' declared ranges overlap (R111 case 3). -/
def Entry.overlap (a b : Entry) : Bool :=
  rgOverlap a.range0 b.range0 || rgOverlap a.range0 b.range1 || rgOverlap a.range1 b.range0 || rgOverlap a.range1 b.range1

/-! ### Error records (R142) -/

/-- The 32 bytes of an error record. -/
def EvRec.enc (r : EvRec) : List Byte :=
  leBytes 4 (r.code % 2 ^ 16 * 2 ^ 16 + bit r.lost * 2 ^ 12 + bit r.esc * 2 ^ 11 + r.sev % 8 * 2 ^ 8 + r.cls % 4 * 2 ^ 6 +
    bit r.c0 * 2 ^ 5) ++
  leBytes 4 (r.unit % 2 ^ 12 * 2 ^ 20 + r.master % 2 ^ 10) ++
  leBytes 8 (r.timeS % 2 ^ 34 * 2 ^ 30 + r.timeNs % 2 ^ 30) ++
  leBytes 4 r.recseq ++ leBytes 4 r.d0 ++ leBytes 4 r.d1 ++ leBytes 4 r.d2

/-- The EVENT entry that carries a record (R116, R142): STATUS repeats CODE. -/
def EvRec.entry (r : EvRec) : Entry :=
  { Entry.zero with typ := 4, unit := r.unit, status := r.code, body := r.enc }

/-! ### Mailbox replies (R141) -/

/-- The reply header of R141. -/
def replyBody (svc verb argOff replyLen job detail : Nat) (res : List Nat) : List Byte :=
  leBytes 4 (svc * 2 ^ 24 + verb * 2 ^ 16 + argOff % 2 ^ 16) ++ leBytes 4 replyLen ++ leBytes 4 job ++ leBytes 4 detail ++
  leBytes 4 (res.getD 0 0) ++ leBytes 4 (res.getD 1 0) ++ leBytes 4 (res.getD 2 0) ++ leBytes 4 (res.getD 3 0)

/-! ### Queue-state records (R97) -/

/-- Entries a ring holds (R97, R99). -/
def depthOf (f : Nat) : Nat := if f = 0 then 65536 else 2 ^ f
def Queue.depth (q : Queue) : Nat := depthOf q.depthLog2

/-- The DISABLED record that QSTATE holds for a queue never created (R433 zero fill). -/
def Queue.disabled : Queue :=
  ⟨0, 0, 0, 0, 0, false, false, false, 0, 0, 0, false, 0, 0, 0, 0, 0, 0, [], 0, 0, false⟩

/-- Dword n of a queue-state record (R97). -/
def Queue.dword (q : Queue) (n : Nat) : Nat :=
  match n with
  | 0 => q.owner % 2 ^ 10 * 2 ^ 22 + q.cls % 4 * 2 ^ 20 + q.mode % 4 * 2 ^ 18 + q.rstate % 4 * 2 ^ 16 +
         q.depthLog2 % 16 * 2 ^ 12 + bit q.ringHost * 2 ^ 11 + bit q.noabort * 2 ^ 10 + bit q.intEn * 2 ^ 9 +
         q.inflLog2 % 32
  | 1 => q.epoch % 2 ^ 16 * 2 ^ 16 + q.unit % 2 ^ 12
  | 2 => bit q.pinned * 2 ^ 31 + q.vector % 2 ^ 11 * 2 ^ 20 + q.errQid % 2 ^ 20
  | 3 => q.head % 2 ^ 17
  | 4 => q.tail % 2 ^ 17
  | 5 => q.ringBase % 2 ^ 32
  | 6 => q.ringBase / 2 ^ 32 % 2 ^ 32
  | _ => q.inflight % 2 ^ 17

/-- The queue that eight dwords describe, new and STOPPED (R97, R123 CREATE). -/
def Queue.ofDwords (w : Nat → Nat) : Queue :=
  { Queue.disabled with
    owner := bitsN (w 0) 31 22, cls := bitsN (w 0) 21 20, mode := bitsN (w 0) 19 18, rstate := 2,
    depthLog2 := bitsN (w 0) 15 12, ringHost := decide (bitsN (w 0) 11 11 = 1), noabort := decide (bitsN (w 0) 10 10 = 1),
    intEn := decide (bitsN (w 0) 9 9 = 1), inflLog2 := bitsN (w 0) 4 0, epoch := bitsN (w 1) 31 16, unit := bitsN (w 1) 11 0,
    pinned := decide (bitsN (w 2) 31 31 = 1), vector := bitsN (w 2) 30 20, errQid := bitsN (w 2) 19 0,
    ringBase := w 5 + w 6 * 2 ^ 32 }

/-! ### Event NVM records (R546) -/

/-- Bytes 0-123 of an event NVM record. -/
def NvRec.encBody (r : NvRec) : List Byte :=
  leBytes 4 0x4D564E45 ++ leBytes 4 r.nseq ++ leBytes 1 r.kind ++ leBytes 1 0 ++ leBytes 2 r.boots ++ leBytes 4 0 ++
  r.err.enc ++ ((List.range 26).map fun i => leBytes 2 (unsgn 16 (r.temps.getD i 0))).flatten ++ leBytes 4 r.valid ++
  fitB r.info 8 ++ leBytes 12 0

/-- The 128 bytes of an event NVM record; a record whose write was cut has a wrong CRC (R545). -/
def NvRec.enc (r : NvRec) : List Byte :=
  let b := r.encBody
  b ++ leBytes 4 (if r.good then crc32c b else crc32c b ^^^ 0xFFFFFFFF)

end Sys2Proof.Machine
end

