-- ==== Sys2Proof/Machine/Queues.lean ====
section
/-! DEFINITION. The queue fabric's operations (chapter 04): posting with its waits, returns and discards (R114 to R116, R585),
interrupts (R121), dispatch (R109 to R111), closing of operations (R104, R112), holds and resets (R118, R119). -/
namespace Sys2Proof.Machine

/-- The record of queue q (R97); a queue never created is DISABLED. -/
def Dev.q (d : Dev) (q : Nat) : Queue := (tget d.qf.qs q).getD Queue.disabled

/-- The device with queue q's record set. -/
def Dev.setQ (d : Dev) (q : Nat) (r : Queue) : Dev := { d with qf := { d.qf with qs := tset d.qf.qs q r } }

/-- Queue q's record changed by f, where the queue exists. -/
def Dev.modQ (d : Dev) (q : Nat) (f : Queue → Queue) : Dev := { d with qf := { d.qf with qs := tmod d.qf.qs q f } }

/-- An index advanced modulo twice the depth (R97). -/
def Queue.step (q : Queue) (i n : Nat) : Nat := (i + n) % (2 * q.depth)

/-- Entries a queue can still take. -/
def Queue.room (q : Queue) : Nat := q.depth - q.ents.length

/-! ### Interrupts (R121) -/

/-- MSI-X vectors of a function (R121). -/
def vectorsOf (f : Nat) : Nat := if f = 0 then 2048 else 64

/-- A post signals the vector of a queue with INT_EN = 1 (R121). -/
def Dev.signal (d : Dev) (q : Queue) : Dev :=
  if q.intEn && isFn q.owner then
    let k := q.owner * 0x1000 + q.vector
    let v := (tget d.qf.vecs k).getD {}
    if v.masked || v.pend then { d with qf := { d.qf with vecs := tset d.qf.vecs k { v with pend := true } } }
    else if v.window && decide (q.cls ≠ 0) then
      { d with qf := { d.qf with vecs := tset d.qf.vecs k { v with fell := true } } }
    else
      let w := decide (d.fg F.qfHoldoff_holdoff uQf ≠ 0) && decide (q.cls ≠ 0)
      { d with qf := { d.qf with vecs := tset d.qf.vecs k { v with window := v.window || w }, msgs := k :: d.qf.msgs } }
  else d

/-! ### Posting (R114 to R116, R585) -/

/-- The bytes of an entry stored into queue q's ring at index i. -/
def Dev.ringW (d : Dev) (q : Queue) (i : Nat) (e : Entry) : Dev :=
  let a := q.ringBase + 64 * (i % q.depth)
  if q.ringHost then d.hostW q.owner a e.enc else d.hbmW a e.enc

/-- An entry placed at TAIL by the fabric. -/
def Dev.enqueue (d : Dev) (qid : Nat) (e : Entry) : Dev :=
  let q := d.q qid
  ((d.ringW q q.tail e).setQ qid { q with tail := q.step q.tail 1, ents := q.ents ++ [e], nsub := q.nsub + 1 }).signal q

/-- What is offered to a DISABLED queue is discarded: an EVENT without a word, another entry with E_Q_NO_TARGET (R585). -/
def Dev.postGone (d : Dev) (qid : Nat) (e : Entry) : Dev :=
  if e.typ = 4 then d
  else d.raiseOnce qid 10000000
    { code := 0x030B, sev := 2, unit := uQf, d0 := qid, d1 := e.tag, d2 := e.status % 2 ^ 16 * 2 ^ 16 + e.seq % 2 ^ 16 }

/-- An entry offered to queue qid by the fabric; `src` is the queue its operation came from. A DISABLED queue discards it
(R585); a full one makes a COMPLETION, RETURN or RESET_DONE wait (R114, R115) and loses an EVENT (R116); what is offered to a
RESETTING queue waits for the end of its reset, as nothing is dropped there (R114; log entry 61). -/
def Dev.post (d : Dev) (qid src : Nat) (e : Entry) : Dev :=
  let q := d.q qid
  if q.rstate = 0 then d.postGone qid e
  else if q.rstate = 3 then { d with qf := { d.qf with waits := d.qf.waits ++ [(⟨qid, e, src, 0⟩ : Wait)] } }
  else if q.room = 0 then
    if e.typ = 4 then d.modQ qid fun r => { r with lostEv := true }
    else
      let d := { d with qf := { d.qf with waits := d.qf.waits ++ [(⟨qid, e, src, 0⟩ : Wait)] } }
      if d.qf.fullTold.contains qid then d
      else { d with qf := { d.qf with fullTold := qid :: d.qf.fullTold } }.raise
             { code := 0x0304, sev := if q.cls = 0 then 3 else 2, unit := uQf, d0 := qid }
  else d.enqueue qid e

/-- An EVENT entry offered to an error or event queue (R116, R559): the next record delivered after a loss carries LOST. -/
def Dev.postEvent (d : Dev) (qid : Nat) (r : EvRec) : Dev :=
  let q := d.q qid
  let r := { r with lost := r.lost || q.lostEv }
  let d := if q.rstate ≠ 0 ∧ q.room ≠ 0 then d.modQ qid fun x => { x with lostEv := false } else d
  d.post qid qid r.entry

/-! ### Operations in flight (R104, R110, R112) -/

/-- QF_TAGS shows the free tags of both pools. -/
def Dev.syncTags (d : Dev) : Dev :=
  let c := (d.qf.ops.filter fun o => decide (o.tag < 0x4000)).length
  let g := (d.qf.ops.filter fun o => decide (0x4000 ≤ o.tag)).length
  (d.fs F.qfTags_c0Free (0x4000 - c) uQf).fs F.qfTags_genFree (0x1C000 - g) uQf

/-- The operation that holds a tag. -/
def Dev.op (d : Dev) (tag : Nat) : Option Op := d.qf.ops.find? fun o => decide (o.tag = tag)

/-- Operations of a queue. -/
def Dev.opsOf (d : Dev) (qid : Nat) : List Op := d.qf.ops.filter fun o => decide (o.qid = qid)

/-- A tag closed: its operation leaves and INFLIGHT falls (R104). -/
def Dev.closeTag (d : Dev) (o : Op) : Dev :=
  let d := { d with qf := { d.qf with ops := d.qf.ops.filter fun x => decide (x.tag ≠ o.tag) } }
  (d.modQ o.qid fun q => { q with inflight := q.inflight - 1 }).syncTags

/-- Whether a FIFO_DONE completion must wait for an earlier entry of its queue (R112). -/
def Dev.fifoBlocked (d : Dev) (qid num : Nat) : Bool :=
  d.qf.ops.any (fun o => decide (o.qid = qid) && decide (o.num < num))

/-- Completions of a FIFO_DONE queue whose earlier entries have closed are posted, in submission order (R112). -/
def Dev.flushFifo (d : Dev) (qid : Nat) : Dev :=
  let ready := (d.qf.fifo.filter fun w => decide (w.src = qid) && !d.fifoBlocked qid w.num).mergeSort
    fun a b => decide (a.num ≤ b.num)
  let d := { d with qf := { d.qf with fifo := d.qf.fifo.filter fun w => !(decide (w.src = qid) && !d.fifoBlocked qid w.num) } }
  ready.foldl (fun e w => e.post w.qid qid w.entry) d

/-- A post that answers operation number `num` of queue src: held back in FIFO_DONE mode (R112). -/
def Dev.answer (d : Dev) (qid src num : Nat) (e : Entry) : Dev :=
  if (d.q src).mode = 2 then
    { d with qf := { d.qf with fifo := d.qf.fifo ++ [(⟨qid, e, src, num⟩ : Wait)] } }.flushFifo src
  else d.post qid src e

/-- The COMPLETION of an operation (R101, R114). -/
def Op.completion (o : Op) (status : Nat) (suspect : Bool) (body : List Byte) : Entry :=
  { Entry.zero with
      opcode := o.entry.opcode, typ := 2, suspect := suspect, epoch := o.entry.epoch, unit := o.unit,
      replyQid := o.entry.replyQid, master := o.entry.master, tag := o.tag, status := status, seq := o.entry.seq, body := body }

/-- An operation ends (R114): CFG_SUSPECT from its unit's parity mark (R86); one that the hold of its master or of its unit stopped
closes with E_Q_HELD (R118, R91). -/
def Dev.endOp (d : Dev) (tag status : Nat) (body : List Byte) : Dev :=
  match d.op tag with
  | none => d
  | some o =>
    let st := if d.isHeld o.entry.master || ((d.holdOf true o.unit).isSome && decide (d.own o.unit = stHeld)) then 0x0310 else status
    let d := d.closeTag o
    if o.entry.notify || decide (st ≠ 0) then
      d.answer o.entry.replyQid o.qid o.num (o.completion st (d.fab.marks.contains o.unit) body)
    else d.flushFifo o.qid

/-- A COMPLETION with NOTAG of an entry that never took a tag (R103, R118). -/
def Dev.closeNoTag (d : Dev) (qid : Nat) (e : Entry) (status num : Nat) : Dev :=
  let q := d.q qid
  d.answer e.replyQid qid num
    { Entry.zero with
        opcode := e.opcode, typ := 2, notag := true, epoch := e.epoch, unit := q.unit, replyQid := e.replyQid,
        master := e.master, status := status, seq := e.seq }

/-- An entry turned into a RETURN to ERR_QID with E_ROLE (R115), the event raised by `unit`. -/
def Dev.returnRole (d : Dev) (qid : Nat) (e : Entry) (tag expected unit : Nat) : Dev :=
  let q := d.q qid
  let d := d.raise { code := 0x0104, sev := 1, unit := unit, master := e.master, d0 := e.epoch, d1 := expected, d2 := qid }
  let d := d.fadd F.qfRole_returns 1 uQf
  d.post q.errQid qid { e with typ := 3, status := 0x0104, tag := tag, unit := unit }

/-! ### Dispatch (R109 to R111, R580) -/

/-- The next entry of a queue, with its number. -/
def Queue.next (q : Queue) : Option (Entry × Nat) :=
  match q.ents with
  | [] => none
  | e :: _ => if e.typ = 1 then some (e, q.nsub - q.ents.length) else none

/-- R111: an entry that is held back by earlier unfinished entries of its queue. -/
def Dev.heldBack (d : Dev) (qid : Nat) (q : Queue) (e : Entry) : Bool :=
  let early := (d.opsOf qid).filter fun o => !o.finished
  ((e.ord || e.bad || decide (q.mode = 1)) && decide (early ≠ [])) ||
  early.any (fun o => o.entry.ord) || early.any (fun o => o.entry.overlap e)

/-- Classes that the governor withholds for a unit's group (R33). -/
def Dev.isWithheld (d : Dev) (u cls : Nat) : Bool :=
  (u :: ancestorsOf u).any fun g => decide (4 - (tget d.bank.withheld g).getD 0 ≤ cls) && decide (cls ≠ 0)

/-- A queue that can dispatch now but for a tag (R109, R111, R114, R115, R580). -/
def Dev.eligible (d : Dev) (qid : Nat) (q : Queue) : Bool :=
  match q.next with
  | none => false
  | some (e, _) =>
    decide (q.rstate = 1) && decide (q.inflight < 2 ^ q.inflLog2) && !d.heldBack qid q e && d.accepts q.unit &&
    !d.isWithheld q.unit q.cls && !d.qf.stopped.contains qid &&
    !(d.qf.waits.any fun w => decide (w.qid = e.replyQid) || (decide (w.qid = q.errQid) && decide (w.entry.typ = 3)))

/-- A free tag of [lo, lo+n), searched from a free starting point (R110: the order is the implementation's). -/
def Dev.freeTag (d : Dev) (lo n : Nat) : Option Nat :=
  ((List.range n).map fun i => lo + (d.freeVal + i) % n).find? fun t => (d.op t).isNone

/-- The tag an entry of class cls takes (R110). -/
def Dev.takeTag (d : Dev) (cls : Nat) : Option Nat :=
  if cls = 0 then (d.freeTag 0 0x4000).orElse fun _ => d.freeTag 0x4000 0x1C000 else d.freeTag 0x4000 0x1C000

/-- The queue of a class to serve: ascending QID after the one last served, wrapping (R109). -/
def Dev.pickIn (d : Dev) (cls : Nat) : Option Nat :=
  let ids := (d.qf.qs.filter fun p => decide (p.2.cls = cls) && d.eligible p.1 p.2).map (·.1)
  let last := (tget d.qf.served cls).getD 0x100000
  (ids.find? fun i => decide (last < i)).orElse fun _ => ids.head?

/-- Weight of a class (R109, QF_WEIGHT). -/
def Dev.qWeight (d : Dev) (cls : Nat) : Nat :=
  if cls = 1 then d.fg F.qfWeight_w1 uQf else if cls = 2 then d.fg F.qfWeight_w2 uQf else d.fg F.qfWeight_w3 uQf

/-- The class after c in the round C1, C2, C3. -/
def nextCls (c : Nat) : Nat := if c = 1 then 2 else if c = 2 then 3 else 1

/-- The class to serve among C1 to C3, with the turn's new state (R109); n bounds the classes tried. -/
def Dev.pickRound (d : Dev) : Nat → Nat → Nat → Option (Nat × Nat × Nat)
  | 0, _, _ => none
  | n + 1, c, k =>
    if k < d.qWeight c then
      match d.pickIn c with
      | some q => some (q, c, k + 1)
      | none => d.pickRound n (nextCls c) 0
    else d.pickRound n (nextCls c) 0

/-- The entry leaves its ring: HEAD advances (R97). -/
def Dev.popHead (d : Dev) (qid : Nat) : Dev :=
  d.modQ qid fun q => { q with head := q.step q.head 1, ents := q.ents.tail }

/-- The unit that a dispatch reaches takes ACTIVE on its first operation (R18). -/
def Dev.firstOp (d : Dev) (u : Nat) : Dev :=
  if !isGroup u && (domainOf u).isSome && decide (d.own u = stReady) then d.setUst u stActive 0x7 else d

/-- Whether a unit compares a message's epoch with its own (R22): a leaf with a context-store slot. -/
def hasRole (u : Nat) : Bool := !isGroup u && (domainOf u).isSome

/-- One entry of queue qid dispatched (R110, R103, R115): malformed entries close with NOTAG, stale ones return with E_ROLE,
others open an operation. -/
def Dev.dispatchFrom (d : Dev) (qid : Nat) : Dev :=
  let q := d.q qid
  match q.next with
  | none => d
  | some (e, num) =>
    if e.bad then
      ((d.popHead qid).raiseOnce qid 10000000 { code := 0x0309, sev := 1, unit := uQf, master := e.master, d0 := qid }).closeNoTag
        qid e 0x0309 num
    else
      match d.takeTag q.cls with
      | none =>
        if q.cls = 0 then
          (d.raise { code := 0x0308, sev := 3, unit := uQf, d0 := qid }).c0Risk 6 0
        else { d with qf := { d.qf with tagWait := if d.qf.tagWait.contains qid then d.qf.tagWait else qid :: d.qf.tagWait } }
      | some tag =>
        let d := (d.popHead qid).useFree
        let d := { d with qf := { d.qf with tagWait := d.qf.tagWait.filter (· ≠ qid) } }
        if e.epoch ≠ q.epoch then d.returnRole qid e tag q.epoch uQf
        else if hasRole q.unit && decide (d.fg F.ucbEpoch_epoch q.unit ≠ e.epoch) then
          d.returnRole qid e tag (d.fg F.ucbEpoch_epoch q.unit) q.unit
        else
          let e := { e with unit := q.unit, tag := tag }
          let d := { d with qf := { d.qf with ops := d.qf.ops ++ [(⟨tag, qid, num, e, q.unit, q.cls, false, false⟩ : Op)] } }
          ((d.modQ qid fun r => { r with inflight := r.inflight + 1 }).syncTags).firstOp q.unit

/-- C1 to C3 record used: it moves to the end of the cache, the least recently used leaving a full one (R100). -/
def Dev.touchCache (d : Dev) (qid : Nat) : Dev :=
  if (d.q qid).cls = 0 then d
  else
    let l := d.qf.cached.filter (· ≠ qid)
    let l := if l.length < 14336 then l else
      match l.find? fun i => !(d.q i).pinned with
      | some v => l.filter (· ≠ v)
      | none => l
    let d := { d with qf := { d.qf with cached := l ++ [qid] } }
    d.fs F.qfCache_used (min (l.length + 1) 14336) uQf

/-- The next entry of a queue leaves its ring: it is malformed, or a tag is free for it; a queue without a free tag yields its turn (R109). -/
def Dev.canLeave (d : Dev) (qid : Nat) : Bool :=
  ((d.q qid).next.any fun p => p.1.bad) || (d.takeTag (d.q qid).cls).isSome

/-- One dispatch of the fabric (R109): C0 first; else the round of C1, C2, C3. -/
def Dev.dispatch (d : Dev) : Dev :=
  match d.pickIn 0 with
  | some q => { d with qf := { d.qf with served := tset d.qf.served 0 q } }.dispatchFrom q
  | none =>
    match d.pickRound 4 d.qf.turnCls d.qf.turnCnt with
    | some (q, c, k) =>
      let k := if d.canLeave q then k else k - 1
      ({ d with qf := { d.qf with served := tset d.qf.served c q, turnCls := c, turnCnt := k } }.touchCache q).dispatchFrom q
    | none => { d with qf := { d.qf with turnCls := 1, turnCnt := 0 } }

/-! ### Holds and resets (R118, R119) -/

/-- Every entry between HEAD and TAIL closed with a status, in index order, HEAD set to TAIL (R118). Entries that the fabric posted
await their reader: a queue that holds no others keeps them. -/
def Dev.closeWaiting (d : Dev) (qid status : Nat) : Dev :=
  let q := d.q qid
  let d := if q.ents.any (fun e => decide (e.typ = 1)) then d.setQ qid { q with head := q.tail, ents := [] } else d
  (q.ents.zipIdx).foldl (fun e p => if p.1.typ = 1 then e.closeNoTag qid p.1 status (q.nsub - q.ents.length + p.2) else e) d

/-- A master's hold stops every queue it owns and closes its undispatched entries (R118); a RESETTING queue is left. -/
def Dev.holdQueues (d : Dev) (m : Nat) : Dev :=
  let mine := (d.qf.qs.filter fun p => decide (p.2.owner = m) && decide (p.2.rstate ≠ 0) && decide (p.2.rstate ≠ 3)).map (·.1)
  mine.foldl (fun e q => (e.modQ q fun r => { r with rstate := 2 }).closeWaiting q 0x0310) d

/-- A master's operations in execution closed with status HELD (R88, R118). -/
def Dev.closeHeldOps (d : Dev) (m : Nat) : Dev :=
  (d.qf.ops.filter fun o => decide (o.entry.master = m)).foldl (fun e o => e.endOp o.tag 0x0310 []) d

/-- A queue reset's first two steps (R119). -/
def Dev.beginReset (d : Dev) (qid : Nat) : Dev :=
  d.modQ qid fun q => { q with rstate := 3, resetCount := q.ents.length, head := q.tail, ents := [] }

/-- Posts that waited for a queue go out as room appears (R114). -/
def Dev.drainWaits (d : Dev) (qid : Nat) : Nat → Dev
  | 0 => d
  | n + 1 =>
    if (d.q qid).room = 0 ∨ (d.q qid).rstate = 3 then d
    else
      match d.qf.waits.find? fun w => decide (w.qid = qid) with
      | none => { d with qf := { d.qf with fullTold := d.qf.fullTold.filter (· ≠ qid) } }
      | some w =>
        let rest := d.qf.waits.eraseP fun x => decide (x.qid = qid)
        ({ d with qf := { d.qf with waits := rest } }.enqueue qid w.entry).drainWaits qid n

end Sys2Proof.Machine
end

