-- ==== Sys2Proof/Machine/Fabric.lean ====
section
/-! DEFINITION. The register fabric (chapter 03): holds and violations (R87 to R91), the checks every register write passes
(R77, R80, R81, R84, R85, R584), the write of a register's fields by type, reads with their side-effects (R79, R94). -/
namespace Sys2Proof.Machine

/-! ### Holds (R76, R88 to R90) -/

/-- The next hold sequence: 16 bits, never 0 (R90). -/
def nextSeq (s : Nat) : Nat := if s = 0xFFFF then 1 else s + 1

/-- The unit that an internal master's hold also holds (R89). -/
def unitOfMaster (m : Nat) : Option Nat :=
  if m = 0x100 then some uTwin
  else if 0x101 ≤ m ∧ m ≤ 0x103 then some (uChainPort (m - 0x101))
  else if 0x80 ≤ m ∧ m ≤ 0xFF then some (Config.dmaUnit m)
  else none

/-- A unit enters HELD where R18 lets it: from any state but OFF and UNUSABLE, with TST = 0. -/
def Dev.mayHold (d : Dev) (u : Nat) : Bool :=
  decide (d.own u ≠ stOff) && decide (d.own u ≠ stUnusable) && !d.fb F.ucbState_tst u && !isAon u

/-- A hold recorded with the next sequence value (R90); an entity has one hold. -/
def Dev.addHold (d : Dev) (isUnit : Bool) (id cause info : Nat) : Dev :=
  let others := d.fab.holds.filter fun h => !((h.isUnit == isUnit) && decide (h.id = id))
  { d with fab := { d.fab with holds := others ++ [⟨isUnit, id, cause, 0, nextSeq d.fab.holdSeq, info⟩],
                               holdSeq := nextSeq d.fab.holdSeq } }

/-- A unit taken into HELD, its grant frozen (R17, R18). -/
def Dev.holdUnit (d : Dev) (u : Nat) : Dev := if d.mayHold u then d.setUst u stHeld 0xC else d

/-- A violation of causes 0x1 to 0x6 (R87, R88): the master is held, its queues stop and their entries close, E_HOLD is
raised; an internal DMA unit or port also takes HELD, with E_C0_AT_RISK where it carries C0 work (R89). A violation by an
Ozder master raises E_OZ_VIOL and holds nothing (R76). -/
def Dev.violate (d : Dev) (m cause info : Nat) : Dev :=
  if isOz m then d.raise { code := 0x0213, sev := 4, master := m, d0 := cause, d1 := info }
  else if d.isHeld m then d
  else
    let d := d.addHold false m cause info
    let d := d.holdQueues m
    let d := d.raise { code := 0x0210, sev := 2, master := m, d0 := cause, d1 := info, d2 := d.fab.holdSeq }
    match unitOfMaster m with
    | none => d
    | some u =>
      let risk := decide (d.workCls u = 0)
      let d := d.holdUnit u
      if risk then d.c0Risk 7 u else d

/-- A write, doorbell or submission of a held master: refused and counted (R88, R89). -/
def Dev.refuse (d : Dev) (m : Nat) : Dev :=
  { d with fab := { d.fab with
      holds := d.fab.holds.map fun h =>
        if !h.isUnit && decide (h.id = m) then { h with refused := satAdd h.refused 1 0x7FF } else h } }

/-- What a master does with a write path: refused while it is held, else f. -/
def Dev.unlessHeld (d : Dev) (m : Nat) (f : Dev → Dev) : Dev := if d.isHeld m then d.refuse m else f d

/-! ### Access errors (R72, R77) -/

/-- ACC_LOG and ACC_ADDR record an access error (R94). -/
def Dev.accErr (d : Dev) (kind m addr : Nat) : Dev :=
  (((d.fs F.accLog_kind kind).fs F.accLog_master m).fadd F.accLog_count 1).fs F.accAddr_offset addr

/-- A narrow write, or an alias write to a WO or WOO field, is dropped (R77, R83). -/
def Dev.narrowWrite (d : Dev) (kind m addr : Nat) : Dev :=
  (d.accErr kind m addr).raise { code := 0x0201, sev := 1, master := m }

/-- An unaligned access is rejected (R77): kind 2 a read, 3 a write. -/
def Dev.unaligned (d : Dev) (kind m addr : Nat) : Dev :=
  (d.accErr kind m addr).raise { code := 0x0202, sev := 1, master := m }

/-- A write to an unmapped address is dropped (R72). -/
def Dev.unmapped (d : Dev) (m addr : Nat) : Dev :=
  (d.accErr 4 m addr).raise { code := 0x0203, sev := 1, master := m }

/-! ### The checks of a register write -/

def FRow.writable (f : FRow) : Bool := decide (f.ty ≠ .ro)

/-- A PRIV register: one with a writable PRIV field (R584). -/
def Reg.isPriv (r : Reg) : Bool := r.row.fields.any fun f => f.priv && f.writable

/-- An LK register (R84). -/
def Reg.isLk (r : Reg) : Bool := r.row.fields.any (·.lk)

/-- A CFG register (R86). -/
def Reg.isCfg (r : Reg) : Bool := r.row.fields.any (·.cfg)

/-- Whether an LK register of unit u is locked (R84). -/
def Dev.isLocked (d : Dev) (r : Reg) (u : Nat) : Bool :=
  match r.row.win with
  | .glob => d.fab.lockGlobal
  | _ => d.fab.locked.contains u

/-- A WOO field that has taken its write refuses a third value (R85). -/
def Dev.wooThird (d : Dev) (r : Reg) (u k : Nat) (v : Word) (f : FRow) : Bool :=
  decide (f.ty = .woo) && d.fab.wooDone.contains (r.key u k * 32 + f.lo) &&
  decide (getF v f.hi f.lo ≠ getF (d.rd r u k) f.hi f.lo) && decide (getF v f.hi f.lo ≠ f.reset)

/-- A locked register's write is dropped; a non-privileged writer is also held (R84). -/
def Dev.lockViol (d : Dev) (m : Nat) (r : Reg) (u k : Nat) : Dev :=
  let d := d.raise { code := 0x0204, sev := 2, master := m }
  if d.priv m then d else d.violate m 2 (regOffset r u k)

/-- A third value for a WOO field is dropped whole; a non-privileged writer is also held (R85). -/
def Dev.wooViol (d : Dev) (m : Nat) (r : Reg) (u k : Nat) : Dev :=
  let d := d.raise { code := 0x0205, sev := 2, master := m }
  if d.priv m then d else d.violate m 3 (regOffset r u k)

/-- A 32-bit aligned write to register r by master m (R87, R584, R84, R85): refused while held, a violation without
privilege, dropped when locked or a third WOO value, else `eff` applies. -/
def Dev.gated (d : Dev) (m : Nat) (r : Reg) (u k : Nat) (v : Word) (eff : Dev → Dev) : Dev :=
  d.unlessHeld m fun d =>
    if r.isPriv && !d.priv m then d.violate m 1 (regOffset r u k)
    else if r.isLk && d.isLocked r u then d.lockViol m r u k
    else if r.row.fields.any (d.wooThird r u k v) then d.wooViol m r u k
    else eff d

/-! ### The write of a register's fields -/

/-- One field of a write under its type (00_scope, Registers): RW takes the value, W1C clears, WO and RO keep, WOO takes its
single write. -/
def writeField (done : Bool) (old v w : Word) (f : FRow) : Word :=
  match f.ty with
  | .rw => setF w f.hi f.lo (getF v f.hi f.lo)
  | .w1c => setF w f.hi f.lo (getF old f.hi f.lo - (getF old f.hi f.lo &&& getF v f.hi f.lo))
  | .woo => if done || decide (getF v f.hi f.lo = f.reset) then w else setF w f.hi f.lo (getF v f.hi f.lo)
  | _ => w

/-- WOO fields that this write uses up (R85). -/
def wooTaken (r : Reg) (u k : Nat) (v : Word) : List Nat :=
  (r.row.fields.filter fun f => decide (f.ty = .woo) && decide (getF v f.hi f.lo ≠ f.reset)).map fun f => r.key u k * 32 + f.lo

/-- Parity of a CFG register is good again after a write, and firmware's shadow holds a global's last accepted value (R86). -/
def Dev.cfgWritten (d : Dev) (r : Reg) (u k : Nat) : Dev :=
  if r.isCfg then
    let key := r.key u k
    { d with fab := { d.fab with
        badFound := d.fab.badFound.filter (· ≠ key),
        shadow := match r.row.win with
          | .glob => tset d.fab.shadow key (d.rd r u k)
          | _ => d.fab.shadow } }
  else d

/-- Every field of a register written under its type; reserved bits stay 0 (R9). -/
def Dev.putFields (d : Dev) (r : Reg) (u k : Nat) (v : Word) : Dev :=
  let old := d.rd r u k
  let w := r.row.fields.foldl (fun w f => writeField (d.fab.wooDone.contains (r.key u k * 32 + f.lo)) old v w f) old
  let d := d.wr r u k w
  let d := { d with fab := { d.fab with wooDone := wooTaken r u k v ++ d.fab.wooDone } }
  d.cfgWritten r u k

/-! ### Reads (R79, R81, R94) -/

/-- A 32-bit read by master m of register r through `eff`: the word of `val` stands in rdata; a non-privileged reader of a
register whose writable fields are PRIV reads zero without side-effect (R81). -/
def Dev.readReg (d : Dev) (m : Nat) (r : Reg) (val : Dev → Word) (eff : Dev → Dev) : Dev :=
  if r.isPriv && !d.priv m then { d with fab := { d.fab with rdata := 0 } }
  else { eff d with fab := { (eff d).fab with rdata := val d } }

/-- A 32-bit read that returns a register and then clears some fields of it to 0. -/
def Dev.readClear (d : Dev) (m : Nat) (r : Reg) (u k : Nat) (fs : List Fld) : Dev :=
  d.readReg m r (fun e => e.rd r u k) fun e => fs.foldl (fun e f => e.fs f 0 u k) e

/-- HOLD_STATUS of the entity selected in HOLD_SEL (R94). -/
def Dev.holdStatus (d : Dev) : Word :=
  match d.holdOf (d.fb F.holdSel_kind) (d.fg F.holdSel_id) with
  | none => 0
  | some h => BitVec.ofNat 32 (2 ^ 31 + h.cause * 2 ^ 27 + h.refused * 2 ^ 16 + h.seq)

/-- HOLD_INFO of the entity selected in HOLD_SEL (R94). -/
def Dev.holdInfo (d : Dev) : Word :=
  match d.holdOf (d.fb F.holdSel_kind) (d.fg F.holdSel_id) with
  | none => 0
  | some h => BitVec.ofNat 32 h.info

/-- WHO_AM_I as master m reads it (R94). -/
def Dev.whoAmI (d : Dev) (m : Nat) : Word :=
  BitVec.ofNat 32 (bit (d.priv m) * 2 ^ 31 + bit (isOz m) * 2 ^ 30 + bit (d.isHeld m) * 2 ^ 29 + m % 2 ^ 10)

/-- UCB_STATE as read: a group's STATE, MIXED and DEGRADED are derived (R16, R21). -/
def Dev.ucbStateWord (d : Dev) (u : Nat) : Word :=
  let w := setF (d.rd .ucbState u) 3 0 (d.ust u)
  if isGroup u then setF (setF w 26 26 (bit (d.degraded u))) 25 25 (bit (d.mixed u)) else w

/-- A unit's granted charge at the present voltage (R56): ceil(table × VSCALE / 1024). -/
def charge (base vscale : Nat) : Nat := ceilDiv (base * vscale) 1024

/-- UCB_PIP as read: a group's GRANT is the sum over members and own logic (R16). -/
def Dev.ucbPipWord (d : Dev) (u : Nat) : Word :=
  if isGroup u then
    setF (d.rd .ucbPip u) 27 16 (((subtree u).filter hasLogic).foldl (fun n v => n + d.fg F.ucbPip_grant v) 0)
  else d.rd .ucbPip u

/-- The word a 32-bit read of a register returns to master m, side-effects apart: the stored word, or the view the manual
computes. -/
def Dev.view (d : Dev) (m : Nat) (r : Reg) (u k : Nat) : Word :=
  match r with
  | .whoAmI => d.whoAmI m
  | .holdStatus => if d.priv m then d.holdStatus else 0
  | .holdInfo => if d.priv m then d.holdInfo else 0
  | .ucbState => d.ucbStateWord u
  | .ucbPip => d.ucbPipWord u
  | .ucbId =>
    BitVec.ofNat 32 (((ancestorsOf u).length + 1) * 2 ^ 21 + bit (isGroup u) * 2 ^ 20 + (childrenOf u).2 * 2 ^ 12 + u)
  | .ucbLink => BitVec.ofNat 32 (parentOf u * 2 ^ 16 + (childrenOf u).1)
  | .devId =>
    setF (setF (d.rd .devId) 15 8 (if Config.codeX then 0x58 else 0x43)) 7 0 Config.stepping
  | .mbBootLo | .mbBootHi | .mbBootCtl | .mbBootQid | .mbBootEpoch => if isFn m then d.rd r uOzder m else 0
  | .hbmMyrgn =>
    if isFn m then
      match tget d.hbm.user m with
      | some (b, n) => BitVec.ofNat 32 (b * 2 ^ 16 + n)
      | none => 0
    else 0
  | _ => if r.isPriv && !d.priv m then 0 else d.rd r u k

end Sys2Proof.Machine
end

