-- ==== Sys2Proof/Machine/Flags.lean ====
section
/-! DEFINITION. Computed status: the bank's ceiling, use and flags (R56, R59, R67), pace ratios (R33), and the status fields
that follow other state. -/
namespace Sys2Proof.Machine

/-! ### Charges (R56) -/

/-- VSCALE at a voltage in mV: round(1024 × (V / 0.72 V)²). -/
def vscaleOf (mv : Nat) : Nat := roundDiv (1024 * mv * mv) (720 * 720)

/-- The delay-match band of a unit (R31). -/
def Dev.band (d : Dev) (u : Nat) : Nat := d.fg F.ucbState_band u

/-- Pip-table entry at ACT_LEVEL n, at waking, and in self-test (R56: 1.6 times level 7, rounded up). -/
def Dev.pipLevel (d : Dev) (u n : Nat) : Nat := Config.pips u (d.band u) (n + 1)
def Dev.pipWake (d : Dev) (u : Nat) : Nat := Config.pips u (d.band u) 0
def Dev.pipTest (d : Dev) (u : Nat) : Nat := ceilDiv (8 * d.pipLevel u 7) 5

/-- The present scale. -/
def Dev.vscale (d : Dev) : Nat := d.fg F.bankVscale_vscale uBank

/-- What a unit holds, as charged at scale vs. -/
def Dev.held (d : Dev) (vs u : Nat) : Nat := match tget d.bank.grants u with
  | some g => charge g.base vs
  | none => 0

/-- Charged pips of C0 grants and of all others at scale vs (BANK_USE). -/
def Dev.usedC0 (d : Dev) (vs : Nat) : Nat := d.bank.grants.foldl (fun n p => if p.2.c0 then n + charge p.2.base vs else n) 0
def Dev.usedOther (d : Dev) (vs : Nat) : Nat := d.bank.grants.foldl (fun n p => if p.2.c0 then n else n + charge p.2.base vs) 0

/-! ### The ceiling (R59, R67) -/

/-- Thermal ceiling in hundredths of CEIL by TH_LEVEL (R67). -/
def thermPct (lvl : Nat) : Nat := if lvl = 0 then 100 else if lvl = 1 then 95 else if lvl = 2 then 85 else if lvl = 3 then 70 else 50

/-- The thermal ceiling: a fraction of CEIL, rounded down (R67). -/
def Dev.thermCeil (d : Dev) : Nat := d.fg F.bankCeil_ceil uBank * thermPct (d.fg F.bankStatus_thLevel uBank) / 100

/-- Whether the peer's term takes part in EFF (R59). -/
def Dev.peerOn (d : Dev) : Bool := d.fb F.bankCtl_pairMin uBank && d.fb F.bankStatus_peerValid uBank

/-- The effective ceiling (R59). -/
def Dev.effCeil (d : Dev) : Nat :=
  let c := min (d.fg F.bankCeil_ceil uBank) d.thermCeil
  if d.peerOn then min c (d.fg F.bankPeer_peerEff uBank) else c

/-- LIMIT: bit 0 the thermal ceiling, bit 1 the peer's, each set while its term lies below CEIL (R58). -/
def Dev.limitBits (d : Dev) : Nat :=
  let c := d.fg F.bankCeil_ceil uBank
  bit (decide (d.thermCeil < c)) + 2 * bit (d.peerOn && decide (d.fg F.bankPeer_peerEff uBank < c))

/-- Free pips: EFF − USED_C0 − USED_OTHER, which may be negative (R59). -/
def Dev.freePips (d : Dev) : Int := (d.effCeil : Int) - d.usedC0 d.vscale - d.usedOther d.vscale

/-- OVER and LOW_RES (R58). -/
def Dev.over (d : Dev) : Bool := decide (d.freePips < 0)
def Dev.lowRes (d : Dev) : Bool := decide (d.freePips < (d.fg F.bankReserve_reserve uBank : Int))

/-- EFF and LIMIT recomputed (R60, first step of a decision). -/
def Dev.syncEff (d : Dev) : Dev :=
  (d.fs F.bankEff_eff d.effCeil uBank).fs F.bankEff_limit d.limitBits uBank

/-- Requests waiting (BANK_STATUS PENDING). -/
def Dev.syncPending (d : Dev) : Dev := d.fs F.bankStatus_pending (min d.bank.reqs.length 0xFFF) uBank

/-- Use, flags, per-unit and per-domain grants brought up to date; E_BANK_OVER as OVER or LOW_RES becomes 1 (R58, R70). -/
def Dev.syncBank (d : Dev) : Dev :=
  let vs := d.vscale
  let d := (d.fs F.bankUse_usedC0 (d.usedC0 vs) uBank).fs F.bankUse_usedOther (d.usedOther vs) uBank
  let d := (allUnits.filter fun u => (domainOf u).isSome).foldl (fun e u => e.fs F.ucbPip_grant (e.held vs u) u) d
  let d := (List.range 64).foldl (fun e n =>
    e.fs F.bankDom_grant ((unitsInDomain n).foldl (fun s u => s + e.held vs u) 0) uBank n) d
  let rise := (d.over && !d.fb F.bankStatus_over uBank) || (d.lowRes && !d.fb F.bankStatus_lowRes uBank)
  let d := (d.fs F.bankStatus_over (bit d.over) uBank).fs F.bankStatus_lowRes (bit d.lowRes) uBank
  let d := d.syncPending
  if rise then d.raise { code := 0x0115, sev := 2, unit := uBank } else d

/-! ### Pace (R29, R33) -/

/-- Groups the governor and the bands work on: asynchronous groups of leaves, and the twin port (R31, R33). -/
def asyncGroups : List Nat :=
  (allUnits.filter fun u => isGroup u && isAsync u && decide (u ≠ 0) && decide (u ≠ uPipe)) ++ [uTwin]

/-- A group that is powered and has a floor (R33). -/
def Dev.governed (d : Dev) (g : Nat) : Bool := decide (d.ust g ≠ stOff) && decide (d.fg F.ucbPace_floor g ≠ 0)

/-- PACE_MIN/FLOOR of group a is below that of group b. -/
def Dev.slower (d : Dev) (a b : Nat) : Bool :=
  decide (d.fg F.ucbPaceMin_paceMin a * d.fg F.ucbPace_floor b < d.fg F.ucbPaceMin_paceMin b * d.fg F.ucbPace_floor a)

/-- The slowest powered asynchronous group (R33). -/
def Dev.slowest (d : Dev) : Option Nat :=
  match asyncGroups.filter d.governed with
  | [] => none
  | g :: gs => some (gs.foldl (fun best x => if d.slower x best then x else best) g)

/-- PACE_MIN/FLOOR of group g is at least n/100. -/
def Dev.paceAtLeast (d : Dev) (g n : Nat) : Bool :=
  decide (n * d.fg F.ucbPace_floor g ≤ 100 * d.fg F.ucbPaceMin_paceMin g)

/-- A group below its floor (R29). -/
def Dev.belowFloor (d : Dev) (g : Nat) : Bool :=
  decide (d.fg F.ucbPace_floor g ≠ 0) && decide (d.fg F.ucbPace_pace g < d.fg F.ucbPace_floor g)

end Sys2Proof.Machine
end

