-- ==== Sys2Proof/Machine/Arch.lean ====
section
/-! DEFINITION. Chapter 01, units and groups: UCB commands and transitions (R14, R18, R19, R580, R581), reloads, domains, pace
monitors (R29, R35), delay-match bands (R31, R32), and the reads of UCB registers (R16). -/
namespace Sys2Proof.Machine

/-! ### Requests and releases -/

/-- A request raised to the bank; PEND rises (R60, R61). A unit has one request of a kind waiting. -/
def Dev.ask (d : Dev) (u : Nat) (k : ReqKind) (cls : Nat) : Dev :=
  if d.bank.reqs.any fun r => decide (r.unit = u) && decide (r.kind = k) then d
  else
    ({ d with bank := { d.bank with reqs := d.bank.reqs ++ [(⟨u, k, cls, false⟩ : BankReq)] } }.fs F.ucbPip_pend 1 u).syncPending

/-- A unit comes down to a pip-table entry: it reports the release once its current has settled (R62). -/
def Dev.comeDown (d : Dev) (u base : Nat) : Dev := { d with bank := { d.bank with settling := tset d.bank.settling u base } }

/-- A unit's waiting requests withdrawn. -/
def Dev.withdraw (d : Dev) (u : Nat) : Dev :=
  ({ d with bank := { d.bank with reqs := d.bank.reqs.filter fun r => decide (r.unit ≠ u) } }.fs F.ucbPip_pend 0 u).syncPending

/-- REQUEST shows the charge at ACT_LEVEL (R16, R56). -/
def Dev.syncRequest (d : Dev) (u : Nat) : Dev :=
  d.fs F.ucbPip_request (charge (d.pipLevel u (d.fg F.ucbPip_actLevel u)) d.vscale) u

/-! ### Transitions -/

/-- A unit that reaches READY, ACTIVE or UNUSABLE is no longer recovering (R558). -/
def Dev.recovered (d : Dev) (u : Nat) : Dev := { d with oz := { d.oz with recovering := d.oz.recovering.filter (· ≠ u) } }

/-- A unit takes UNUSABLE (R18). -/
def Dev.toUnusable (d : Dev) (u reason : Nat) : Dev := (d.setUst u stUnusable reason).recovered u

/-- A unit takes READY (R18). -/
def Dev.toReady (d : Dev) (u reason : Nat) : Dev := (d.setUst u stReady reason).recovered u

/-- What a domain's power loss takes with it: the unit's window registers, EPOCH, GEN and the parity mark (R18, R86;
log entry 9). -/
def Dev.loseUnit (d : Dev) (u : Nat) : Dev :=
  let own := fun (p : Nat × Word) => decide (p.1 / 0x100 % 0x1000 = u) && decide (10 ≤ p.1 / 0x100000)
  let d := { d with regs := d.regs.filter fun p => !own p,
                    fab := { d.fab with marks := d.fab.marks.filter (· ≠ u) },
                    bank := { d.bank with reloadFails := tdel d.bank.reloadFails u } }
  (d.fs F.ucbEpoch_epoch 0 u).fs F.ucbGen_gen 0 u

/-- A domain powers off when the last of its units is OFF (R55). -/
def Dev.domainCheck (d : Dev) (u : Nat) : Dev :=
  match domainOf u with
  | none => d
  | some n =>
    if (unitsInDomain n).all fun v => decide (d.own v = stOff) then
      let d := (d.fs F.bankDom_on 0 uBank n)
      let d := { d with bank := { d.bank with good := d.bank.good.filter (· ≠ n) } }
      (unitsInDomain n).foldl Dev.loseUnit d
    else d

/-- A refused UCB command (R19). -/
def Dev.refuseCmd (d : Dev) (u : Nat) : Dev := d.raise { code := 0x0101, sev := 1, unit := u }

/-- A UCB command applied to one unit's logic by its own state (R18, R19, R581): 1 WAKE, 2 DRAIN, 3 SLEEP, 4 OFF, 5 RELOAD. -/
def Dev.cmd1 (d : Dev) (cmd u : Nat) : Dev :=
  let st := d.own u
  if isAon u then d.refuseCmd u
  else if cmd = 1 then
    if st = stOff ∨ st = stSleep then d.ask u .wake (d.workCls u) else d.refuseCmd u
  else if cmd = 2 then
    if st = stActive then d.setUst u stDraining 0x8 else d.refuseCmd u
  else if cmd = 3 then
    if st = stReady then ((d.withdraw u).setUst u stSleep 0xA).comeDown u 0 else d.refuseCmd u
  else if cmd = 4 then
    if st = stReady ∨ st = stSleep ∨ st = stUnusable then
      (((d.withdraw u).setUst u stOff 0xB).comeDown u 0).domainCheck u
    else d.refuseCmd u
  else
    if st = stReady then d.setUst u stQuarantine 0x4 else d.refuseCmd u

/-- A command written to a unit or group (R14): each member that is not UNUSABLE in ascending index, then the group's own
logic; n bounds the depth. -/
def Dev.cmdN (cmd : Nat) : Nat → Dev → Nat → Dev
  | 0, d, u => d.cmd1 cmd u
  | n + 1, d, u =>
    if isGroup u then
      let d := (membersOf u).foldl (fun e v => if e.ust v = stUnusable then e else Dev.cmdN cmd n e v) d
      if hasLogic u then d.cmd1 cmd u else d
    else d.cmd1 cmd u

/-- A UCB command (R14, R18). -/
def Dev.ucbCmd (d : Dev) (cmd u : Nat) : Dev := Dev.cmdN cmd 3 d u

/-- The write of CMD to a UCB by master m; an index that names no unit is unmapped (R72). -/
def Dev.ucbCmdBy (d : Dev) (m u cmd : Nat) : Dev :=
  match kindOf u with
  | none => d.unlessHeld m fun d => d.unmapped m (0x10008 + u * 0x1000)
  | some _ => d.gated m .ucbState u 0 0 fun d => d.ucbCmd cmd u

def execUcbWake (m u : Nat) (s : State) : Host.Outcome State Fault Refusal := s.access m fun d => d.ucbCmdBy m u 1
def execUcbDrain (m u : Nat) (s : State) : Host.Outcome State Fault Refusal := s.access m fun d => d.ucbCmdBy m u 2
def execUcbSleep (m u : Nat) (s : State) : Host.Outcome State Fault Refusal := s.access m fun d => d.ucbCmdBy m u 3
def execUcbOff (m u : Nat) (s : State) : Host.Outcome State Fault Refusal := s.access m fun d => d.ucbCmdBy m u 4
def execUcbReload (m u : Nat) (s : State) : Host.Outcome State Fault Refusal := s.access m fun d => d.ucbCmdBy m u 5

/-! ### Waking (R18, R55, R580) -/

/-- The working charge requested at ACT_LEVEL (R580). -/
def Dev.askWork (d : Dev) (u : Nat) : Dev := d.ask u .work (d.workCls u)

/-- A unit leaves WAKING for READY or QUARANTINE (R18): QUARANTINE when EPOCH or GEN is stale or a parity mark stands. -/
def Dev.leaveWaking (d : Dev) (u : Nat) : Dev :=
  let d := d.fs F.ucbCtx_reloadTry 0 u
  if d.fg F.ucbEpoch_epoch u = d.fg F.ucbEpoch_epochExp u ∧ d.fg F.ucbGen_gen u = d.fg F.ucbGen_genExp u ∧
      !d.fab.marks.contains u then d.toReady u 0x2
  else (d.setUst u stQuarantine 0x3).raise { code := 0x0102, sev := 1, unit := u }

/-- A domain reports power good (R55): every unit waking into it requests its working charge. -/
def Dev.powerGood (d : Dev) (n : Nat) : Dev :=
  if d.fb F.bankDom_on uBank n && !d.bank.good.contains n then
    let d := { d with bank := { d.bank with good := n :: d.bank.good } }
    (unitsInDomain n).foldl (fun e u => if e.own u = stWaking then e.askWork u else e) d
  else d

def execDomainPowerGood (n : Fin 64) (s : State) : Host.Outcome State Fault Refusal := s.onDev fun d => d.powerGood n

/-- A reload completes (R18, R86): with good parity EPOCH and GEN take the context store's values and the mark is cleared;
three failures in a row make the unit UNUSABLE with E_RELOAD_FAIL, and its charge comes down to none (R17). -/
def Dev.reloadDone (d : Dev) (u : Nat) (good : Bool) : Dev :=
  if d.own u = stQuarantine then
    let d := d.fadd F.ucbCtx_reloadTry 1 u
    if good && !(d.slot u).bad then
      let d := (d.fs F.ucbEpoch_epoch (d.fg F.ucbEpoch_epochExp u) u).fs F.ucbGen_gen (d.fg F.ucbGen_genExp u) u
      let d := { d with fab := { d.fab with marks := d.fab.marks.filter (· ≠ u),
                                            badFound := d.fab.badFound.filter fun k => decide (k / 0x100 % 0x1000 ≠ u) },
                        bank := { d.bank with reloadFails := tdel d.bank.reloadFails u } }
      d.toReady u 0x5
    else
      let n := (tget d.bank.reloadFails u).getD 0 + 1
      let d := { d with bank := { d.bank with reloadFails := tset d.bank.reloadFails u n } }
      if n < 3 then d
      else
        let d := { d with bank := { d.bank with reloadFails := tdel d.bank.reloadFails u } }
        ((d.toUnusable u 0x6).comeDown u 0).raise { code := 0x0103, sev := 3, unit := u }
  else d

def execReloadComplete (u : Nat) (good : Bool) (s : State) : Host.Outcome State Fault Refusal :=
  s.onDev fun d => d.reloadDone u good

/-- A DRAINING unit with no operation in flight returns to READY (R18); one with a parity mark (R86), or that firmware drains to
reload it (R272), then takes RELOAD. -/
def Dev.drained (d : Dev) (u : Nat) : Dev :=
  if d.own u = stDraining ∧ d.qf.ops.all (fun o => decide (o.unit ≠ u)) then
    let d := d.toReady u 0x9
    if d.fab.marks.contains u || d.bank.reload.contains u then
      { d with bank := { d.bank with reload := d.bank.reload.filter (· ≠ u) } }.setUst u stQuarantine 0x4
    else d
  else d

/-- A self-test asked of the bank (R66), in class C3. -/
def Dev.askTest (d : Dev) (u job : Nat) (roll : Bool) : Dev :=
  let d := d.ask u .test 3
  { d with hl := { d.hl with runs := d.hl.runs.filter (fun (r : TestRun) => decide (r.unit ≠ u)) ++ [(⟨u, job, roll, true⟩ : TestRun)] } }

/-- A unit that works is drained before its self-test is asked for (R552, R355). -/
def Dev.testDrained (d : Dev) (u : Nat) (roll : Bool) : Dev :=
  let wait := fun (e : Dev) => { e with hl := { e.hl with testWait := tset e.hl.testWait u roll } }
  if d.own u = stActive then wait (d.setUst u stDraining 0x8)
  else if d.own u = stDraining then wait d
  else d.askTest u 0 roll

/-- A drained unit whose self-test waits for that has it asked for. -/
def Dev.testReady (d : Dev) (u : Nat) : Dev :=
  match tget d.hl.testWait u with
  | none => d
  | some roll => if d.own u = stDraining then d else ({ d with hl := { d.hl with testWait := tdel d.hl.testWait u } }).askTest u 0 roll

def execDrainComplete (u : Nat) (s : State) : Host.Outcome State Fault Refusal := s.onDev fun d => (d.drained u).testReady u

/-- A domain loses power outside an OFF command (R18): its units go OFF, raise E_DOMAIN_LOST and hold no pips. -/
def Dev.domainLost (d : Dev) (n : Nat) : Dev :=
  let us := (unitsInDomain n).filter fun u => decide (d.own u ≠ stOff)
  let d := us.foldl (fun e u =>
    ((((e.withdraw u).setUst u stOff 0x0).fs F.ucbState_tst 0 u).raise { code := 0x0108, sev := 3, unit := u, d0 := n })) d
  let d := { d with bank := { d.bank with
      grants := d.bank.grants.filter fun p => !us.contains p.1,
      settling := d.bank.settling.filter fun p => !us.contains p.1,
      credits := d.bank.credits.filter fun p => !us.contains p.1,
      good := d.bank.good.filter (· ≠ n) } }
  ((us.foldl (fun e u => e.fs F.ucbPip_grant 0 u) d).fs F.bankDom_on 0 uBank n |> fun e =>
    (unitsInDomain n).foldl Dev.loseUnit e)

def execDomainPowerLost (n : Fin 64) (s : State) : Host.Outcome State Fault Refusal := s.onDev fun d => d.domainLost n

/-! ### Pace monitors (R29, R35) -/

/-- The count shown in PACE: a group's is the minimum over its own monitor and its asynchronous members (R16, R29). -/
def Dev.paceOf (d : Dev) (u n : Nat) : Nat :=
  ((membersOf u).filter isAsync).foldl (fun p v => min p (d.fg F.ucbPace_pace v)) (min n 0xFFFF)

/-- The end of a 1 µs window of unit u's monitor with n handshakes (R29, R16). -/
def Dev.paceWindow (d : Dev) (u n : Nat) : Dev :=
  if isAsync u then
    let p := d.paceOf u n
    let d := (d.fs F.ucbPace_pace p u).fs F.ucbPaceMin_paceMin (min p (d.fg F.ucbPaceMin_paceMin u)) u
    if d.belowFloor u then d.fadd F.ucbPaceMin_below 1 u else d
  else d

def execPaceWindow (u n : Nat) (s : State) : Host.Outcome State Fault Refusal := s.onDev fun d => d.paceWindow u n

/-- A group back at its floor for 10 ms (R27). -/
def execPaceOkTimeout (g : Nat) (s : State) : Host.Outcome State Fault Refusal := s.onDev fun d =>
  if d.bank.paceLow.contains g && !d.belowFloor g then
    { d with bank := { d.bank with paceLow := d.bank.paceLow.filter (· ≠ g) } }.raise { code := 0x0106, sev := 1, unit := g }
  else d

/-! ### Delay-match bands (R31, R32) -/

/-- The band for a reading in 1/8 °C from band b: up as a boundary is reached, down only 3 °C below the lower boundary. -/
def bandFor (b : Nat) (t : Int) : Nat :=
  let up := if t ≥ 760 then 3 else if t ≥ 600 then 2 else if t ≥ 320 then 1 else 0
  let keep := if t > 760 - 24 then 3 else if t > 600 - 24 then 2 else if t > 320 - 24 then 1 else 0
  if b < up then up else min b keep

/-- A group switches band with its asynchronous members and raises E_BAND (R32). -/
def Dev.bandSwitch (d : Dev) (g b : Nat) : Dev :=
  let us := g :: (subtree g).filter isAsync
  let d := us.foldl (fun e u => e.fs F.ucbState_band b u) d
  let d := { d with bank := { d.bank with bandAt := tset d.bank.bandAt g d.hl.clk, bandDue := tdel d.bank.bandDue g } }
  d.raise { code := 0x0107, sev := 1, unit := g, d0 := b }

/-- A reading of the group's sensor (R31, R32): at most one switch in any 1 ms; a rise within it waits. -/
def Dev.bandSample (d : Dev) (g : Nat) (t : Int) : Dev :=
  let b := d.band g
  let n := bandFor b t
  if n = b then d
  else
    match tget d.bank.bandAt g with
    | some at0 =>
      if d.hl.clk < at0 + 1000000 then
        if b < n then { d with bank := { d.bank with bandDue := tset d.bank.bandDue g n } } else d
      else d.bandSwitch g n
    | none => d.bandSwitch g n

/-- A band rise that fell due within 1 ms of the last switch takes effect as that 1 ms ends (R32). -/
def execBandRiseDeferred (g : Nat) (s : State) : Host.Outcome State Fault Refusal := s.onDev fun d =>
  match tget d.bank.bandDue g with
  | some b => d.bandSwitch g b
  | none => d

/-! ### Reads and ACT_LEVEL (R16) -/

/-- A 32-bit read of UCB_PACE_MIN: both fields, then reset, on an asynchronous unit (R16). -/
def Dev.readPaceMin (d : Dev) (m u : Nat) : Dev :=
  d.readReg m .ucbPaceMin (fun e => e.rd .ucbPaceMin u) fun e =>
    if isAsync u then (e.fs F.ucbPaceMin_below 0 u).fs F.ucbPaceMin_paceMin 0xFFFF u else e

def execUcbPaceMinRead (m u : Nat) (s : State) : Host.Outcome State Fault Refusal := s.access m fun d => d.readPaceMin m u

/-- A 32-bit read of UCB_EVENT clears EV_COUNT (R16). -/
def execUcbEventRead (m u : Nat) (s : State) : Host.Outcome State Fault Refusal :=
  s.access m fun d => d.readClear m .ucbEvent u 0 [F.ucbEvent_evCount]

/-- ACT_LEVEL lowered at once, its release following; a raise waits for the bank's grant (R16, R62). -/
def Dev.applyLevel (d : Dev) (u n : Nat) : Dev :=
  let cur := d.fg F.ucbPip_actLevel u
  if n ≤ cur then
    let d := (d.fs F.ucbPip_actLevel n u).syncRequest u
    if n < cur ∧ (d.own u = stQuarantine ∨ d.own u = stReady ∨ d.own u = stActive ∨ d.own u = stDraining) then d.comeDown u (d.pipLevel u n) else d
  else if d.own u = stOff ∨ d.own u = stSleep ∨ d.own u = stWaking ∨ d.own u = stUnusable then (d.fs F.ucbPip_actLevel n u).syncRequest u
  else d.ask u (.raise n) (d.workCls u)

/-- A write of ACT_LEVEL (R16, R39): a C0-path unit in service takes it at the next frame start of its camera. -/
def Dev.setLevel (d : Dev) (u n : Nat) : Dev :=
  if !hasLogic u || isAon u then d
  else if d.workCls u = 0 ∧ d.own u = stActive then
    { d with bank := { d.bank with wantLevel := tset d.bank.wantLevel u n } }
  else d.applyLevel u n

def execActLevelSet (m u : Nat) (v : Word) (s : State) : Host.Outcome State Fault Refusal := s.access m fun d =>
  match kindOf u with
  | none => d.unlessHeld m fun d => d.unmapped m (0x10014 + u * 0x1000)
  | some _ => d.gated m .ucbPip u 0 v fun d => d.setLevel u (getF v 14 12)

end Sys2Proof.Machine
end

