-- ==== Sys2Proof/Machine/Posia.lean ====
section
/-! DEFINITION. Posia's coding of a chunk (R341 to R352): prediction, contexts, matches, the bit string, the headers, the encoder and
the decoder of R350. -/
namespace Sys2Proof.Machine

/-- The parameters of a chunk's coding: components, sample depth, mosaic periods, slice width, bound q. -/
structure PsPar where
  ncomp : Nat
  d : Nat
  sx : Nat
  sy : Nat
  w : Nat
  q : Nat

/-! ### Contexts and prediction (R345 to R347) -/

/-- Contexts at reset (R347). -/
def ctxReset (d : Nat) : List (Nat × Nat) := List.replicate 24 (max 2 (2 ^ (d - 7)), 1)

/-- The coder with its contexts reset and its window empty. -/
def Coder.hreset (c : Coder) (p : PsPar) (row : Nat) : Coder := { c with ctx := ctxReset p.d, base := row }

/-- Whether row y0 is held when row y is coded (R345). -/
def Coder.held (c : Coder) (y0 y : Nat) : Bool := decide (c.base ≤ y0) && decide (y0 ≤ y) && decide (y ≤ y0 + 64)

/-- A held row of a component. -/
def Coder.rowAt (c : Coder) (comp y0 y : Nat) : Option (List Nat) := if c.held y0 y then tget c.rows (y0 * 4 + comp) else none

/-- The median of three. -/
def median (a b c : Int) : Int := max (min a b) (min (max a b) c)

/-- The neighbours a, b, c of a sample (R345): `acc` holds the row's samples so far, newest first; `up` the row SY above. -/
def neighbours (p : PsPar) (acc : List Nat) (up : Option (Array Nat)) (x : Nat) : Nat × Nat × Nat :=
  let mid := 2 ^ (p.d - 1)
  match up with
  | none => let a := if x < p.sx then mid else acc.getD (p.sx - 1) mid; (a, a, a)
  | some u =>
    let b := u.getD x 0
    if x < p.sx then (b, b, b) else (acc.getD (p.sx - 1) mid, b, u.getD (x - p.sx) 0)

/-- The context of a sample (R347). -/
def ctxOf (p : PsPar) (a b c : Nat) : Nat :=
  let dd := ((a - c) + (c - a) + ((b - c) + (c - b))) >>> (p.d - 10)
  if dd = 0 then 0 else min 7 (dd.log2 + 1)

/-- The smallest k with N × 2^k ≥ A, at most d (R347). -/
def riceK (d : Nat) (an : Nat × Nat) : Nat := ((List.range d).find? fun k => decide (an.1 ≤ an.2 * 2 ^ k)).getD d

/-- A context after a sample whose mapped value is m (R347). -/
def ctxNext (an : Nat × Nat) (m : Nat) : Nat × Nat :=
  if an.2 + 1 = 64 then ((an.1 + m) / 2, 32) else (an.1 + m, an.2 + 1)

/-- qe of a residual, its mapped value, and the inverse (R346). -/
def quantE (q : Nat) (e : Int) : Int :=
  let v : Int := ((e.natAbs + q) / (2 * q + 1) : Nat)
  if e < 0 then -v else v
def mapE (qe : Int) : Nat := if qe < 0 then (-2 * qe - 1).toNat else (2 * qe).toNat
def unmapE (m : Nat) : Int := if m % 2 = 0 then (m / 2 : Nat) else -((m + 1) / 2 : Nat)

/-- The reconstructed sample (R346). -/
def recon (p : PsPar) (pred qe : Int) : Nat :=
  (min (max (pred + qe * (2 * p.q + 1 : Nat)) 0) ((2 ^ p.d - 1 : Nat) : Int)).toNat

/-! ### Bit strings (R347 to R349) -/

/-- n bits of v, most significant first. -/
def bitsOf (n v : Nat) : List Bool := (List.range n).reverse.map fun i => v.testBit i

/-- A Rice code without escape. -/
def riceBits (k v : Nat) : List Bool := List.replicate (v >>> k) true ++ [false] ++ bitsOf k v

/-- The code of a mapped value (R347). -/
def codeBits (d k m : Nat) : List Bool := if m >>> k < 24 then riceBits k m else List.replicate 24 true ++ bitsOf (d + 1) m

/-- Bits packed into bytes, the last padded with zeros (R349). -/
def packBits : Nat → List Bool → List Byte
  | 0, _ => []
  | n + 1, bs => BitVec.ofNat 8 ((List.range 8).foldl (fun v i => 2 * v + (if bs.getD i false then 1 else 0)) 0) :: packBits n (bs.drop 8)
def bitBytes (bs : List Bool) : List Byte := packBits (ceilDiv bs.length 8) bs

/-- The bits of bytes. -/
def byteBits (bs : List Byte) : List Bool := bs.flatMap fun b => bitsOf 8 b.toNat

/-- Zigzag of a column offset and its inverse (R348). -/
def zigzag (i : Int) : Nat := if i < 0 then (-2 * i - 1).toNat else (2 * i).toNat

/-! ### Matches (R348) -/

/-- A match: F, V, OFF, LEN in groups. -/
structure Match where
  f : Bool
  v : Nat
  off : Int
  len : Nat

/-- The source row of a match in row y of a component, where it is held or in the frame history. -/
def Coder.matchRow (c : Coder) (m : Match) (comp y : Nat) : Option (List Nat) :=
  if m.f then (if y + m.v < 32 then none else tget c.prev ((y + m.v - 32) * 4 + comp))
  else if y < m.v + 1 then none else c.rowAt comp (y - (m.v + 1)) y

/-- The samples a match copies to column x; none where R350 would refuse it. -/
def Coder.copied (c : Coder) (p : PsPar) (m : Match) (comp y x : Nat) : Option (List Nat) :=
  let n := 8 * m.len
  if p.w < x + n ∨ (x : Int) + m.off < 0 ∨ (p.w : Int) < x + m.off + n then none
  else (c.matchRow m comp y).map fun r => (r.drop ((x : Int) + m.off).toNat).take n

/-- The bits of a match. -/
def Match.bits (m : Match) : List Bool := [m.f] ++ bitsOf 6 m.v ++ riceBits 4 (zigzag m.off) ++ riceBits 2 (m.len - 1)

/-- The match that a pick spells. -/
def Match.ofPick (n : Nat) : Option Match :=
  if n % 2 = 0 then none
  else some ⟨n.testBit 1, n / 4 % 64, (n / 256 % 16384 : Nat) - (8192 : Int), n / 4194304 % 1024 + 1⟩

/-- A match an encoder may use here: every copied sample lies within q of its source sample, and F = 1 only with a usable
frame history. -/
def Coder.usable (c : Coder) (p : PsPar) (hist : Bool) (src : List Nat) (comp y x : Nat) (n : Nat) : Option (Match × List Nat) :=
  match Match.ofPick n with
  | none => none
  | some m =>
    if m.f && !hist then none
    else match c.copied p m comp y x with
      | none => none
      | some l =>
        if (l.zip (src.drop x)).all fun q => decide (q.1 ≤ q.2 + p.q) && decide (q.2 ≤ q.1 + p.q) then some (m, l) else none

/-! ### The encoder (R345 to R349) -/

/-- A sample coded: its bits, the reconstruction, the contexts after it. -/
def encSample (p : PsPar) (ctx : List (Nat × Nat)) (comp : Nat) (acc : List Nat) (up : Option (Array Nat)) (x v : Nat) :
    List Bool × Nat × List (Nat × Nat) :=
  let (a, b, c) := neighbours p acc up x
  let pred := median a b ((a : Int) + b - c)
  let i := comp * 8 + ctxOf p a b c
  let an := ctx.getD i (1, 1)
  let qe := quantE p.q ((v : Int) - pred)
  let m := mapE qe
  (codeBits p.d (riceK p.d an) m, recon p pred qe, ctx.set i (ctxNext an m))

/-- Eight samples predicted and coded. -/
def encGroup (p : PsPar) (comp : Nat) (up : Option (Array Nat)) (src : List Nat) (x : Nat) (acc : List Nat) (ctx : List (Nat × Nat)) :
    List Bool × List Nat × List (Nat × Nat) :=
  (List.range 8).foldl (fun (s : List Bool × List Nat × List (Nat × Nat)) i =>
    let r := encSample p s.2.2 comp s.2.1 up (x + i) (src.getD (x + i) 0)
    (s.1 ++ r.1, r.2.1 :: s.2.1, r.2.2)) ([], acc, ctx)

/-- A component row coded from column x on; n bounds the groups. Answers the bits, the row newest sample first, the contexts. -/
def encRow (p : PsPar) (c : Coder) (hist : Bool) (seed comp y : Nat) (up : Option (Array Nat)) (src : List Nat) :
    Nat → Nat → List Nat → List (Nat × Nat) → List Bool × List Nat × List (Nat × Nat)
  | 0, _, acc, ctx => ([], acc, ctx)
  | n + 1, x, acc, ctx =>
    if p.w ≤ x then ([], acc, ctx)
    else
      match c.usable p hist src comp y x (Config.matchPick seed ((y * 4 + comp) * 1024 + x / 8)) with
      | some (m, l) =>
        let r := encRow p c hist seed comp y up src n (x + l.length) (l.reverse ++ acc) ctx
        (true :: m.bits ++ r.1, r.2)
      | none =>
        let g := encGroup p comp up src x acc ctx
        let r := encRow p c hist seed comp y up src n (x + 8) g.2.1 g.2.2
        (false :: g.1 ++ r.1, r.2)

/-- One component row of frame row y coded; the coder holds its reconstruction afterwards. -/
def Coder.encLine (c : Coder) (p : PsPar) (hist : Bool) (seed comp y : Nat) (src : List Nat) : List Bool × Coder :=
  let up := if y < p.sy then none else (c.rowAt comp (y - p.sy) y).map List.toArray
  let r := encRow p c hist seed comp y up src (p.w / 8) 0 [] c.ctx
  (r.1, { c with ctx := r.2.2, rows := tset c.rows (y * 4 + comp) r.2.1.reverse })

/-- Rows [row0, row0 + n) with every component, in coding order. -/
def lineOrder (ncomp row0 n : Nat) : List (Nat × Nat) := (List.range n).flatMap fun i => (List.range ncomp).map fun k => (row0 + i, k)

/-- The payload of a chunk that is not literal, and the coder after it (R349). -/
def Coder.encode (c : Coder) (p : PsPar) (hist : Bool) (seed row0 n : Nat) (src : Nat → Nat → List Nat) : List Byte × Coder :=
  let r := (lineOrder p.ncomp row0 n).foldl (fun (s : List Bool × Coder) q =>
    let e := s.2.encLine p hist seed q.2 q.1 (src q.2 q.1)
    (s.1 ++ e.1, e.2)) ([], c)
  (bitBytes r.1, r.2)

/-- A literal chunk (R349, R355): every sample packed; the window holds the source, the contexts stay. -/
def Coder.literal (c : Coder) (p : PsPar) (row0 n : Nat) (src : Nat → Nat → List Nat) : List Byte × Coder :=
  let ord := lineOrder p.ncomp row0 n
  let px := ord.flatMap fun q => src q.2 q.1
  let v := px.foldr (fun x a => x % 2 ^ p.d + 2 ^ p.d * a) 0
  (leBytes (ceilDiv (px.length * p.d) 8) v, { c with rows := ord.foldl (fun t q => tset t (q.1 * 4 + q.2) (src q.2 q.1)) c.rows })

/-- The decoded samples of a chunk in decode order, 2 bytes each (R350, SCRC). -/
def Coder.samples (c : Coder) (p : PsPar) (row0 n : Nat) : List Byte :=
  (lineOrder p.ncomp row0 n).flatMap fun q => ((tget c.rows (q.1 * 4 + q.2)).getD []).flatMap fun x => leBytes 2 x

/-! ### The decoder (R350) -/

/-- A decoder error and the bits read before it: E_CODE, E_DIST or E_LEN. -/
abbrev DecErr := Nat × Nat
def eCode : Nat := 0x0B10
def eDist : Nat := 0x0B11
def eLen : Nat := 0x0B12
def eHdr : Nat := 0x0B13
def eChk : Nat := 0x0B14
def eState : Nat := 0x0B15

/-- n bits read, most significant first. -/
def readN : Nat → List Bool → Option (Nat × List Bool)
  | 0, bs => some (0, bs)
  | _ + 1, [] => none
  | n + 1, b :: bs => (readN n bs).map fun r => ((if b then 2 ^ n else 0) + r.1, r.2)

/-- One-bits counted up to a zero bit, which is taken, or up to a limit. -/
def readOnes : Nat → List Bool → Option (Nat × List Bool)
  | 0, bs => some (0, bs)
  | _ + 1, [] => none
  | n + 1, b :: bs => if b then (readOnes n bs).map fun r => (r.1 + 1, r.2) else some (0, bs)

/-- A Rice code of a match field: a quotient above 1,023 is E_CODE (R350). -/
def readRice (k : Nat) (bs : List Bool) : Except Nat (Nat × List Bool) :=
  match readOnes 1024 bs with
  | none => .error eLen
  | some (u, r) =>
    if u = 1024 then .error eCode
    else match readN k r with
      | none => .error eLen
      | some (v, r) => .ok (u * 2 ^ k + v, r)

/-- A mapped value (R347, R350). -/
def readM (d k : Nat) (bs : List Bool) : Except Nat (Nat × List Bool) :=
  match readOnes 24 bs with
  | none => .error eLen
  | some (u, r) =>
    match readN (if u = 24 then d + 1 else k) r with
    | none => .error eLen
    | some (v, r) =>
      let m := if u = 24 then v else u * 2 ^ k + v
      if u = 24 ∧ m >>> k < 24 then .error eCode
      else if 2 ^ (d + 1) - 2 < m then .error eCode else .ok (m, r)

/-- n samples decoded from column x on. -/
def decSamples (p : PsPar) (comp : Nat) (up : Option (Array Nat)) :
    Nat → Nat → List Nat → List (Nat × Nat) → List Bool → Except (Nat × List Bool) (List Nat × List (Nat × Nat) × List Bool)
  | 0, _, acc, ctx, bs => .ok (acc, ctx, bs)
  | n + 1, x, acc, ctx, bs =>
    let (a, b, c) := neighbours p acc up x
    let pred := median a b ((a : Int) + b - c)
    let i := comp * 8 + ctxOf p a b c
    let an := ctx.getD i (1, 1)
    match readM p.d (riceK p.d an) bs with
    | .error e => .error (e, bs)
    | .ok (m, r) => decSamples p comp up n (x + 1) (recon p pred (unmapE m) :: acc) (ctx.set i (ctxNext an m)) r

/-- A match read after its flag bit, with what it copies (R350). -/
def decMatch (p : PsPar) (c : Coder) (comp y x : Nat) (bs : List Bool) : Except Nat (List Nat × List Bool) :=
  match readN 7 bs with
  | none => .error eLen
  | some (fv, r) =>
    match readRice 4 r with
    | .error e => .error e
    | .ok (z, r) =>
      match readRice 2 r with
      | .error e => .error e
      | .ok (l, r) =>
        let m : Match := ⟨decide (64 ≤ fv), fv % 64, unmapE z, l + 1⟩
        if p.w < x + 8 * m.len then .error eLen
        else match c.copied p m comp y x with
          | none => .error eDist
          | some px => .ok (px, r)

/-- A component row decoded; n bounds the groups. -/
def decRow (p : PsPar) (c : Coder) (comp y : Nat) (up : Option (Array Nat)) :
    Nat → Nat → List Nat → List (Nat × Nat) → List Bool → Except (Nat × List Bool) (List Nat × List (Nat × Nat) × List Bool)
  | 0, _, acc, ctx, bs => .ok (acc, ctx, bs)
  | n + 1, x, acc, ctx, bs =>
    if p.w ≤ x then .ok (acc, ctx, bs)
    else
      match bs with
      | [] => .error (eLen, [])
      | false :: r =>
        match decSamples p comp up 8 x acc ctx r with
        | .error e => .error e
        | .ok (acc, ctx, r) => decRow p c comp y up n (x + 8) acc ctx r
      | true :: r =>
        match decMatch p c comp y x r with
        | .error e => .error (e, r)
        | .ok (px, r) => decRow p c comp y up n (x + px.length) (px.reverse ++ acc) ctx r

/-- Component rows decoded in order until the first error, with the frame row it fell in. -/
def decLines (p : PsPar) : List (Nat × Nat) → Coder → List Bool → Coder × Except (Nat × Nat × List Bool) (List Bool)
  | [], c, bs => (c, .ok bs)
  | (y, comp) :: rest, c, bs =>
    let up := if y < p.sy then none else (c.rowAt comp (y - p.sy) y).map List.toArray
    match decRow p c comp y up (p.w / 8) 0 [] c.ctx bs with
    | .error e => (c, .error (y, e.1, e.2))
    | .ok (acc, ctx, r) => decLines p rest { c with ctx := ctx, rows := tset c.rows (y * 4 + comp) acc.reverse } r

/-! ### Headers (R351, R352) -/

/-- A chunk header (R352). -/
structure ChunkHdr where
  cflags : Nat
  q : Nat
  stream : Nat
  slice : Nat
  frame : Nat
  row0 : Nat
  rows : Nat
  x0 : Nat
  w : Nat
  depth : Nat
  format : Nat
  sxsy : Nat
  ncomp : Nat
  len : Nat
  pcrc : Nat
  scrc : Nat
  seq : Nat
  deriving DecidableEq, Repr

/-- Bytes followed by their CRC-32C. -/
def withCrc (bs : List Byte) : List Byte := bs ++ leBytes 4 (crc32c bs)

/-- The 64 bytes of a chunk header. -/
def ChunkHdr.enc (h : ChunkHdr) : List Byte :=
  withCrc (leBytes 4 0x48435350 ++ leBytes 2 1 ++ leBytes 1 h.cflags ++ leBytes 1 h.q ++ leBytes 1 h.stream ++ leBytes 1 h.slice ++
    leBytes 2 0 ++ leBytes 4 h.frame ++ leBytes 2 h.row0 ++ leBytes 2 h.rows ++ leBytes 2 h.x0 ++ leBytes 2 h.w ++ leBytes 1 h.depth ++
    leBytes 1 h.format ++ leBytes 1 h.sxsy ++ leBytes 1 h.ncomp ++ leBytes 4 h.len ++ leBytes 4 h.pcrc ++ leBytes 4 h.scrc ++
    leBytes 4 h.seq ++ leBytes 16 0)

/-- The fields of 64 bytes. -/
def ChunkHdr.dec (b : List Byte) : ChunkHdr :=
  let f := rdLe b
  ⟨f 6 1, f 7 1, f 8 1, f 9 1, f 0xC 4, f 0x10 2, f 0x12 2, f 0x14 2, f 0x16 2, f 0x18 1, f 0x19 1, f 0x1A 1, f 0x1B 1, f 0x1C 4,
   f 0x20 4, f 0x24 4, f 0x28 4⟩

def ChunkHdr.literal (h : ChunkHdr) : Bool := h.cflags.testBit 2
def ChunkHdr.hreset (h : ChunkHdr) : Bool := h.cflags.testBit 3
def ChunkHdr.wreset (h : ChunkHdr) : Bool := h.cflags.testBit 4

/-- The parameters a chunk header gives. -/
def ChunkHdr.par (h : ChunkHdr) : PsPar := ⟨h.ncomp, h.depth, 2 ^ (h.sxsy % 4), 2 ^ (h.sxsy / 4 % 4), h.w, h.q⟩

/-- A chunk header by itself: HCRC, MAGIC, VERSION and ranges (R352). -/
def chunkHdrBad (b : List Byte) : Bool :=
  let h := ChunkHdr.dec b
  decide (rdLe b 0x3C 4 ≠ crc32c (b.take 0x3C)) || decide (rdLe b 0 4 ≠ 0x48435350) || decide (rdLe b 4 2 ≠ 1) ||
  decide (128 ≤ h.cflags) || decide (h.cflags % 4 = 3) || decide (15 < h.q) || (h.literal && decide (h.q ≠ 0)) || decide (31 < h.stream) ||
  decide (15 < h.slice) || decide (h.rows = 0) || decide (256 < h.rows) || decide (h.w = 0) || decide (h.w % 8 ≠ 0) ||
  decide (h.ncomp = 0) || decide (3 < h.ncomp) || decide (15 < h.sxsy) || ! [10, 12, 14, 16].contains h.depth || decide (rdLe b 0xA 2 ≠ 0) ||
  decide (rdLe b 0x2C 16 ≠ 0)

/-- A frame header by itself (R351). -/
def frameHdrBad (b : List Byte) : Bool :=
  decide (rdLe b 0x7C 4 ≠ crc32c (b.take 0x7C)) || decide (rdLe b 0 4 ≠ 0x48465350) || decide (rdLe b 4 2 ≠ 1) ||
  decide (31 < rdLe b 8 1) || decide (rdLe b 9 1 = 0) || decide (16 < rdLe b 9 1) || ! [10, 12, 14, 16].contains (rdLe b 0xB 1) ||
  decide (rdLe b 0x18 1 = 0) || decide (3 < rdLe b 0x18 1) || decide (rdLe b 0x1A 2 = 0) || decide (256 < rdLe b 0x1A 2) ||
  decide (rdLe b 6 1 % 4 = 3) || decide (rdLe b 6 1 / 4 ≠ 0 ∧ rdLe b 6 1 / 4 ≠ 4) || decide (15 < rdLe b 7 1) || decide (15 < rdLe b 0x19 1) ||
  decide (3 < rdLe b 0x1E 1) || decide (rdLe b 0x1F 1 ≠ 0) || decide (rdLe b 0x32 2 ≠ 0) || decide (rdLe b 0x78 4 ≠ 0)

/-- A chunk header beside the frame header of its stream and frame: a shared field that differs (R352). -/
def hdrDiffers (f : List Byte) (h : ChunkHdr) : Bool :=
  decide (h.cflags % 4 ≠ rdLe f 6 1 % 4) || decide (h.depth ≠ rdLe f 0xB 1) || decide (h.format ≠ rdLe f 0xA 1) ||
  decide (h.ncomp ≠ rdLe f 0x18 1) || decide (h.sxsy ≠ rdLe f 0x19 1) || decide (rdLe f 9 1 ≤ h.slice) || decide (rdLe f 0x1A 2 < h.rows) ||
  decide (h.x0 * 65536 + h.w ≠ rdLe f (0x38 + 4 * h.slice) 4) || decide (rdLe f 7 1 < h.q)

/-- A decoded chunk: the coder after it, and the first error with the row from which on it is unusable and the payload's bit
offset. -/
def decodeChunk (c : Coder) (h : ChunkHdr) (pay : List Byte) : Coder × Option (Nat × Nat × Nat) :=
  let p := h.par
  let whole := (h.row0, 0)
  if crc32c pay ≠ h.pcrc then (c, some (eChk, whole))
  else
    let c := if h.hreset then c.hreset p h.row0 else if h.wreset then { c with base := h.row0 } else c
    let ord := lineOrder p.ncomp h.row0 h.rows
    let n := ord.length * p.w
    let fin := fun (c : Coder) => (c, if crc32c (c.samples p h.row0 h.rows) = h.scrc then none else some (eChk, whole))
    if h.literal then
      if pay.length < ceilDiv (n * p.d) 8 then (c, some (eLen, whole))
      else
        let v := leNat pay
        let row := fun (i : Nat) => (List.range p.w).map fun x => v / 2 ^ ((i * p.w + x) * p.d) % 2 ^ p.d
        fin { c with rows := (ord.zipIdx).foldl (fun t q => tset t (q.1.1 * 4 + q.1.2) (row q.2)) c.rows }
    else
      let bs := byteBits pay
      match decLines p ord c bs with
      | (c, .error (y, e, rest)) => (c, some (e, y, bs.length - rest.length))
      | (c, .ok rest) => if rest.any id then (c, some (eCode, h.row0, bs.length - rest.length)) else fin c

end Sys2Proof.Machine
end

