-- ==== Sys2Proof/Machine/Float.lean ====
section
/-! DEFINITION. Floating-point numbers as the develop tiles and firmware use them: the 24-bit working float (R250, R251) and
binary16, binary32 and binary64. A number is an exact sign, significand and exponent; each format rounds such a number. -/
namespace Sys2Proof.Machine

/-- (−1)^neg × m × 2^e; `sat` counts the results saturated under R251 on the way to it. -/
structure Fl where
  neg : Bool
  m : Nat
  e : Int
  sat : Nat
  deriving DecidableEq, Repr

/-- A format: significand bits, least and greatest exponent of a normal number, gradual underflow, saturation at the largest
magnitude (else the exponent range is open above: log entry 20). -/
structure Fmt where
  p : Nat
  emin : Int
  emax : Int
  gradual : Bool
  saturates : Bool

/-- The working float (R250): no gradual underflow, saturating (R251). -/
def fmtW : Fmt := ⟨16, -126, 127, false, true⟩
/-- binary16 in stream formats and histories: saturating at 65,504 (R283, R293). -/
def fmt16 : Fmt := ⟨11, -14, 15, true, true⟩
/-- binary32 and binary64 arithmetic. -/
def fmt32 : Fmt := ⟨24, -126, 127, true, false⟩
def fmt64 : Fmt := ⟨53, -1022, 1023, true, false⟩

def Fl.zero : Fl := ⟨false, 0, 0, 0⟩
def Fl.ofNat (n : Nat) : Fl := ⟨false, n, 0, 0⟩
def Fl.ofInt (i : Int) : Fl := ⟨decide (i < 0), i.natAbs, 0, 0⟩
/-- n / 2^k. -/
def Fl.ofScaled (i : Int) (k : Nat) : Fl := ⟨decide (i < 0), i.natAbs, -(k : Int), 0⟩
def Fl.isZero (x : Fl) : Bool := decide (x.m = 0)
def Fl.negate (x : Fl) : Fl := { x with neg := !x.neg }
def Fl.abs (x : Fl) : Fl := { x with neg := false }
/-- The number with its saturation count dropped. -/
def Fl.clean (x : Fl) : Fl := { x with sat := 0 }

/-- The significand brought down to exponent e (e ≤ x.e). -/
def Fl.at (x : Fl) (e : Int) : Nat := x.m <<< (x.e - e).toNat

/-- The signed significand at exponent e. -/
def Fl.sAt (x : Fl) (e : Int) : Int := if x.neg then -(x.at e : Int) else (x.at e : Int)

/-- Exact sum; a sum of zeros that differ in sign is +0, as round-to-nearest gives. -/
def Fl.addE (x y : Fl) : Fl :=
  if x.m = 0 ∧ y.m = 0 then ⟨x.neg && y.neg, 0, 0, x.sat + y.sat⟩
  else
    let e := min x.e y.e
    let v := x.sAt e + y.sAt e
    ⟨decide (v < 0), v.natAbs, e, x.sat + y.sat⟩
def Fl.subE (x y : Fl) : Fl := x.addE y.negate
/-- Exact product. -/
def Fl.mulE (x y : Fl) : Fl := ⟨x.neg ^^ y.neg, x.m * y.m, x.e + y.e, x.sat + y.sat⟩

/-- Exact order. -/
def Fl.lt (x y : Fl) : Bool := decide (x.sAt (min x.e y.e) < y.sAt (min x.e y.e))
def Fl.le (x y : Fl) : Bool := !(y.lt x)
def Fl.max (x y : Fl) : Fl := if x.lt y then y else x
def Fl.min (x y : Fl) : Fl := if y.lt x then y else x
/-- The value clamped to [lo, hi]. -/
def Fl.clamp (x lo hi : Fl) : Fl := if x.lt lo then lo else if hi.lt x then hi else x

/-- A significand with exponent, a sticky bit below it, rounded to a format: to nearest, ties to even (R251). -/
def rndS (f : Fmt) (neg : Bool) (m : Nat) (e : Int) (sticky : Bool) (sat : Nat) : Fl :=
  if m = 0 then ⟨neg, 0, 0, sat⟩
  else
    let top : Int := e + m.log2
    if !f.gradual ∧ top < f.emin then ⟨neg, 0, 0, sat⟩
    else
      let q0 : Int := top - (f.p - 1 : Nat)
      let q : Int := if f.gradual then Max.max q0 (f.emin - (f.p - 1 : Nat)) else q0
      let r : Nat × Int :=
        if q ≤ e then (m, e)
        else
          let k := (q - e).toNat
          let hi := m >>> k
          let lo := m % 2 ^ k
          let half := 2 ^ (k - 1)
          let up := decide (half < lo) || (decide (lo = half) && (sticky || decide (hi % 2 = 1)))
          (if up then hi + 1 else hi, q)
      let big : Nat := (2 ^ f.p - 1)
      let lim : Int := f.emax - (f.p - 1 : Nat)
      let ovf := f.saturates && (decide (f.emax < r.2 + r.1.log2))
      if ovf then ⟨neg, big, lim, sat + 1⟩ else ⟨neg, r.1, r.2, sat⟩

/-- A number rounded to a format. -/
def Fl.rnd (f : Fmt) (x : Fl) : Fl := rndS f x.neg x.m x.e false x.sat

/-- The quotient rounded to a format; a zero divisor gives the largest magnitude where the format saturates (R251), else a free
value (log entry 20). -/
def Fl.div (f : Fmt) (x y : Fl) : Fl :=
  if y.m = 0 then
    if f.saturates then ⟨x.neg ^^ y.neg, 2 ^ f.p - 1, f.emax - (f.p - 1 : Nat), x.sat + y.sat + 1⟩
    else { Fl.ofInt (Config.divZero (if x.neg then -(x.m : Int) else x.m) x.e) with sat := x.sat + y.sat }
  else
    let k := f.p + 3 + y.m.log2
    let n := x.m <<< k
    rndS f (x.neg ^^ y.neg) (2 * (n / y.m) + (if n % y.m = 0 then 0 else 1)) (x.e - y.e - k - 1) (decide (n % y.m ≠ 0)) (x.sat + y.sat)

def Fl.add (f : Fmt) (x y : Fl) : Fl := (x.addE y).rnd f
def Fl.sub (f : Fmt) (x y : Fl) : Fl := (x.subE y).rnd f
def Fl.mul (f : Fmt) (x y : Fl) : Fl := (x.mulE y).rnd f

/-- Integer square root, by bits from 2^k down. -/
def isqrtGo (n : Nat) : Nat → Nat → Nat
  | 0, r => r
  | k + 1, r => let t := r + 2 ^ k; isqrtGo n k (if t * t ≤ n then t else r)
def isqrt (n : Nat) : Nat := isqrtGo n (n.log2 / 2 + 1) 0

/-- The square root rounded to a format; 0 of a negative number. -/
def Fl.sqrt (f : Fmt) (x : Fl) : Fl :=
  if x.neg ∨ x.m = 0 then ⟨false, 0, 0, x.sat⟩
  else
    let k := 2 * (f.p + 3)
    let odd := (x.e - k) % 2
    let n := (x.m <<< k) * (if odd = 1 then 2 else 1)
    let r := isqrt n
    rndS f false (2 * r + (if r * r = n then 0 else 1)) ((x.e - k - odd) / 2 - 1) (decide (r * r ≠ n)) x.sat

/-- A dot product accumulated in a format, in order (R251). -/
def dotIn (f : Fmt) (xs ys : List Fl) : Fl := (List.zipWith (Fl.mulE) xs ys).foldl (fun a t => a.add f t) Fl.zero

/-! ### Encodings -/

/-- The number that a bit pattern spells: e exponent bits, f fraction bits; `gradual` as the format. Exponents of all ones
read as the largest exponent's numbers. -/
def Fl.ofBits (eb fb : Nat) (gradual : Bool) (w : Nat) : Fl :=
  let bias : Int := (2 ^ (eb - 1) - 1 : Nat)
  let e := bitsN w (fb + eb - 1) fb
  let m := w % 2 ^ fb
  let neg := decide (bitsN w (fb + eb) (fb + eb) = 1)
  if e = 0 then (if gradual then ⟨neg, m, 1 - bias - fb, 0⟩ else ⟨neg, 0, 0, 0⟩)
  else ⟨neg, 2 ^ fb + m, (e : Int) - bias - fb, 0⟩

/-- The bit pattern of a number already rounded to the format. -/
def Fl.toBits (eb fb : Nat) (x : Fl) : Nat :=
  let bias : Int := (2 ^ (eb - 1) - 1 : Nat)
  let s := if x.neg then 2 ^ (eb + fb) else 0
  if x.m = 0 then s
  else
    let top : Int := x.e + x.m.log2
    if bias < top then s + (2 ^ eb - 1) * 2 ^ fb
    else if top < 1 - bias then s + x.at (1 - bias - fb)
    else
      let q : Int := top - fb
      let m := if q ≤ x.e then x.at q else x.m >>> (q - x.e).toNat
      s + (top + bias).toNat * 2 ^ fb + m % 2 ^ fb

def wfOf (w : Nat) : Fl := Fl.ofBits 8 15 false w
def wfBits (x : Fl) : Nat := (x.rnd fmtW).toBits 8 15
def f16Of (w : Nat) : Fl := Fl.ofBits 5 10 true w
def f16Bits (x : Fl) : Nat := (x.rnd fmt16).toBits 5 10
def f32Of (w : Nat) : Fl := Fl.ofBits 8 23 true w
def f32Bits (x : Fl) : Nat := (x.rnd fmt32).toBits 8 23
def f64Of (w : Nat) : Fl := Fl.ofBits 11 52 true w
def f64Bits (x : Fl) : Nat := (x.rnd fmt64).toBits 11 52

/-- A NaN or an infinity among binary16, binary32 and working-float patterns. -/
def f16Special (w : Nat) : Bool := decide (bitsN w 14 10 = 31)
def f32Special (w : Nat) : Bool := decide (bitsN w 30 23 = 255)
def wfSpecial (w : Nat) : Bool := decide (bitsN w 22 15 = 255)

/-- The nearest integer, ties to even. -/
def Fl.round (x : Fl) : Int :=
  let r : Nat :=
    if 0 ≤ x.e then x.m <<< x.e.toNat
    else
      let k := (-x.e).toNat
      let hi := x.m >>> k
      let lo := x.m % 2 ^ k
      if 2 ^ (k - 1) < lo ∨ (lo = 2 ^ (k - 1) ∧ hi % 2 = 1) then hi + 1 else hi
  if x.neg then -(r : Int) else (r : Int)

/-- The greatest integer not above a number. -/
def Fl.floor (x : Fl) : Int :=
  if 0 ≤ x.e then x.sAt 0
  else
    let k := (-x.e).toNat
    (if x.neg then -(x.m : Int) else (x.m : Int)) / (2 ^ k : Int)

/-- A decimal constant n / 10^k rounded to a format. -/
def Fl.dec (f : Fmt) (n : Int) (k : Nat) : Fl := Fl.div f (Fl.ofInt n) (Fl.ofNat (10 ^ k))

end Sys2Proof.Machine
end

