-- ==== Sys2Proof/Machine/Develop.lean ====
section
/-! DEFINITION. What a develop tile computes for a pixel, stages 1 to 8 (R245 to R267, R275 to R294), as functions of the frame's
samples, the table generation and the parameter set. -/
namespace Sys2Proof.Machine

/-- Channel types (R252). -/
def tyC : Nat := 3

/-- The phase-preserving copy of a coordinate outside a plane of n columns or rows (R247). -/
def wrapC (n : Nat) (x : Int) : Nat :=
  if x < 0 then (x + 8 * ((-x + 7) / 8)).toNat
  else if (n : Int) - 1 < x then (x - 8 * ((x - n + 1 + 7) / 8)).toNat else x.toNat

/-- The phase of plane pixel (x, y) (R252). -/
def phaseOf (x y : Nat) : Nat := y % 8 * 8 + x % 8

/-- What stages 1 to 5 read: the frame's samples and the tables of its generation. -/
structure RawCtx where
  w : Nat
  h : Nat
  /-- sample code, whether it is fill, and the member whose region holds the pixel -/
  code : Nat → Nat → Nat
  isFill : Nat → Nat → Bool
  member : Nat → Nat → Nat
  /-- the plane map, 64 types -/
  map : List Nat
  /-- BL (4 fractional bits) by member and phase, WHITE by member -/
  bl : Nat → Nat → Nat
  white : Nat → Nat
  isDef : Nat → Nat → Bool
  /-- FF_MODE, gain and offset of a pixel -/
  ffMode : Nat
  gain : Nat → Nat → Fl
  offs : Nat → Nat → Fl
  /-- the 9,600 coefficients of a member's set, the IR vector, the clear row of a member's set -/
  coef : Nat → List Nat
  ir : List Nat
  clear : Nat → List Fl

/-- A pixel's value on its way through stages 1 to 3. -/
structure Px where
  v : Fl
  sat : Bool
  defect : Bool

def RawCtx.ty (c : RawCtx) (x y : Nat) : Nat := c.map.getD (phaseOf x y) 0

/-- NORM of R254, rounded to the working float by firmware. -/
def normOf (white bl : Nat) : Fl := Fl.div fmtW (Fl.ofNat 1) (Fl.ofScaled ((16 * white : Int) - bl) 4)

/-- Stage 1 (R254). -/
def RawCtx.s1 (c : RawCtx) (x y : Nat) : Px :=
  let m := c.member x y
  let code := c.code x y
  if c.white m ≤ code then ⟨Fl.ofNat 1, !c.isFill x y, false⟩
  else
    let b := c.bl m (phaseOf x y)
    ⟨((Fl.ofScaled ((16 * code : Int) - b) 4).rnd fmtW).mul fmtW (normOf (c.white m) b), false, false⟩

/-- The stage-1 pixel at an offset, with copies outside the plane (R247). -/
def RawCtx.at1 (c : RawCtx) (x y : Nat) (dx dy : Int) : Nat × Nat := (wrapC c.w (x + dx), wrapC c.h (y + dy))

/-- The distance of an offset as a working float. -/
def distW (dx dy : Int) : Fl := (Fl.ofNat (dx * dx + dy * dy).toNat).sqrt fmtW

/-- A candidate for a defective pixel: its offset and stage-1 pixel (R257). -/
structure Cand where
  dx : Int
  dy : Int
  px : Px

/-- The candidate at an offset within the 9 × 9 window, where there is one (R257). -/
def RawCtx.cand (c : RawCtx) (x y : Nat) (dx dy : Int) : Option Cand :=
  let q := c.at1 x y dx dy
  if (dx ≠ 0 ∨ dy ≠ 0) ∧ c.ty q.1 q.2 = c.ty x y ∧ !c.isDef q.1 q.2 then some ⟨dx, dy, c.s1 q.1 q.2⟩ else none

/-- The first candidate on a ray (R257). -/
def RawCtx.ray (c : RawCtx) (x y : Nat) (ux uy sg : Int) : Option Cand :=
  [1, 2, 3, 4].findSome? fun (k : Int) => c.cand x y (sg * ux * k) (sg * uy * k)

/-- The pair of candidates on a direction, with its gradient. -/
def RawCtx.rayPair (c : RawCtx) (x y : Nat) (u : Int × Int) : Option (Cand × Cand × Fl) :=
  match c.ray x y u.1 u.2 (-1), c.ray x y u.1 u.2 1 with
  | some a, some b =>
    let ds := (distW a.dx a.dy).add fmtW (distW b.dx b.dy)
    some (a, b, (Fl.div fmtW ((a.px.v.sub fmtW b.px.v).abs) ds))
  | _, _ => none

/-- Every offset of the 9 × 9 window, row by row. -/
def window9 : List (Int × Int) :=
  (List.range 9).flatMap fun (j : Nat) => (List.range 9).map fun (i : Nat) => ((i : Int) - 4, (j : Int) - 4)

/-- The result of R257 for a defective pixel; none where no candidate exists (UNFIXED). -/
def RawCtx.correct (c : RawCtx) (x y : Nat) : Option Px :=
  let best := [((1 : Int), (0 : Int)), (0, 1), (1, 1), (1, -1)].foldl (fun (b : Option (Cand × Cand × Fl)) u =>
    match b, c.rayPair x y u with
    | none, r => r
    | some b, some r => if r.2.2.lt b.2.2 then some r else some b
    | some b, none => some b) none
  match best with
  | some (a, b, _) =>
    let da := distW a.dx a.dy
    let db := distW b.dx b.dy
    let n := (a.px.v.mul fmtW db).add fmtW (b.px.v.mul fmtW da)
    some ⟨n.div fmtW (da.add fmtW db), a.px.sat || b.px.sat, true⟩
  | none =>
    let cs := window9.filterMap fun o => c.cand x y o.1 o.2
    if cs.isEmpty then none
    else
      let d2 := fun (k : Cand) => Fl.ofNat (k.dx * k.dx + k.dy * k.dy).toNat
      let num := cs.foldl (fun a k => a.add fmt32 (k.px.v.div fmt32 (d2 k))) Fl.zero
      let den := cs.foldl (fun a k => a.add fmt32 ((Fl.ofNat 1).div fmt32 (d2 k))) Fl.zero
      some ⟨(num.rnd fmtW).div fmtW (den.rnd fmtW), cs.any (·.px.sat), true⟩

/-- Stage 2 (R257). -/
def RawCtx.s2 (c : RawCtx) (x y : Nat) : Px :=
  if c.isDef x y then (c.correct x y).getD ⟨Fl.zero, false, true⟩ else c.s1 x y

/-- Stage 3 (R258). -/
def RawCtx.s3 (c : RawCtx) (x y : Nat) : Px :=
  let p := c.s2 x y
  if c.ffMode = 0 then p
  else
    let v := if c.ffMode = 2 then p.v.sub fmtW (c.offs x y) else p.v
    { p with v := v.mul fmtW (c.gain x y) }

/-- The 25 stage-3 pixels about (x, y), in the order of R262. -/
def RawCtx.nbr (c : RawCtx) (x y : Nat) : List Px :=
  (List.range 25).map fun j =>
    let q := c.at1 x y ((j % 5 : Nat) - (2 : Int)) ((j / 5 : Nat) - (2 : Int))
    c.s3 q.1 q.2

/-- Coefficient row k of phase p of a set (R263). -/
def coefRow (set : List Nat) (p k : Nat) : List Fl := ((set.drop ((p * 6 + k) * 25)).take 25).map wfOf

/-- The six weights of a pixel from its neighbourhood (R262). -/
def RawCtx.weights (c : RawCtx) (x y : Nat) : List Fl :=
  let n := (c.nbr x y).map (·.v.clean)
  let set := c.coef (c.member x y)
  (List.range 6).map fun k => (dotIn fmt32 (coefRow set (phaseOf x y) k) n).rnd fmtW

/-- The infrared value of a pixel (R266). -/
def RawCtx.irOf (c : RawCtx) (w : List Fl) : Fl := (dotIn fmt32 (c.ir.map wfOf) (w.map Fl.clean)).rnd fmtW

/-- The confidence byte of a pixel (R267). -/
def RawCtx.conf (c : RawCtx) (x y : Nat) (w : List Fl) : Nat :=
  let n := c.nbr x y
  let cs := (List.range 25).filterMap fun j =>
    let q := c.at1 x y ((j % 5 : Nat) - (2 : Int)) ((j / 5 : Nat) - (2 : Int))
    if c.ty q.1 q.2 = tyC then (n[j]?).map (·.v) else none
  let sat := if n.any (·.sat) then 2 else 0
  let dfc := if n.any (·.defect) then 1 else 0
  if cs.isEmpty then sat + dfc
  else
    let mean := ((cs.foldl (fun a v => a.add fmt32 v) Fl.zero).div fmtW (Fl.ofNat cs.length))
    let pred := (dotIn fmt32 (c.clear (c.member x y)) (w.map Fl.clean)).rnd fmtW
    let num := (pred.sub fmtW mean).abs
    let den := mean.abs.add fmtW (Fl.ofScaled 1 12)
    let q := (Fl.ofNat 1).sub fmtW (num.div fmtW den)
    let q := if q.neg then Fl.zero else q
    (((Fl.ofNat 63).mul fmtW q).round.toNat % 64) * 4 + sat + dfc

/-! ### Matrices from a characterisation (R264, R265) -/

/-- binary32 number n of a record at a byte offset. -/
def recF (r : List Byte) (off : Nat) : Fl := f32Of (rdLe r off 4)

/-- A[t][k] of R265 in binary64. -/
def charA (r : List Byte) (t k : Nat) : Fl :=
  (List.range 125).foldl (fun a i =>
    let q := recF r (0x040 + 500 * t + 4 * i)
    let term := ((q.mul fmt64 (f64Of (Config.bump64 k i))).mul fmt64 (if i = 0 ∨ i = 124 then Fl.ofScaled 1 1 else Fl.ofNat 1)).mul
      fmt64 (Fl.ofNat 5)
    a.add fmt64 term) Fl.zero

/-- g_p (R264). -/
def charGain (r : List Byte) (p : Nat) : Fl := if (rdLe r 6 1).testBit 0 then recF r (0xA04 + 4 * p) else Fl.ofNat 1

/-- Σ_w (R264). -/
def charPrior (r : List Byte) (k l : Nat) : Fl :=
  if (rdLe r 6 1).testBit 1 then recF r (0xB04 + 4 * (6 * k + l))
  else (List.range (k - l + (l - k))).foldl (fun a _ => a.mul fmt64 (Fl.dec fmt64 9 1)) (Fl.ofNat 1)

/-- A 6-vector times Σ_w. -/
def sw (r : List Byte) (a : List Fl) : List Fl :=
  (List.range 6).map fun k => dotIn fmt64 ((List.range 6).map (charPrior r k)) a

/-- The Cholesky factor of a matrix of n rows, row by row (R265); none where a pivot is not positive. -/
def choleskyRow (n : Nat) (a : Nat → Nat → Fl) (rows : List (List Fl)) (i : Nat) : Option (List Fl) :=
  (List.range n).foldl (fun (acc : Option (List Fl)) j =>
    match acc with
    | none => none
    | some row =>
      if i < j then some (row ++ [Fl.zero])
      else
        let lj := if j = i then row else rows.getD j []
        let s := (List.range j).foldl (fun t k => t.sub fmt64 ((row.getD k Fl.zero).mul fmt64 (lj.getD k Fl.zero))) (a i j)
        if j = i then (if s.neg ∨ s.m = 0 then none else some (row ++ [s.sqrt fmt64]))
        else some (row ++ [s.div fmt64 ((rows.getD j []).getD j Fl.zero)])) (some [])

def cholesky (n : Nat) (a : Nat → Nat → Fl) : Option (List (List Fl)) :=
  (List.range n).foldl (fun (acc : Option (List (List Fl))) i =>
    match acc with
    | none => none
    | some rows => (choleskyRow n a rows i).map fun r => rows ++ [r]) (some [])

/-- The solution x of L Lᵀ x = b. -/
def cholSolve (n : Nat) (l : List (List Fl)) (b : List Fl) : List Fl :=
  let g := fun (i j : Nat) => (l.getD i []).getD j Fl.zero
  let y := (List.range n).foldl (fun (y : List Fl) i =>
    let s := (List.range i).foldl (fun t k => t.sub fmt64 ((g i k).mul fmt64 (y.getD k Fl.zero))) (b.getD i Fl.zero)
    y ++ [s.div fmt64 (g i i)]) []
  (List.range n).foldl (fun (x : List Fl) t =>
    let i := n - 1 - t
    let s := (List.range (n - 1 - i)).foldl (fun t k =>
      t.sub fmt64 ((g (i + 1 + k) i).mul fmt64 (x.getD k Fl.zero))) (y.getD i Fl.zero)
    s.div fmt64 (g i i) :: x) []

/-- M[p] of R265 for a map: 150 coefficients as working floats; none where the factorisation fails. -/
def deriveM (r : List Byte) (map : List Nat) (p : Nat) : Option (List Fl) :=
  let off := fun (j : Nat) => (((j % 5 : Nat) : Int) - 2, ((j / 5 : Nat) : Int) - 2)
  let ph := fun (j : Nat) => phaseOf (wrapC 8 ((p % 8 : Nat) + (off j).1)) (wrapC 8 ((p / 8 : Nat) + (off j).2))
  let a := fun (j : Nat) => (List.range 6).map fun k => (charGain r (ph j)).mul fmt64 (charA r (map.getD (ph j) 0) k)
  let d2 := fun (i j : Nat) =>
    (((off i).1 - (off j).1) * ((off i).1 - (off j).1) + ((off i).2 - (off j).2) * ((off i).2 - (off j).2)).toNat
  let pw := fun (n : Nat) => f64Of (Config.rhoPow (rdLe r 8 4) n)
  let snn := fun (i j : Nat) =>
    let v := (pw (d2 i j)).mul fmt64 (dotIn fmt64 (a i) (sw r (a j)))
    if i = j then v.add fmt64 (recF r 12) else v
  match cholesky 25 snn with
  | none => none
  | some l =>
    let cwn := fun (k : Nat) => (List.range 25).map fun j => (pw (d2 12 j)).mul fmt64 ((sw r (a j)).getD k Fl.zero)
    some ((List.range 6).flatMap fun k => (cholSolve 25 l (cwn k)).map (Fl.rnd fmtW))

/-- The fields of a record that have a range (R264). -/
def recBad (r : List Byte) : Bool :=
  let rho := recF r 8
  let s2 := recF r 12
  decide (rdLe r 0 4 ≠ 0x53504352) || decide (rdLe r 4 2 ≠ 1) || decide (4 ≤ rdLe r 6 1) || f32Special (rdLe r 8 4) ||
  f32Special (rdLe r 12 4) || rho.neg || rho.isZero || !(rho.lt (Fl.ofNat 1)) || s2.lt (Fl.dec fmt32 1 8) || (Fl.ofNat 1).lt s2 ||
  decide (rdLe r 7 1 ≠ 0) || decide (rdLe r 0x10 48 ≠ 0) ||
  (List.range 625).any (fun i => f32Special (rdLe r (0x040 + 4 * i) 4)) ||
  ((rdLe r 6 1).testBit 0 && (List.range 64).any fun i => f32Special (rdLe r (0xA04 + 4 * i) 4)) ||
  ((rdLe r 6 1).testBit 1 && (List.range 36).any fun i => f32Special (rdLe r (0xB04 + 4 * i) 4))

/-- The derived set of a record for a plane map (R265), or the phase at which it is refused. -/
def deriveSet (r : List Byte) (map : List Nat) : Except Nat (List Nat) :=
  if recBad r then .error 0
  else
    (List.range 64).foldl (fun (acc : Except Nat (List Nat)) p =>
      match acc with
      | .error e => .error e
      | .ok l =>
        match deriveM r map p with
        | none => .error p
        | some m => if m.any (fun x => (Fl.ofNat 65536).lt x.abs) then .error p else .ok (l ++ m.map wfBits)) (.ok [])

/-! ### Stage 6 (R276 to R280) -/

/-- K of R276, row i, as working floats. -/
def kRow (i : Nat) : List Fl :=
  let t := fun (j : Nat) => if j = 0 ∨ j = 80 then Fl.ofScaled 1 1 else Fl.ofNat 1
  let n := (List.range 81).foldl (fun a j => a.add fmt64 (((f64Of (Config.cmf 1 j)).mul fmt64 (t j)).mul fmt64 (Fl.ofNat 5))) Fl.zero
  (List.range 6).map fun k =>
    let s := (List.range 81).foldl (fun a j =>
      a.add fmt64 ((((f64Of (Config.cmf i j)).mul fmt64 (f64Of (Config.bump64 k j))).mul fmt64 (t j)).mul fmt64 (Fl.ofNat 5))) Fl.zero
    (s.div fmt64 n).rnd fmtW

/-- A 3-vector of numbers. -/
structure V3 where
  r : Fl
  g : Fl
  b : Fl

def V3.map (f : Fl → Fl) (v : V3) : V3 := ⟨f v.r, f v.g, f v.b⟩
def V3.zip (f : Fl → Fl → Fl) (u v : V3) : V3 := ⟨f u.r v.r, f u.g v.g, f u.b v.b⟩
/-- A 3 × 3 matrix by rows. -/
structure M3 where
  a : V3
  b : V3
  c : V3

def V3.dot (f : Fmt) (u v : V3) : Fl := ((u.r.mulE v.r).rnd f |>.add f (u.g.mulE v.g)).add f (u.b.mulE v.b)
def M3.mulV (f : Fmt) (m : M3) (v : V3) : V3 := ⟨m.a.dot f v, m.b.dot f v, m.c.dot f v⟩
def M3.tr (m : M3) : M3 := ⟨⟨m.a.r, m.b.r, m.c.r⟩, ⟨m.a.g, m.b.g, m.c.g⟩, ⟨m.a.b, m.b.b, m.c.b⟩⟩
def M3.mul (f : Fmt) (m n : M3) : M3 := ⟨n.tr.mulV f m.a, n.tr.mulV f m.b, n.tr.mulV f m.c⟩
def M3.map (g : Fl → Fl) (m : M3) : M3 := ⟨m.a.map g, m.b.map g, m.c.map g⟩
def M3.diag (v : V3) : M3 := ⟨⟨v.r, Fl.zero, Fl.zero⟩, ⟨Fl.zero, v.g, Fl.zero⟩, ⟨Fl.zero, Fl.zero, v.b⟩⟩
/-- The cross product. -/
def V3.cross (f : Fmt) (u v : V3) : V3 :=
  ⟨(u.g.mul f v.b).sub f (u.b.mul f v.g), (u.b.mul f v.r).sub f (u.r.mul f v.b), (u.r.mul f v.g).sub f (u.g.mul f v.r)⟩
/-- The inverse by the adjugate. -/
def M3.inv (f : Fmt) (m : M3) : M3 :=
  let x := m.b.cross f m.c
  let y := m.c.cross f m.a
  let z := m.a.cross f m.b
  let det := m.a.dot f x
  (M3.tr ⟨x, y, z⟩).map fun v => v.div f det

/-- A matrix of decimals n / 10^k in binary64. -/
def decM (k : Nat) (l : List Int) : M3 :=
  let g := fun (i : Nat) => Fl.dec fmt64 (l.getD i 0) k
  ⟨⟨g 0, g 1, g 2⟩, ⟨g 3, g 4, g 5⟩, ⟨g 6, g 7, g 8⟩⟩

/-- CAT16 and XYZ to ACES AP0 (R279). -/
def m16 : M3 := decM 6 [401288, 650173, -51461, -250268, 1204414, 45854, -2079, 48952, 953127]
def map0 : M3 := decM 10 [10498110175, 0, -974845, -4959030231, 13733130458, 982400361, 0, 0, 9912520182]
/-- The ACES white, and the D65 white of the target primaries (R279, R288). -/
def acesWhite : V3 := ⟨Fl.dec fmt64 95265 5, Fl.ofNat 1, Fl.dec fmt64 100883 5⟩
def whiteXY (x y : Fl) : V3 :=
  ⟨x.div fmt64 y, Fl.ofNat 1, (((Fl.ofNat 1).sub fmt64 x).sub fmt64 y).div fmt64 y⟩
def d65 : V3 := whiteXY (Fl.dec fmt64 3127 4) (Fl.dec fmt64 3290 4)

/-- The CAT16 matrix from white u to white v with degree D (R279). -/
def catM (u v : V3) (dg : Fl) : M3 :=
  let a := m16.mulV fmt64 u
  let b := m16.mulV fmt64 v
  let g := V3.zip (fun x y => ((dg.mul fmt64 x).div fmt64 y).add fmt64 ((Fl.ofNat 1).sub fmt64 dg)) b a
  ((m16.inv fmt64).mul fmt64 (M3.diag g)).mul fmt64 m16

/-- XYZ of weights (R276), K and the result in working floats. -/
def xyzOf (w : List Fl) : V3 :=
  let f := fun (i : Nat) => (dotIn fmt32 (kRow i) (w.map Fl.clean)).rnd fmtW
  ⟨f 0, f 1, f 2⟩

/-- The scene white of a set, its Y made 1 (R278), in binary64. -/
def FrameSet.xyzW (s : FrameSet) : V3 :=
  let l := s.white.map f32Of
  if s.wmode = 0 then
    let f := fun (i : Nat) => dotIn fmt64 (kRow i) l
    let y := f 1
    ⟨(f 0).div fmt64 y, Fl.ofNat 1, (f 2).div fmt64 y⟩
  else whiteXY (l.getD 0 Fl.zero) (l.getD 1 Fl.zero)

/-- Whether the white is refused (R278). -/
def FrameSet.whiteBad (s : FrameSet) : Bool :=
  let l := s.white.map f32Of
  let x := l.getD 0 Fl.zero
  let y := l.getD 1 Fl.zero
  let pos := fun (v : Fl) => !v.neg && !v.isZero
  if s.wmode = 0 then
    (dotIn fmt64 (kRow 1) l).isZero || !(pos s.xyzW.r) || !(pos s.xyzW.b)
  else !(pos x) || !(pos y) || !((x.addE y).lt (Fl.ofNat 1)) || !(pos s.xyzW.b)

/-- Wm (R279), in working floats. -/
def FrameSet.wm (s : FrameSet) : M3 :=
  ((map0.mul fmt64 (catM s.xyzW acesWhite (f32Of s.d))).map fun v => (f32Of s.exposure).mul fmt64 v).map (Fl.rnd fmtW)

/-- The luminance row of R280, in working floats. -/
def ap0Row : V3 := ⟨(Fl.dec fmt64 3439664498 10).rnd fmtW, (Fl.dec fmt64 7281660966 10).rnd fmtW, (Fl.dec fmt64 (-721325464) 10).rnd fmtW⟩

/-- Stage 6's ACES value (R279, R280). -/
def FrameSet.aces (s : FrameSet) (xyz : V3) (sat : Bool) : V3 :=
  let v := (s.wm.mulV fmt32 xyz).map (Fl.rnd fmtW)
  if s.hilite = 1 ∧ sat then
    let y := (ap0Row.dot fmt32 v).rnd fmtW
    ⟨y, y, y⟩
  else v

/-! ### Stage 7 (R283 to R285) -/

/-- A component of UF32 (R283): e 5 bits, bias 15, f fraction bits; no sign. -/
def uf32Bits (f : Nat) (x : Fl) : Nat :=
  if x.neg then 0
  else
    let top : Fl := ⟨false, 2 ^ (f + 1) - 1, 15 - (f : Int), 0⟩
    let r := x.rnd ⟨f + 1, -14, 15, true, true⟩
    (if top.lt x then top else r).toBits 5 f

/-- A history pixel encoded: HALF 6 bytes, UF32 4 bytes (R283). -/
def histEnc (uf : Bool) (v : V3) : List Byte :=
  if uf then leBytes 4 (uf32Bits 6 v.r + uf32Bits 6 v.g * 2 ^ 11 + uf32Bits 5 v.b * 2 ^ 22)
  else leBytes 2 (f16Bits v.r) ++ leBytes 2 (f16Bits v.g) ++ leBytes 2 (f16Bits v.b)

/-- A history pixel decoded. -/
def histDec (uf : Bool) (bs : List Byte) : V3 :=
  if uf then
    let w := leNat bs
    ⟨Fl.ofBits 5 6 true (w % 2048), Fl.ofBits 5 6 true (w / 2048 % 2048), Fl.ofBits 5 5 true (w / 2 ^ 22 % 1024)⟩
  else ⟨f16Of (rdLe bs 0 2), f16Of (rdLe bs 2 2), f16Of (rdLe bs 4 2)⟩

/-- Stage 7 for one pixel (R284): c current, hist the decoded histories and currents of the 3 × 3 window (centre fifth),
`pass` where R285 sets a to 1. -/
def tnrPx (s : FrameSet) (expTag : Nat) (win : List (V3 × V3)) (pass : Bool) : V3 :=
  let one := Fl.ofNat 1
  let scale := (f32Of s.exposure).div fmt32 (f32Of expTag)
  let win := win.map fun p => (p.1, p.2.map fun v => v.mul fmt32 scale)
  let lum := fun (v : V3) => ap0Row.dot fmt32 v
  let ch := win.getD 4 (⟨Fl.zero, Fl.zero, Fl.zero⟩, ⟨Fl.zero, Fl.zero, Fl.zero⟩)
  if pass then ch.1
  else
    let sum := win.foldl (fun a p => a.add fmt32 (((lum p.1).sub fmt32 (lum p.2)).abs)) Fl.zero
    let dd := sum.div fmt32 (Fl.ofNat 9)
    let yh := lum ch.2
    let sg := ((f32Of s.n0).add fmt32 ((f32Of s.n1).mul fmt32 (if yh.neg then Fl.zero else yh))).sqrt fmt32
    let num := dd.sub fmt32 ((f32Of s.tLo).mul fmt32 sg)
    let den := ((f32Of s.tHi).sub fmt32 (f32Of s.tLo)).mul fmt32 sg
    let k := if den.isZero then (if num.neg ∨ num.isZero then Fl.zero else one) else (num.div fmt32 den).clamp Fl.zero one
    let a := (f32Of s.aMin).add fmt32 ((one.sub fmt32 (f32Of s.aMin)).mul fmt32 k)
    (V3.zip (fun c h => h.add fmt32 (a.mul fmt32 (c.sub fmt32 h))) ch.1 ch.2).map (Fl.rnd fmtW)

/-! ### Stage 8 (R287 to R292) -/

/-- An output transform as a tile holds it: descriptor, shaper entries (3 × 4,096 binary16), LUT words (3 × 65³). -/
structure Ot where
  desc : List Byte
  shaper : List Nat
  lut : List Nat

def Ot.en (o : Ot) : Bool := (rdLe o.desc 0 1).testBit 0
def Ot.srcXyz (o : Ot) : Bool := (rdLe o.desc 0 1).testBit 1
def Ot.isLut (o : Ot) : Bool := (rdLe o.desc 0 1).testBit 2
def Ot.full (o : Ot) : Bool := (rdLe o.desc 0 1).testBit 3
def Ot.enc (o : Ot) : Nat := rdLe o.desc 1 1
/-- BT.2020 coefficients for Y′CbCr (R287, R293). -/
def Ot.ycc2020 (o : Ot) : Bool := if o.isLut then decide (rdLe o.desc 2 1 = 1) else decide (2 ≤ o.enc)
def Ot.shMode (o : Ot) : Nat := rdLe o.desc 3 1

/-- LOOK (R287), in working floats. -/
def Ot.look (o : Ot) : M3 :=
  let g := fun (i : Nat) => (f32Of (rdLe o.desc (16 + 4 * i) 4)).rnd fmtW
  ⟨⟨g 0, g 1, g 2⟩, ⟨g 3, g 4, g 5⟩, ⟨g 6, g 7, g 8⟩⟩

/-- XYZ to RGB of BT.709 or BT.2020 primaries with a D65 white, from their chromaticities (R288). -/
def xyzToRgb (wide : Bool) : M3 :=
  let p := if wide then [(708, 292), (170, 797), (131, 46)] else [(640, 330), (300, 600), (150, 60)]
  let col := fun (i : Nat) =>
    let q := p.getD i (0, 1)
    whiteXY (Fl.dec fmt64 q.1 3) (Fl.dec fmt64 q.2 3)
  let m := M3.tr ⟨col 0, col 1, col 2⟩
  let s := (m.inv fmt64).mulV fmt64 d65
  (m.mul fmt64 (M3.diag s)).inv fmt64

/-- P of R288 for ENC and SOURCE, in working floats. -/
def primaries (enc : Nat) (srcXyz : Bool) : M3 :=
  let one := Fl.ofNat 1
  if enc = 0 then M3.diag ⟨one, one, one⟩
  else
    let t := xyzToRgb (decide (2 ≤ enc))
    let m := if srcXyz then t else (t.mul fmt64 (catM acesWhite d65 one)).mul fmt64 (map0.inv fmt64)
    m.map (Fl.rnd fmtW)

/-- The shaper on channel ch (R290): the value, and whether u was clamped. -/
def Ot.shape (o : Ot) (ch : Nat) (x : Fl) : Fl × Bool :=
  if o.shMode = 0 then (x, false)
  else
    let lo := f32Of (rdLe o.desc 4 4)
    let hi := f32Of (rdLe o.desc 8 4)
    let arg := if o.shMode = 1 then x else f32Of (Config.log2 (f32Bits x))
    let u := if o.shMode = 2 ∧ (x.neg ∨ x.isZero) then Fl.zero else (arg.sub fmt32 lo).div fmt32 (hi.sub fmt32 lo)
    let cl := u.neg && !u.isZero || (Fl.ofNat 1).lt u
    let f := (Fl.ofNat 4095).mul fmt32 (u.clamp Fl.zero (Fl.ofNat 1))
    let i := min f.floor.toNat 4095
    let e := fun (n : Nat) => f16Of (o.shaper.getD (4096 * ch + n) (Config.emptyTable (4096 * ch + n)))
    let v := if i = 4095 then e 4095
      else (e i).add fmt32 ((f.sub fmt32 (Fl.ofNat i)).mul fmt32 ((e (i + 1)).sub fmt32 (e i)))
    (v.rnd fmtW, cl)

/-- The transfer function of R292. -/
def transferOf (enc : Nat) (l : Fl) : Fl :=
  let t := fun (x : Fl) => wfOf (Config.transfer enc (wfBits x))
  match enc with
  | 0 => l
  | 3 => if l.neg && !l.isZero then Fl.zero else if (Fl.ofNat 1).lt l then Fl.ofNat 1 else t l
  | 4 => if l.neg && !l.isZero then Fl.zero else t l
  | _ => if l.neg && !l.isZero then (t l.abs).negate else t l.abs

/-- The 3D LUT (R291) on inputs in [0, 1]. -/
def Ot.lut3 (o : Ot) (v : V3) : V3 :=
  let x := [v.r, v.g, v.b].map fun c => (Fl.ofNat 64).mul fmt32 c
  let i := x.map fun c => min c.floor.toNat 63
  let f := (List.range 3).map fun k => (x.getD k Fl.zero).sub fmt32 (Fl.ofNat (i.getD k 0))
  let g := fun (k : Nat) => f.getD k Fl.zero
  let axes := [0, 1, 2].mergeSort fun a b => !(g a).lt (g b)
  let at0 := fun (s : List Nat) (k : Nat) => i.getD k 0 + (if s.contains k then 1 else 0)
  let entry := fun (s : List Nat) (c : Nat) =>
    let i := ((at0 s 0 * 65 + at0 s 1) * 65 + at0 s 2) * 3 + c
    (Fl.ofNat (o.lut.getD i (Config.emptyTable i % 65536))).div fmt32 (Fl.ofNat 65535)
  let comp := fun (c : Nat) =>
    let p0 := entry [] c
    let p1 := entry (axes.take 1) c
    let p2 := entry (axes.take 2) c
    let p3 := entry axes c
    let a := p0.add fmt32 ((g (axes.getD 0 0)).mul fmt32 (p1.sub fmt32 p0))
    let b := a.add fmt32 ((g (axes.getD 1 0)).mul fmt32 (p2.sub fmt32 p1))
    (b.add fmt32 ((g (axes.getD 2 0)).mul fmt32 (p3.sub fmt32 p2))).rnd fmtW
  ⟨comp 0, comp 1, comp 2⟩

/-- Stage 8's result for a pixel, with the shaper clamps and LUT input clamps it counted (R288 to R291). -/
structure Out8 where
  v : V3
  shp : Nat
  lut : Nat

/-- Stage 8 on a SOURCE value (R288, R289). -/
def Ot.run (o : Ot) (src : V3) : Out8 :=
  let v := (o.look.mulV fmt32 src).map (Fl.rnd fmtW)
  let v := if o.isLut then v else ((primaries o.enc o.srcXyz).mulV fmt32 v).map (Fl.rnd fmtW)
  let r := o.shape 0 v.r
  let g := o.shape 1 v.g
  let b := o.shape 2 v.b
  let n := fun (x : Bool) => if x then 1 else 0
  let shp := n r.2 + n g.2 + n b.2
  let v : V3 := ⟨r.1, g.1, b.1⟩
  if o.isLut then
    let out := fun (x : Fl) => n (x.neg && !x.isZero || (Fl.ofNat 1).lt x)
    ⟨o.lut3 (v.map fun x => x.clamp Fl.zero (Fl.ofNat 1)), shp, out v.r + out v.g + out v.b⟩
  else
    let scale := (f32Of (rdLe o.desc 12 4)).rnd fmtW
    let k := if o.enc = 3 then scale.div fmtW (Fl.ofNat 10000) else if o.enc = 4 then scale else Fl.ofNat 1
    ⟨v.map fun x => transferOf o.enc (x.mul fmtW k), shp, 0⟩

end Sys2Proof.Machine
end

