-- ==== Sys2Proof/Machine/Bank.lean ====
section
/-! DEFINITION. Chapter 02, the current bank: decisions (R60), releases (R62), voltage requests (R583), monitors and overdraw
(R64, R65), shedding (R68), the peer's ceiling (R69), the governor (R33) and the supply pins (R49, R52). -/
namespace Sys2Proof.Machine

/-! ### A decision (R60) -/

/-- A self-test run's units: a tile group is tested with its four tiles (R66, R548). -/
def testUnits (u : Nat) : List Nat := if kindOf u = some .tileGroup then subtree u else [u]

/-- The charge of a self-test run (R66). -/
def Dev.pipRun (d : Dev) (u : Nat) : Nat := (testUnits u).foldl (fun n v => n + d.pipTest v) 0

/-- A self-test run granted: TST rises on its units, whose domain is powered (R16, R66). -/
def Dev.grantTest (d : Dev) (u : Nat) : Dev :=
  let d := (testUnits u).foldl (fun e v => e.fs F.ucbState_tst 1 v) d
  match domainOf u with
  | none => d
  | some n => d.fs F.bankDom_on 1 uBank n

/-- The charge a request asks for at the present scale. -/
def Dev.reqBase (d : Dev) (r : BankReq) : Nat :=
  match r.kind with
  | .wake => d.pipWake r.unit
  | .work => d.pipLevel r.unit (d.fg F.ucbPip_actLevel r.unit)
  | .raise n => d.pipLevel r.unit n
  | .test => d.pipRun r.unit

/-- What granting a request takes from the free pips: its charge less what the unit already holds, which the grant replaces
(R580). -/
def Dev.reqNeed (d : Dev) (r : BankReq) : Int :=
  (charge (d.reqBase r) d.vscale : Int) - d.held d.vscale r.unit

/-- A unit granted a wake takes WAKING; its domain powers on with its first unit (R55, R580). -/
def Dev.grantWake (d : Dev) (u : Nat) : Dev :=
  let d := d.setUst u stWaking 0x1
  match domainOf u with
  | none => d
  | some n => if d.bank.good.contains n then d.askWork u else d.fs F.bankDom_on 1 uBank n

/-- What a grant does to its unit (R18, R580, R16, R66). -/
def Dev.granted (d : Dev) (r : BankReq) : Dev :=
  match r.kind with
  | .wake => if d.own r.unit = stOff ∨ d.own r.unit = stSleep then d.grantWake r.unit else d
  | .work => if d.own r.unit = stWaking then (d.leaveWaking r.unit).syncRequest r.unit else d
  | .raise n => (d.fs F.ucbPip_actLevel n r.unit).syncRequest r.unit
  | .test => d.grantTest r.unit

/-- A request granted: it leaves its queue, its charge stands as the unit's grant and PEND falls. -/
def Dev.grant (d : Dev) (r : BankReq) : Dev :=
  let g : Grant := ⟨d.reqBase r, decide (r.cls = 0)⟩
  let rest := d.bank.reqs.erase r
  let d := { d with bank := { d.bank with reqs := rest, grants := tset d.bank.grants r.unit g,
                                          settling := tdel d.bank.settling r.unit, credits := tdel d.bank.credits r.unit } }
  let d := if rest.any fun x => decide (x.unit = r.unit) then d else d.fs F.ucbPip_pend 0 r.unit
  d.granted r

/-- Releases reported are credited (R60, R62). -/
def Dev.creditAll (d : Dev) : Dev :=
  let gs := d.bank.credits.foldl (fun t p =>
    if p.2 = 0 then tdel t p.1 else tmod t p.1 fun g => { g with base := p.2 }) d.bank.grants
  { d with bank := { d.bank with grants := gs, credits := [] } }

/-- C0 requests granted in arrival order while they fit (R59, R60). -/
def Dev.grantC0 (d : Dev) : Nat → Dev
  | 0 => d
  | n + 1 =>
    match d.bank.reqs.find? fun r => decide (r.cls = 0) with
    | none => d
    | some r => if d.reqNeed r ≤ d.freePips then (d.grant r).grantC0 n else d

/-- The first waiting request of C1, then C2, then C3 (R60). -/
def BankSt.headLow (b : BankSt) : Option BankReq :=
  (b.reqs.find? fun r => decide (r.cls = 1)).orElse fun _ =>
    (b.reqs.find? fun r => decide (r.cls = 2)).orElse fun _ => b.reqs.find? fun r => decide (r.cls ≠ 0)

/-- A non-C0 wake, raise or self-test waits while OVER or LOW_RES is 1 (R68). -/
def Dev.stalled (d : Dev) (r : BankReq) : Bool :=
  (d.over || d.lowRes) && (match r.kind with | .work => false | _ => true)

/-- C1 to C3 requests granted in order; none passes an unfit head (R59, R60, R68). -/
def Dev.grantLow (d : Dev) : Nat → Dev
  | 0 => d
  | n + 1 =>
    match d.bank.headLow with
    | none => d
    | some r =>
      if !d.stalled r && decide (d.reqNeed r + (d.fg F.bankReserve_reserve uBank : Int) ≤ d.freePips)
      then (d.grant r).grantLow n else d

/-- The pending voltage request decided (R60, R63): a lowering always, a raise when its rise leaves the reserve free. -/
def Dev.decideVolt (d : Dev) : Dev :=
  if d.bank.voltReq then
    let t := d.fg F.bankVolt_target uBank
    let vs := vscaleOf t
    let rise : Int := (d.usedC0 vs + d.usedOther vs : Nat) - (d.usedC0 d.vscale + d.usedOther d.vscale : Nat)
    let d := { d with bank := { d.bank with voltReq := false } }
    if t ≤ d.fg F.bankVolt_present uBank ∨ rise ≤ d.freePips - (d.fg F.bankReserve_reserve uBank : Int) then
      let d := ((d.fs F.bankVolt_present t uBank).fs F.bankVscale_vscale vs uBank)
      (d.fs F.bankVolt_granted 1 uBank).fs F.bankVolt_refused 0 uBank
    else (d.fs F.bankVolt_granted 0 uBank).fs F.bankVolt_refused 1 uBank
  else d

/-- One decision of the bank (R60); it grants nothing after PWR_GOOD falls or in a thermal shutdown (R52, R543). -/
def Dev.decide60 (d : Dev) : Dev :=
  let d := d.creditAll.syncEff
  if d.bank.granting then
    let d := d.grantC0 d.bank.reqs.length
    let d := d.decideVolt
    (d.grantLow d.bank.reqs.length).syncBank
  else d.syncBank

def execBankDecide (s : State) : Host.Outcome State Fault Refusal := s.onDev Dev.decide60

/-- A unit reports that its current has settled after a release (R62). -/
def execPipRelease (u : Nat) (s : State) : Host.Outcome State Fault Refusal := s.onDev fun d =>
  match tget d.bank.settling u with
  | some b => { d with bank := { d.bank with settling := tdel d.bank.settling u, credits := tset d.bank.credits u b } }
  | none => d

/-! ### The bank's registers (R58, R583) -/

/-- E_BANK_CFG: a bank register write is dropped (R70). -/
def Dev.bankCfg (d : Dev) (m : Nat) : Dev := d.raise { code := 0x0117, sev := 1, unit := uBank, master := m }

def Dev.effBankCeil (d : Dev) (m : Nat) (v : Word) : Dev :=
  let c := getF v 11 0
  if 0xA00 < c ∨ c < d.fg F.bankReserve_reserve uBank then d.bankCfg m else d.putFields .bankCeil uBank 0 v
def Dev.effBankReserve (d : Dev) (m : Nat) (v : Word) : Dev :=
  if d.fg F.bankCeil_ceil uBank < getF v 11 0 then d.bankCfg m else d.putFields .bankReserve uBank 0 v
def Dev.effBankVolt (d : Dev) (m : Nat) (v : Word) : Dev :=
  let t := getF v 25 16
  if t < 620 ∨ 860 < t then d.bankCfg m
  else
    let d := d.putFields .bankVolt uBank 0 v
    if getF v 31 31 = 1 then { d with bank := { d.bank with voltReq := true } } else d

def execBankCeilWrite (m : Nat) (v : Word) (s : State) : Host.Outcome State Fault Refusal :=
  s.access m fun d => d.gated m .bankCeil uBank 0 v fun d => d.effBankCeil m v
def execBankReserveWrite (m : Nat) (v : Word) (s : State) : Host.Outcome State Fault Refusal :=
  s.access m fun d => d.gated m .bankReserve uBank 0 v fun d => d.effBankReserve m v
def execBankVoltReq (m : Nat) (v : Word) (s : State) : Host.Outcome State Fault Refusal :=
  s.access m fun d => d.gated m .bankVolt uBank 0 v fun d => d.effBankVolt m v

def execBankOvrRead (m : Nat) (s : State) : Host.Outcome State Fault Refusal :=
  s.access m fun d => d.readClear m .bankOvr uBank 0 [F.bankOvr_ovrCount]

/-- A 32-bit read of BANK_PEAK; it then reads 0 until the next window completes (R58). -/
def execBankPeakRead (m : Nat) (s : State) : Host.Outcome State Fault Refusal :=
  s.access m fun d => d.readClear m .bankPeak uBank 0 [F.bankPeak_peak]

/-! ### Grant timeouts (R61) -/

/-- A request of `u` that has waited its time is reported once. -/
def Dev.grantLate (d : Dev) (u : Nat) (c0 : Bool) : Dev :=
  match d.bank.reqs.find? fun r => decide (r.unit = u) && (decide (r.cls = 0) == c0) && !r.told with
  | none => d
  | some r =>
    let d := { d with bank := { d.bank with reqs := d.bank.reqs.map fun x => if x = r then { x with told := true } else x } }
    if c0 then d.raise { code := 0x0113, sev := 3, unit := u } else d.raise { code := 0x0112, sev := 2, unit := u }

def execC0GrantLateTimeout (u : Nat) (s : State) : Host.Outcome State Fault Refusal := s.onDev fun d => d.grantLate u true
def execGrantWaitTimeout (u : Nat) (s : State) : Host.Outcome State Fault Refusal := s.onDev fun d => d.grantLate u false

/-! ### Monitors and overdraw (R64, R65) -/

/-- A domain's grant and whether MEAS exceeds it by more than 2 pips (R64). -/
def Dev.excessOf (d : Dev) (n : Nat) : Nat := d.fg F.bankDom_meas uBank n - d.fg F.bankDom_grant uBank n

/-- One domain's window: MEAS, and the windows in a row with the excess: those that follow a hold while each has it, else a run that
may begin one (R64, R65). -/
def Dev.domWindow (d : Dev) (n meas : Nat) : Dev :=
  let d := d.fs F.bankDom_meas (min meas 0xFFF) uBank n
  if d.excessOf n > 2 then
    if (tget d.bank.heldExcess n).isSome then
      { d with bank := { d.bank with heldExcess := tmod d.bank.heldExcess n (· + 1) } }
    else { d with bank := { d.bank with excess := tset d.bank.excess n ((tget d.bank.excess n).getD 0 + 1) } }
  else { d with bank := { d.bank with excess := tdel d.bank.excess n, heldExcess := tdel d.bank.heldExcess n } }

/-- The end of a 1 µs window: every domain's measurement, by domain number, and the total against PEAK (R58, R64). -/
def execCurrentMonitorWindow (meas : List Nat) (s : State) : Host.Outcome State Fault Refusal := s.onDev fun d =>
  let d := (List.range 64).foldl (fun e n => e.domWindow n (meas.getD n 0)) d
  d.fs F.bankPeak_peak (max (d.fg F.bankPeak_peak uBank) (min ((List.range 64).foldl (fun t n => t + meas.getD n 0) 0) 0xFFF)) uBank

/-- A unit's self-test stopped: its run is INCOMPLETE and the unit takes UNUSABLE (R64, R549). -/
def Dev.stopTest (d : Dev) (u : Nat) : Dev :=
  let d := { d with hl := { d.hl with runs := d.hl.runs.map fun (r : TestRun) => if r.unit = u then { r with good := false } else r } }
  (d.fs F.ucbState_tst 0 u).toUnusable u 0xE

/-- Ten consecutive windows of excess hold the domain's units (R64): one in self-test is stopped instead; the others take
consecutive values of the hold sequence in ascending index; one E_OVERDRAW names the domain (R143). -/
def Dev.overdraw (d : Dev) (n : Nat) : Dev :=
  if 10 ≤ (tget d.bank.excess n).getD 0 then
    let ex := d.excessOf n
    let us := unitsInDomain n
    let d := (us.filter fun u => d.fb F.ucbState_tst u).foldl Dev.stopTest d
    let hs : List Nat := us.filter fun u => d.mayHold u && decide (d.own u ≠ stHeld)
    let first := nextSeq d.fab.holdSeq
    let d := hs.foldl (fun e u => (e.addHold true u 7 n).holdUnit u) d
    let d := d.fs F.bankDom_ovr 1 uBank n
    let d := (((d.fadd F.bankOvr_ovrCount 1 uBank).fs F.bankOvr_domain n uBank).fs F.bankOvr_excess (min ex 0xFFF) uBank)
    let d := { d with bank := { d.bank with excess := tdel d.bank.excess n, heldExcess := tset d.bank.heldExcess n 0 } }
    let d : Dev := d.raise {
      code := 0x0110, sev := 3, unit := uBank, d0 := n, d1 := ex,
      d2 := hs.length * 2 ^ 16 + (if hs = [] then 0 else first) }
    if (hs.any fun (u : Nat) => decide (d.workCls u = 0)) = true then d.c0Risk 7 (hs.headD 0) else d
  else d

def execOverdraw (n : Fin 64) (s : State) : Host.Outcome State Fault Refusal := s.onDev fun d => d.overdraw n

/-- The excess held through the 100 windows after the hold: the bank powers the domain off (R65); the units' holds stand until they
are released (R93). -/
def Dev.overdrawOff (d : Dev) (n : Nat) : Dev :=
  if 100 ≤ (tget d.bank.heldExcess n).getD 0 then
    let d := { d with bank := { d.bank with heldExcess := tdel d.bank.heldExcess n } }
    (d.raise { code := 0x0111, sev := 3, unit := uBank, d0 := n }).domainLost n
  else d

def execOverdrawOff (n : Fin 64) (s : State) : Host.Outcome State Fault Refusal := s.onDev fun d => d.overdrawOff n

/-! ### Shedding (R68) -/

/-- Units that may shed, in order: work class C3, then C2, then C1; the largest grant first, the higher index on a tie. -/
def Dev.shedOrder (d : Dev) : List Nat :=
  let key := fun u => ((d.workCls u) * 0x10000 + d.held d.vscale u) * 0x1000 + u
  (allUnits.filter fun u => hasLogic u && !isAon u && decide (d.workCls u ≠ 0) && (tget d.bank.grants u).isSome &&
    decide (0 < d.fg F.ucbPip_actLevel u)).mergeSort fun a b => decide (key b ≤ key a)

/-- Pips that releases not yet credited will give back. -/
def Dev.releasing (d : Dev) : Int :=
  let f := fun (n : Int) (p : Nat × Nat) => n + (d.held d.vscale p.1 : Int) - charge p.2 d.vscale
  d.bank.credits.foldl f (d.bank.settling.foldl f 0)

/-- Both flags would be 0 with `extra` more pips free. -/
def Dev.flagsClear (d : Dev) (extra : Int) : Bool :=
  decide ((d.fg F.bankReserve_reserve uBank : Int) ≤ d.freePips + extra) && decide (0 ≤ d.freePips + extra)

/-- One unit lowered to the highest level whose charge brings both flags to 0, else to level 0 (R68). -/
def Dev.shedUnit (d : Dev) (u : Nat) : Dev :=
  if d.flagsClear d.releasing then d
  else
    let cur := d.fg F.ucbPip_actLevel u
    let ok := fun n => d.flagsClear (d.releasing + d.held d.vscale u - charge (d.pipLevel u n) d.vscale)
    d.applyLevel u (((List.range cur).reverse.find? ok).getD 0)

/-- Firmware's shedding (R68). -/
def Dev.shed (d : Dev) : Dev := if d.over || d.lowRes then d.shedOrder.foldl Dev.shedUnit d else d

/-- The bank's own shedding (R68): ACT_LEVEL 0, unit by unit until both flags would be 0, with E_SHED for each. -/
def Dev.forceShed (d : Dev) : Dev :=
  d.shedOrder.foldl (fun e u =>
    if e.flagsClear e.releasing then e
    else (e.applyLevel u 0).raise { code := 0x0116, sev := 2, unit := u }) d

def execForceShedTimeout (s : State) : Host.Outcome State Fault Refusal := s.onDev fun d =>
  if (d.over || d.lowRes) && d.fb F.bankCtl_forceShed uBank then d.forceShed else d

/-! ### The peer (R69) -/

/-- PEER_VALID set to b, with E_PEER_CEIL on a change (R69, R70). -/
def Dev.setPeerValid (d : Dev) (b : Bool) : Dev :=
  if d.fb F.bankStatus_peerValid uBank = b then d
  else (d.fs F.bankStatus_peerValid (bit b) uBank).syncEff.raise { code := 0x0119, sev := 1, unit := uBank, d0 := bit b }

def execPeerValidLost (s : State) : Host.Outcome State Fault Refusal := s.onDev fun d =>
  (d.setPeerValid false)

/-! ### Supplies (R49, R52) -/

/-- An assertion of PMB_ALERT_N: firmware reads STATUS_WORD and raises E_RAIL with it, READ_VOUT and READ_IOUT (R49, R143). -/
def execPmbAlert (statusWord vout iout : Nat) (s : State) : Host.Outcome State Fault Refusal :=
  s.onDev fun d => d.raise { code := 0x011A, sev := 3, unit := uBank, d0 := statusWord, d1 := vout, d2 := iout }

/-! ### The governor (R33, R34, R41, R583) -/

/-- E_C0_AT_RISK as a condition begins to fail; it is told again only after it has held again (R41). -/
def Dev.riskEdge (d : Dev) (cond obj : Nat) (failing : Bool) : Dev :=
  if failing then
    if d.bank.riskTold.contains cond then d
    else { d with bank := { d.bank with riskTold := cond :: d.bank.riskTold } }.c0Risk cond obj
  else { d with bank := { d.bank with riskTold := d.bank.riskTold.filter (· ≠ cond) } }

/-- A voltage request by firmware, decided by the bank before firmware goes on (R63). -/
def Dev.askVolt (d : Dev) (mv : Nat) : Dev :=
  { d.fs F.bankVolt_target mv uBank with bank := { d.bank with voltReq := true } }.decide60

/-- The next class not yet withheld is withheld from group g: C3, then C2, then C1; never C0 (R33, R34). -/
def Dev.withhold (d : Dev) (g : Nat) : Dev :=
  { d with bank := { d.bank with withheld := tset d.bank.withheld g (min 3 ((tget d.bank.withheld g).getD 0 + 1)) } }

/-- Withheld classes released, C1 first: each group gives back the last class withheld (R33). -/
def Dev.unwithhold (d : Dev) : Dev :=
  { d with bank := { d.bank with
      withheld := (d.bank.withheld.map fun p => (p.1, p.2 - 1)).filter fun p => decide (p.2 ≠ 0) } }

/-- The governor's read of UCB_PACE_MIN begins a new minimum for every group it looked at (R16). -/
def Dev.rereadPace (d : Dev) : Dev :=
  (asyncGroups.filter d.governed).foldl (fun e g => (e.fs F.ucbPaceMin_below 0 g).fs F.ucbPaceMin_paceMin 0xFFFF g) d

/-- R33's algorithm on the slowest group g. -/
def Dev.govern (d : Dev) (g : Nat) : Dev :=
  let v := d.fg F.bankVolt_present uBank
  let d := { d with bank := { d.bank with highRuns := if d.paceAtLeast g 115 then d.bank.highRuns + 1 else 0 } }
  if !d.paceAtLeast g 105 then
    if v < 860 then
      let e := d.askVolt (min 860 (v + 5))
      if e.fb F.bankVolt_granted uBank then { e with bank := { e.bank with setPoint := e.fg F.bankVolt_present uBank } }
      else e.withhold g
    else d.withhold g
  else if 200 ≤ d.bank.highRuns ∧ d.bank.withheld = [] then
    let d := { d with bank := { d.bank with setPoint := max (v - 5) 620 } }
    d.askVolt (max (v - 5) 620)
  else if d.paceAtLeast g 110 then d.unwithhold
  else d

/-- One run of the pace governor (R33), with the regulator's agreement (R583), shedding (R68) and R41's conditions. -/
def Dev.governorRun (d : Dev) : Dev :=
  let d := { d with bank := { d.bank with setPoint := d.fg F.bankVolt_present uBank } }
  let d := d.shed
  let d := d.riskEdge 4 0 (decide (d.effCeil < d.fg F.bankReserve_reserve uBank))
  let d := d.riskEdge 8 0 (decide (d.effCeil < d.usedC0 d.vscale))
  match d.slowest with
  | none => d
  | some g => (d.govern g).rereadPace

def execGovernorRun (s : State) : Host.Outcome State Fault Refusal := s.onDev Dev.governorRun

end Sys2Proof.Machine
end

