-- ==== Sys2Proof/Machine/Nvm.lean ====
section
/-! DEFINITION. The event NVM (R545 to R547): a ring of 512 records that survives reset; records are queued by the device
within a command and written at its end, with the outcome of each read-back check as an operand. -/
namespace Sys2Proof.Machine

/-- Temperatures TS00-TS25 in use, 1/8 °C (R546 TEMPS). -/
def Dev.tempsNow (d : Dev) : List Int := (List.range 26).map fun n => sgn 12 (d.fg F.ts_temp uTherm n)

/-- VALID bits of TS00-TS25 (R546). -/
def Dev.validNow (d : Dev) : Nat := (List.range 26).foldl (fun a n => a + d.fg F.ts_valid uTherm n * 2 ^ n) 0

/-- A record queued for the event NVM. -/
def Dev.nvPut (d : Dev) (kind : Nat) (err : EvRec) (info : List Byte) : Dev :=
  { d with boot := { d.boot with nvOut := d.boot.nvOut ++ [(⟨kind, err, info⟩ : NvJob)] } }

/-- The slot after the newest record (R545). -/
def Dev.nvNext (d : Dev) : Nat := d.fg F.nvStat_next uNvm

/-- One record placed in the next slot; a write that fails its check leaves a record whose CRC does not verify. -/
def nvPlace (nv : Nv) (d : Dev) (j : NvJob) (good : Bool) : Nv × Dev :=
  let r : NvRec := ⟨nv.nseq + 1, j.kind, nv.boots, j.err, d.tempsNow, d.validNow, j.info, good⟩
  let slot := d.nvNext
  let nv := { nv with recs := tset nv.recs slot r }
  let d := d.fs F.nvStat_next ((slot + 1) % 512) uNvm
  (nv, d.fs F.nvStat_count ((nv.recs.filter fun p => p.2.good).length) uNvm)

/-- A record written (R547): `fails` read-back checks fail; the second failure raises E_HL_NVM. -/
def nvWrite (fails : Nat) (nv : Nv) (d : Dev) (j : NvJob) : Nv × Dev :=
  let d1 := if fails = 0 then (nv, d) else nvPlace nv d j false
  let d2 := if fails ≤ 1 then nvPlace d1.1 d1.2 j true else nvPlace d1.1 d1.2 j false
  let nv := { d2.1 with nseq := nv.nseq + 1 }
  let d := d2.2.fs F.nvSeq_nseq nv.nseq uNvm
  (nv, if fails ≤ 1 then d else d.raise { code := 0x130F, sev := 2, unit := uNvm })

/-- Every queued record written, the first with `fails` failed checks. -/
def nvFlush (fails : Nat) (nv : Nv) (d : Dev) : Nv × Dev :=
  let jobs := d.boot.nvOut
  let d := { d with boot := { d.boot with nvOut := [] } }
  (jobs.zipIdx).foldl (fun p j => nvWrite (if j.2 = 0 then fails else 0) p.1 p.2 j.1) (nv, d)

/-- A meaning on the device whose event NVM records are written at its end. -/
def State.onNvm (fails : Nat) (f : Dev → Dev) (s : State) : Host.Outcome State Fault Refusal :=
  s.onBoth fun nv d => nvFlush fails nv (f d)

/-- The record of an event as it is written to the NVM. -/
def Dev.recOf (d : Dev) (e : Ev) : EvRec := d.mkRec e e.sev false false

end Sys2Proof.Machine
end

