-- ==== Sys2Proof/Machine/Hbm.lean ====
section
/-! DEFINITION. Chapter 15, HBM memory: address orders (R429), the region table (R431, R442), errors (R436), the scrubber (R437),
BAR1 (R73), standby (R441) and the training helper (R435). -/
namespace Sys2Proof.Machine

/-- 48 GiB. -/
def hbmBytes : Nat := 0xC00000000

/-! ### Address orders (R429) -/

/-- Granule of an address order. -/
def granule (order : Nat) : Nat := if order % 2 = 0 then 256 else 4096

/-- Pseudo-channel of an address (R429). -/
def pcOf (order a : Nat) : Nat :=
  match order with
  | 0 => (a >>> 8) % 64
  | 1 => (a >>> 12) % 64
  | 2 => ((a >>> 8) ^^^ (a >>> 14) ^^^ (a >>> 20)) % 64
  | _ => ((a >>> 12) ^^^ (a >>> 18) ^^^ (a >>> 24)) % 64

/-- Local address within the pseudo-channel (R429). -/
def localAddr (order a : Nat) : Nat := a / (granule order * 64) * granule order + a % granule order

def locBankGroup (l : Nat) : Nat := bitsN l 11 10
def locBank (l : Nat) : Nat := bitsN l 13 12
def locRow (l : Nat) : Nat := bitsN l 29 14

def Dev.order (d : Dev) : Nat := d.fg F.hbmState_order uHbm

/-! ### Rights (R431) -/

/-- An entry covers [a, a+n). -/
def Rgn.covers (g : Rgn) (a n : Nat) : Bool :=
  decide (g.base * 4096 ≤ a) && decide (a + n ≤ (g.base + g.pages) * 4096)

/-- An entry touches [a, a+n). -/
def Rgn.touches (g : Rgn) (a n : Nat) : Bool :=
  decide (0 < n) && decide (g.base * 4096 < a + n) && decide (a < (g.base + g.pages) * 4096)

/-- An entry names master m. -/
def Rgn.names (g : Rgn) (m : Nat) : Bool := decide ((m &&& g.mask) = (g.master &&& g.mask))

/-- Whether [a, a+n) touches a firmware-reserved entry. -/
def Dev.reserved (d : Dev) (a n : Nat) : Bool := d.hbm.rgn.any fun p => p.2.rsvd && p.2.touches a n

/-- Whether master m may access [a, a+n) for a write or a read (R431). -/
def Dev.hbmMay (d : Dev) (m a n : Nat) (wr : Bool) : Bool :=
  if isOz m then true
  else if d.priv m then !(wr && d.reserved a n)
  else d.hbm.rgn.any fun p => (if wr then p.2.wr else p.2.rd) && p.2.covers a n && p.2.names m

/-- A DMA access outside the master's regions: a violation, not performed (R431). -/
def Dev.dmaOutside (d : Dev) (m a : Nat) : Dev := d.violate m 5 (a % 2 ^ 32)

/-- The user region of a function in bytes: base and size (R432). -/
def Dev.userOf (d : Dev) (f : Nat) : Nat × Nat :=
  match tget d.hbm.user f with
  | some (b, n) => (b * 0x2000000, n * 0x2000000)
  | none => (0, 0)

/-- A range a caller names lies in its own region (R432); privileged callers reach what R431 grants. -/
def Dev.callerMay (d : Dev) (m a n : Nat) (wr : Bool) : Bool := decide (a + n ≤ hbmBytes) && d.hbmMay m a n wr

/-- A range lies in function m's own user region (R432, "the caller's region"). -/
def Dev.inUser (d : Dev) (m a n : Nat) : Bool :=
  let (b, z) := d.userOf m
  decide (b ≤ a) && decide (a + n ≤ b + z)

/-! ### Standby (R440, R441) -/

def Dev.standby (d : Dev) : Bool := d.fb F.hbmState_standby uHbm

/-- Base of the INGEST region: in standby every address from it upwards is lost (R440). -/
def Dev.ingestBase (d : Dev) : Nat := d.fg F.hbmLayout_base uHbm 6 * 0x2000000

/-- The stacks of an access leave self-refresh (R441). -/
def Dev.wakeStack (d : Dev) (a : Nat) : Dev :=
  if d.standby then
    let st := pcOf d.order a / 32
    let d := d.fs F.hsStat_selfRef 0 (uStack st)
    if d.hbm.woken.contains st then d else { d with hbm := { d.hbm with woken := st :: d.hbm.woken } }
  else d

def execStandbySelfRefreshReentry (stack : Fin 2) (s : State) : Host.Outcome State Fault Refusal := s.onDev fun d =>
  if d.standby ∧ d.hbm.woken.contains stack.val then
    ({ d with hbm := { d.hbm with woken := d.hbm.woken.filter (· ≠ stack.val) } }).fs F.hsStat_selfRef 1 (uStack stack.val)
  else d

/-! ### Errors (R436) -/

/-- A single-bit error found in word w: corrected, counted, written back. -/
def Dev.foundCe (d : Dev) (w : Nat) : Dev :=
  let pc := pcOf d.order (w * 32)
  let d := d.fadd F.pcEcc_ce 1 (uMover pc)
  let d := { d with hbm := { d.hbm with sbe := d.hbm.sbe.filter (· ≠ w) } }
  d.raiseOnce pc 1000000000 { code := 0x0E01, sev := 1, unit := uMover pc, d0 := pc, d1 := w }

/-- An uncorrectable word found: counted, its address loaded, raised, its row recorded for repair (R436, R546 KIND 0x04). -/
def Dev.foundUe (d : Dev) (w : Nat) : Dev :=
  let pc := pcOf d.order (w * 32)
  let l := localAddr d.order (w * 32)
  let d := (d.fadd F.pcEcc_ue 1 (uMover pc)).fs F.pcUeAddr_addr w (uMover pc)
  let e : Ev := { code := 0x0E02, sev := 3, unit := uMover pc, d0 := pc, d1 := w }
  let r := d.recOf e
  let d := (d.raise e).nvPut 4 r
    (leBytes 1 (pc / 32) ++ leBytes 1 pc ++ leBytes 1 (locBankGroup l) ++ leBytes 1 (locBank l) ++ leBytes 4 (locRow l))
  { d with hbm := { d.hbm with rows := if d.hbm.rows.contains (pc, locRow l) then d.hbm.rows else (pc, locRow l) :: d.hbm.rows } }

/-- Errors that the cells have taken: words with a flipped bit, and words beyond correction, whose content is then a free
value (log entry 1). -/
def Dev.injectEcc (d : Dev) (se ue : List Nat) : Dev :=
  let d := { d with hbm := { d.hbm with sbe := d.hbm.sbe ++ se.filter fun w => !d.hbm.sbe.contains w } }
  ue.foldl (fun e w =>
    if e.hbm.ue.contains w then e
    else
      let e := { e with hbm := { e.hbm with ue := w :: e.hbm.ue, mem := mwrite 0 e.hbm.mem (w * 32) (leBytes 32 e.freeVal) } }
      e.useFree) d

/-- Words of 256 bits that [a, a+n) touches. -/
def wordsOf (a n : Nat) : List Nat := if n = 0 then [] else (List.range ((a + n - 1) / 32 - a / 32 + 1)).map (a / 32 + ·)

/-- The checks of a read of [a, a+n) (R436). -/
def Dev.eccRead (d : Dev) (a n : Nat) : Dev :=
  (wordsOf a n).foldl (fun e w =>
    if e.hbm.ue.contains w then e.foundUe w else if e.hbm.sbe.contains w then e.foundCe w else e) d

/-- Whether a read of [a, a+n) meets an uncorrectable word. -/
def Dev.eccPoison (d : Dev) (a n : Nat) : Bool := (wordsOf a n).any d.hbm.ue.contains

/-- A store: a word covered in part is a read-modify-write, checked as a read (R436). -/
def Dev.eccWrite (d : Dev) (a : Nat) (bs : List Byte) : Dev :=
  let part := (wordsOf a bs.length).filter fun w => !(decide (a ≤ w * 32) && decide (w * 32 + 32 ≤ a + bs.length))
  (part.foldl (fun e w => e.eccRead (w * 32) 1) d).hbmW a bs

/-! ### BAR1 (R73) -/

/-- The bytes of one access below 48 GiB, split at the INGEST base: n bytes kept, the rest lost in standby. -/
def Dev.keptLen (d : Dev) (a n : Nat) : Nat := if d.standby then min n (d.ingestBase - a) else n

/-- E_HBM_STANDBY for an access to a lost address (R441). -/
def Dev.lost (d : Dev) (m a : Nat) : Dev :=
  d.raise { code := 0x0E07, sev := 1, unit := uHbm, master := m, d0 := pcOf d.order a, d1 := a / 32 }

/-- A BAR1 read by m of n bytes at a (R73, R436, R441): before READY it returns a free value (R435). -/
def Dev.bar1Read (d : Dev) (m a n die : Nat) : Dev :=
  if !d.priv m then { d with fab := { d.fab with rbytes := List.replicate n 0, poison := false } }
  else
    let below := min n (hbmBytes - a)
    let kept := d.keptLen a below
    if !d.fb F.hbmState_ready uHbm then
      { d with fab := { d.fab with rbytes := leBytes below d.freeVal ++ List.replicate (n - below) 0, poison := false } }.useFree
    else
      let bytes := d.hbmR a kept ++ List.replicate (n - kept) 0
      let poison := d.eccPoison a kept
      let d := if kept = 0 then d else (d.wakeStack a).fadd F.pcEcc_die die (uMover (pcOf d.order a))
      let d := d.eccRead a kept
      let d := if kept < below then d.lost m (a + kept) else d
      { d with fab := { d.fab with rbytes := bytes, poison := poison } }

/-- A BAR1 write by m (R73, R431, R436, R441). -/
def Dev.bar1Write (d : Dev) (m a : Nat) (bs : List Byte) : Dev :=
  d.unlessHeld m fun d =>
    if !d.priv m then d.violate m 1 (a % 2 ^ 32)
    else
      let below := min bs.length (hbmBytes - a)
      let kept := d.keptLen a below
      if !isOz m && d.reserved a below then d.violate m 5 (a % 2 ^ 32)
      else
        let d := if kept = 0 then d else (d.wakeStack a).eccWrite a (bs.take kept)
        let d := if kept < below then d.lost m (a + kept) else d
        if below < bs.length then d.unmapped m ((a + below) % 2 ^ 28) else d

/-- An access to BAR1 at address a: a write of the bytes, or a read of n bytes; `se` and `ue` are the words in which the
cells have taken errors, `die` the corrections a stack reports for a read (R436). -/
def execBar1Access (m a : Nat) (wr : Bool) (n : Nat) (bytes : List Byte) (se ue : List Nat) (die : Nat) (s : State) :
    Host.Outcome State Fault Refusal :=
  if issued m then
    s.onNvm 0 fun d =>
      let d := d.injectEcc se ue
      if wr then d.bar1Write m a bytes else d.bar1Read m a n die
  else .fault (.neverIssued m)

/-! ### The region table's commands (R442) -/

/-- The entry that RGN_DATA0 to RGN_DATA2 hold. -/
def Dev.rgnData (d : Dev) : Rgn :=
  ⟨d.fb F.rgnData0_wr uHbm, d.fb F.rgnData0_rd uHbm, d.fb F.rgnData0_rsvd uHbm, d.fg F.rgnData0_base uHbm,
   d.fg F.rgnData1_pages uHbm, d.fg F.rgnData2_mask uHbm, d.fg F.rgnData2_master uHbm⟩

/-- RGN_DATA loaded from entry i. -/
def Dev.loadRgn (d : Dev) (i : Nat) : Dev :=
  match tget d.hbm.rgn i with
  | none => ((d.wr .rgnData0 uHbm 0 0).wr .rgnData1 uHbm 0 0).wr .rgnData2 uHbm 0 0
  | some g =>
    let d := d.wr .rgnData0 uHbm 0
      (BitVec.ofNat 32 (2 ^ 31 + bit g.wr * 2 ^ 30 + bit g.rd * 2 ^ 29 + bit g.rsvd * 2 ^ 28 + g.base % 2 ^ 24))
    (d.wr .rgnData1 uHbm 0 (BitVec.ofNat 32 (g.pages % 2 ^ 24))).wr .rgnData2 uHbm 0
      (BitVec.ofNat 32 (g.mask % 1024 * 2 ^ 16 + g.master % 1024))

/-- An entry of the table set or cleared. -/
def Dev.setRgn (d : Dev) (i : Nat) (g : Option Rgn) : Dev :=
  { d with hbm := { d.hbm with rgn := match g with
      | some g => tset d.hbm.rgn i g
      | none => tdel d.hbm.rgn i } }

def Dev.rgnResult (d : Dev) (n : Nat) : Dev := d.fs F.rgnCmd_result n uHbm

/-- OP run on entry i (R442): 0 READ, 1 WRITE, 2 CLEAR, 3 not used. -/
def Dev.rgnRun (d : Dev) (op i : Nat) : Dev :=
  match op with
  | 0 => (d.loadRgn i).rgnResult 1
  | 1 =>
    let g := d.rgnData
    if d.fb F.rgnData0_valid uHbm then
      if g.pages = 0 ∨ hbmBytes < (g.base + g.pages) * 4096 then d.rgnResult 2 else (d.setRgn i (some g)).rgnResult 1
    else (d.setRgn i none).rgnResult 1
  | 2 => (d.setRgn i none).rgnResult 1
  | _ => (d.rgnResult 3).raise { code := 0x0E09, sev := 1, unit := uHbm }

/-- E_HBM_SEC_ONLY (R442). -/
def Dev.hbmSec (d : Dev) (m : Nat) : Dev := d.raise { code := 0x0E08, sev := 1, unit := uHbm, master := m }

/-- RGN_CMD written (R442). -/
def Dev.effRgnCmd (d : Dev) (m : Nat) (v : Word) : Dev :=
  let op := getF v 27 26
  if !isOz m && decide (op ≠ 0) then d.hbmSec m
  else
    let d := d.putFields .rgnCmd uHbm 0 v
    if getF v 31 31 = 1 then d.rgnRun op (getF v 8 0) else d

/-- RGN_DATA written (R442). -/
def Dev.effRgnData (d : Dev) (m : Nat) (r : Reg) (v : Word) : Dev :=
  if isOz m then d.putFields r uHbm 0 v else d.hbmSec m

/-- RGN_CMD written with GO by master m. -/
def Dev.rgnGo (d : Dev) (m op i : Nat) : Dev :=
  let v : Word := BitVec.ofNat 32 (2 ^ 31 + op * 2 ^ 26 + i % 512)
  d.gated m .rgnCmd uHbm 0 v fun d => d.effRgnCmd m v

def execRgnRead (m i : Nat) (s : State) : Host.Outcome State Fault Refusal := s.access m fun d => d.rgnGo m 0 i
def execRgnWrite (m i : Nat) (s : State) : Host.Outcome State Fault Refusal := s.access m fun d => d.rgnGo m 1 i
def execRgnClear (m i : Nat) (s : State) : Host.Outcome State Fault Refusal := s.access m fun d => d.rgnGo m 2 i
def execRgnOpUnused (m i : Nat) (s : State) : Host.Outcome State Fault Refusal := s.access m fun d => d.rgnGo m 3 i

/-- E_HBM_CFG: a layout, helper or register write is refused (R445); DETAIL0 names a mover's pseudo-channel. -/
def Dev.hbmCfg (d : Dev) (u : Nat) : Dev := d.raise { code := 0x0E09, sev := 1, unit := u, d0 := u - uMover 0 }

/-- HBM_SCRUB and HBM_WEIGHT written: a PERIOD or a weight of 0 drops the write (R442). -/
def Dev.effHbmScrub (d : Dev) (v : Word) : Dev :=
  if getF v 15 0 = 0 then d.hbmCfg uHbm else d.putFields .hbmScrub uHbm 0 v
def Dev.effHbmWeight (d : Dev) (v : Word) : Dev :=
  if getF v 23 16 = 0 ∨ getF v 15 8 = 0 ∨ getF v 7 0 = 0 then d.hbmCfg uHbm else d.putFields .hbmWeight uHbm 0 v

/-! ### The training helper (R435, R444) -/

/-- PC_TR_CTL of mover n written: a MODE above 1 drops the write; GO on a trained channel is dropped with E_HBM_CFG; a run
shows the lanes that saw an error (`lanes`). -/
def Dev.effPcTr (d : Dev) (u : Nat) (v : Word) (lanes : Nat) : Dev :=
  if 1 < getF v 29 28 then d.hbmCfg u
  else if getF v 31 31 = 1 ∧ d.fb F.pcStat_trained u then d.hbmCfg u
  else
    let d := d.putFields .pcTrCtl u 0 v
    if getF v 31 31 = 1 then d.fs F.pcTrRes_errLanes lanes u else d

def execPcTrGo (m : Nat) (n : Fin 64) (v : Word) (lanes : Nat) (s : State) : Host.Outcome State Fault Refusal :=
  let w : Word := v ||| BitVec.ofNat 32 (2 ^ 31)
  s.access m fun d => d.gated m .pcTrCtl (uMover n.val) 0 w fun d => d.effPcTr (uMover n.val) w lanes

/-! ### The scrubber (R437) and counters -/

/-- Words of the memory. -/
def hbmWords : Nat := 0x60000000

/-- The scrubber reads the next n words; `se` and `ue` are the words in which the cells have taken errors. -/
def Dev.hbmScrub (d : Dev) (n : Nat) (se ue : List Nat) : Dev :=
  if d.fb F.hbmScrub_en uHbm && d.fb F.hbmState_ready uHbm && !d.standby then
    let d := d.injectEcc se ue
    let n := min n (hbmWords - d.hbm.scrubAt)
    let at0 := d.hbm.scrubAt
    let inRun := fun w => decide (at0 ≤ w) && decide (w < at0 + n)
    let d := (d.hbm.ue.filter inRun).foldl Dev.foundUe d
    let d := ((d.hbm.sbe.filter inRun).filter fun w => !d.hbm.ue.contains w).foldl Dev.foundCe d
    if at0 + n = hbmWords then { d with hbm := { d.hbm with scrubAt := 0 } }.fadd F.hbmScrub_passes 1 uHbm
    else { d with hbm := { d.hbm with scrubAt := at0 + n } }
  else d

def execHbmScrubStep (n : Nat) (se ue : List Nat) (s : State) : Host.Outcome State Fault Refusal :=
  s.onNvm 0 fun d => d.hbmScrub n se ue

/-- A 32-bit read of PC_STAT (false) or PC_ECC (true) of mover n (R444). -/
def execPcCounterRead (m : Nat) (n : Fin 64) (ecc : Bool) (s : State) : Host.Outcome State Fault Refusal :=
  s.access m fun d =>
    if ecc then d.readClear m .pcEcc (uMover n.val) 0 [F.pcEcc_ce, F.pcEcc_die]
    else d.readClear m .pcStat (uMover n.val) 0 [F.pcStat_c0Over]

end Sys2Proof.Machine
end

