-- ==== Sys2Proof/Machine/Registers.lean ====
section
/-! DEFINITION. Chapter 03, the global registers' own commands: locks (R84, R85), VF privilege (R94), holds listed and released
(R91, R94), error logs, the parity scrubber (R86) and latched counters (R79). -/
namespace Sys2Proof.Machine

/-! ### Held operations (R88, R91) -/

/-- Operations in execution of a held master, or on a unit held for overdraw, stop and complete with status HELD (R88). -/
def Dev.heldOpsClosed (d : Dev) (isUnit : Bool) (id : Nat) : Dev :=
  match d.holdOf isUnit id with
  | none => d
  | some _ =>
    if isUnit then (d.qf.ops.filter fun o => decide (o.unit = id)).foldl (fun e o => e.endOp o.tag 0x0310 []) d
    else d.closeHeldOps id

def execHeldOpsClosed (isUnit : Bool) (id : Nat) (s : State) : Host.Outcome State Fault Refusal :=
  s.onDev fun d => d.heldOpsClosed isUnit id

/-- Operations of a held entity still completing (R91). -/
def Dev.stillBusy (d : Dev) (isUnit : Bool) (id : Nat) : Bool :=
  d.qf.ops.any fun o => if isUnit then decide (o.unit = id) else decide (o.entry.master = id)

/-- A hold ends: a unit or port passes to QUARANTINE, OVR falls with the domain's last held unit, E_HOLD_RELEASED (R91). -/
def Dev.endHold (d : Dev) (isUnit : Bool) (id : Nat) : Dev :=
  let d := { d with fab := { d.fab with holds := d.fab.holds.filter fun h => !((h.isUnit == isUnit) && decide (h.id = id)) } }
  let u := if isUnit then some id else unitOfMaster id
  let d := match u with
    | none => d
    | some v => if d.own v = stHeld then d.setUst v stQuarantine 0xD else d
  let d := match (if isUnit then domainOf id else none) with
    | none => d
    | some n =>
      if d.fab.holds.any fun h => h.isUnit && decide (domainOf h.id = some n) then d else d.fs F.bankDom_ovr 0 uBank n
  d.raise { code := 0x0211, sev := 1, unit := if isUnit then id else 0, master := if isUnit then 0x3FF else id }

/-- A release of a hold (R91): RESULT 0b001 released, 0b010 stale or not held, 0b011 busy. -/
def Dev.releaseHold (d : Dev) (isUnit : Bool) (id seq : Nat) : Dev :=
  match d.holdOf isUnit id with
  | none => (d.fs F.holdSel_result 2).raise { code := 0x0212, sev := 1, unit := if isUnit then id else 0,
                                              master := if isUnit then 0x3FF else id, d0 := seq }
  | some h =>
    if h.seq ≠ seq then
      (d.fs F.holdSel_result 2).raise { code := 0x0212, sev := 1, unit := if isUnit then id else 0,
                                        master := if isUnit then 0x3FF else id, d0 := seq }
    else if d.stillBusy isUnit id then d.fs F.holdSel_result 3
    else (d.fs F.holdSel_result 1).endHold isUnit id

def Dev.effHoldRelease (d : Dev) (v : Word) : Dev :=
  d.releaseHold (decide (getF v 31 31 = 1)) (getF v 27 16) (getF v 15 0)

def execHoldReleaseWrite (m : Nat) (v : Word) (s : State) : Host.Outcome State Fault Refusal :=
  s.access m fun d => d.gated m .holdRelease 0 0 v fun d => d.effHoldRelease v

/-- HOLD_SEL written (R94): bits 11:10 of ID are 0 for a master. -/
def Dev.effHoldSel (d : Dev) (v : Word) : Dev :=
  let d := d.putFields .holdSel 0 0 v
  if d.fb F.holdSel_kind then d else d.fs F.holdSel_id (d.fg F.holdSel_id % 0x400)

/-- The order of a scan: masters before units, each in ascending ID (R94). -/
def Hold.rank (h : Hold) : Nat := bit h.isUnit * 0x1000 + h.id

/-- The next held entity after a rank, or from the start (R94). -/
def Dev.scanNext (d : Dev) (start : Bool) (rank : Nat) : Option Hold :=
  let cand := d.fab.holds.filter fun h => start || decide (rank < h.rank)
  match cand with
  | [] => none
  | h :: hs => some (hs.foldl (fun a b => if b.rank < a.rank then b else a) h)

/-- A 32-bit read of HOLD_SCAN (R94): the entity found is loaded into HOLD_SEL; after the last, the scan wraps. -/
def Dev.readHoldScan (d : Dev) : Dev :=
  match d.scanNext (d.fb F.holdSel_start) (bit (d.fb F.holdSel_kind) * 0x1000 + d.fg F.holdSel_id) with
  | some h =>
    let d := (((d.fs F.holdSel_kind (bit h.isUnit)).fs F.holdSel_id h.id).fs F.holdSel_start 0)
    let d := (((d.fs F.holdScan_valid 1).fs F.holdScan_kind (bit h.isUnit)).fs F.holdScan_id h.id)
    { d with fab := { d.fab with rdata := d.rd .holdScan } }
  | none =>
    let d := (((d.fs F.holdSel_kind 0).fs F.holdSel_id 0).fs F.holdSel_start 1)
    let d := (((d.fs F.holdScan_valid 0).fs F.holdScan_kind 0).fs F.holdScan_id 0)
    { d with fab := { d.fab with rdata := d.rd .holdScan } }

def execHoldScanRead (m : Nat) (s : State) : Host.Outcome State Fault Refusal := s.access m Dev.readHoldScan

/-! ### Locks and privilege (R84, R85, R94) -/

/-- LOCKED shows whether the window of INDEX is locked (R94). -/
def Dev.syncLocked (d : Dev) : Dev := d.fs F.lockCtl_locked (bit (d.fab.locked.contains (d.fg F.lockCtl_index)))

/-- LOCK_CTL written (R84, R85): GO locks the window of INDEX and of its descendants; GLOBAL, once, the global registers. -/
def Dev.effLockCtl (d : Dev) (v : Word) : Dev :=
  let d := d.putFields .lockCtl 0 0 v
  let d := if getF v 30 30 = 1 then { d with fab := { d.fab with lockGlobal := true } } else d
  let u := getF v 11 0
  let d := if getF v 31 31 = 1 ∧ (kindOf u).isSome then
      { d with fab := { d.fab with locked := d.fab.locked ++ (subtree u).filter fun x => !d.fab.locked.contains x } }
    else d
  d.syncLocked

def execLockCtlGo (m : Nat) (index : Nat) (s : State) : Host.Outcome State Fault Refusal :=
  let v : Word := BitVec.ofNat 32 (2 ^ 31 + index % 0x1000)
  s.access m fun d => d.gated m .lockCtl 0 0 v fun d => d.effLockCtl v

def execLockCtlGlobal (m : Nat) (v : Word) (s : State) : Host.Outcome State Fault Refusal :=
  let w : Word := v ||| BitVec.ofNat 32 (2 ^ 30)
  s.access m fun d => d.gated m .lockCtl 0 0 w fun d => d.effLockCtl w

/-- PRIV_VF_LO or PRIV_VF_HI written (R94): a privileged master that is not an Ozder master is dropped with E_SEC_ONLY. -/
def Dev.effPrivVf (d : Dev) (m : Nat) (hi : Bool) (v : Word) : Dev :=
  if isOz m then d.putFields (if hi then .privVfHi else .privVfLo) 0 0 v
  else d.raise { code := 0x0206, sev := 1, master := m }

def execPrivVfWrite (m : Nat) (hi : Bool) (v : Word) (s : State) : Host.Outcome State Fault Refusal :=
  s.access m fun d => d.gated m (if hi then .privVfHi else .privVfLo) 0 0 v fun d => d.effPrivVf m hi v

/-! ### Logs and latches (R79, R94) -/

def execAccLogRead (m : Nat) (s : State) : Host.Outcome State Fault Refusal :=
  s.access m fun d => d.readClear m .accLog 0 0 [F.accLog_count]

def execParLogRead (m : Nat) (s : State) : Host.Outcome State Fault Refusal :=
  s.access m fun d => d.readClear m .parLog 0 0 [F.parLog_count]

/-- The high word of a 64-bit counter, by its low word (R79). -/
def highOf : Reg → Option Reg
  | .dfPktsLo => some .dfPktsHi
  | .mpBytesLo => some .mpBytesHi
  | .cvuLastLo => some .cvuLastHi
  | .hsBytesLo => some .hsBytesHi
  | .lyBufLo => some .lyBufHi
  | .twMpktsLo => some .twMpktsHi
  | _ => none

/-- A 32-bit read of the low word of a 64-bit counter latches the high word for that master (R79). -/
def Dev.readLow64 (d : Dev) (m addr : Nat) : Dev :=
  match regAt addr with
  | none => { d with fab := { d.fab with rdata := 0 } }
  | some (r, u, k) =>
    match highOf r with
    | none => { d with fab := { d.fab with rdata := d.view m r u k } }
    | some h =>
      let key := h.key u k
      { d with fab := { d.fab with
          rdata := d.rd r u k
          latches := ⟨m, key, d.rd h u k⟩ :: d.fab.latches.filter fun l => decide (l.key ≠ key) } }

def execCounter64LowRead (m addr : Nat) (s : State) : Host.Outcome State Fault Refusal :=
  s.access m fun d => d.readLow64 m addr

/-- What the next read of a 64-bit counter's high word returns to master m (R79). -/
def Dev.readHigh64 (d : Dev) (m : Nat) (h : Reg) (u k : Nat) : Word :=
  match d.fab.latches.find? fun l => decide (l.key = h.key u k) && decide (l.master = m) with
  | some l => l.word
  | none => d.rd h u k

/-! ### Parity (R86) -/

/-- PAR_CTL written (R94): a SCRUB_PERIOD of 0 drops the write whole with E_REG_VALUE. -/
def Dev.effParCtl (d : Dev) (m : Nat) (v : Word) : Dev :=
  if getF v 7 0 = 0 then d.raise { code := 0x0207, sev := 1, master := m } else d.putFields .parCtl 0 0 v

/-- PAR_LOG records a parity error (R94). -/
def Dev.parLog (d : Dev) (u off : Nat) : Dev :=
  ((d.fadd F.parLog_count 1).fs F.parLog_index u).fs F.parLog_offset (off % 0x1000)

/-- A CFG register found with bad parity, its stored word now w: told once until a write or reload mends it (R86). -/
def Dev.badParity (d : Dev) (off : Nat) (w : Word) : Dev :=
  match regAt off with
  | none => d
  | some (r, u, k) =>
    let key := r.key u k
    let powered := decide (r.row.win = .glob) || isAon u || decide (d.ust u ≠ stOff)
    if !r.isCfg || !powered || d.fab.badFound.contains key then d
    else
      let d := d.wr r u k w
      let d := { d with fab := { d.fab with badFound := key :: d.fab.badFound } }
      if r.row.win = .glob then (d.parLog 0 off).raise { code := 0x0221, sev := 3, d0 := off }
      else
        let d := { d with fab := { d.fab with marks := if d.fab.marks.contains u then d.fab.marks else u :: d.fab.marks } }
        (d.parLog u off).raise { code := 0x0220, sev := d.sevC0 u, unit := u, d0 := off % 0x1000 }

/-- A context-store slot found with bad parity (R86): the group that holds it tells it. -/
def Dev.badSlot (d : Dev) (u : Nat) : Dev :=
  if (d.slot u).bad then d
  else
    let d := { d with bank := { d.bank with ctx := tset d.bank.ctx u { d.slot u with bad := true } } }
    d.raise { code := 0x0220, sev := d.sevC0 u, unit := parentOf u, d0 := u }

/-- A pass of the scrubber over every CFG register of powered units, the global ones and the context stores; the operands
are the registers (BAR0 offset and stored word) and slots whose parity has gone bad (R86). -/
def Dev.scrub (d : Dev) (bad : List (Nat × Word)) (slots : List Nat) : Dev :=
  if d.fb F.parCtl_scrubEn then slots.foldl Dev.badSlot (bad.foldl (fun e p => e.badParity p.1 p.2) d) else d

def execScrubVisit (bad : List (Nat × Word)) (slots : List Nat) (s : State) : Host.Outcome State Fault Refusal :=
  s.onDev fun d => d.scrub bad slots

/-- Firmware's rewrite of a global register from its shadow copy (R86). -/
def Dev.rewriteGlobal (d : Dev) (off : Nat) : Dev :=
  match regAt off with
  | none => d
  | some (r, u, k) =>
    let key := r.key u k
    if r.row.win = .glob ∧ d.fab.badFound.contains key then
      let d := d.wr r u k ((tget d.fab.shadow key).getD (r.reset u))
      { d with fab := { d.fab with badFound := d.fab.badFound.filter (· ≠ key) } }
    else d

/-- Firmware's reaction to a unit's parity mark by its state (R86). -/
def Dev.parityReaction (d : Dev) (u : Nat) : Dev :=
  if d.fab.marks.contains u then
    if d.own u = stActive then d.cmd1 2 u else if d.own u = stReady then d.cmd1 5 u else d
  else d

end Sys2Proof.Machine
end

