-- ==== Sys2Proof/Machine/QueueCmds.lean ====
section
/-! DEFINITION. Chapter 04, the commands of the queue fabric: doorbells (R105 to R108), queue commands (R122, R123), resets (R119),
ends of operations (R114), waits and vectors (R110, R121). -/
namespace Sys2Proof.Machine

/-! ### Doorbells (R105 to R108, R120) -/

/-- A slot access of the wrong size or kind (R105). -/
def Dev.dbSize (d : Dev) (m qid : Nat) : Dev := d.raise { code := 0x0303, sev := 1, unit := uQf, master := m, d0 := qid }

/-- Whether m owns queue qid; every Ozder master counts as owner of firmware's queues (R107, R126). -/
def Dev.ownsQ (d : Dev) (m qid : Nat) : Bool :=
  decide ((d.q qid).owner = m) || (isOz m && isOz (d.q qid).owner)

/-- A submission by m (R107, R88): refused while held, a QUEUE_OWNER violation by a non-owner, else f. -/
def Dev.submit (d : Dev) (m qid : Nat) (f : Dev → Dev) : Dev :=
  d.unlessHeld m fun d => if d.ownsQ m qid then f d else d.violate m 4 qid

/-- A write to a slot: one of a wrong size or place is no submission and no violation (R105, R107), though a held master's is
refused before (R89). -/
def Dev.slotWrite (d : Dev) (m qid : Nat) (fits : Bool) (f : Dev → Dev) : Dev :=
  if fits then d.submit m qid f else d.unlessHeld m fun d => d.dbSize m qid

/-- A push or TAIL write dropped because the ring is full or resetting (R106, R120). -/
def Dev.qOverflow (d : Dev) (m qid : Nat) : Dev := d.raise { code := 0x0301, sev := 1, unit := uQf, master := m, d0 := qid }

/-- The fabric's fields of an entry as the doorbell brings it in (R101): SUBMIT entries carry the master. -/
def Entry.from (e : Entry) (m : Nat) : Entry := { e with master := m, tag := 0, unit := 0, notag := false }

/-- An accepted TAIL write (R108): the ring's new entries wait for dispatch. -/
def Dev.takeTail (d : Dev) (m qid v : Nat) (ring : List Byte) : Dev :=
  let q := d.q qid
  let n := (v + 2 * q.depth - q.tail) % (2 * q.depth)
  let src := if q.ringHost then ring else
    ((List.range n).map fun i => d.hbmR (q.ringBase + 64 * ((q.tail + i) % q.depth)) 64).flatten
  let es := (List.range n).map fun i => (Entry.dec (sliceB src (64 * i) 64)).from m
  d.setQ qid { q with tail := v, ents := q.ents ++ es, nsub := q.nsub + n }

/-- R108's cases: 2 × depth or more, too many entries, or backwards. -/
def Queue.tailBad (q : Queue) (v : Nat) : Bool :=
  decide (2 * q.depth ≤ v) || decide (q.depth < q.ents.length + (v + 2 * q.depth - q.tail) % (2 * q.depth))

/-- A 32-bit write of DB_TAIL; `off` and `size` are those of the slot access, `ring` what the owner's host ring holds from
the old TAIL on (R105, R107, R108, R120). A DISABLED queue's owner submits nothing (log entry 10). -/
def Dev.dbTail (d : Dev) (m qid off size v : Nat) (ring : List Byte) : Dev :=
  d.slotWrite m qid (decide (off = 0) && decide (size = 4)) fun d =>
    let q := d.q qid
    if q.rstate = 3 then d.qOverflow m qid
    else if q.rstate = 0 then d
    else if q.tailBad v then d.raise { code := 0x0302, sev := 1, unit := uQf, master := m, d0 := qid, d1 := v }
    else d.takeTail m qid v ring

def execDbTailWrite (m qid off size v : Nat) (ring : List Byte) (s : State) : Host.Outcome State Fault Refusal :=
  s.access m fun d => d.dbTail m qid off size v ring

/-- A push: an aligned 64-byte write to the slot (R106). -/
def Dev.push (d : Dev) (m qid off : Nat) (bytes : List Byte) : Dev :=
  d.slotWrite m qid (decide (off = 0) && decide (bytes.length = 64)) fun d =>
    let q := d.q qid
    if q.ringHost then d.dbSize m qid
    else if q.rstate = 3 then d.qOverflow m qid
    else if q.rstate = 0 then d
    else if q.room = 0 then d.qOverflow m qid
    else
      let e := (Entry.dec bytes).from m
      (d.ringW q q.tail e).setQ qid { q with tail := q.step q.tail 1, ents := q.ents ++ [e], nsub := q.nsub + 1 }

def execDbPush (m qid off : Nat) (bytes : List Byte) (s : State) : Host.Outcome State Fault Refusal :=
  s.access m fun d => d.push m qid off bytes

/-- START and STOP of a queue (R117). -/
def Dev.startQ (d : Dev) (qid : Nat) : Dev :=
  if (d.q qid).rstate = 2 then d.modQ qid fun q => { q with rstate := 1 } else d
def Dev.stopQ (d : Dev) (qid : Nat) : Dev :=
  if (d.q qid).rstate = 1 then d.modQ qid fun q => { q with rstate := 2 } else d

/-- RESET of a queue (R119, R120): refused on NOABORT, ignored while resetting. -/
def Dev.resetQ (d : Dev) (m qid : Nat) : Dev :=
  let q := d.q qid
  if q.noabort then d.raise { code := 0x0306, sev := 1, unit := uQf, master := m, d0 := qid }
  else if q.rstate = 1 ∨ q.rstate = 2 then d.beginReset qid
  else d

def execDbStart (m qid : Nat) (s : State) : Host.Outcome State Fault Refusal :=
  s.access m fun d => d.submit m qid fun d => d.startQ qid
def execDbStop (m qid : Nat) (s : State) : Host.Outcome State Fault Refusal :=
  s.access m fun d => d.submit m qid fun d => d.stopQ qid
def execDbReset (m qid : Nat) (s : State) : Host.Outcome State Fault Refusal :=
  s.access m fun d => d.submit m qid fun d => d.resetQ m qid

/-! ### Ends of operations (R112, R114) and waits -/

/-- An operation ends with a status and body (R114). -/
def execOperationEnd (tag status : Nat) (body : List Byte) (s : State) : Host.Outcome State Fault Refusal :=
  s.onDev fun d => d.endOp tag status body

/-- Room appears in a reply queue as its consumer frees n entries: waiting posts go out and dispatch resumes (R114). -/
def Dev.consume (d : Dev) (qid n : Nat) : Dev :=
  let q := d.q qid
  let n := min n q.ents.length
  let d := if q.rstate = 0 then d else d.setQ qid { q with head := q.step q.head n, ents := q.ents.drop n }
  d.drainWaits qid (n + 1)

def execReplyPostResume (qid n : Nat) (s : State) : Host.Outcome State Fault Refusal := s.onDev fun d => d.consume qid n

/-- A non-C0 queue that has waited 1 ms for a tag (R110). -/
def execTagWaitTimeout (qid : Nat) (s : State) : Host.Outcome State Fault Refusal := s.onDev fun d =>
  if d.qf.tagWait.contains qid ∧ (d.q qid).cls ≠ 0 then d.raise { code := 0x0308, sev := 2, unit := uQf, d0 := qid } else d

/-- The end of a reset (R119): operations that had finished before the reset point close normally (`done`: tag, status,
body), the others are cancelled and their tags freed; RESET_DONE goes to ERR_QID with the count of discarded entries and
cancelled operations; the queue is STOPPED and empty, and what was offered to it meanwhile is posted. -/
def Dev.resetDone (d : Dev) (qid : Nat) (done : List (Nat × Nat × List Byte)) : Dev :=
  if (d.q qid).rstate ≠ 3 then d
  else
    let d := done.foldl (fun e p => if (e.opsOf qid).any fun o => decide (o.tag = p.1) then e.endOp p.1 p.2.1 p.2.2 else e) d
    let left := d.opsOf qid
    let d := left.foldl Dev.closeTag d
    let q := d.q qid
    let e : Entry := { Entry.zero with typ := 5, unit := uQf, body := leBytes 4 (q.resetCount + left.length) }
    let d := (d.flushFifo qid).setQ qid { q with rstate := 2, head := 0, tail := 0, inflight := 0, ents := [], resetCount := 0 }
    ((d.post q.errQid qid e).raise { code := 0x0305, sev := 1, unit := uQf, d0 := qid }).drainWaits qid (q.depth + 1)

/-- A vector's HOLDOFF window ends (R121): one message, or the pending bit, for the posts that fell inside it. -/
def execHoldoffExpiry (fn vec : Nat) (s : State) : Host.Outcome State Fault Refusal := s.onDev fun d =>
  let k := fn * 0x1000 + vec
  match tget d.qf.vecs k with
  | none => d
  | some v =>
    if v.fell then
      if v.masked then { d with qf := { d.qf with vecs := tset d.qf.vecs k { v with window := false, fell := false, pend := true } } }
      else { d with qf := { d.qf with vecs := tset d.qf.vecs k { v with window := true, fell := false }, msgs := k :: d.qf.msgs } }
    else { d with qf := { d.qf with vecs := tset d.qf.vecs k { v with window := false } } }

/-! ### Queue commands (R98, R100, R122, R123) -/

/-- RESULT of the last queue command. -/
def Dev.qfResult (d : Dev) (n : Nat) : Dev := d.fs F.qfCmd_result n uQf

/-- C0 records pinned in the cache's C0 partition (R100). -/
def Dev.pinnedC0 (d : Dev) : Nat := (d.qf.qs.filter fun p => decide (p.2.cls = 0) && decide (p.2.rstate ≠ 0)).length

/-- The alignment a ring needs: its size in HBM, 4 KiB in host memory (R97). -/
def Queue.ringAligned (q : Queue) : Bool := decide (q.ringBase % (if q.ringHost then 4096 else 64 * q.depth) = 0)

/-- A queue that exists: its RSTATE is not DISABLED, or it is one of the device error queues (R556). -/
def Dev.alive (d : Dev) (qid : Nat) : Bool := decide ((d.q qid).rstate ≠ 0) || (decide (0xF0 ≤ qid) && decide (qid ≤ 0xF3))

/-- CREATE's field checks (R98, R121). -/
def Dev.createBad (d : Dev) (q : Queue) : Bool :=
  decide (q.depthLog2 = 1) || decide (q.mode = 3) || decide (17 < q.inflLog2) || !q.ringAligned ||
  (q.ringHost && decide (0x3F < q.owner)) || !d.alive q.errQid || (decide (q.cls = 0) && q.ringHost) ||
  (decide (q.cls = 0) && decide (d.workCls q.unit ≠ 0)) || (q.intEn && isFn q.owner && decide (vectorsOf q.owner ≤ q.vector)) ||
  (q.intEn && isOz q.owner && decide (255 < q.vector))

/-- A queue's state written and the cache figures kept (R100, R123). -/
def Dev.installQ (d : Dev) (qid : Nat) (q : Queue) : Dev :=
  let d := d.setQ qid { q with rstate := 2, head := 0, tail := 0, inflight := 0, pinned := q.pinned || decide (q.cls = 0) }
  (d.fs F.qfCache_c0Pinned d.pinnedC0 uQf).touchCache qid

/-- A queue destroyed: DISABLED and unpinned (R123); what waited for room in it is discarded (R585). -/
def Dev.destroyQ (d : Dev) (qid : Nat) : Dev :=
  let d := d.modQ qid fun q => { q with rstate := 0, pinned := false, ents := [] }
  let ws := d.qf.waits.filter fun w => decide (w.qid = qid)
  let d := { d with qf := { d.qf with waits := d.qf.waits.filter (fun w => decide (w.qid ≠ qid)),
                                      fullTold := d.qf.fullTold.filter (· ≠ qid) } }
  let d := ws.foldl (fun e w => e.postGone qid w.entry) d
  let d := { d with qf := { d.qf with cached := d.qf.cached.filter (· ≠ qid) } }
  (d.fs F.qfCache_c0Pinned d.pinnedC0 uQf).fs F.qfCache_used (min d.qf.cached.length 14336) uQf

/-- Dword n of QF_DATA. -/
def Dev.qfDword (d : Dev) (n : Nat) : Nat := (d.rd .qfData uQf n).toNat

/-- A queue command run on qid (R123): 0 READ, 1 CREATE, 2 DESTROY, 3 RETARGET, 4 START, 5 STOP, 6 RESET, 7 unused. -/
def Dev.qfRun (d : Dev) (m op qid : Nat) : Dev :=
  let q := d.q qid
  match op with
  | 0 => ((List.range 8).foldl (fun e n => e.wr .qfData uQf n (BitVec.ofNat 32 (q.dword n))) d).qfResult 1
  | 1 =>
    if q.rstate ≠ 0 then d.qfResult 2
    else
      let n := Queue.ofDwords d.qfDword
      if d.createBad n then d.qfResult 3
      else if n.cls = 0 ∧ 2048 ≤ d.pinnedC0 then d.qfResult 4
      else (d.installQ qid n).qfResult 1
  | 2 => if q.rstate = 2 ∧ q.inflight = 0 then (d.destroyQ qid).qfResult 1 else d.qfResult 2
  | 3 =>
    if q.rstate = 2 ∧ q.inflight = 0 then
      (d.setQ qid { q with unit := d.qfDword 1 % 0x1000, epoch := d.qfDword 1 / 0x10000 }).qfResult 1
    else d.qfResult 2
  | 4 => if q.rstate = 1 ∨ q.rstate = 2 then (d.startQ qid).qfResult 1 else d.qfResult 2
  | 5 => if q.rstate = 1 ∨ q.rstate = 2 then (d.stopQ qid).qfResult 1 else d.qfResult 2
  | 6 =>
    if q.rstate = 1 ∨ q.rstate = 2 then
      if q.noabort then (d.resetQ m qid).qfResult 5 else (d.resetQ m qid).qfResult 1
    else d.qfResult 2
  | _ => d.qfResult 3

/-- QF_CMD written (R122): a privileged master that is not an Ozder master may use READ, START and STOP only. -/
def Dev.effQfCmd (d : Dev) (m : Nat) (v : Word) : Dev :=
  let op := getF v 26 24
  if !isOz m && !(decide (op = 0) || decide (op = 4) || decide (op = 5)) then
    d.raise { code := 0x0307, sev := 1, unit := uQf, master := m }
  else
    let d := d.putFields .qfCmd uQf 0 v
    if getF v 31 31 = 1 then d.qfRun m op (getF v 19 0) else d

/-- QF_DATA written: by Ozder masters only (R122). -/
def Dev.effQfData (d : Dev) (m n : Nat) (v : Word) : Dev :=
  if isOz m then d.putFields .qfData uQf n v else d.raise { code := 0x0307, sev := 1, unit := uQf, master := m }

/-- QF_WEIGHT written: a 0 in any weight drops it whole (R122). -/
def Dev.effQfWeight (d : Dev) (m : Nat) (v : Word) : Dev :=
  if getF v 23 16 = 0 ∨ getF v 15 8 = 0 ∨ getF v 7 0 = 0 then d.raise { code := 0x030A, sev := 1, unit := uQf, master := m }
  else d.putFields .qfWeight uQf 0 v

/-- The write of QF_CMD with GO, an OP and a QID by master m. -/
def Dev.qfGo (d : Dev) (m op qid : Nat) : Dev :=
  let v : Word := BitVec.ofNat 32 (2 ^ 31 + op * 2 ^ 24 + qid % 2 ^ 20)
  d.gated m .qfCmd uQf 0 v fun d => d.effQfCmd m v

def execQfRead (m qid : Nat) (s : State) : Host.Outcome State Fault Refusal := s.access m fun d => d.qfGo m 0 qid
def execQfCreate (m qid : Nat) (s : State) : Host.Outcome State Fault Refusal := s.access m fun d => d.qfGo m 1 qid
def execQfDestroy (m qid : Nat) (s : State) : Host.Outcome State Fault Refusal := s.access m fun d => d.qfGo m 2 qid
def execQfRetarget (m qid : Nat) (s : State) : Host.Outcome State Fault Refusal := s.access m fun d => d.qfGo m 3 qid
def execQfStart (m qid : Nat) (s : State) : Host.Outcome State Fault Refusal := s.access m fun d => d.qfGo m 4 qid
def execQfStop (m qid : Nat) (s : State) : Host.Outcome State Fault Refusal := s.access m fun d => d.qfGo m 5 qid
def execQfReset (m qid : Nat) (s : State) : Host.Outcome State Fault Refusal := s.access m fun d => d.qfGo m 6 qid
def execQfOpUnused (m qid : Nat) (s : State) : Host.Outcome State Fault Refusal := s.access m fun d => d.qfGo m 7 qid

def execQfRoleRead (m : Nat) (s : State) : Host.Outcome State Fault Refusal :=
  s.access m fun d => d.readClear m .qfRole uQf 0 [F.qfRole_returns]

end Sys2Proof.Machine
end

