-- ==== Sys2Proof/Machine/Ozder.lean ====
section
/-! DEFINITION. Chapter 05, Ozder: core pairs (R128, R130), the log (R151 to R154), mailboxes (R131 to R138), and the gate that every
mailbox request passes (R138 to R149, R155). -/
namespace Sys2Proof.Machine

/-! ### Core pairs (R128, R130) -/

/-- PAIR_A or PAIR_B. -/
def pairFld (b : Bool) : Fld := if b then F.ozStatus_pairB else F.ozStatus_pairA
def OzSt.pair (o : OzSt) (b : Bool) : Pair := if b then o.pairB else o.pairA
def OzSt.setPair (o : OzSt) (b : Bool) (p : Pair) : OzSt := if b then { o with pairB := p } else { o with pairA := p }

/-- 24 h in ns. -/
def ns24h : Nat := 86400000000000

/-- A fault of a core pair (R128): it halts with E_OZ_PAIR_LOST; a second within 24 h leaves it halted; while the other is
halted E_OZ_FAIL ends Ozder service. -/
def Dev.pairFault (d : Dev) (b : Bool) : Dev :=
  if d.fg (pairFld b) uOzder = 1 then d
  else
  let p := d.oz.pair b
  let again := decide (0 < p.faults) && decide (d.up < p.faultAt + ns24h)
  let p := { p with faults := p.faults + 1, faultAt := d.up, stuck := p.stuck || again }
  let d := { d with oz := d.oz.setPair b p }.fs (pairFld b) 1 uOzder
  let d := d.raise { code := 0x0410, sev := 3, unit := uOzder, d0 := bit b }
  if d.fg (pairFld (!b)) uOzder = 1 then
    { d with oz := { d.oz with failed := true } }.raise { code := 0x0411, sev := 4, unit := uOzder }
  else d

def execOzLockstepMismatch (pairB : Bool) (s : State) : Host.Outcome State Fault Refusal := s.onDev fun d => d.pairFault pairB
def execOzWatchdogExpiry (pairB : Bool) (s : State) : Host.Outcome State Fault Refusal := s.onDev fun d => d.pairFault pairB

/-- A halted pair whose check passes reads 0b10 rejoining, and at the end of its resynchronisation 0b00 (R128). -/
def Dev.pairRejoin (d : Dev) (b : Bool) : Dev :=
  if (d.oz.pair b).stuck || d.oz.failed then d
  else if d.fg (pairFld b) uOzder = 1 then d.fs (pairFld b) 2 uOzder
  else if d.fg (pairFld b) uOzder = 2 then d.fs (pairFld b) 0 uOzder
  else d

def execOzPairRejoin (pairB : Bool) (s : State) : Host.Outcome State Fault Refusal := s.onDev fun d => d.pairRejoin pairB

/-- An SRAM error (R130): corrected and counted, or uncorrectable, which is a fault of the pair that read it. -/
def Dev.sramEcc (d : Dev) (pairB double : Bool) : Dev :=
  if double then
    ((d.fadd F.ozEcc_ue 1 uOzder).raise { code := 0x0414, sev := 4, unit := uOzder }).pairFault pairB
  else (d.fadd F.ozEcc_ce 1 uOzder).raise { code := 0x0413, sev := 1, unit := uOzder }

def execOzSramEccError (pairB double : Bool) (s : State) : Host.Outcome State Fault Refusal :=
  s.onDev fun d => d.sramEcc pairB double

def execOzEccRead (m : Nat) (s : State) : Host.Outcome State Fault Refusal :=
  s.access m fun d => d.readClear m .ozEcc uOzder 0 [F.ozEcc_ce]

/-! ### The log and its copies (R151 to R154) -/

/-- Whether a caller sees a record (chapter 05, LOG verbs): its own records and those at S4, or all when privileged. -/
def Dev.sees (d : Dev) (m : Nat) (r : EvRec) : Bool := d.priv m || decide (r.master = m) || decide (r.sev = 4)

/-- A record passes a subscription (R153). -/
def subPasses (r : EvRec) (p : Nat × Nat) : Bool := decide (p.1 ≤ r.sev) && (p.2).testBit (r.code / 256)

/-- Records that a boot mailbox event queue without subscription receives, jobs aside (R154; Dev.finalRecord has those). -/
def bootCopies (f : Nat) (r : EvRec) : Bool :=
  decide (r.sev = 4) || ((decide (r.code = 0x0210) || decide (r.code = 0x0211)) && decide (r.master = f)) ||
  (decide (f = 0) && (decide (r.sev = 3) || decide (r.code = 0x0210) || decide (r.code = 0x0211) || decide (r.code = 0x0212)))

/-- Whether mailbox b receives a copy of a record. -/
def Dev.copiesTo (d : Dev) (r : EvRec) (b : Mbox) : Bool :=
  (b.boot && decide (r.sev = 4)) || if b.subs = [] then b.boot && bootCopies b.owner r
  else b.subs.any (subPasses r) && d.sees b.owner r

/-- A record in its place in RECSEQ order. -/
def insRec : List EvRec → EvRec → List EvRec
  | [], r => [r]
  | x :: xs, r => if r.recseq < x.recseq then r :: x :: xs else x :: insRec xs r

/-- A record logged: it joins the ring of the last 65,536 records, is counted by its code (R152) and copied (R153, R154). -/
def Dev.logRec (d : Dev) (r : EvRec) : Dev :=
  let l := insRec d.oz.log r
  let o := { d.oz with log := l.drop (l.length - 65536), stats := tset d.oz.stats r.code ((tget d.oz.stats r.code).getD 0 + 1) }
  let d := { d with oz := o }
  (d.oz.mboxes.filter (d.copiesTo r)).foldl (fun e b => e.postEvent b.event r) d

/-- A record that firmware makes and logs itself, with its RECSEQ (R142). -/
def Dev.logNew (d : Dev) (e : Ev) : Dev × EvRec :=
  let r := d.mkRec e e.sev false false
  (({ d with oz := { d.oz with recseq := r.recseq } }).logRec r, r)

/-! ### Mailboxes (R131 to R138) -/

/-- The mailbox whose request queue is qid. -/
def Dev.mbox (d : Dev) (qid : Nat) : Option Mbox := d.oz.mboxes.find? fun b => decide (b.req = qid)

/-- The boot mailbox of function f, where it exists. -/
def Dev.bootMbox (d : Dev) (f : Nat) : Option Mbox := d.oz.mboxes.find? fun b => b.boot && decide (b.owner = f)

/-- Ozder's services run: service-ready reached (R163), not both pairs halted (R128). -/
def Dev.serving (d : Dev) : Bool := d.fb F.ozStatus_svcReady uOzder && !d.oz.failed

/-- A mailbox queue (R131): NOABORT, INFL_LOG2 4. -/
def mailQueue (owner cls mode depthLog2 : Nat) (ringHost : Bool) (epoch errQid vector ringBase : Nat) (intEn : Bool) : Queue :=
  { Queue.disabled with
    owner := owner, cls := cls, mode := mode, rstate := 1, depthLog2 := depthLog2, ringHost := ringHost, noabort := true,
    intEn := intEn, inflLog2 := 4, epoch := epoch, unit := uOzder, vector := vector, errQid := errQid, ringBase := ringBase }

/-- The page address in MB_BOOT_LO and MB_BOOT_HI of function f. -/
def Dev.bootPage (d : Dev) (f : Nat) : Nat := d.get64 .mbBootLo .mbBootHi uOzder f

/-- A page that is not aligned, or a vector beyond the function's table (R134). -/
def Dev.bootBad (d : Dev) (f : Nat) : Bool :=
  decide (d.bootPage f % 4096 ≠ 0) || decide (vectorsOf f ≤ d.fg F.mbBootCtl_vecReply uOzder f) ||
  decide (vectorsOf f ≤ d.fg F.mbBootCtl_vecEvent uOzder f)

/-- A mailbox's queue created (R131, R100). -/
def Dev.makeQ (d : Dev) (qid : Nat) (q : Queue) : Dev := (d.setQ qid q).touchCache qid

/-- The mailbox epoch of f's next boot mailbox: one more than the last, which MB_BOOT_EPOCH still shows, so that a request built for a
closed one returns with E_ROLE (R134, R156). -/
def Dev.nextBootEpoch (d : Dev) (f : Nat) : Nat := (d.fg F.mbBootEpoch_epoch uOzder f + 1) % 0x10000

/-- The boot mailbox of f created at its page with a mailbox epoch (R133): READY, MB_BOOT_QID and MB_BOOT_EPOCH load. -/
def Dev.openBoot (d : Dev) (f epoch : Nat) : Dev :=
  let q := 0x100 + 4 * f
  let page := d.bootPage f
  let d := d.makeQ q (mailQueue f 1 1 5 false epoch (q + 2) 0 (Config.ringPlace q) false)
  let d := d.makeQ (q + 1) (mailQueue f 1 1 5 true epoch (q + 2) (d.fg F.mbBootCtl_vecReply uOzder f) page true)
  let d := d.makeQ (q + 2) (mailQueue f 1 1 5 true epoch (q + 2) (d.fg F.mbBootCtl_vecEvent uOzder f) (page + 2048) true)
  let b : Mbox := ⟨q, q + 1, q + 2, f, true, epoch, false, []⟩
  let d := { d with oz := { d.oz with mboxes := d.oz.mboxes ++ [b], bootWait := d.oz.bootWait.filter (· ≠ f) } }
  (((d.fs F.mbBootCtl_ready 1 uOzder f).fs F.mbBootCtl_error 0 uOzder f).fs F.mbBootQid_qid q uOzder f).fs
    F.mbBootEpoch_epoch epoch uOzder f

/-- A mailbox's three queues destroyed. -/
def Dev.dropMbox (d : Dev) (b : Mbox) : Dev :=
  let d := ((d.destroyQ b.req).destroyQ b.reply).destroyQ b.event
  { d with oz := { d.oz with mboxes := d.oz.mboxes.filter fun x => decide (x.req ≠ b.req) } }

/-- No request of a mailbox executes, and none waits that the fabric could still bring. -/
def Dev.allAnswered (d : Dev) (b : Mbox) : Bool :=
  decide (d.opsOf b.req = []) && (decide ((d.q b.req).ents = []) || decide ((d.q b.req).rstate ≠ 1))

/-- A closing mailbox ends (R134, R138): requests left in a stopped queue complete with E_MB_CLOSED before its queues go. -/
def Dev.endMbox (d : Dev) (b : Mbox) : Dev := (d.closeWaiting b.req 0x040C).dropMbox b

/-- READY and QID of function f's boot registers fall. -/
def Dev.bootDown (d : Dev) (f : Nat) : Dev := (d.fs F.mbBootCtl_ready 0 uOzder f).fs F.mbBootQid_qid 0 uOzder f

/-- Requests waiting on a closing mailbox: those not begun at the close complete with E_MB_CLOSED (R134, R138). -/
def Dev.closeMbox (d : Dev) (b : Mbox) : Dev :=
  { d with oz := { d.oz with mboxes := d.oz.mboxes.map fun x => if x.req = b.req then { x with closing := true } else x } }

/-- MB_BOOT_CTL written by m (R133, R134, R136): only functions open boot mailboxes; any other master is dropped with
E_MB_RANGE. GO opens at once where services run, else at service-ready; GO while READY reopens. -/
def Dev.effMbBootCtl (d : Dev) (m : Nat) (v : Word) : Dev :=
  if !isFn m then d.raise { code := 0x040D, sev := 1, unit := uOzder, master := m }
  else
    let d := d.putFields .mbBootCtl uOzder m v
    if getF v 31 31 = 1 then
      let d := d.fs F.mbBootCtl_error (bit (d.bootBad m)) uOzder m
      match d.bootMbox m with
      | some b => (d.closeMbox b).bootDown m
      | none =>
        if d.bootBad m then d
        else if d.serving then d.openBoot m (d.nextBootEpoch m)
        else { d with oz := { d.oz with bootWait := m :: d.oz.bootWait.filter (· ≠ m) } }
    else d

/-- MB_BOOT_LO or MB_BOOT_HI written by m (R136); bits 11:0 of the page address are checked at GO (R134). -/
def Dev.effMbBootAddr (d : Dev) (m : Nat) (r : Reg) (v : Word) : Dev :=
  if isFn m then d.putFields r uOzder m v else d.raise { code := 0x040D, sev := 1, unit := uOzder, master := m }

def execMbBootGo (m : Nat) (v : Word) (s : State) : Host.Outcome State Fault Refusal :=
  let w : Word := v ||| BitVec.ofNat 32 (2 ^ 31)
  s.access m fun d => d.gated m .mbBootCtl uOzder 0 w fun d => d.effMbBootCtl m w

/-- A reopen ends (R134): no verb of the old mailbox executes and none waits for its E_MB_CLOSED; the queues are destroyed, and recreated with the next epoch
unless the page or a vector was refused. -/
def Dev.bootReopened (d : Dev) (f : Nat) : Dev :=
  match d.bootMbox f with
  | none => d
  | some b =>
    if b.closing ∧ d.allAnswered b ∧ d.serving then
      let d := (d.endMbox b).bootDown f
      if d.bootBad f then d.fs F.mbBootCtl_error 1 uOzder f else d.openBoot f (d.nextBootEpoch f)
    else d

def execMbBootReopenDone (f : Nat) (s : State) : Host.Outcome State Fault Refusal := s.onDev fun d => d.bootReopened f

/-- Every mailbox of function f closed (R135): the boot mailbox included, READY cleared. -/
def Dev.closeAll (d : Dev) (f : Nat) : Dev :=
  let d := (d.oz.mboxes.filter fun b => decide (b.owner = f)).foldl Dev.dropMbox d
  { d with oz := { d.oz with
      bootWait := d.oz.bootWait.filter (· ≠ f)
      jobs := d.oz.jobs.map fun (j : Job) => if j.owner = f then { j with mbox := 0 } else j } }.bootDown f

/-! ### The request gate (R139 to R149, R155) -/

/-- What a verb answers: the first error with the offset of its argument (R141), an error that changes something all the same, success with RES0-3, reply bytes and
DETAIL, or a job accepted, with an outcome already decided and the value of DETAIL1 31:16 (R148). -/
inductive VRes (α : Type) where
  | err (status : Nat) (off : Nat := 0xFFFF) (detail : Nat := 0)
  | turned (st : α) (status : Nat)
  | ok (st : α) (res : List Nat := []) (bytes : List Byte := []) (detail : Nat := 0)
  | job (st : α) (decided : Option Nat := none) (aux : Nat := 0)

/-- The argument block's bytes: from HBM for a range in SPACE 0, else those the message brings. -/
def Dev.argB (d : Dev) (r : Req) : List Byte :=
  if rgSpace r.range0 = 0 ∧ rgLen r.range0 ≠ 0 then d.hbmR (rgAddr r.range0) r.argLen else fitB r.arg r.argLen

/-- Word n (32 bits) of the argument block. -/
def Dev.argW (d : Dev) (r : Req) (n : Nat) : Nat := rdLe (d.argB r) (4 * n) 4

/-- Step 6 of R146 on one range. -/
def Dev.rangeBad (d : Dev) (m rg used : Nat) (wr : Bool) : Bool :=
  let sp := rgSpace rg
  decide (rgBytes rg < used) ||
  (decide (rgLen rg ≠ 0) &&
    (decide (1 < sp) || (decide (sp = 1) && !isFn m) || (decide (sp = 0) && (!d.priv m || !d.callerMay m (rgAddr rg) (rgBytes rg) wr))))

/-- The COMPLETION of a request (R141), the reply block written before it. -/
def Dev.reply (d : Dev) (r : Req) (svc verb status off job detail : Nat) (res : List Nat) (bytes : List Byte) : Dev :=
  let d := if bytes = [] then d
    else if rgSpace r.range1 = 0 then d.hbmW (rgAddr r.range1) bytes else d.hostW r.master (rgAddr r.range1) bytes
  d.endOp r.tag status (replyBody svc verb off bytes.length job detail res)

/-- The record of a request's error: its area gives the unit and the details (R142, R159, R274, R302, R339, R373, R407, R466,
R481, R502, R536). -/
def Dev.reqEv (d : Dev) (r : Req) (svc status detail : Nat) : Ev :=
  let e : Ev := { code := status, sev := sevOf status, unit := uOzder, master := r.master }
  match status / 256 with
  | 0x08 => { e with unit := uPipe, d0 := if svc = 3 then detail else r.object, d1 := 0xFFFFFFFF, d2 := if svc = 3 then 0 else detail }
  | 0x09 => { e with unit := uPipe, d0 := r.object, d1 := 0xFFFFFFFF, d2 := detail }
  | 0x0A => { e with unit := uPipe, d0 := r.object }
  | 0x0B => { e with unit := uCodec, d0 := r.object }
  | 0x0C => { e with unit := uMedia, d0 := r.object }
  | 0x0F => { e with unit := uScan, d0 := r.object, d1 := d.fg F.scFrame_frame uScan }
  | 0x10 => { e with unit := uAudio, d0 := r.object }
  | 0x11 => { e with unit := uTime, d0 := r.object }
  | 0x12 => if status < 0x1210 then { e with unit := uTwin, d0 := (d.rd .twPeerLo uTwin).toNat } else { e with unit := uChain, d0 := r.object }
  | _ => e

/-- A request closed with an error STATUS; its code is raised as an event too (R159). -/
def Dev.replyErr (d : Dev) (r : Req) (svc verb status off : Nat) (detail : Nat := 0) : Dev :=
  (d.raise (d.reqEv r svc status detail)).reply r svc verb status off 0 detail [] []

/-- Running jobs of a caller (R148). -/
def Dev.running (d : Dev) (m : Nat) : Nat := (d.oz.jobs.filter fun j => decide (j.owner = m) && decide (j.state = 0)).length

/-- A job opened with the next handle: non-zero, wrapping after 2^32 - 1 (R148). -/
def Dev.openJob (d : Dev) (r : Req) (svc verb : Nat) (decided : Option Nat) (aux : Nat) : Dev :=
  let j := d.oz.nextJob
  let next := if j = 0xFFFFFFFF then 1 else j + 1
  { d with oz := { d.oz with
      jobs := d.oz.jobs ++ [(⟨j, r.master, r.qid, r.seq, svc, verb, r, 0, 0, decided, aux⟩ : Job)], nextJob := next } }

/-- Services that stay shut while a thermal shutdown is unacknowledged (R544), but for INFO. -/
def Dev.thermShut (d : Dev) (svc verb : Nat) : Bool :=
  d.fb F.thStat_pendingAck uTherm && decide (2 ≤ svc) && decide (svc ≤ 0xD) && decide (verb ≠ 0)

/-- Verbs of services 0x02-0x0B that only report, and so are no configuration verbs (R507; log entry 14). -/
def readsOnly (svc verb : Nat) : Bool :=
  decide (verb = 0) ||
  (match svc with
    | 0x02 => [1] | 0x03 => [7, 0xB] | 0x04 => [0xA, 0xB] | 0x05 => [8, 9, 0xA] | 0x06 => [0xC, 0xD] | 0x07 => [4, 0xA]
    | 0x08 => [2, 0xD, 0xE, 0xF, 0x16] | 0x09 => [8, 9] | 0x0A => [5, 6] | 0x0B => [1, 9]
    | _ => []).contains verb

/-- Configuration verbs that a shadow refuses (R507). -/
def Dev.shadowShut (d : Dev) (svc verb : Nat) : Bool :=
  decide (d.fg F.twStat_role uTwin = 2) && decide (2 ≤ svc) && decide (svc ≤ 0xB) && !readsOnly svc verb

/-- An ISOLATED device serves nothing until RST_N or TWIN.ATTACH (R520): every service but TWIN is shut. -/
def Dev.isolatedShut (d : Dev) (svc : Nat) : Bool := decide (d.fg F.twStat_role uTwin = 4) && decide (svc ≠ 0xC)

/-- Closed mailboxes whose verbs have all ended lose their queues (R138); a boot mailbox waits for its reopen (R134). -/
def Dev.sweep (d : Dev) : Dev :=
  (d.oz.mboxes.filter fun b => b.closing && !b.boot && d.allAnswered b).foldl Dev.endMbox d

/-- Steps 1 to 6 of R146 for a verb of the table; `none` when all pass, else the device after the refusal. -/
def Dev.preGate (d : Dev) (r : Req) (svc verb : Nat) (known svcKnown deny : Bool) : Option Dev :=
  match d.mbox r.qid with
  | none => some d
  | some b =>
    if !d.serving then some d
    else if r.hdrMaster ≠ r.master then
      some ((d.replyErr r svc verb 0x0406 0xFFFF).violate r.master 6 r.qid)
    else if b.closing then some (d.replyErr r svc verb 0x040C 0xFFFF).sweep
    else if !svcKnown then some (d.replyErr r svc verb 0x0402 0xFFFF)
    else if r.ifver ≠ 1 ∧ ¬(svc = 1 ∧ verb = 0) then some (d.replyErr r svc verb 0x0401 0xFFFF)
    else if !known then some (d.replyErr r svc verb 0x0403 0xFFFF)
    else if deny then some (d.replyErr r svc verb 0x0405 0xFFFF)
    else if d.rangeBad r.master r.range0 r.argLen false || d.rangeBad r.master r.range1 r.replyMax true then
      some (d.replyErr r svc verb 0x040D 0xFFFF)
    else if d.thermShut svc verb || d.shadowShut svc verb || d.isolatedShut svc then some (d.replyErr r svc verb 0x0408 0xFFFF)
    else none

/-- A Bastu-T packet sent, with the pair epoch in PFIELD0 (R505, R513). -/
def Dev.twSend (d : Dev) (pt lo p1 : Nat) (body : List Byte) : Dev :=
  { d with tw := { d.tw with
      sent := (leBytes 1 pt ++ leBytes 4 (d.fg F.twStat_pairEpoch uTwin * 2 ^ 16 + lo % 2 ^ 16) ++ leBytes 4 p1 ++ body) :: d.tw.sent } }

/-- A committed configuration change advances the session generation; a lead sends it to its partner as a STATE delta, whose bytes the
spec does not lay out (R508; log entry 39). -/
def Dev.replicated (d : Dev) (svc verb : Nat) : Dev :=
  if svc < 2 ∨ 0xB < svc ∨ readsOnly svc verb then d
  else
    let d := { d with tw := { d.tw with gen := d.tw.gen + 1 } }
    if d.fg F.twStat_role uTwin = 1 ∧ d.tw.attached then d.useFree.twSend 3 0 0 (leBytes 64 d.freeVal) else d

/-- A verb's end on a state that contains the device (`get`, `put`): errors, CHECK_ONLY, the long-verb limit, the reply. -/
def finishVerb {α : Type} (get : α → Dev) (put : α → Dev → α) (s0 : α) (r : Req) (svc verb : Nat) (v : VRes α) : α :=
  match v with
  | .err st off detail => put s0 ((get s0).replyErr r svc verb st off detail)
  | .turned s st => if r.checkOnly then put s0 ((get s0).replyErr r svc verb st 0xFFFF) else put s ((get s).replyErr r svc verb st 0xFFFF)
  | .ok s res bytes detail =>
    if r.checkOnly then put s0 ((get s0).reply r svc verb 0 0xFFFF 0 0 [] [])
    else if r.replyMax < bytes.length then put s0 ((get s0).replyErr r svc verb 0x040D 0xFFFF)
    else put s (((get s).replicated svc verb).reply r svc verb 0 0xFFFF 0 detail res bytes)
  | .job s decided aux =>
    if r.checkOnly then put s0 ((get s0).reply r svc verb 0 0xFFFF 0 0 [] [])
    else if 32 ≤ (get s0).running r.master then put s0 ((get s0).replyErr r svc verb 0x0407 0xFFFF)
    else
      let d := (get s).replicated svc verb
      put s ((d.openJob r svc verb decided aux).reply r svc verb 0 0xFFFF d.oz.nextJob 0 [] [])

/-- A verb whose effect lies in the device; `deny` is the privilege check's outcome. -/
def Dev.verbD (d : Dev) (r : Req) (svc verb : Nat) (deny : Bool) (body : Dev → VRes Dev) : Dev :=
  match d.preGate r svc verb true true deny with
  | some d => d
  | none => (finishVerb id (fun _ e => e) d r svc verb (body d)).sweep

/-- A verb whose effect lies in the device, PRIV or not. -/
def Dev.verb (d : Dev) (r : Req) (svc verb : Nat) (priv : Bool) (body : Dev → VRes Dev) : Dev :=
  d.verbD r svc verb (priv && !d.priv r.master) body

/-- A verb that may also change what survives reset. -/
def verbNv (nv : Nv) (d : Dev) (r : Req) (svc verb : Nat) (priv : Bool) (body : Nv → Dev → VRes (Nv × Dev)) : Nv × Dev :=
  match d.preGate r svc verb true true (priv && !d.priv r.master) with
  | some d => (nv, d)
  | none => finishVerb (·.2) (fun p e => (p.1, e)) (nv, d) r svc verb (body nv d)

/-- Services of release 1.x (R144) and their last verb code. -/
def lastVerb (svc : Nat) : Nat :=
  match svc with
  | 0x01 => 0x0C | 0x02 => 0x04 | 0x03 => 0x0B | 0x04 => 0x0B | 0x05 => 0x0A | 0x06 => 0x0D | 0x07 => 0x0A | 0x08 => 0x16
  | 0x09 => 0x09 | 0x0A => 0x06 | 0x0B => 0x09 | 0x0C => 0x05 | 0x0D => 0x06 | 0x0E => 0x09 | 0x0F => 0x0A | 0x10 => 0x04
  | 0x11 => 0x06
  | _ => 0

/-- A request that names a service or verb that does not exist (R144, R145). -/
def Dev.badVerb (d : Dev) (r : Req) (svc verb : Nat) (svcKnown known : Bool) : Dev :=
  (d.preGate r svc verb known svcKnown false).getD d

def execMbUnknownService (r : Req) (svc verb : Nat) (s : State) : Host.Outcome State Fault Refusal :=
  s.onDev fun d => d.badVerb r svc verb (decide (1 ≤ svc) && decide (svc ≤ 0x11)) true
def execMbUnknownVerb (r : Req) (svc verb : Nat) (s : State) : Host.Outcome State Fault Refusal :=
  s.onDev fun d => d.badVerb r svc verb (decide (1 ≤ svc) && decide (svc ≤ 0x11)) (decide (verb ≤ lastVerb svc))

end Sys2Proof.Machine
end

