-- ==== Sys2Proof/Machine/SysLog.lean ====
section
/-! DEFINITION. Chapter 05, the SYS verbs (R150, R151) and the LOG verbs (R152, R153). -/
namespace Sys2Proof.Machine

def vSys (r : Req) (verb : Nat) (priv : Bool) (body : Dev → VRes Dev) (s : State) : Host.Outcome State Fault Refusal :=
  s.onDev fun d => d.verb r 0x01 verb priv body
def vLog (r : Req) (verb : Nat) (priv : Bool) (body : Dev → VRes Dev) (s : State) : Host.Outcome State Fault Refusal :=
  s.onDev fun d => d.verb r 0x11 verb priv body

/-- Offsets of R141 for inline argument n and for byte b of the argument block. -/
def offArg (n : Nat) : Nat := 4 * n
def offBlk (b : Nat) : Nat := 0x100 + b

/-! ### SYS -/

/-- Mailboxes a caller may hold besides its boot mailbox (R137). -/
def Dev.mboxLimit (d : Dev) (m : Nat) : Nat := if isFn m then (if m = 0 ∨ d.priv m then 64 else 16) else 0

/-- Mailboxes a caller may still open (R137, R150). -/
def Dev.mboxLeft (d : Dev) (m : Nat) : Nat :=
  min (d.mboxLimit m - (d.oz.mboxes.filter fun b => !b.boot && decide (b.owner = m)).length) (1024 - d.oz.mboxes.length)

def Dev.sysInfo (d : Dev) (m : Nat) : List Nat :=
  [d.fg F.ozStatus_ifver uOzder * 2 ^ 28 + d.fg F.ozFwver_major uOzder * 2 ^ 20 + d.fg F.ozFwver_minor uOzder * 2 ^ 12 +
     d.fg F.ozFwver_patch uOzder % 2 ^ 12, 0x3FFFE, (d.view m .devId 0 0).toNat, d.mboxLeft m]

def execSysInfo (r : Req) (s : State) : Host.Outcome State Fault Refusal :=
  vSys r 0 false (fun d => .ok d (d.sysInfo r.master)) s

/-- The argument block of SYS.OPEN (R150; its byte layout is log entry 12): 16-bit fields class, mode, placement and three
DEPTH_LOG2 at 0 to 10, ring addresses (request, reply, event) at 16, 24 and 32, vectors (reply, event) at 40 and 42. -/
def Dev.sysOpen (d : Dev) (r : Req) : VRes Dev :=
  let b := d.argB r
  let h := fun o => rdLe b o 2
  let ad := fun o => rdLe b o 8
  let host := h 4 = 1
  if r.argLen < 48 then .err 0x040D
  else if h 0 = 0 ∨ 3 < h 0 then .err 0x0404 (offBlk 0)
  else if 1 < h 2 then .err 0x0404 (offBlk 2)
  else if 1 < h 4 then .err 0x0404 (offBlk 4)
  else if h 6 < 2 ∨ 12 < h 6 ∨ h 8 < 2 ∨ 12 < h 8 ∨ h 10 < 2 ∨ 12 < h 10 then .err 0x0404 (offBlk 6)
  else if (host ∧ ad 16 % 4096 ≠ 0) ∨ ad 24 % 4096 ≠ 0 ∨ ad 32 % 4096 ≠ 0 then .err 0x0404 (offBlk 16)
  else if vectorsOf r.master ≤ h 40 ∨ vectorsOf r.master ≤ h 42 then .err 0x0404 (offBlk 40)
  else if d.mboxLeft r.master = 0 ∨ 0xFFFFD < d.oz.nextQid then .err 0x0409
  else
    let q := d.oz.nextQid
    let ep := d.oz.nextEpoch % 0x10000
    let base := if host then ad 16 else Config.ringPlace q
    let d := d.makeQ q (mailQueue r.master (h 0) (h 2) (h 6) (decide host) ep (q + 2) 0 base false)
    let d := d.makeQ (q + 1) (mailQueue r.master (h 0) (h 2) (h 8) true ep (q + 2) (h 40) (ad 24) true)
    let d := d.makeQ (q + 2) (mailQueue r.master (h 0) (h 2) (h 10) true ep (q + 2) (h 42) (ad 32) true)
    let bx : Mbox := ⟨q, q + 1, q + 2, r.master, false, ep, false, []⟩
    .ok { d with oz := { d.oz with mboxes := d.oz.mboxes ++ [bx], nextQid := q + 3, nextEpoch := d.oz.nextEpoch + 1 } }
      [q, q + 1, q + 2, ep * 2 ^ 16]

def execSysOpen (r : Req) (s : State) : Host.Outcome State Fault Refusal := vSys r 1 false (fun d => d.sysOpen r) s

def Dev.sysClose (d : Dev) (r : Req) : VRes Dev :=
  match d.mbox r.object with
  | some b => if b.owner = r.master ∧ !b.boot then .ok (d.closeMbox b) else .err 0x0404
  | none => .err 0x0404

def execSysClose (r : Req) (s : State) : Host.Outcome State Fault Refusal := vSys r 2 false (fun d => d.sysClose r) s

/-- The argument block of SYS.QUEUE_CREATE (R150; its byte layout is log entry 12): 16-bit fields class, mode, DEPTH_LOG2,
placement at 0 to 6, ring address at 8, target unit at 16, ERR_QID at 20, vector at 24 with bit 15 asking for interrupts. -/
def Dev.queueSpec (d : Dev) (r : Req) : Queue :=
  let b := d.argB r
  let u := rdLe b 16 4
  { Queue.disabled with
    owner := r.master, cls := rdLe b 0 2, mode := rdLe b 2 2, rstate := 2, depthLog2 := rdLe b 4 2,
    ringHost := decide (rdLe b 6 2 = 1), intEn := decide (rdLe b 24 2 < 0x8000), inflLog2 := d.freeVal % 18,
    epoch := d.fg F.ucbEpoch_epochExp u, unit := u, vector := rdLe b 24 2 % 0x800, errQid := rdLe b 20 4,
    ringBase := rdLe b 8 8 }

def Dev.sysQueueCreate (d : Dev) (r : Req) : VRes Dev :=
  let b := d.argB r
  let q := d.queueSpec r
  let id := d.oz.nextQid
  if r.argLen < 32 then .err 0x040D
  else if 3 < rdLe b 0 2 ∨ 2 < rdLe b 2 2 ∨ 15 < rdLe b 4 2 ∨ 1 < rdLe b 6 2 ∨ (kindOf q.unit).isNone ∨ q.unit = uCvu 7 ∨
      d.createBad q then
    .err 0x0404 (offBlk 0)
  else if !q.ringHost ∧ !d.callerMay r.master q.ringBase (64 * q.depth) true then .err 0x0404 (offBlk 8)
  else if 0x100000 ≤ id then .err 0x0409
  else if q.cls = 0 ∧ 2048 ≤ d.pinnedC0 then .err 0x0408
  else
    let d := (d.installQ id q).useFree
    .ok { d with oz := { d.oz with nextQid := id + 1 } } [id, q.epoch]

def execSysQueueCreate (r : Req) (s : State) : Host.Outcome State Fault Refusal :=
  vSys r 3 false (fun d => d.sysQueueCreate r) s

/-- A mailbox's queue is not destroyed by QUEUE_DESTROY. -/
def Dev.isMailQ (d : Dev) (q : Nat) : Bool :=
  d.oz.mboxes.any fun b => decide (b.req = q) || decide (b.reply = q) || decide (b.event = q)

def Dev.sysQueueDestroy (d : Dev) (r : Req) : VRes Dev :=
  let q := d.q r.object
  if r.object < 0x200 ∨ q.rstate = 0 ∨ q.owner ≠ r.master ∨ d.isMailQ r.object then .err 0x0404
  else if q.rstate ≠ 2 ∨ q.inflight ≠ 0 then .err 0x0408
  else .ok (d.destroyQ r.object)

def execSysQueueDestroy (r : Req) (s : State) : Host.Outcome State Fault Refusal :=
  vSys r 4 false (fun d => d.sysQueueDestroy r) s

/-- PRIV_VF_LO or PRIV_VF_HI with VF n granted or revoked (R75). -/
def Dev.setVf (d : Dev) (n v : Nat) : Dev :=
  if n < 32 then (d.wr .privVfLo 0 0 (setF (d.rd .privVfLo) n n v)).cfgWritten .privVfLo 0 0
  else (d.wr .privVfHi 0 0 (setF (d.rd .privVfHi) (n - 32) (n - 32) v)).cfgWritten .privVfHi 0 0

def Dev.sysPrivSet (d : Dev) (r : Req) : VRes Dev :=
  if r.a0 = 0 ∨ 63 < r.a0 then .err 0x0404 (offArg 0)
  else if 1 < r.a1 then .err 0x0404 (offArg 1)
  else if (Reg.privVfLo.isLk && d.isLocked .privVfLo 0) then .err 0x0408
  else
    let d := d.setVf r.a0 r.a1
    .ok d [(d.rd .privVfLo).toNat, (d.rd .privVfHi).toNat]

def execSysPrivSet (r : Req) (s : State) : Host.Outcome State Fault Refusal :=
  s.onDev fun d => d.verbD r 0x01 5 (decide (r.master ≠ 0)) fun d => d.sysPrivSet r

/-- BANK_SET (R151): RESERVE before CEIL when it lowers the ceiling, CEIL first when it raises it. -/
def Dev.sysBankSet (d : Dev) (r : Req) : VRes Dev :=
  if 0xA00 < r.a0 then .err 0x0404 (offArg 0)
  else if r.a0 < r.a1 then .err 0x0404 (offArg 1)
  else
    let c : Dev → Dev := fun d =>
      d.gated 0x40 .bankCeil uBank 0 (BitVec.ofNat 32 r.a0) fun d => d.effBankCeil 0x40 (BitVec.ofNat 32 r.a0)
    let v : Dev → Dev := fun d =>
      d.gated 0x40 .bankReserve uBank 0 (BitVec.ofNat 32 r.a1) fun d => d.effBankReserve 0x40 (BitVec.ofNat 32 r.a1)
    let d := if r.a0 < d.fg F.bankCeil_ceil uBank then c (v d) else v (c d)
    .ok d [(d.rd .bankEff uBank).toNat]

def execSysBankSet (r : Req) (s : State) : Host.Outcome State Fault Refusal := vSys r 6 true (fun d => d.sysBankSet r) s

/-- The 8 bytes of HOLD_LIST for an entity: dword 0 KIND 31, CAUSE 27:24, ID 11:0; dword 1 SEQ (log entry 12). -/
def Hold.enc (h : Hold) : List Byte := leBytes 4 (bit h.isUnit * 2 ^ 31 + h.cause * 2 ^ 24 + h.id) ++ leBytes 4 h.seq

def execSysHoldList (r : Req) (s : State) : Host.Outcome State Fault Refusal :=
  vSys r 7 true (fun d => .ok d [d.fab.holds.length] (d.fab.holds.map Hold.enc).flatten) s

/-- KIND and ID as HOLD_RELEASE has them; a unit index that names no unit, or bits outside the fields, is E_MB_ARG. -/
def Dev.sysHoldRelease (d : Dev) (r : Req) : VRes Dev :=
  let v : Word := BitVec.ofNat 32 r.a0
  let isU := decide (getF v 31 31 = 1)
  let id := getF v 27 16
  if getF v 30 28 ≠ 0 ∨ getF v 15 0 ≠ 0 ∨ (isU ∧ (kindOf id).isNone) then .err 0x0404 (offArg 0)
  else if 0xFFFF < r.a1 then .err 0x0404 (offArg 1)
  else
    let d := d.releaseHold isU id r.a1
    .ok d [d.fg F.holdSel_result]

def execSysHoldRelease (r : Req) (s : State) : Host.Outcome State Fault Refusal :=
  vSys r 8 true (fun d => d.sysHoldRelease r) s

def Dev.sysUnitQuery (d : Dev) (r : Req) : VRes Dev :=
  let u := r.object
  if (kindOf u).isNone then .err 0x0404
  else .ok d [(d.ucbStateWord u).toNat, (d.rd .ucbEpoch u).toNat, (d.ucbPipWord u).toNat, (d.rd .ucbPace u).toNat]

def execSysUnitQuery (r : Req) (s : State) : Host.Outcome State Fault Refusal :=
  vSys r 9 false (fun d => d.sysUnitQuery r) s

/-- Firmware loads a context-store slot (R26, R151): its generation is 1 or higher and its parity good. -/
def Dev.loadCtx (d : Dev) (u : Nat) : Dev :=
  let d := if d.fg F.ucbGen_genExp u = 0 then d.fs F.ucbGen_genExp 1 u else d
  { d with bank := { d.bank with ctx := tset d.bank.ctx u { d.slot u with bad := false } } }

/-- Whether a command is refused in the state of one unit's logic (R19). -/
def Dev.refuses1 (d : Dev) (cmd u : Nat) : Bool :=
  let st := d.own u
  isAon u ||
  !(match cmd with
    | 1 => decide (st = stOff) || decide (st = stSleep)
    | 2 => decide (st = stActive)
    | 3 => decide (st = stReady)
    | 4 => decide (st = stReady) || decide (st = stSleep) || decide (st = stUnusable)
    | _ => decide (st = stReady))

/-- The logic a command reaches (R14). -/
def Dev.cmdTargets (d : Dev) (u : Nat) : List Nat :=
  if isGroup u then (subtree u).filter fun v => hasLogic v && (decide (v = u) || decide (d.ust v ≠ stUnusable)) else [u]

def Dev.sysUnitCmd (d : Dev) (r : Req) : VRes Dev :=
  let u := r.object
  if (kindOf u).isNone then .err 0x0404
  else if r.a0 = 0 ∨ 5 < r.a0 then .err 0x0404 (offArg 0)
  else
    let refused := (d.cmdTargets u).any (d.refuses1 r.a0)
    let d := if r.a0 = 1 ∨ r.a0 = 5 then (d.cmdTargets u).foldl Dev.loadCtx d else d
    .job (d.ucbCmd r.a0 u) (if refused then some 0x0101 else none)

def execSysUnitCmd (r : Req) (s : State) : Host.Outcome State Fault Refusal := vSys r 0xA true (fun d => d.sysUnitCmd r) s

/-- RES0 and RES1 of JOB_STATUS: 0 running, 1 done, 2 failed, 3 unknown. -/
def Dev.jobStatus (d : Dev) (m job : Nat) : List Nat :=
  match d.oz.jobs.find? fun j => decide (j.job = job) && decide (j.owner = m) with
  | some j => [j.state, j.outcome]
  | none => [3, 0]

def execSysJobStatus (r : Req) (s : State) : Host.Outcome State Fault Refusal :=
  vSys r 0xB false (fun d => .ok d (d.jobStatus r.master r.a0)) s
def execSysPing (r : Req) (s : State) : Host.Outcome State Fault Refusal :=
  vSys r 0xC false (fun d => .ok d [r.a0, r.a1, r.a2, r.a3]) s

/-! ### LOG -/

/-- Oldest and newest RECSEQ held; 0 while the log is empty. -/
def Dev.logOldest (d : Dev) : Nat := match d.oz.log with
  | [] => 0
  | x :: _ => x.recseq
def Dev.logNewest (d : Dev) : Nat := match d.oz.log.getLast? with
  | none => 0
  | some x => x.recseq

def execLogInfo (r : Req) (s : State) : Host.Outcome State Fault Refusal :=
  vLog r 0 false (fun d => .ok d [d.logOldest, d.logNewest, d.oz.lost]) s

/-- The mailbox's subscriptions replaced. -/
def Dev.setSubs (d : Dev) (qid : Nat) (l : List (Nat × Nat)) : Dev :=
  { d with oz := { d.oz with mboxes := d.oz.mboxes.map fun b => if b.req = qid then { b with subs := l } else b } }

def Dev.subsOf (d : Dev) (qid : Nat) : List (Nat × Nat) := match d.mbox qid with
  | some b => b.subs
  | none => []

def Dev.logSubscribe (d : Dev) (r : Req) : VRes Dev :=
  if r.a0 = 0 ∨ 4 < r.a0 then .err 0x0404 (offArg 0)
  else if r.a1 % 2 ≠ 0 ∨ 2 ^ 20 ≤ r.a1 then .err 0x0404 (offArg 1)
  else if 4 ≤ (d.subsOf r.qid).length then .err 0x0409
  else .ok (d.setSubs r.qid (d.subsOf r.qid ++ [(r.a0, r.a1)])) [(d.subsOf r.qid).length + 1]

def execLogSubscribe (r : Req) (s : State) : Host.Outcome State Fault Refusal := vLog r 1 false (fun d => d.logSubscribe r) s
def execLogUnsubscribe (r : Req) (s : State) : Host.Outcome State Fault Refusal :=
  vLog r 2 false (fun d => .ok (d.setSubs r.qid [])) s

/-- LOG.READ (R152, R153): visible records from a RECSEQ on, as many as the reply block takes; the first carries LOST where
older ones have left the ring. -/
def Dev.logRead (d : Dev) (r : Req) : VRes Dev :=
  if r.replyMax < 32 then .err 0x040D
  else
    let l := (d.oz.log.filter fun x => decide (r.a0 ≤ x.recseq) && d.sees r.master x).take (r.replyMax / 32)
    let old := decide (r.a0 < d.logOldest) && decide (1 < d.logOldest)
    let l := match l with
      | [] => []
      | x :: xs => { x with lost := x.lost || old } :: xs
    let next := match l.getLast? with
      | none => max r.a0 (d.logNewest + 1)
      | some x => x.recseq + 1
    .ok d [next] (l.map EvRec.enc).flatten

def execLogRead (r : Req) (s : State) : Host.Outcome State Fault Refusal := vLog r 3 false (fun d => d.logRead r) s

/-- The bytes of slot n of the event NVM; a slot never written reads zero (log entry 13). -/
def Nv.slotBytes (nv : Nv) (n : Nat) : List Byte := match tget nv.recs n with
  | some x => x.enc
  | none => List.replicate 128 0

def logNvmRead (nv : Nv) (d : Dev) (r : Req) : VRes (Nv × Dev) :=
  if r.replyMax < 128 * r.a1 then .err 0x040D
  else if 511 < r.a0 then .err 0x0404 (offArg 0)
  else if r.a1 = 0 ∨ 512 < r.a0 + r.a1 then .err 0x0404 (offArg 1)
  else .ok (nv, d) [] ((List.range r.a1).map fun i => nv.slotBytes (r.a0 + i)).flatten

def execLogNvmRead (r : Req) (s : State) : Host.Outcome State Fault Refusal :=
  s.onBoth fun nv d => verbNv nv d r 0x11 4 true fun nv d => logNvmRead nv d r

def Dev.logMark (d : Dev) (r : Req) : VRes Dev :=
  let (e, x) := d.logNew { code := 0x040F, sev := 1, master := r.master, d0 := r.a0, d1 := r.a1, d2 := r.a2 }
  .ok e [x.recseq]

def execLogMark (r : Req) (s : State) : Host.Outcome State Fault Refusal := vLog r 5 false (fun d => d.logMark r) s

def execLogStats (r : Req) (s : State) : Host.Outcome State Fault Refusal :=
  vLog r 6 false (fun d => .ok d [] (d.oz.stats.map fun p => leBytes 4 p.1 ++ leBytes 4 p.2).flatten) s

end Sys2Proof.Machine
end

