-- ==== Sys2Proof/Machine/Boot.lean ====
section
/-! DEFINITION. Chapter 06, start-up, firmware images and attestation: bank control blocks (R166), verification (R173), bank
selection (R167), the host image (R169), HBM training and segments (R174, R430 to R434, R582), UPDATE (R180, R181) and
ATTEST (R177, R179, R186). -/
namespace Sys2Proof.Machine

/-! ### Bank control blocks (R166) -/

/-- Flash of bank b (0 A, 1 B). -/
def Nv.flash (nv : Nv) (b : Nat) : Tab Byte := if b = 0 then nv.flashA else nv.flashB
def Nv.setFlash (nv : Nv) (b : Nat) (f : Tab Byte) : Nv := if b = 0 then { nv with flashA := f } else { nv with flashB := f }

/-- n bytes of a bank; an erased byte reads 0xFF. -/
def Nv.flashR (nv : Nv) (b a n : Nat) : List Byte := mread 0xFF (nv.flash b) a n
def Nv.flashW (nv : Nv) (b a : Nat) (bs : List Byte) : Nv := nv.setFlash b (mwrite 0xFF (nv.flash b) a bs)

/-- A 32-bit word of the BCB. -/
def Nv.bcb (nv : Nv) (b o : Nat) : Nat := leNat (nv.flashR b o 4)
def Nv.attempts (nv : Nv) (b : Nat) : Nat := leNat (nv.flashR b 0x14 1)

/-- State of a bank: 0 EMPTY, 1 TRIAL, 2 CONFIRMED, 3 BAD (R166, BOOT_BANKS). -/
def Nv.bankState (nv : Nv) (b : Nat) : Nat :=
  if nv.bcb b 0 ≠ 0x42434231 then 0
  else if nv.bcb b 0x10 = 0 then 3
  else if nv.bcb b 0xC = 0 then 2
  else if nv.bcb b 8 = 0 then 1
  else 0

/-- ATTEMPTS bits cleared. -/
def Nv.tries (nv : Nv) (b : Nat) : Nat := ((List.range 8).filter fun i => !(nv.attempts b).testBit i).length

/-- The lowest set bit of ATTEMPTS cleared (R166). -/
def Nv.clearAttempt (nv : Nv) (b : Nat) : Nv :=
  let v := nv.attempts b
  nv.flashW b 0x14 (leBytes 1 (v &&& (v - 1)))

/-- BAD written (R167). -/
def Nv.markBad (nv : Nv) (b : Nat) : Nv := nv.flashW b 0x10 (leBytes 4 0)

/-- BOOT_BANKS of a bank: STATE, TRIES shown while TRIAL or BAD, FAIL (R170). -/
def Nv.bankBits (nv : Nv) (b fail : Nat) : Nat :=
  let st := nv.bankState b
  st * 64 + (if st = 1 ∨ st = 3 then min (nv.tries b) 3 else 0) * 16 + fail

/-- BOOT_BANKS brought up to date; the FAIL fields stay. -/
def Dev.syncBanks (d : Dev) (nv : Nv) : Dev :=
  let w := d.rd .bootBanks uBoot
  d.wr .bootBanks uBoot 0 (BitVec.ofNat 32 (nv.bankBits 1 (getF w 11 8) * 256 + nv.bankBits 0 (getF w 3 0)))

/-- B_FAIL or A_FAIL set. -/
def Dev.setFail (d : Dev) (b fail : Nat) : Dev :=
  d.wr .bootBanks uBoot 0 (setF (d.rd .bootBanks uBoot) (if b = 0 then 3 else 11) (if b = 0 then 0 else 8) fail)

/-! ### Fuses (R175) -/

/-- The fuse slots of an algorithm: 0 Ed25519, 1 ML-DSA-65. -/
def Nv.slots (nv : Nv) (alg : Nat) : List FuseSlot := if alg = 0 then nv.ed else nv.ml

/-- Slot n of an algorithm. -/
def Nv.fuse (nv : Nv) (alg n : Nat) : FuseSlot := (nv.slots alg).getD n ⟨none, false⟩

/-- A bit per slot. -/
def slotBits (f : FuseSlot → Bool) (l : List FuseSlot) : Nat :=
  (List.range 4).foldl (fun a i => a + bit (f (l.getD i ⟨none, false⟩)) * 2 ^ i) 0

/-- The word of FUSE_KEYS (R170). -/
def Nv.fuseKeys (nv : Nv) : Nat :=
  slotBits (·.revoked) nv.ml * 2 ^ 12 + slotBits (·.revoked) nv.ed * 2 ^ 8 + slotBits (fun x => x.hash.isSome) nv.ml * 2 ^ 4 +
    slotBits (fun x => x.hash.isSome) nv.ed

/-- The fuse registers loaded (R163, R170). -/
def Dev.syncFuses (d : Dev) (nv : Nv) : Dev :=
  (((d.fs F.fuseSvn_count nv.svn uBoot).wr .fuseKeys uBoot 0 (BitVec.ofNat 32 nv.fuseKeys)).wr .devSerialLo uBoot 0
    (BitVec.ofNat 32 nv.serial)).wr .devSerialHi uBoot 0 (BitVec.ofNat 32 (nv.serial / 2 ^ 32))

/-! ### Verification (R171 to R173) -/

/-- An image as fetched: its bytes by offset and length, and the bytes its source holds. -/
structure Src where
  rd : Nat → Nat → List Byte
  limit : Nat

def Src.le (x : Src) (o n : Nat) : Nat := leNat (x.rd o n)

/-- The image in bank b, from offset 0x1000 of a 64 MiB bank (R161, R162). -/
def Nv.src (nv : Nv) (b : Nat) : Src := ⟨fun o n => nv.flashR b (0x1000 + o) n, 0x3FFF000⟩

/-- A host image in a buffer of `pages` pages (R169). -/
def hostSrc (img : List Byte) (pages : Nat) : Src := ⟨fun o n => sliceB img o n, pages * 4096⟩

def Src.segCount (x : Src) : Nat := x.le 0x12 2
def Src.manOff (x : Src) : Nat := x.le 0x18 4
def Src.manLen (x : Src) : Nat := x.le 0x1C 4
def Src.manifest (x : Src) : List Byte := x.rd x.manOff x.manLen

/-- Manifest entry n (R172). -/
def Src.seg (x : Src) (n : Nat) : Seg :=
  let e := x.manOff + 128 + 96 * n
  ⟨x.le e 4, x.le (e + 4) 4, x.le (e + 8) 1, x.le (e + 9) 1, x.le (e + 0x10) 8, x.rd (e + 0x18) 64⟩

def Src.segs (x : Src) : List Seg := (List.range x.segCount).map x.seg

/-- Check 1 of R173. -/
def Src.hdrOk (x : Src) : Bool :=
  decide (x.le 0 4 = 0x4F5A4657) && decide (x.le 4 2 = 1) && decide (x.le 8 2 = 0x9400) &&
  (x.le 0xA 1).testBit (bit Config.codeX) && decide (x.le 0xB 1 ≤ Config.stepping) &&
  decide (1 ≤ x.segCount) && decide (x.segCount ≤ 32) && decide (x.le 0x14 4 ≤ min x.limit 0x3000000) &&
  decide (0x1000 ≤ x.manOff) && decide (x.manOff % 64 = 0) && decide (x.manLen = 128 + 96 * x.segCount) &&
  decide (x.manOff + x.manLen + 4096 ≤ x.le 0x14 4) &&
  x.segs.all fun s => decide (s.off % 4096 = 0) && decide (s.off + s.len ≤ x.le 0x14 4)

/-- A public key under its fuse slot: programmed, not revoked, its SHA-384 the fused one (check 2 of R173). -/
def Nv.keyOk (nv : Nv) (alg slot : Nat) (key : List Byte) : Bool :=
  decide (slot < 4) && !(nv.fuse alg slot).revoked && decide ((nv.fuse alg slot).hash = some (Config.sha384 key))

/-- The bytes of a segment. -/
def Src.segBytes (x : Src) (s : Seg) : List Byte := x.rd s.off s.len

/-- The first of the given segments whose digest fails (check 7 of R173), by index. -/
def Src.badSeg (x : Src) (want : Seg → Bool) : Option Nat :=
  ((x.segs.zipIdx).find? fun p => want p.1 && decide (Config.sha512 (x.segBytes p.1) ≠ p.1.digest)).map (·.2)

/-- R173 in its order: the first failing check and segment index (0xFFFFFFFF where none applies); `want` are the segments
loaded now. -/
def verifyImage (nv : Nv) (x : Src) (want : Seg → Bool) : Option (Nat × Nat) :=
  if !x.hdrOk then some (1, 0xFFFFFFFF)
  else if !(nv.keyOk 0 (x.le 0x20 1) (x.rd 0x40 32) && nv.keyOk 1 (x.le 0x21 1) (x.rd 0x60 1952)) then some (2, 0xFFFFFFFF)
  else
    let sb := x.manOff + x.manLen
    if !Config.edVerify (x.rd 0x40 32) x.manifest (x.rd sb 64) then some (3, 0xFFFFFFFF)
    else if !Config.mlVerify (x.rd 0x60 1952) x.manifest (x.rd (sb + 0x40) 3309) then some (4, 0xFFFFFFFF)
    else if x.rd (x.manOff + 8) 64 ≠ Config.sha512 (x.rd 0 4096) then some (5, 0xFFFFFFFF)
    else if x.le 0x10 1 < nv.svn then some (6, 0xFFFFFFFF)
    else (x.badSeg want).map fun i => (7, i)

/-- The event code of a failing check (R173). -/
def imgEvent (check : Nat) : Nat :=
  match check with
  | 1 => 0x0502 | 2 => 0x0503 | 3 => 0x0504 | 4 => 0x0505 | 5 => 0x0506 | 6 => 0x0507 | _ => 0x0506

/-- The FAIL code of BOOT_BANKS for a failing check (R170). -/
def failCode (check : Nat) : Nat := if check = 7 then 5 else check

/-- The training parameters segment of an image, where it carries exactly one (R582). -/
def Src.train (x : Src) : Option (List Byte) :=
  match x.segs.filter fun s => decide (s.typ = 6) with
  | [s] => some (x.segBytes s)
  | _ => none

/-- The facts the device keeps of a verified image. -/
def Src.image (x : Src) (src : Nat) : Image :=
  ⟨leNat ((x.rd 0xC 4).take 1) * 2 ^ 24 + leNat ((x.rd 0xD 1)) * 2 ^ 16 + x.le 0xE 2, x.le 0x10 1, x.le 0x20 1, x.le 0x21 1,
   x.le 0x22 1, Config.sha512 x.manifest, src, x.segs, x.train⟩

/-! ### The boot ROM (R160 to R169) -/

def Dev.stage (d : Dev) : Nat := d.fg F.bootStatus_stage uBoot
def Dev.setStage (d : Dev) (n : Nat) : Dev := d.fs F.bootStatus_stage n uBoot

/-- An event the ROM records: in the event NVM as KIND 0x03 with the failing check, and raised once firmware runs (R168). The
record's RECSEQ, which no rule gives a ROM record, is a free value. -/
def Dev.romEvent (d : Dev) (code src seg check : Nat) : Dev :=
  let e : Ev := { code := code, sev := sevOf code, unit := uBoot, d0 := src, d1 := seg }
  let r := { d.recOf e with recseq := d.freeVal % 2 ^ 32 }
  let d := (d.nvPut 3 r (leBytes 1 check)).useFree
  { d with boot := { d.boot with romEvents := d.boot.romEvents ++ [e] } }

/-- An image rejected: LAST_FAIL, the bank's FAIL, and the record of the check's event (R167, R170). -/
def Dev.rejected (d : Dev) (src : Nat) (p : Nat × Nat) : Dev :=
  let d := (d.fs F.bootStatus_lastFail (imgEvent p.1) uBoot).romEvent (imgEvent p.1) src p.2 p.1
  if src < 2 then d.setFail src (failCode p.1) else d

/-- Firmware starts (STAGE 0x4): the ROM's events are raised, release and floors are loaded (R30, R168), and the ten HBM
domains are powered (R427). -/
def Dev.fwStart (d : Dev) (im : Image) : Dev :=
  let evs := d.boot.romEvents
  let d := { d with boot := { d.boot with image := some im, romEvents := [] } }
  let d := evs.foldl Dev.raise d
  let d := ((d.fs F.bootStatus_src im.src uBoot).setStage 4).wr .ozFwver uOzder 0 (BitVec.ofNat 32 im.fwver)
  let d := (allUnits.filter isAsync).foldl (fun e u => e.fs F.ucbPace_floor (Config.floor u) u) d
  (membersOf uHbm).foldl (fun e u => (e.loadCtx u).cmd1 1 u) d

/-- Banks that may boot, in order (R167): CONFIRMED, or TRIAL with fewer than three attempts; the highest ACT_SEQ first, A
before B where equal. -/
def Nv.cands (nv : Nv) : List Nat :=
  let ok := fun b => decide (nv.bankState b = 2) || (decide (nv.bankState b = 1) && decide (nv.tries b < 3))
  if nv.bcb 0 4 < nv.bcb 1 4 then [1, 0].filter ok else [0, 1].filter ok

/-- A trial bank out of attempts is marked BAD with E_TRIAL_EXPIRED (R167). -/
def expire (b : Nat) (p : Nv × Dev) : Nv × Dev :=
  if p.1.bankState b = 1 ∧ 3 ≤ p.1.tries b then (p.1.markBad b, (p.2.romEvent 0x0509 0 0 0).setFail b 7) else p

/-- SRAM segments, checked as the ROM loads them; HBM segments follow after training (R163, R174). -/
def inSram (s : Seg) : Bool := decide (s.dest = 0)

/-- An attempt at bank b (R166, R167): a trial bank loses an attempt. -/
def Nv.attempt (nv : Nv) (b : Nat) : Nv := if nv.bankState b = 1 then nv.clearAttempt b else nv

/-- Bank b boots (R167): E_BANK_FALLBACK is recorded where it is not the first choice. -/
def Dev.bankBoot (d : Dev) (nv : Nv) (first b : Nat) : Dev :=
  let d := if b = first then d else d.romEvent 0x0508 0 0 0
  (d.fs F.bootStatus_trial (bit (decide (nv.bankState b = 1))) uBoot).fwStart ((nv.src b).image b)

/-- One candidate tried: the device booted, or the bank marked BAD. -/
def tryBank (first b : Nat) (p : Nv × Dev) : (Nv × Dev) × Bool :=
  let nv := p.1.attempt b
  match verifyImage nv (nv.src b) inSram with
  | none => ((nv, p.2.bankBoot nv first b), true)
  | some e => ((nv.markBad b, p.2.rejected b e), false)

/-- The candidates tried in order (R167): the device after the first that boots, or none. -/
def tryBanks (first : Nat) : List Nat → Nv × Dev → (Nv × Dev) × Bool
  | [], p => (p, false)
  | b :: bs, p => if (tryBank first b p).2 then tryBank first b p else tryBanks first bs (tryBank first b p).1

/-- No image boots: the device halts with STAGE 0xF and records E_BOOT_HALT (R160, R167, R187). -/
def Dev.bootHalt (d : Dev) : Dev := (d.romEvent 0x050A 0 0 0).setStage 0xF

/-- The event NVM's boot scan (R545): the newest record whose CRC verifies, and the count of those that do not. -/
def nvScan (nv : Nv) (d : Dev) : Nv × Dev :=
  let good := nv.recs.filter fun p => p.2.good
  let newest := good.foldl (fun (best : Option (Nat × NvRec)) p =>
    match best with
    | none => some p
    | some q => if q.2.nseq < p.2.nseq then some p else some q) none
  let nv := { nv with nseq := match newest with
    | some p => p.2.nseq
    | none => 0 }
  let d := d.fs F.nvStat_next (match newest with
    | some p => (p.1 + 1) % 512
    | none => 0) uNvm
  let d := ((d.fs F.nvStat_bad (min (nv.recs.length - good.length) 63) uNvm).fs F.nvStat_count good.length uNvm).fs
    F.nvStat_ready 1 uNvm
  (nv, d.fs F.nvSeq_nseq nv.nseq uNvm)

/-- BOOT_SEL 0b00 to 0b11 as R160 gives them: whether flash, whether a host image may boot. -/
def selFlash (sel : Nat) : Bool := decide (sel ≠ 2)
def selHost (sel : Nat) : Bool := decide (sel ≠ 0)

/-- The flash banks tried; where none boots, the host image is awaited if BOOT_SEL allows one, else the device halts. -/
def flashBoot (sel : Nat) (p : Nv × Dev) : Nv × Dev :=
  let cands := p.1.cands
  let q := tryBanks (cands.headD 2) cands (expire 1 (expire 0 p))
  let d := q.1.2.syncBanks q.1.1
  (q.1.1,
    if q.2 then d
    else if selHost sel then d.fs F.bootHostCtl_wait 1 uBoot
    else d.bootHalt)

/-- BOOT_SEL 0b11 is recorded (R160). -/
def Dev.selNote (d : Dev) (sel : Nat) : Dev :=
  if sel = 3 then { d with boot := { d.boot with romEvents := [{ code := 0x0501, sev := 1, unit := uBoot }] } } else d

/-- The boot source taken from BOOT_SEL (R160). -/
def sourceBoot (sel : Nat) (p : Nv × Dev) : Nv × Dev :=
  if selFlash sel then flashBoot sel (p.1, p.2.selNote sel)
  else (p.1, ((p.2.selNote sel).syncBanks p.1).fs F.bootHostCtl_wait 1 uBoot)

/-- R163 and R167 from RST_N release: BOOT_SEL sampled, fuses read, the NVM scanned, a bank chosen and booted, else the host
image awaited, else a halt. -/
def romBoot (sel : Nat) (nv : Nv) (d : Dev) : Nv × Dev :=
  sourceBoot sel (nvScan { nv with boots := nv.boots + 1 } (((d.fs F.bootStatus_sel sel uBoot).syncFuses nv).setStage 1))

/-- What a reset leaves of the device (R53, R158): every register at its reset value; the host's memory and the levels on the
device's inputs are outside it. -/
def Dev.afterReset (d : Dev) : Dev :=
  { Dev.reset with host := d.host, free := d.free, pins := { d.pins with thermTripN := true, twinActive := false } }

/-- RST_N falls (R53): THERM_TRIP_N stays low until the next release (R543). -/
def execRstNAssert (s : State) : Host.Outcome State Fault Refusal := s.onDev fun d =>
  let e := d.afterReset
  { e with pins := { e.pins with rstN := false, thermTripN := d.pins.thermTripN } }

/-- RST_N rises with BOOT_SEL at `sel` (R163). -/
def rstRelease (sel : Nat) (nv : Nv) (d : Dev) : Nv × Dev :=
  let e := d.afterReset
  let p := romBoot sel nv { e with pins := { e.pins with rstN := true, bootSel := sel } }
  nvFlush 0 p.1 p.2

def execRstNRelease (sel : Fin 4) (s : State) : Host.Outcome State Fault Refusal := s.onBoth (rstRelease sel.val)

/-- PWR_GOOD falls with RST_N high (R52): no more grants, self-tests INCOMPLETE, E_PWR_GOOD recorded; `cut` says that power
was lost within the record's write (R545). -/
def pwrGoodFall (cut : Bool) (nv : Nv) (d : Dev) : Nv × Dev :=
  let d := { d with bank := { d.bank with granting := false },
                    pins := { d.pins with pwrGood := false },
                    hl := { d.hl with runs := d.hl.runs.map fun (x : TestRun) => { x with good := false } } }
  let e : Ev := { code := 0x0118, sev := 4, unit := uBank }
  let r := d.recOf e
  let d := d.raise e
  if cut then
    let p := nvPlace nv d ⟨2, r, []⟩ false
    (p.1, p.2)
  else nvFlush 0 nv (d.nvPut 2 r [])

def execPwrGoodFall (cut : Bool) (s : State) : Host.Outcome State Fault Refusal := s.onBoth (pwrGoodFall cut)

/-! ### The host image (R169, R170) -/

/-- A BOOT_HOST register written: dropped with E_BOOT_HOST while WAIT = 0 (R170). -/
def Dev.effBootHost (d : Dev) (m : Nat) (r : Reg) (v : Word) : Dev :=
  if d.fb F.bootHostCtl_wait uBoot then d.putFields r uBoot 0 v
  else d.raise { code := 0x050B, sev := 1, unit := uBoot, master := m }

/-- A candidate bank was tried on this boot and rejected: its FAIL field stands, and not for an expired trial (R167, R168). -/
def Dev.bankFailed (d : Dev) : Bool :=
  let f := fun (n : Nat) => decide (n ≠ 0) && decide (n ≠ 7)
  let w := d.rd .bootBanks uBoot
  f (getF w 11 8) || f (getF w 3 0)

/-- The ROM fetches and verifies a host image (R169): it boots, with E_BANK_FALLBACK where the candidate banks failed (R168), or ERR
rises and the ROM waits again. -/
def hostBoot (img : List Byte) (nv : Nv) (d : Dev) : Nv × Dev :=
  let d := d.fs F.bootHostCtl_err 0 uBoot
  let x := hostSrc img (d.fg F.bootHostCtl_lenPages uBoot)
  match verifyImage nv x inSram with
  | none =>
    let d := if d.bankFailed then d.romEvent 0x0508 0 0 0 else d
    (nv, ((d.fs F.bootHostCtl_wait 0 uBoot).fs F.bootStatus_trial 0 uBoot).fwStart (x.image 2))
  | some p => (nv, (d.rejected 2 p).fs F.bootHostCtl_err 1 uBoot)

/-- BOOT_HOST_CTL written with GO by m; `img` is what the buffer holds. -/
def bootHostGo (m : Nat) (v : Word) (img : List Byte) (nv : Nv) (d : Dev) : Nv × Dev :=
  let w : Word := v ||| BitVec.ofNat 32 (2 ^ 31)
  let e := d.gated m .bootHostCtl uBoot 0 w fun d => d.effBootHost m .bootHostCtl w
  if d.isHeld m || !d.priv m || !d.fb F.bootHostCtl_wait uBoot then (nv, e)
  else
    let p := hostBoot img nv e
    nvFlush 0 p.1 p.2

def execBootHostGo (m : Nat) (v : Word) (img : List Byte) (s : State) : Host.Outcome State Fault Refusal :=
  if issued m then s.onBoth (bootHostGo m v img) else .fault (.neverIssued m)

/-! ### HBM training and segments (R174, R430 to R434, R582) -/

/-- The training parameters segment judged (R582): ORDER and the mode-register writes, or none where it is refused. -/
def trainParams (bs : List Byte) : Option (Nat × List (Nat × Nat × Nat)) :=
  let n := rdLe bs 7 1
  let o := rdLe bs 6 1
  if rdLe bs 0 4 = 0x4E525448 ∧ rdLe bs 4 2 = 1 ∧ bs.length = 64 + 8 * n ∧ n ≤ 64 ∧ (o ≤ 3 ∨ o = 0xFF) ∧
      rdLe bs 0x3C 4 = crc32c (sliceB bs 0 0x3C ++ bs.drop 0x40) then
    some (if o = 0xFF then 2 else o,
      (List.range n).map fun i => (rdLe bs (64 + 8 * i) 1, rdLe bs (65 + 8 * i) 1, rdLe bs (68 + 8 * i) 4))
  else none

/-- A mode-register write applied to the stacks its mask names. -/
def mrWrite (t : Tab Nat) (w : Nat × Nat × Nat) : Tab Nat :=
  let t := if w.1.testBit 0 then tset t w.2.1 w.2.2 else t
  if w.1.testBit 1 then tset t (256 + w.2.1) w.2.2 else t

/-- Sizes of DEVELOP, CODEC, USER, INGEST and MEDIA in 32 MiB units by default (R430). -/
def defaultSizes : List Nat := [192, 64, 124, 384, 768]

/-- Sizes given in MiB are usable (R430): five multiples of 32 MiB that sum to 48 GiB - 128 MiB. -/
def sizesOk (l : List Nat) : Bool :=
  decide (l.length = 5) && l.all (fun x => decide (x % 32 = 0)) && decide (l.foldl (· + ·) 0 = 49152 - 128)

/-- HBM_LAYOUT from region sizes in 32 MiB units, in ascending address order. -/
def Dev.putLayout (d : Dev) (sizes : List Nat) : Dev :=
  ((sizes.zipIdx).foldl (fun (p : Dev × Nat) x =>
    (((p.1.fs F.hbmLayout_base p.2 uHbm x.2).fs F.hbmLayout_size x.1 uHbm x.2), p.2 + x.1)) (d, 0)).1

/-- A region of HBM_LAYOUT as a region-table entry marked RSVD (R431). -/
def Dev.rsvdEntry (d : Dev) (k : Nat) : Rgn :=
  ⟨false, false, true, d.fg F.hbmLayout_base uHbm k * 8192, d.fg F.hbmLayout_size uHbm k * 8192, 0x3FF, 0x3FF⟩

/-- USER divided among functions (R432): sizes in MiB, in ascending function number; an invalid division takes the default, all
of it to PF0. -/
def Dev.putUser (d : Dev) (div : List Nat) : Dev :=
  let base := d.fg F.hbmLayout_base uHbm 5
  let size := d.fg F.hbmLayout_size uHbm 5
  let ok := div.all (fun x => decide (x % 32 = 0)) && decide (div.foldl (· + ·) 0 ≤ size * 32) && decide (div.length ≤ 64)
  let l := if ok && !div.isEmpty then div.map (· / 32) else [size]
  let us := ((l.zipIdx).foldl (fun (p : Tab (Nat × Nat) × Nat) x =>
    (if x.1 = 0 then p.1 else tset p.1 x.2 (p.2, x.1), p.2 + x.1)) (([] : Tab (Nat × Nat)), base)).1
  let d := if ok then d else d.hbmCfg uHbm
  let rs : Tab Rgn := ([0, 1, 2, 3, 4, 6, 7].zipIdx).map fun p => (p.2, d.rsvdEntry p.1)
  let us2 : Tab Rgn := (us.zipIdx).map fun p => (7 + p.2, ⟨true, true, false, p.1.2.1 * 8192, p.1.2.2 * 8192, 0x3FF, p.1.1⟩)
  { d with hbm := { d.hbm with user := us, rgn := rs ++ us2 } }

/-- Training ends (R433, R434): `spares` names the spare lanes used by pseudo-channel, `failed` the pseudo-channels that fail a
step; `sizes` and `div` are the boot configuration's region sizes and user division in MiB ([] for none). -/
def Dev.trained (d : Dev) (spares : List (Nat × Nat)) (failed : List Nat) (sizes div : List Nat) : Dev :=
  if d.stage ≠ 4 then d
  else if (spares.any fun p => decide (2 < p.2)) || !failed.isEmpty then
    let e : Ev := { code := 0x0E04, sev := 4, unit := uHbm,
                    d0 := (failed ++ (spares.filter fun p => decide (2 < p.2)).map (·.1)).headD 0 }
    let r := d.recOf e
    ((d.raise e).nvPut 5 r []).setStage 0xF
  else
    let d := spares.foldl (fun e p =>
      if p.2 = 0 then e
      else (e.fs F.pcStat_repaired p.2 (uMover p.1)).raise { code := 0x0E03, sev := 2, unit := uMover p.1, d0 := p.1 }) d
    let tp := (d.boot.image.bind (·.train)).bind trainParams
    let d := match tp with
      | some p => { d with hbm := { d.hbm with mr := p.2.foldl mrWrite d.hbm.mr } }.fs F.hbmState_order p.1 uHbm
      | none => (d.fs F.hbmState_order 2 uHbm).hbmCfg uHbm
    let good := sizesOk sizes
    let d := if good || sizes.isEmpty then d else d.hbmCfg uHbm
    let d := (d.putLayout ([2, 1, 1] ++ (if good then sizes.map (· / 32) else defaultSizes))).putUser div
    let d := (List.range 64).foldl (fun e n => e.fs F.pcStat_trained 1 (uMover n)) d
    let d := { d with hbm := { d.hbm with mem := [], sbe := [], ue := [], rows := [] } }
    (d.fs F.hbmState_ready 1 uHbm).setStage 5

def execHbmTrainDone (spares : List (Nat × Nat)) (failed sizes div : List Nat) (s : State) :
    Host.Outcome State Fault Refusal := s.onNvm 0 fun d => d.trained spares failed sizes div

/-- Power-up self-test requests (R550, R66): one per unit that carries a self-test of R548, in ascending unit index, class C3. -/
def selfTested (u : Nat) : Bool :=
  match kindOf u with
  | some .tileGroup | some .engine | some .deframer | some .compositor | some .pack | some .twin | some .chainPort
  | some .cvu => true
  | _ => false

/-- HBM segments loaded and checked (R174); `img` is the host buffer for a host image. A digest that fails halts the boot and
marks the bank BAD. -/
def loadSegments (img : List Byte) (nv : Nv) (d : Dev) : Nv × Dev :=
  match d.boot.image with
  | none => (nv, d)
  | some im =>
    if d.stage ≠ 5 then (nv, d)
    else
      let x : Src := if im.src = 2 then hostSrc img 12288 else nv.src im.src
      let hb := (im.segs.zipIdx).filter fun p => decide (p.1.dest = 1)
      match hb.find? fun p => decide (Config.sha512 (x.segBytes p.1) ≠ p.1.digest) with
      | some p =>
        let d := (d.rejected im.src (7, p.2)).setStage 0xF
        let evs := d.boot.romEvents
        let d := evs.foldl Dev.raise { d with boot := { d.boot with romEvents := [] } }
        let nv := if im.src = 2 then nv else nv.markBad im.src
        (nv, d.syncBanks nv)
      | none =>
        let d := hb.foldl (fun e p => e.hbmW p.1.load (x.segBytes p.1)) d
        (nv, (allUnits.filter selfTested).foldl (fun e u => e.askTest u 0 false) (d.setStage 6))

def execHbmSegmentLoad (img : List Byte) (s : State) : Host.Outcome State Fault Refusal := s.onBoth fun nv d =>
  let p := loadSegments img nv d
  nvFlush 0 p.1 p.2

/-! ### UPDATE (R180, R181) -/

def upd (r : Req) (verb : Nat) (body : Nv → Dev → VRes (Nv × Dev)) (s : State) : Host.Outcome State Fault Refusal :=
  s.onBoth fun nv d => verbNv nv d r 0x0F verb true fun nv d =>
    if d.tw.handing || d.tw.attaching then .err 0x0408 else body nv d

/-- The inactive bank (R180): the one the device does not run from; bank A for a host-booted device. -/
def Dev.inactive (d : Dev) : Nat := match d.boot.image with
  | some im => if im.src = 0 then 1 else 0
  | none => 0

/-- The running image's SVN. -/
def Dev.imgSvn (d : Dev) : Nat := match d.boot.image with
  | some im => im.svn
  | none => 0

def execUpdateInfo (r : Req) (s : State) : Host.Outcome State Fault Refusal := s.onBoth fun nv d =>
  verbNv nv d r 0x0F 0 false fun nv d =>
    .ok (nv, d) [1, (d.rd .bootBanks uBoot).toNat, d.imgSvn * 256 + nv.svn, d.inactive]

def updBegin (r : Req) (nv : Nv) (d : Dev) : VRes (Nv × Dev) :=
  if r.a0 = 0 ∨ 0x3000000 < r.a0 then .err 0x0404 (offArg 0)
  else if d.boot.session.isSome then .err 0x050C
  else
    let b := d.inactive
    let h := d.boot.nextHandle
    let nv := nv.setFlash b []
    let d := { d with boot := { d.boot with session := some ⟨h, b, r.a0, false⟩, nextHandle := h % 0xFFFF + 1 } }
    .job (nv, d.syncBanks nv) none h

def execUpdateBegin (r : Req) (s : State) : Host.Outcome State Fault Refusal := upd r 1 (updBegin r) s

/-- The open session, where OBJECT names it. -/
def Dev.sessionOf (d : Dev) (r : Req) : Option Session := d.boot.session.filter fun x => decide (x.handle = r.object)

def updWrite (r : Req) (nv : Nv) (d : Dev) : VRes (Nv × Dev) :=
  if 0x10000 < r.argLen ∨ r.argLen = 0 then .err 0x040D
  else if r.a0 % 4096 ≠ 0 then .err 0x0404 (offArg 0)
  else
    match d.sessionOf r with
    | none => .err 0x050C
    | some x =>
      if x.len < r.a0 + r.argLen then .err 0x0404 (offArg 0)
      else
        let nv := nv.flashW x.bank (0x1000 + r.a0) (d.argB r)
        .job (nv, { d with boot := { d.boot with session := some { x with verified := false } } })

def execUpdateWrite (r : Req) (s : State) : Host.Outcome State Fault Refusal := upd r 2 (updWrite r) s

def updVerify (r : Req) (nv : Nv) (d : Dev) : VRes (Nv × Dev) :=
  match d.sessionOf r with
  | none => .err 0x050C
  | some x =>
    let v := verifyImage nv (nv.src x.bank) fun _ => true
    let d := { d with boot := { d.boot with session := some { x with verified := v.isNone } } }
    match v with
    | none => .job (nv, d) (some 0)
    | some p =>
      .job (nv, d.raise { code := imgEvent p.1, sev := sevOf (imgEvent p.1), unit := uBoot, d0 := x.bank, d1 := p.2 })
        (some (imgEvent p.1))

def execUpdateVerify (r : Req) (s : State) : Host.Outcome State Fault Refusal := upd r 3 (updVerify r) s

/-- ACT_SEQ one above the running bank's (R181); for a host-booted device, above the other bank's. -/
def nextSeqOf (nv : Nv) (b : Nat) : Nat := if nv.bcb (1 - b) 0 = 0x42434231 then nv.bcb (1 - b) 4 + 1 else 1

def updActivate (r : Req) (nv : Nv) (d : Dev) : VRes (Nv × Dev) :=
  match d.sessionOf r with
  | none => .err 0x050C
  | some x =>
    if !x.verified then .err 0x050C
    else
      let seq := nextSeqOf nv x.bank
      let nv := nv.flashW x.bank 0 (leBytes 4 0x42434231 ++ leBytes 4 seq ++ leBytes 4 0)
      .ok (nv, { d with boot := { d.boot with session := none } }.syncBanks nv) [seq]

def execUpdateActivate (r : Req) (s : State) : Host.Outcome State Fault Refusal := upd r 4 (updActivate r) s

def updConfirm (nv : Nv) (d : Dev) : VRes (Nv × Dev) :=
  match d.boot.image with
  | none => .err 0x050C
  | some im =>
    if im.src < 2 ∧ nv.bankState im.src = 1 then
      let nv := nv.flashW im.src 0xC (leBytes 4 0)
      let d := (d.fs F.bootStatus_trial 0 uBoot).syncBanks nv
      .ok (nv, d) [(d.rd .bootBanks uBoot).toNat]
    else .err 0x050C

def execUpdateConfirm (r : Req) (s : State) : Host.Outcome State Fault Refusal := upd r 5 updConfirm s

def updAbort (r : Req) (nv : Nv) (d : Dev) : VRes (Nv × Dev) :=
  match d.sessionOf r with
  | none => .err 0x0404
  | some _ => .ok (nv, { d with boot := { d.boot with session := none } })

def execUpdateAbort (r : Req) (s : State) : Host.Outcome State Fault Refusal := upd r 6 (updAbort r) s

def updRestart (r : Req) (nv : Nv) (d : Dev) : VRes (Nv × Dev) :=
  if d.fg F.twStat_role uTwin = 1 then .err 0x050C
  else .ok (nv, { d with boot := { d.boot with restart := d.boot.restart || decide (r.a0 = 1) } })

def execUpdateRestart (r : Req) (s : State) : Host.Outcome State Fault Refusal := upd r 7 (updRestart r) s

/-- The 5 ms end: an internal reset as RST_N (R181), BOOT_SEL sampled again. -/
def execUpdateRestartReset (s : State) : Host.Outcome State Fault Refusal := s.onBoth fun nv d =>
  if d.boot.restart then rstRelease d.pins.bootSel nv d else (nv, d)

def updSvn (r : Req) (nv : Nv) (d : Dev) : VRes (Nv × Dev) :=
  let b := d.inactive
  if d.imgSvn < r.a0 ∨ r.a0 < nv.svn then .err 0x0404 (offArg 0)
  else if nv.bankState b = 2 ∧ (nv.src b).le 0x10 1 < r.a0 ∧ r.a1 ≠ 1 then .err 0x050C
  else
    let up := decide (nv.svn < r.a0)
    let nv := { nv with svn := max nv.svn r.a0 }
    let d := d.syncFuses nv
    .ok (nv, if up then d.raise { code := 0x050D, sev := 2, unit := uBoot } else d) [nv.svn]

def execUpdateSvnAdvance (r : Req) (s : State) : Host.Outcome State Fault Refusal := upd r 8 (updSvn r) s

/-- A fuse slot burnt: nothing returns from blown to unblown (R175). -/
def Nv.burn (nv : Nv) (alg n : Nat) (f : FuseSlot → FuseSlot) : Nv :=
  if alg = 0 then { nv with ed := nv.ed.modify n f } else { nv with ml := nv.ml.modify n f }

/-- A slot that holds no hash yet takes one. -/
def FuseSlot.program (h : List Byte) (x : FuseSlot) : FuseSlot := { x with hash := x.hash.orElse fun _ => some h }
/-- A slot revoked. -/
def FuseSlot.revoke (x : FuseSlot) : FuseSlot := { x with revoked := true }

def updKeyAdd (r : Req) (nv : Nv) (d : Dev) : VRes (Nv × Dev) :=
  if r.argLen < 48 then .err 0x040D
  else if 1 < r.a0 then .err 0x0404 (offArg 0)
  else if 3 < r.a1 then .err 0x0404 (offArg 1)
  else if (nv.fuse r.a0 r.a1).hash.isSome then .err 0x050C
  else
    let nv := nv.burn r.a0 r.a1 (FuseSlot.program (fitB (d.argB r) 48))
    .ok (nv, (d.syncFuses nv).raise { code := 0x050E, sev := 2, unit := uBoot }) [nv.fuseKeys]

def execUpdateKeyAdd (r : Req) (s : State) : Host.Outcome State Fault Refusal := upd r 9 (updKeyAdd r) s

/-- The slot the running image uses. -/
def Dev.runningSlot (d : Dev) (alg : Nat) : Nat := match d.boot.image with
  | some im => if alg = 0 then im.edSlot else im.mlSlot
  | none => 4

def updRevoke (r : Req) (nv : Nv) (d : Dev) : VRes (Nv × Dev) :=
  if 1 < r.a0 then .err 0x0404 (offArg 0)
  else if 3 < r.a1 then .err 0x0404 (offArg 1)
  else
    let live := (nv.slots r.a0).filter fun x => x.hash.isSome && !x.revoked
    let x := nv.fuse r.a0 r.a1
    if x.hash.isNone ∨ x.revoked ∨ d.runningSlot r.a0 = r.a1 ∨ live.length ≤ 1 then .err 0x050C
    else
      let nv := nv.burn r.a0 r.a1 FuseSlot.revoke
      .ok (nv, (d.syncFuses nv).raise { code := 0x050E, sev := 2, unit := uBoot }) [nv.fuseKeys]

def execUpdateRevoke (r : Req) (s : State) : Host.Outcome State Fault Refusal := upd r 0xA (updRevoke r) s

/-! ### ATTEST (R177, R179, R186) -/

def att (r : Req) (verb : Nat) (priv : Bool) (body : Nv → Dev → VRes (Nv × Dev)) (s : State) :
    Host.Outcome State Fault Refusal := s.onBoth fun nv d => verbNv nv d r 0x10 verb priv body

def execAttestInfo (r : Req) (s : State) : Host.Outcome State Fault Refusal :=
  att r 0 false (fun nv d => .ok (nv, d) [1, nv.serial % 2 ^ 32, nv.serial / 2 ^ 32, 3629]) s

/-- The 256-byte body of an attestation report (R177). -/
def reportBody (nv : Nv) (d : Dev) (arg : List Byte) : List Byte :=
  let im := d.boot.image
  let flags := bit (d.fb F.bootStatus_debugOpen uBoot) + 2 * bit (d.fb F.bootStatus_trial uBoot) + 4 * bit d.fab.lockGlobal +
    8 * bit (decide (d.fg F.twStat_role uTwin = 1)) + 16 * bit (decide (d.fg F.twStat_role uTwin = 2))
  leBytes 4 0x41545250 ++ leBytes 2 1 ++ leBytes 2 flags ++ leBytes 8 nv.serial ++ sliceB arg 0 32 ++
  (match im with
    | some x => fitB x.digest 64
    | none => List.replicate 64 0) ++
  (match im with
    | some x => leBytes 1 (x.fwver / 2 ^ 24) ++ leBytes 1 (x.fwver / 2 ^ 16) ++ leBytes 2 x.fwver
    | none => leBytes 4 0) ++
  leBytes 1 d.imgSvn ++ leBytes 1 nv.svn ++ leBytes 1 (d.fg F.bootStatus_src uBoot) ++
  leBytes 1 (d.runningSlot 0 % 4 + d.runningSlot 1 % 4 * 4) ++ leBytes 2 (nv.fuseKeys / 256) ++ leBytes 6 0 ++
  leBytes 8 d.stamp ++ sliceB arg 32 32 ++ leBytes 88 0

/-- The 3,629-byte report: body and both identity signatures (R177). -/
def report (nv : Nv) (d : Dev) (arg : List Byte) : List Byte :=
  let b := reportBody nv d arg
  b ++ fitB (Config.edSign b) 64 ++ fitB (Config.mlSign b) 3309

def attReport (r : Req) (nv : Nv) (d : Dev) : VRes (Nv × Dev) :=
  if r.argLen < 64 ∨ r.replyMax < 3629 then .err 0x040D else .job (nv, d)

def execAttestReport (r : Req) (s : State) : Host.Outcome State Fault Refusal := att r 1 false (attReport r) s

/-- The report is written to the reply block before the final record (R186). -/
def attReportDone (nv : Nv) (d : Dev) (r : Req) : Dev :=
  let b := report nv d (d.argB r)
  if rgSpace r.range1 = 0 then d.hbmW (rgAddr r.range1) b else d.hostW r.master (rgAddr r.range1) b

def execAttestCert (r : Req) (s : State) : Host.Outcome State Fault Refusal :=
  att r 2 false (fun nv d => if 3 < r.a0 then .err 0x0404 (offArg 0) else .ok (nv, d) [] (Config.certificate r.a0)) s

def attChallenge (r : Req) (nv : Nv) (d : Dev) : VRes (Nv × Dev) :=
  if r.replyMax < 32 then .err 0x040D
  else
    let n := leBytes 32 (Config.entropy d.hl.entropyAt)
    .ok (nv, { d with boot := { d.boot with nonces := d.boot.nonces ++ [n] }, hl := { d.hl with entropyAt := d.hl.entropyAt + 1 } })
      [] n

def execAttestDebugChallenge (r : Req) (s : State) : Host.Outcome State Fault Refusal := att r 3 true (attChallenge r) s

/-- Fuse hashes of the slot pairs a token may use (R179). -/
def Nv.tokenKeys (nv : Nv) : List (List Byte × List Byte) :=
  let ok := fun (l : List FuseSlot) => (l.filter fun x => !x.revoked).filterMap (·.hash)
  (ok nv.ed).flatMap fun a => (ok nv.ml).map fun b => (a, b)

/-- A debug token judged (R179): it uses up the nonce it carries; a token that fails raises E_DEBUG_DENIED. -/
def attUnlock (r : Req) (nv : Nv) (d : Dev) : VRes (Nv × Dev) :=
  if r.argLen < 4096 then .err 0x040D
  else
    match d.boot.nonces.find? fun n => Config.debugToken (d.argB r) nv.serial n nv.tokenKeys with
    | some n => .job (nv, { d with boot := { d.boot with nonces := d.boot.nonces.erase n } }) (some 0)
    | none => .job (nv, d.raise { code := 0x0510, sev := 2, unit := uBoot, master := r.master }) (some 0x0510)

def execAttestDebugUnlock (r : Req) (s : State) : Host.Outcome State Fault Refusal := att r 4 true (attUnlock r) s

/-- The debug gate opens until RST_N (R179). -/
def Dev.openDebug (d : Dev) : Dev :=
  ({ d with fab := { d.fab with debugOpen := true } }.fs F.bootStatus_debugOpen 1 uBoot).raise { code := 0x050F, sev := 2, unit := uBoot }

/-- The oldest nonce's 60 s end (R179). -/
def execDebugNonceExpiry (s : State) : Host.Outcome State Fault Refusal := s.onDev fun d =>
  { d with boot := { d.boot with nonces := d.boot.nonces.tail } }

end Sys2Proof.Machine
end

