-- ==== Sys2Proof/Machine/LinkHooks.lean ====
section
/-! DEFINITION. What other chapters do as a link leaves or enters UP: pack connections end (R380), chain ports tell it (R536), an attach
over the twin link ends (R522). -/
namespace Sys2Proof.Machine

/-- A long verb's outcome decided before its LONG_VERB_COMPLETE; job 0 is none. -/
def Dev.jobDecided (d : Dev) (job outcome : Nat) : Dev :=
  if job = 0 then d
  else { d with oz := { d.oz with jobs := d.oz.jobs.map fun j =>
    if j.job = job ∧ j.state = 0 ∧ j.decided = none then { j with decided := some outcome } else j } }

/-- The connections with a key end (R380): as target the device drops what it has not begun and runs the rest to its end, unreported. -/
def Dev.dropConn (d : Dev) (key : Nat) : Dev :=
  let mine := fun (c : MCmd) => match c.orig with
    | .tgt k _ _ => decide (k = key)
    | _ => false
  let d := { d with md := { d.md with
    conns := d.md.conns.filter fun c => decide (c.key ≠ key)
    cmds := (d.md.cmds.filter fun c => !mine c || c.begun).map fun c => if mine c then { c with orig := .dead } else c } }
  d.fs F.mdCfg_conns ((d.md.conns.map (·.queues)).foldl (· + ·) 0) uMedia

/-- A Bastu-M link leaves UP (R380): a PACK port keeps its commands for reissue, a TARGET port's connection ends. -/
def Dev.mediaLoss (d : Dev) (n : Nat) : Dev :=
  let u := uPack n
  let d := if d.fg F.mpStat_role u = 1 then
      let d := if d.fg F.mpStat_port u = 2 ∨ d.fg F.mpStat_port u = 3 ∨ d.fg F.mpStat_port u = 6 then d.fs F.mpStat_port 1 u else d
      { d with md := { d.md with
          ports := tmod d.md.ports n fun p => { p with queues := 0 }
          pcmds := d.md.pcmds.map fun c => if c.port = n then { c with issued := false } else c } }
    else if d.fg F.mpStat_role u = 2 then d.fs F.mpStat_port 1 u
    else d
  d.dropConn n

/-- A chain port leaves UP (R536), and the connections that cross it end (R531). -/
def Dev.chainLoss (d : Dev) (k : Nat) : Dev :=
  let u := uChainPort k
  if d.fg F.cpStat_state u = 0 then d
  else
    let was := decide (2 ≤ d.fg F.cpStat_state u)
    let d := d.fs F.cpStat_state 1 u
    let d := if was then d.raise { code := 0x1211, sev := 2, unit := u, d0 := k } else d
    let crosses := fun (key : Nat) =>
      let n := key - 0x1000
      decide (0x1000 ≤ key) && decide (getF (d.rd .chRoute uChain (n / 16)) (2 * (n % 16) + 1) (2 * (n % 16)) = k)
    ((d.md.conns.filter fun c => crosses c.key).map (·.key)).eraseDups.foldl Dev.dropConn d

/-- A loss of the twin link ends an attach with E_TWIN_STATE; the attaching device is SOLO again (R522). -/
def Dev.attachFails (d : Dev) : Dev :=
  let role := d.fg F.twStat_role uTwin
  if role = 3 then
    let d := { d with tw := { d.tw with attaching := false, rx := [] } }.fs F.twStat_role 0 uTwin
    let d := d.raise { code := 0x1209, sev := 2, unit := uTwin, d0 := (d.rd .twPeerLo uTwin).toNat }
    ({ d with tw := { d.tw with attachJob := 0 } }).jobDecided d.tw.attachJob 0x1209
  else if d.tw.attaching then
    { d with tw := { d.tw with attaching := false, base := [], freezing := false, attached := false } }.raise
      { code := 0x1209, sev := 2, unit := uTwin, d0 := (d.rd .twPeerLo uTwin).toNat }
  else d

/-- Link n has left UP. -/
def Dev.linkLeft (d : Dev) (n : Nat) : Dev :=
  if n < 8 then d else if n = 8 then d.attachFails else if n < 12 then d.chainLoss (n - 9) else d.mediaLoss (n - 12)

/-- Link n has entered UP. -/
def Dev.linkCame (d : Dev) (n : Nat) : Dev :=
  if 9 ≤ n ∧ n < 12 ∧ d.fg F.cpStat_state (uChainPort (n - 9)) = 1 then
    let u := uChainPort (n - 9)
    (d.fs F.cpStat_state 2 u).raise { code := 0x1211, sev := 2, unit := u, d0 := n - 9 }
  else if 12 ≤ n ∧ d.fg F.mpStat_role (uPack (n - 12)) = 2 ∧ d.fg F.mpStat_port (uPack (n - 12)) = 1 then
    d.fs F.mpStat_port 2 (uPack (n - 12))
  else d

end Sys2Proof.Machine
end

