-- ==== Sys2Proof/Machine/Lanes.lean ====
section
/-! DEFINITION. Chapter 07, serial lanes and the Bastu link layer: quads (R188 to R190, R208), links (R207), training and
retraining (R202 to R206), 25GBASE-R (R209) and PCI Express (R165, R211). -/
namespace Sys2Proof.Machine

/-! ### Links and their lanes (R188, R207) -/

def Dev.quadPers (d : Dev) (q : Nat) : Nat := d.fg F.quadCfg_pers (uQuad q)
def Dev.quadIndex (d : Dev) (q : Nat) : Nat := d.fg F.quadCfg_index (uQuad q)
def Dev.laneEn (d : Dev) (l : Nat) : Bool := (d.fg F.quadCfg_laneEn (uQuad (l / 4))).testBit (l % 4)

/-- The four lanes of a quad. -/
def quadLanes (q : Nat) : List Nat := [4 * q, 4 * q + 1, 4 * q + 2, 4 * q + 3]

/-- General quads with a personality and index. -/
def Dev.quadsOf (d : Dev) (pers index : Nat) : List Nat :=
  ((List.range 12).map (8 + ·)).filter fun q => decide (d.quadPers q = pers) && decide (d.quadIndex q = index)

/-- Lanes of link n in link order (R207, R190). -/
def Dev.linkLanes (d : Dev) (n : Nat) : List Nat :=
  if n < 8 then
    if d.fb F.lnkMap_en uLanes n then (List.range (d.fg F.lnkMap_count uLanes n)).map (d.fg F.lnkMap_first uLanes n + ·) else []
  else if n = 8 then (d.quadsOf 2 0 ++ d.quadsOf 2 1).flatMap quadLanes
  else if n < 12 then (d.quadsOf 3 (n - 9)).flatMap quadLanes
  else (d.quadsOf 4 (n - 12)).flatMap quadLanes

/-- Lanes a link needs. -/
def Dev.linkWidth (d : Dev) (n : Nat) : Nat := if n < 8 then d.fg F.lnkMap_count uLanes n else if n = 8 then 8 else 4

/-- A link is in use: its lanes are mapped and every one enabled. -/
def Dev.linkOn (d : Dev) (n : Nat) : Bool :=
  let l := d.linkLanes n
  !l.isEmpty && decide (l.length = d.linkWidth n) && l.all d.laneEn

/-- The link a lane belongs to. -/
def Dev.linkOfLane (d : Dev) (l : Nat) : Option Nat := (List.range 20).find? fun n => (d.linkLanes n).contains l

def Dev.lstate (d : Dev) (n : Nat) : Nat := d.fg F.lnkStat_lstate uLanes n
def Dev.link (d : Dev) (n : Nat) : LinkSt := (tget d.ln.links n).getD {}
def Dev.setLinkSt (d : Dev) (n : Nat) (x : LinkSt) : Dev := { d with ln := { d.ln with links := tset d.ln.links n x } }
def Dev.lane (d : Dev) (l : Nat) : LaneSt := (tget d.ln.lanes l).getD {}
def Dev.setLane (d : Dev) (l : Nat) (x : LaneSt) : Dev := { d with ln := { d.ln with lanes := tset d.ln.lanes l x } }

/-- LSTATE of a link and of its lanes (R207): 0 OFF, 1 DOWN, 2 TRAIN, 3 ALIGN, 4 UP, 5 FAIL. -/
def Dev.setLstate (d : Dev) (n st : Nat) : Dev :=
  (d.linkLanes n).foldl (fun e l => e.fs F.lnStatus_lstate st (uQuad (l / 4)) (l % 4)) (d.fs F.lnkStat_lstate st uLanes n)

/-- A link event (R213). -/
def Dev.linkEv (d : Dev) (code sev n lane : Nat) : Dev := d.raise { code := code, sev := sev, unit := uLanes, d0 := n, d1 := lane }

/-- Severity of E_LINK_DOWN: S3 on ingest and twin links. -/
def downSev (n : Nat) : Nat := if n ≤ 8 then 3 else 2

/-- Training begins (R202, R205, R206): mode 1 fast, 2 full; a full one drops block lock. -/
def Dev.beginTrain (d : Dev) (n mode : Nat) : Dev :=
  let x := d.link n
  let d := (d.setLinkSt n { x with mode := mode, aligned := 0, tries := if mode = 2 then x.tries + 1 else 0 }).setLstate n 2
  (d.linkLanes n).foldl (fun e l =>
    let e := e.setLane l {}
    if mode = 2 then e.fs F.lnStatus_blockLock 0 (uQuad (l / 4)) (l % 4) else e) d

/-- A retrain: training that RETRAINS counts (R207), as every training but a configured link's first. -/
def Dev.train (d : Dev) (n mode : Nat) : Dev := (d.fadd F.lnkStat_retrains 1 uLanes n).beginTrain n mode

/-- Whether every quad of a link has its reference (R204). -/
def Dev.refsOk (d : Dev) (n : Nat) : Bool := (d.linkLanes n).all fun l => d.fb F.quadStatus_refOk (uQuad (l / 4))

/-- A link leaves UP: E_LINK_DOWN (R204, R213). -/
def Dev.leaveUp (d : Dev) (n lane : Nat) : Dev :=
  if d.lstate n = 4 then (d.linkEv 0x0602 (downSev n) n lane).linkLeft n else d

/-- A cause of R204 on link n: out of UP it takes the link DOWN for a fast retrain; in training it is counted and starts nothing
new (R206). -/
def Dev.linkCause (d : Dev) (n lane : Nat) : Dev :=
  if d.lstate n = 4 then
    let d := (d.leaveUp n lane).setLinkSt n { d.link n with tries := 0, failed := false }
    d.train n 1
  else if d.lstate n = 2 ∨ d.lstate n = 3 then d.fadd F.lnkStat_retrains 1 uLanes n
  else d

/-- Links follow the configuration: one newly in use starts full training once its references stand, one no longer in use
goes OFF (R203, R207). -/
def Dev.syncLink (d : Dev) (n : Nat) : Dev :=
  if d.linkOn n then
    if d.lstate n = 0 then
      let d := d.setLinkSt n {}
      if d.refsOk n then d.beginTrain n 2 else d.setLstate n 1
    else d
  else if d.lstate n = 0 then d
  else ((d.leaveUp n 0xFFFFFFFF).setLinkSt n {}).setLstate n 0

def Dev.syncLinks (d : Dev) : Dev := (List.range 20).foldl Dev.syncLink d

/-! ### Quads (R189, R190, R208) -/

/-- E_LANE_CFG: a lane or link register write is dropped (R213). -/
def Dev.laneCfg (d : Dev) (m : Nat) : Dev := d.raise { code := 0x0601, sev := 1, unit := uLanes, master := m }

/-- Personality, index and lane enables of a quad. -/
structure QuadSet where
  pers : Nat
  index : Nat
  en : Nat

/-- Quad q as it would read, quad `q0` taking the written values. -/
def Dev.quadAs (d : Dev) (q0 : Nat) (x : QuadSet) (q : Nat) : QuadSet :=
  if q = q0 then x else ⟨d.quadPers q, d.quadIndex q, d.fg F.quadCfg_laneEn (uQuad q)⟩

/-- Bits set in a 4-bit field. -/
def bits4 (n : Nat) : Nat := ((List.range 4).filter fun i => n.testBit i).length

/-- The rules of R190 over the general quads. -/
def quadsValid (f : Nat → QuadSet) : Bool :=
  let gs := (List.range 12).map (8 + ·)
  let of := fun p => gs.filter fun q => decide ((f q).pers = p)
  let distinct := fun (l : List Nat) => decide ((l.map fun q => (f q).index).eraseDups.length = l.length)
  gs.all (fun q => [0, 2, 3, 4, 5].contains (f q).pers) &&
  (of 2).all (fun q => decide ((f q).index = q % 2)) && decide (((of 2).map (· / 2)).eraseDups.length ≤ 1) &&
  (of 3).all (fun q => decide ((f q).index ≤ 2)) && distinct (of 3) &&
  (of 4).all (fun q => decide ((f q).index ≤ 7)) && distinct (of 4) &&
  decide (((of 5).map fun q => bits4 (f q).en).foldl (· + ·) 0 ≤ 8)

/-- QUAD_CFG of quad q written (R190, R208): dropped with E_LANE_CFG, or applied, enabled lanes starting training. A PCIE
quad's write has no effect. -/
def Dev.effQuadCfg (d : Dev) (m q : Nat) (v : Word) : Dev :=
  if 20 ≤ q then d
  else
    let u := uQuad q
    let pers := if q < 8 then 1 else getF v 31 28
    let rate := if q < 8 then getF v 23 20 else if pers = 0 then 0 else 2
    let x : QuadSet := ⟨pers, getF v 27 24, getF v 19 16⟩
    let was : QuadSet := d.quadAs 99 x q
    let moved := decide (was.pers ≠ pers) || decide (was.index ≠ x.index) || decide (d.fg F.quadCfg_rate u ≠ rate)
    if getF v 15 14 = 3 ∨ 3 < rate ∨ (moved ∧ was.en ≠ 0) ∨ (8 ≤ q ∧ !quadsValid (d.quadAs q x)) then d.laneCfg m
    else
      let d := ((((d.fs F.quadCfg_pers pers u).fs F.quadCfg_index x.index u).fs F.quadCfg_rate rate u).fs F.quadCfg_laneEn x.en
        u).fs F.quadCfg_fec (getF v 15 14) u
      let d := (List.range 4).foldl (fun e k =>
        let l := 4 * q + k
        if (e.linkOfLane l).isSome then e else e.fs F.lnStatus_lstate (if x.en.testBit k then 1 else 0) u k) d
      let d := d.fs F.quadStatus_pllLock (bit (decide (x.en ≠ 0) && d.fb F.quadStatus_refOk u)) u
      (d.cfgWritten .quadCfg u 0).syncLinks

def execQuadCfgWrite (m : Nat) (q : Fin 24) (v : Word) (s : State) : Host.Outcome State Fault Refusal :=
  s.access m fun d => d.gated m .quadCfg (uQuad q.val) 0 v fun d => d.effQuadCfg m q.val v

/-- A map that leaves EN = 1 and may not (R207). -/
def Dev.mapBad (d : Dev) (n : Nat) (v : Word) : Bool :=
  let first := getF v 4 0
  let cnt := getF v 11 8
  let lanes := (List.range cnt).map (first + ·)
  let rates := (lanes.map fun l => d.fg F.quadCfg_rate (uQuad (l / 4))).eraseDups
  decide (cnt = 0) || decide (8 < cnt) || decide (32 < first + cnt) || decide (1 < rates.length) ||
  ((List.range 8).any fun k => decide (k ≠ n) && (d.linkLanes k).any lanes.contains) ||
  (d.fb F.lnkMap_en uLanes n &&
    (decide (d.fg F.lnkMap_first uLanes n ≠ first) || decide (d.fg F.lnkMap_count uLanes n ≠ cnt)))

/-- LNK_MAP n written (R207). -/
def Dev.effLnkMap (d : Dev) (m n : Nat) (v : Word) : Dev :=
  if getF v 31 31 = 1 then
    if d.mapBad n v then d.laneCfg m else (d.putFields .lnkMap uLanes n v).syncLinks
  else
    let d := if d.lstate n = 0 then d else ((d.leaveUp n 0xFFFFFFFF).setLinkSt n {}).setLstate n 0
    d.putFields .lnkMap uLanes n v

def execLnkMapWrite (m : Nat) (n : Fin 8) (v : Word) (s : State) : Host.Outcome State Fault Refusal :=
  s.access m fun d => d.gated m .lnkMap uLanes n.val v fun d => d.effLnkMap m n.val v

/-- Whether a lane's link trains. -/
def Dev.laneTraining (d : Dev) (l : Nat) : Bool :=
  match d.linkOfLane l with
  | some n => decide (d.lstate n = 2) || decide (d.lstate n = 3)
  | none => false

/-- LN_TX of lane l written (R200, R208): coefficients beyond the swing, or a change of them in training, drop the write. -/
def Dev.effLnTx (d : Dev) (m l : Nat) (v : Word) : Dev :=
  let u := uQuad (l / 4)
  let k := l % 4
  let w := d.rd .lnTx u k
  let same := decide (getF v 23 20 = getF w 23 20) && decide (getF v 12 8 = getF w 12 8) && decide (getF v 3 0 = getF w 3 0)
  if 20 ≤ l / 4 then d
  else if 32 < getF v 12 8 + getF v 3 0 ∨ (d.laneTraining l ∧ !same) then d.laneCfg m
  else (d.putFields .lnTx u k v).fs F.lnTx_cMain (64 - getF v 12 8 - getF v 3 0) u k

/-- LN_RX and LN_CTL of lane l written without RETRAIN or FULL (R208). -/
def Dev.effLnRx (d : Dev) (m l : Nat) (v : Word) : Dev :=
  if 20 ≤ l / 4 then d
  else if getF v 29 28 = 3 then d.laneCfg m else d.putFields .lnRx (uQuad (l / 4)) (l % 4) v

/-- A RETRAIN write (R206): ignored while the link trains. -/
def Dev.retrain (d : Dev) (l : Nat) : Dev :=
  match d.linkOfLane l with
  | none => d
  | some n =>
    if d.lstate n = 4 then d.linkCause n l
    else if d.lstate n = 1 ∨ d.lstate n = 5 then (d.setLinkSt n { d.link n with tries := 0 }).train n 1
    else d

/-- A FULL write (R206): full training starts or restarts. -/
def Dev.fullTrain (d : Dev) (l : Nat) : Dev :=
  match d.linkOfLane l with
  | none => d
  | some n => if d.lstate n = 0 then d else ((d.leaveUp n l).setLinkSt n {}).train n 2

/-- LN_CTL of lane l written (R206, R208). -/
def Dev.effLnCtl (d : Dev) (m l : Nat) (v : Word) : Dev :=
  if 20 ≤ l / 4 then d
  else if getF v 29 28 = 3 then d.laneCfg m
  else
    let d := d.putFields .lnCtl (uQuad (l / 4)) (l % 4) v
    let d := if getF v 31 31 = 1 then d.retrain l else d
    if getF v 30 30 = 1 then d.fullTrain l else d

def Dev.lnCtlBy (d : Dev) (m l : Nat) (v : Word) : Dev :=
  d.gated m .lnCtl (uQuad (l / 4)) (l % 4) v fun d => d.effLnCtl m l v

def execLnCtlRetrain (m : Nat) (l : Fin 96) (s : State) : Host.Outcome State Fault Refusal :=
  s.access m fun d => d.lnCtlBy m l.val (BitVec.ofNat 32 (2 ^ 31))
def execLnCtlFull (m : Nat) (l : Fin 96) (s : State) : Host.Outcome State Fault Refusal :=
  s.access m fun d => d.lnCtlBy m l.val (BitVec.ofNat 32 (2 ^ 30))

/-! ### Training (R194, R196, R202) -/

/-- A step of one coefficient, in its range (R200); none at the limit. -/
def coefStep (pre post tap act : Nat) : Option (Nat × Nat) :=
  let ok := fun (a b : Nat) => if a ≤ 15 ∧ b ≤ 31 ∧ a + b ≤ 32 then some (a, b) else none
  match act, tap with
  | 1, 0 => ok (pre + 1) post
  | 1, 2 => ok pre (post + 1)
  | 2, 0 => if pre = 0 then none else ok (pre - 1) post
  | 2, 2 => if post = 0 then none else ok pre (post - 1)
  | 3, _ => some (0, 8)
  | 0, _ => some (pre, post)
  | _, _ => none

/-- A LINK block on lane l (R202): its request moves the transmit coefficients and is answered with its sequence, 1 UPDATED
or 2 AT_LIMIT; an ingest lane's back-channel transmitter is not tuned (R201). A request on the main tap, which follows the
other two (R200), is answered AT_LIMIT (log entry 18). FAR_FAULT shows the far end's state (R208). -/
def Dev.linkBlock (d : Dev) (l far tap act seq : Nat) : Dev :=
  let u := uQuad (l / 4)
  let k := l % 4
  if !d.laneTraining l then d
  else
  let d := d.fs F.lnStatus_farFault (bit (decide (far = 3))) u k
  if d.quadPers (l / 4) = 1 then d.setLane l { far := far, resp := 0, seq := seq }
  else
    match coefStep (d.fg F.lnTx_cPre u k) (d.fg F.lnTx_cPost u k) tap act with
    | some (a, b) =>
      (((d.fs F.lnTx_cPre a u k).fs F.lnTx_cPost b u k).fs F.lnTx_cMain (64 - a - b) u k).setLane l
        { far := far, resp := if act = 0 then 0 else 1, seq := seq }
    | none => d.setLane l { far := far, resp := 2, seq := seq }

def execLinkBlockRx (l : Fin 96) (far tap act seq : Nat) (s : State) : Host.Outcome State Fault Refusal :=
  s.onDev fun d => d.linkBlock l.val far tap act seq

/-- A lane gains block lock in training (R202). -/
def execBlockLockAcquired (l : Fin 96) (s : State) : Host.Outcome State Fault Refusal := s.onDev fun d =>
  if d.laneTraining l.val then d.fs F.lnStatus_blockLock 1 (uQuad (l.val / 4)) (l.val % 4) else d

/-- An ALIGN column is consistent: lane indices, lane counts, equal markers, skew at most 24 blocks (R196). -/
def Dev.alignOk (d : Dev) (n skew : Nat) (col : List (Nat × Nat × Nat)) : Bool :=
  let w := (d.linkLanes n).length
  decide (skew ≤ 24) && decide (col.map (·.1) = List.range w) && col.all (fun c => decide (c.2.1 = w)) &&
  decide ((col.map (·.2.2)).eraseDups.length ≤ 1)

/-- The link enters UP: E_LINK_UP (R202, R205); the far end reports no FAULT. -/
def Dev.linkUp (d : Dev) (n skew : Nat) : Dev :=
  let d := (d.linkLanes n).foldl (fun e l => e.fs F.lnStatus_farFault 0 (uQuad (l / 4)) (l % 4)) d
  let d := ((d.setLinkSt n {}).setLstate n 4).fs F.lnkStat_skew skew uLanes n
  (d.linkEv 0x0603 1 n 0xFFFFFFFF).linkCame n

/-- An ALIGN column arrives on link n: per lane its index, count and marker, and the skew between lanes (R196, R202). -/
def Dev.alignColumn (d : Dev) (n skew : Nat) (col : List (Nat × Nat × Nat)) : Dev :=
  let st := d.lstate n
  if st = 4 then
    if d.alignOk n skew col then d.fs F.lnkStat_skew skew uLanes n else (d.linkEv 0x0606 2 n 0xFFFFFFFF).linkCause n 0xFFFFFFFF
  else if (st = 2 ∨ st = 3) ∧ (d.linkLanes n).all (fun l => d.fb F.lnStatus_blockLock (uQuad (l / 4)) (l % 4)) then
    if d.alignOk n skew col then
      let c := (d.link n).aligned + 1
      if 4 ≤ c then d.linkUp n skew else (d.setLinkSt n { d.link n with aligned := c }).setLstate n 3
    else (d.setLinkSt n { d.link n with aligned := 0 }).linkEv 0x0606 2 n 0xFFFFFFFF
  else d

def execAlignColumnRx (n : Fin 20) (skew : Nat) (col : List (Nat × Nat × Nat)) (s : State) : Host.Outcome State Fault Refusal :=
  s.onDev fun d => d.alignColumn n.val skew col

/-- Block lock lost on a lane (R204); its invalid blocks count in SYNC_ERR. -/
def Dev.lockLost (d : Dev) (l : Nat) : Dev :=
  let d := (d.fadd F.lnStatus_syncErr 16 (uQuad (l / 4)) (l % 4)).fs F.lnStatus_blockLock 0 (uQuad (l / 4)) (l % 4)
  match d.linkOfLane l with
  | some n => d.linkCause n l
  | none => d

/-- An elastic buffer overflows on a lane (R193, R204). -/
def Dev.overflow (d : Dev) (l : Nat) : Dev :=
  match d.linkOfLane l with
  | some n => if d.lstate n = 0 then d else (d.linkEv 0x0605 2 n l).linkCause n l
  | none => d

def execBlockLockLost (l : Fin 96) (s : State) : Host.Outcome State Fault Refusal := s.onDev fun d => d.lockLost l.val
def execElasticOverflow (l : Fin 96) (s : State) : Host.Outcome State Fault Refusal := s.onDev fun d => d.overflow l.val

/-- The far end reports FAULT on a lane (R204). -/
def Dev.remoteFault (d : Dev) (l : Nat) : Dev :=
  let d := d.fs F.lnStatus_farFault 1 (uQuad (l / 4)) (l % 4)
  match d.linkOfLane l with
  | some n => if d.lstate n = 0 then d else (d.linkEv 0x0609 2 n l).linkCause n l
  | none => d

def execRemoteFaultRx (l : Fin 96) (s : State) : Host.Outcome State Fault Refusal := s.onDev fun d => d.remoteFault l.val

/-! ### PCI Express (R92, R135, R165, R211) -/

/-- The endpoint's reset (R165): holds of functions end, their mailboxes close, their vectors are cleared. -/
def Dev.perst (d : Dev) : Dev :=
  let d := (d.fab.holds.filter fun h => !h.isUnit && isFn h.id).foldl (fun e h => e.endHold false h.id) d
  let fs := (d.oz.mboxes.map (·.owner) ++ d.oz.bootWait).eraseDups
  let d := fs.foldl Dev.closeAll d
  { d with qf := { d.qf with vecs := [] } }

def execPerstNAssert (s : State) : Host.Outcome State Fault Refusal := s.onDev fun d =>
  { d.perst with pins := { d.perst.pins with perstN := false } }
def execPerstNRelease (s : State) : Host.Outcome State Fault Refusal := s.onDev fun d =>
  { d with pins := { d.pins with perstN := true } }

/-- A function-level reset (R135); it ends no hold (R92). -/
def execPcieFlr (f : Fin 64) (s : State) : Host.Outcome State Fault Refusal := s.onDev fun d =>
  let d := d.closeAll f.val
  { d with qf := { d.qf with vecs := d.qf.vecs.filter fun p => decide (p.1 / 0x1000 ≠ f.val) } }

/-- A hot reset, or a link-down entered from L0 (R211). -/
def Dev.pcieDown (d : Dev) : Dev := d.perst.raise { code := 0x060A, sev := 2, unit := uPcie }

def execPcieLinkDown (s : State) : Host.Outcome State Fault Refusal := s.onDev Dev.pcieDown

/-- The link trains to a width and a rate in GT/s (R211). -/
def execPcieLinkUp (width rate : Nat) (s : State) : Host.Outcome State Fault Refusal := s.onDev fun d =>
  if width < 16 ∨ rate < 32 then d.raise { code := 0x060A, sev := 2, unit := uPcie, d0 := width, d1 := rate } else d

def execPcieAerError (status : Word) (s : State) : Host.Outcome State Fault Refusal := s.onDev fun d =>
  d.raise { code := 0x060B, sev := 2, unit := uPcie, d0 := status.toNat }

/-! ### References and timers (R204, R205) -/

/-- Links with a lane in quad q. -/
def Dev.linksOfQuad (d : Dev) (q : Nat) : List Nat := (List.range 20).filter fun n => (d.linkLanes n).any fun l => decide (l / 4 = q)

/-- REF_OK of quad q falls (R204). -/
def Dev.refLost (d : Dev) (q : Nat) : Dev :=
  let u := uQuad q
  let d := ((d.fs F.quadStatus_refOk 0 u).fs F.quadStatus_pllLock 0 u).raise { code := 0x0608, sev := 3, unit := u, d0 := q }
  let d := (List.range 4).foldl (fun e k => (e.fs F.lnStatus_blockLock 0 u k).fs F.lnStatus_lstate
    (if e.laneEn (4 * q + k) then 1 else 0) u k) d
  let d := (d.linksOfQuad q).foldl (fun e n =>
    if e.lstate n = 0 then e else ((e.leaveUp n 0xFFFFFFFF).setLinkSt n {}).setLstate n 1) d
  if 20 ≤ q then d.pcieDown else d

def execRefLost (q : Fin 24) (s : State) : Host.Outcome State Fault Refusal := s.onDev fun d => d.refLost q.val

/-- REF_OK of quad q returns, with the mean offset in 1/4 ppm. -/
def execRefOkReturn (q : Fin 24) (ppm : Int) (s : State) : Host.Outcome State Fault Refusal := s.onDev fun d =>
  let u := uQuad q.val
  ((d.fs F.quadStatus_refOk 1 u).fs F.quadStatus_refPpm (unsgn 16 ppm) u).fs F.quadStatus_pllLock
    (bit (decide (d.fg F.quadCfg_laneEn u ≠ 0))) u

/-- 1 ms after REF_OK returned, the quad's links train fully (R204). -/
def execRefRetrainTimer (q : Fin 24) (s : State) : Host.Outcome State Fault Refusal := s.onDev fun d =>
  (d.linksOfQuad q.val).foldl (fun e n =>
    if e.linkOn n && e.refsOk n && decide (e.lstate n = 1) then (e.setLinkSt n {}).train n 2 else e) d

/-- A fast retrain not UP within 2 ms: full training (R205). -/
def execFastRetrainTimeout (n : Fin 20) (s : State) : Host.Outcome State Fault Refusal := s.onDev fun d =>
  if (d.link n.val).mode = 1 then d.train n.val 2 else d

/-- A full training not UP within 50 ms: repeated up to three times, then FAIL (R205). -/
def Dev.fullTimeout (d : Dev) (n : Nat) : Dev :=
  let x := d.link n
  if x.mode ≠ 2 then d
  else if x.failed then (d.setLinkSt n { x with mode := 0 }).setLstate n 5
  else if x.tries < 3 then d.train n 2
  else ((d.setLinkSt n { x with mode := 0, failed := true }).setLstate n 5).linkEv 0x0604 3 n 0xFFFFFFFF

def execFullTrainTimeout (n : Fin 20) (s : State) : Host.Outcome State Fault Refusal := s.onDev fun d => d.fullTimeout n.val

/-- A link in FAIL tries full training again, once per second (R205). -/
def execLinkFailRetry (n : Fin 20) (s : State) : Host.Outcome State Fault Refusal := s.onDev fun d =>
  if d.lstate n.val = 5 ∧ d.linkOn n.val then d.train n.val 2 else d

/-! ### Ethernet and counters (R208, R209) -/

/-- The lane of Ethernet port n: enabled ETH lanes in ascending number (R190). -/
def Dev.ethLane (d : Dev) (n : Nat) : Option Nat :=
  ((((List.range 12).map (8 + ·)).filter fun q => decide (d.quadPers q = 5)).flatMap quadLanes |>.filter d.laneEn)[n]?

/-- An Ethernet port loses or regains block lock (R209). -/
def execEthLinkChange (n : Fin 8) (up : Bool) (s : State) : Host.Outcome State Fault Refusal := s.onDev fun d =>
  match d.ethLane n.val with
  | none => d
  | some l =>
    let d := (d.fs F.lnStatus_blockLock (bit up) (uQuad (l / 4)) (l % 4)).fs F.lnStatus_lstate (if up then 4 else 1)
      (uQuad (l / 4)) (l % 4)
    d.raise { code := 0x060C, sev := 2, unit := uQuad (l / 4), d0 := n.val }

def execLnkStatRead (m : Nat) (n : Fin 20) (s : State) : Host.Outcome State Fault Refusal :=
  s.access m fun d => d.readClear m .lnkStat uLanes n.val [F.lnkStat_retrains, F.lnkStat_hdrErr]

/-- A 32-bit read of a lane's LN_STATUS (0), LN_FILL (1), LN_CTL (2) or LN_ETH (3) clears its counters (R208). -/
def execLnCounterRead (m : Nat) (l : Fin 96) (which : Fin 4) (s : State) : Host.Outcome State Fault Refusal :=
  s.access m fun d =>
    let u := uQuad (l.val / 4)
    let k := l.val % 4
    match which.val with
    | 0 => d.readClear m .lnStatus u k [F.lnStatus_syncErr]
    | 1 => d.readClear m .lnFill u k [F.lnFill_del, F.lnFill_ins]
    | 2 => d.readClear m .lnCtl u k [F.lnCtl_prbsErr]
    | _ => d.readClear m .lnEth u k [F.lnEth_fcsErr, F.lnEth_pause]

end Sys2Proof.Machine
end

