-- ==== Sys2Proof/Machine/Alloc.lean ====
section
/-! DEFINITION. Firmware's allocations in the HBM regions (R430, R431): the spec gives no addresses, so the place is a free value
among the gaps that fit (log entry 19). -/
namespace Sys2Proof.Machine

/-- Base and end of region k in bytes (R430, R443). -/
def Dev.region (d : Dev) (k : Nat) : Nat × Nat :=
  let b := d.fg F.hbmLayout_base uHbm k * 0x2000000
  (b, b + d.fg F.hbmLayout_size uHbm k * 0x2000000)

def rgDevelop : Nat := 3
def rgCodec : Nat := 4
def rgIngest : Nat := 6
def rgMedia : Nat := 7

/-- The gaps between allocations within [lo, hi), the areas ascending. -/
def gapsIn (hi : Nat) : Nat → List Area → List (Nat × Nat)
  | lo, [] => if lo < hi then [(lo, hi)] else []
  | lo, a :: as =>
    if a.base + a.size ≤ lo then gapsIn hi lo as
    else if hi ≤ a.base then (if lo < hi then [(lo, hi)] else [])
    else (if lo < a.base then [(lo, a.base)] else []) ++ gapsIn hi (a.base + a.size) as

/-- An area in its place by ascending base. -/
def insArea : List Area → Area → List Area
  | [], a => [a]
  | x :: xs, a => if a.base < x.base then a :: x :: xs else x :: insArea xs a

/-- `size` bytes allocated in region k at a multiple of 4 KiB, under a tag; none where no gap fits. -/
def Dev.alloc (d : Dev) (k size tag : Nat) : Option (Nat × Dev) :=
  let r := d.region k
  let size := ceilDiv size 4096 * 4096
  let fit := (gapsIn r.2 r.1 d.hbm.areas).filter fun g => decide (ceilDiv g.1 4096 * 4096 + size ≤ g.2)
  match fit[d.freeVal % fit.length]? with
  | none => none
  | some g =>
    let lo := ceilDiv g.1 4096 * 4096
    let places := (g.2 - lo - size) / 4096 + 1
    let base := lo + d.freeVal / fit.length % places * 4096
    some (base, { d.useFree with hbm := { d.hbm with areas := insArea d.hbm.areas ⟨base, size, tag⟩ } })

/-- The area under a tag. -/
def Dev.area (d : Dev) (tag : Nat) : Option Area := d.hbm.areas.find? fun a => decide (a.tag = tag)

/-- The area under a tag freed. -/
def Dev.freeArea (d : Dev) (tag : Nat) : Dev :=
  { d with hbm := { d.hbm with areas := d.hbm.areas.filter fun a => decide (a.tag ≠ tag) } }

/-- A region-table entry granted to the masters of (mask, master) over an area (R431); none where the table is full. -/
def Dev.grantRgn (d : Dev) (mask master base size : Nat) (rd wr : Bool) : Option (Nat × Dev) :=
  match (List.range 512).find? fun i => (tget d.hbm.rgn i).isNone with
  | none => none
  | some i =>
    some (i, { d with hbm := { d.hbm with
      rgn := tset d.hbm.rgn i ⟨wr, rd, false, base / 4096, ceilDiv size 4096, mask, master⟩ } })

/-- Entries that grant a master an area's pages, removed. -/
def Dev.revokeRgn (d : Dev) (master base : Nat) : Dev :=
  { d with hbm := { d.hbm with rgn := d.hbm.rgn.filter fun p =>
      !(decide (p.2.master = master) && decide (p.2.base = base / 4096) && !p.2.rsvd) } }

/-- Tags of allocations: the chapter's number and an index. -/
def tagOf (chapter n : Nat) : Nat := chapter * 0x10000 + n

end Sys2Proof.Machine
end

