-- ==== Sys2Proof/Machine/Roles.lean ====
section
/-! DEFINITION. Tile roles and their changes (R303, R304, R311 to R314), and what a lost frame costs its streams (R310, R329). -/
namespace Sys2Proof.Machine

/-- A pipeline, colour or output event: DETAIL0 the camera or stream. -/
def pxEv (code sev obj : Nat) (d1 d2 : Nat := 0) : Ev := { code := code, sev := sev, unit := uPipe, d0 := obj, d1 := d1, d2 := d2 }

/-! ### Roles (R303, R304) -/

/-- Every tile. -/
def allTiles : List Nat := (List.range 72).map uTile

def Dev.roleOf (d : Dev) (u : Nat) : Option Role := tget d.pipe.roles u

/-- Whether a tile's role satisfies f. -/
def Dev.inRole (d : Dev) (f : Role → Bool) (u : Nat) : Bool := match d.roleOf u with
  | some r => f r
  | none => false

def Role.isC0 : Role → Bool
  | .inl _ _ => true
  | .reserve => true
  | _ => false
def Role.isPart : Role → Bool
  | .part _ => true
  | _ => false

/-- The work class that a role brings (R57, R303). -/
def Role.cls : Role → Nat
  | .inl _ _ => 0
  | .part _ => 1
  | .compat => 1
  | _ => 3

def tilesOf (g : Nat) : List Nat := (List.range 4).map fun i => uTile (4 * g + i)
def groupOfTile (u : Nat) : Nat := memberNo u / 4

/-- The tile counts of OUT_POOL and the groups of OUT_PART follow the roles (R334); E_OUT_NO_SPARE as the usable spares fall
below eight (R304). -/
def Dev.syncPool (d : Dev) : Dev :=
  let cnt := fun (f : Role → Bool) (ok : Nat → Bool) => (allTiles.filter fun u => d.inRole f u && ok u).length
  let spares := cnt (· == .spare) fun u => decide (d.own u ≠ stUnusable)
  let ready := cnt (· == .spare) fun u => decide (d.own u = stReady)
  let e := (d.fs F.outPool_parts (cnt Role.isPart fun _ => true) uPipe).fs F.outPool_inline (cnt Role.isC0 fun _ => true) uPipe
  let e := (e.fs F.outPool_compat (cnt (· == .compat) fun _ => true) uPipe).fs F.outPool_spare ready uPipe
  let e := (List.range 4).foldl (fun e k =>
    let gs := (List.range 18).filter fun g => (tilesOf g).any fun u => d.inRole (· == .part k) u
    e.fs F.outPart_groups (gs.foldl (fun a g => a + 2 ^ g) 0) uPipe k) e
  let few := decide (spares < 8)
  let told := d.pipe.noSpare
  let e := { e with pipe := { e.pipe with noSpare := few } }
  if few && !told then e.raise (pxEv 0x0A0C 2 0) else e

/-- A tile's role recorded with the work class that goes with it (R57); a group with an in-line tile is marked C0 (R306). -/
def Dev.setRole (d : Dev) (u : Nat) (r : Role) : Dev :=
  let d := { d with pipe := { d.pipe with roles := tset d.pipe.roles u r } }
  let g := groupOfTile u
  let cls := ((tilesOf g).map fun v => ((d.roleOf v).map Role.cls).getD 3).foldl min 3
  let ctx := tset d.bank.ctx u { d.slot u with cls := r.cls }
  { d with bank := { d.bank with ctx := tset ctx (uTileGroup g) { d.slot (uTileGroup g) with cls := cls } } }

/-- The roles at service-ready (R304): spares are the tiles of the two highest-indexed groups without an UNUSABLE tile; every
other usable tile starts in partition 0. -/
def Dev.initRoles (d : Dev) : Dev :=
  let whole := (List.range 18).reverse.filter fun g => (tilesOf g).all fun u => decide (d.own u ≠ stUnusable)
  let sp := whole.take 2
  ((allTiles.filter fun u => decide (d.own u ≠ stUnusable)).foldl (fun e u =>
    e.setRole u (if sp.contains (groupOfTile u) then .spare else .part 0)) d).syncPool

/-! ### Rotation (R311 to R313) -/

/-- A tile prepared to take a role: its context slot holds a new role epoch, which a READY tile takes in through QUARANTINE
(R22, R311); it works at the level of the tile it replaces. -/
def Dev.prepare (d : Dev) (a b : Nat) : Dev :=
  let d := d.fs F.ucbEpoch_epochExp ((d.fg F.ucbEpoch_epochExp b + 1) % 65536) b
  let d := if d.own b = stReady then d.setUst b stQuarantine 0x4 else d
  d.applyLevel b (d.fg F.ucbPip_actLevel a)

/-- Firmware drains a tile (R311, R312); `reload`: a RELOAD follows (R272). -/
def Dev.drainTile (d : Dev) (u : Nat) (reload : Bool) : Dev :=
  let d := if reload then { d with bank := { d.bank with reload := u :: d.bank.reload.filter (· ≠ u) } } else d
  if d.own u = stActive then d.setUst u stDraining 0x8
  else if d.own u = stReady ∧ reload = true then
    { d with bank := { d.bank with reload := d.bank.reload.filter (· ≠ u) } }.setUst u stQuarantine 0x4
  else d

/-- A roll skipped: six in a row raise E_HL_ROLL_SKIP (R553). -/
def Dev.rollSkip (d : Dev) : Dev :=
  let n := d.hl.rollSkips + 1
  let job := d.hl.rollJob
  let d := ({ d with hl := { d.hl with rollSkips := if n = 6 then 0 else n, rollJob := 0 } }).jobDecided job 0x130D
  if n = 6 then d.raise { code := 0x130D, sev := 1, unit := uOzder } else d

/-- A failure takes the spare that a roll has drawn and not yet moved to: the roll is abandoned, counted as a skip (R554). -/
def Dev.rollTaken (d : Dev) (b : Nat) : Dev :=
  match d.hl.roll with
  | none => d
  | some (a, s) =>
    if s = b then
      ({ d with hl := { d.hl with roll := none },
                pipe := { d.pipe with rots := d.pipe.rots.filter fun r => !(decide (r.a = a) && decide (r.b = b)) } }).rollSkip
    else d

/-- The roll's rotation has taken effect (R552): E_HL_ROLL, and its target is drained for its self-test. -/
def Dev.rollMoved (d : Dev) (a b : Nat) : Dev :=
  if d.hl.roll = some (a, b) then ({ d with hl := { d.hl with rollSkips := 0 } }.raise { code := 0x130C, sev := 1, unit := a, d0 := a, d1 := b }).testDrained a true else d

/-- Tile b takes tile a's role and a becomes a spare; E_OUT_ROTATE (R313). -/
def Dev.swapRole (d : Dev) (a b cam : Nat) : Dev :=
  match d.roleOf a with
  | none => d
  | some r => ((((d.setRole b r).setRole a .spare).drainTile a false).syncPool.raise (pxEv 0x0A05 1 cam (memberNo a))).rollMoved a b

/-- Rotations of camera c's in-line tiles onto tiles that are READY take effect at a frame start (R311). -/
def Dev.rotateAt (d : Dev) (c : Nat) : Dev :=
  let due := d.pipe.rots.filter fun r => d.accepts r.b && (match d.roleOf r.a with
    | some (.inl k _) => decide (k = c)
    | _ => false)
  due.foldl (fun e r =>
    let e := { e with pipe := { e.pipe with rots := e.pipe.rots.filter fun x => decide (x.a ≠ r.a) } }
    (e.swapRole r.a r.b c).jobDecided r.job 0) d

/-! ### Streams that lose a frame (R310, R329) -/

/-- Stream s runs, ungrouped, on camera c and keeps frame n. -/
def Dev.losesKept (d : Dev) (s c n : Nat) : Bool :=
  d.fb F.strCfg_run uPipe s && decide (d.fg F.strCfg_camera uPipe s = c) && !d.fb F.strCfg_grouped uPipe s &&
  decide (((tget d.pipe.strs s).getD {}).firstFrame ≤ n) &&
  decide (n % max 1 (d.fg F.strDecim_decim uPipe s) = d.fg F.strDecim_phase uPipe s)

/-- Ungrouped streams skip a frame that is lost; the buffer it had goes to the next kept frame (R329). -/
def Dev.streamsLose (d : Dev) (c n : Nat) : Dev :=
  ((List.range 8).filter fun s => d.losesKept s c n).foldl (fun e s =>
    let t := (tget e.pipe.strs s).getD {}
    let t := { t with frames := t.frames.filter fun f => decide (f.frame ≠ n), skipped := t.skipped + 1 }
    { e with pipe := { e.pipe with strs := tset e.pipe.strs s t } }.fadd F.strCnt_skip 1 uPipe s) d

end Sys2Proof.Machine
end

