-- ==== Sys2Proof/Machine/Tables.lean ====
section
/-! DEFINITION. Table generations and parameter sets by camera (R268, R269, R296, R297), and what the opening of a camera frame
does to them and to lost frames (R310). -/
namespace Sys2Proof.Machine

def Dev.pcam (d : Dev) (c : Nat) : PipeCam := (tget d.pipe.cams c).getD {}
def Dev.setPcam (d : Dev) (c : Nat) (p : PipeCam) : Dev := { d with pipe := { d.pipe with cams := tset d.pipe.cams c p } }

/-- The table generation of camera frame n (R268). -/
def PipeCam.genOf (p : PipeCam) (n : Nat) : TabGen := if n < p.commitFrame then p.old else p.committed

/-- The parameter set of camera frame n (R297). -/
def PipeCam.setOf (p : PipeCam) (n : Nat) : PSet :=
  (p.sets.find? fun s => decide (s.effect ≤ n)).getD ⟨0, 0, 0, {}⟩

/-- The newest set. -/
def PipeCam.curSet (p : PipeCam) : FrameSet := match p.sets with
  | s :: _ => s.set
  | [] => {}

/-- The fields of `b` that mask selects, over `a` (R296). -/
def FrameSet.merge (a b : FrameSet) (mask : Nat) : FrameSet :=
  let pick := fun (k : Nat) {α : Type} (x y : α) => if mask.testBit k then y else x
  { wmode := pick 1 a.wmode b.wmode, white := pick 1 a.white b.white, exposure := pick 0 a.exposure b.exposure, d := pick 2 a.d b.d,
    hilite := pick 3 a.hilite b.hilite, aMin := pick 4 a.aMin b.aMin, tLo := pick 4 a.tLo b.tLo, tHi := pick 4 a.tHi b.tHi,
    n0 := pick 5 a.n0 b.n0, n1 := pick 5 a.n1 b.n1 }

/-- The pending generation takes effect at frame n (R268); TNR that it enables starts its history there (R285). -/
def Dev.switchGen (d : Dev) (c n : Nat) : Dev :=
  let p := d.pcam c
  match p.pending with
  | none => d
  | some g =>
    let p := { p with old := p.committed, committed := g, pending := none, commitFrame := n, loadAt := none, announce := true,
                      tnrFrame := if g.tnr && !p.committed.tnr then some n else p.tnrFrame }
    ((d.setPcam c p).fs F.pipeGen_committed g.gen uPipe c).fs F.pipeGen_pending 0 uPipe c

/-- E_PX_COMMIT (R274). -/
def Dev.tellCommit (d : Dev) (c : Nat) : Dev :=
  let p := d.pcam c
  (d.setPcam c { p with announce := false }).raise (pxEv 0x0806 1 c p.commitFrame p.committed.gen)

/-- The pending generation of a camera that does not run takes effect at once (R268), for the COMMIT of a job. -/
def Dev.commitIdle (d : Dev) (c job : Nat) : Dev := ((d.switchGen c 0).tellCommit c).jobDecided job 0

/-- Sets that reach their effect frame n, merged in order (R297). -/
def Dev.applySets (d : Dev) (c n : Nat) : Dev :=
  let p := d.pcam c
  let now := p.waiting.filter fun s => decide (s.effect ≤ n)
  now.foldl (fun e s =>
    let q := e.pcam c
    let v : PSet := { s with effect := n, set := q.curSet.merge s.set s.mask }
    let q := { q with sets := v :: (q.sets.filter fun t => decide (t.effect ≠ n)).take 63,
                      waiting := q.waiting.filter fun t => decide (t.pseq ≠ s.pseq) }
    (((e.setPcam c q).wr .colPset uPipe c (BitVec.ofNat 32 n)).raiseOnce (0x200 + c) 10000000 (pxEv 0x0903 1 c n s.pseq))) d

/-- Frames of camera c whose slot the opening of frame n overwrites are lost (R310): undispatched jobs are discarded. -/
def Dev.overrunAt (d : Dev) (c n slots : Nat) : Dev :=
  let lost := d.pipe.frames.filter fun f => decide (f.rep.cam = c) && decide (f.rep.frame + slots ≤ n) && !f.left.isEmpty
  let waiting := d.ing.frames.filter fun f => decide (f.cam = c) && decide (f.frame + slots ≤ n)
  let hit := fun (fr : Nat) => decide (fr + slots ≤ n)
  let running := fun (fr : Nat) => d.pipe.runs.any fun r => decide (r.2.cam = c) && decide (r.2.frame = fr)
  let d := { d with
    pipe := { d.pipe with jobs := d.pipe.jobs.filter fun j => !(decide (j.cam = c) && hit j.frame) },
    ing := { d.ing with frames := d.ing.frames.filter fun f => !(decide (f.cam = c) && hit f.frame) } }
  let tell := fun (e : Dev) (fr : Nat) => ((e.fadd F.outDisp_overrun 1 uPipe).streamsLose c fr).raise (pxEv 0x0A03 2 c fr)
  let d := waiting.foldl (fun e f => tell e f.frame) d
  (lost.filter fun f => !running f.rep.frame).foldl (fun e f =>
    tell { e with pipe := { e.pipe with frames := e.pipe.frames.filter fun g =>
      !(decide (g.rep.cam = c) && decide (g.rep.frame = f.rep.frame)) } } f.rep.frame) d

/-- A camera's frames number from 0 again: its parameters are kept (R296), its history and statistics begin anew (R285). -/
def Dev.pipeRestart (d : Dev) (c : Nat) : Dev :=
  let p := d.pcam c
  let cur : PSet := ⟨0, (p.setOf 0xFFFFFFFF).pseq, 0, p.curSet⟩
  let p := { p with old := p.committed, commitFrame := 0, sets := [cur], statFrames := [], tags := [], layoutFrame := none,
                    tnrFrame := none }
  let d := { d with ing := { d.ing with opened := tdel d.ing.opened c } }
  d.setPcam c p

/-- What the opening of camera frame n does to the pipeline: a loaded generation commits 2 ms after its load (R268), due sets
take effect (R297), rotations of in-line tiles take place (R311), frame n − SLOTS is lost (R310). -/
def Dev.atOpen (d : Dev) (c n slots stamp : Nat) : Dev :=
  let d := { d with ing := { d.ing with opened := tset d.ing.opened c ((n, stamp) :: ((tget d.ing.opened c).getD []).take 63) } }
  let d := match (d.pcam c).loadAt with
    | some t => if t + 2000000 ≤ d.up then d.switchGen c n else d
    | none => d
  ((d.applySets c n).rotateAt c).overrunAt c n slots

end Sys2Proof.Machine
end

