-- ==== Sys2Proof/Machine/Ingest.lean ====
section
/-! DEFINITION. Chapter 08, sensor ingest: sources, shaping (R226 to R228), camera frames (R230 to R232), records (R235, R236),
registers (R240, R241) and the INGEST service (R242). -/
namespace Sys2Proof.Machine

/-! ### Geometry (R214 to R216, R233) -/

/-- Bits of a DEPTH code (R217). -/
def depthBits (c : Nat) : Nat := if c = 0 then 10 else if c = 1 then 12 else if c = 2 then 14 else 16

/-- Samples packed least significant bit first (R216), as one number. -/
def packNat (depth : Nat) : List Nat → Nat
  | [] => 0
  | x :: xs => x % 2 ^ depth + 2 ^ depth * packNat depth xs

/-- The packed bytes of a row of samples (R216). -/
def packRow (depth : Nat) (px : List Nat) : List Byte := leBytes (px.length * depth / 8) (packNat depth px)

/-- The samples of a packed row (R216). -/
def unpackRow (depth n : Nat) (bs : List Byte) : List Nat :=
  let v := leNat bs
  (List.range n).map fun i => bitsN v (depth * i + depth - 1) (depth * i)

/-- A source: its link and SRC (R214). -/
structure SrcId where
  link : Nat
  src : Nat

/-- Key of a source: link × 16 + SRC (R242). -/
def SrcId.key (x : SrcId) : Nat := x.link * 16 + x.src

/-- Every source, by link and SRC. -/
def allSrcs : List SrcId := (List.range 8).flatMap fun l => (List.range 16).map fun s => ⟨l, s⟩

def Dev.srcF (d : Dev) (f : Fld) (x : SrcId) : Nat := d.fg f (uDeframer x.link) x.src
def Dev.camF (d : Dev) (f : Fld) (c : Nat) : Nat := d.fg f uIngest c
def Dev.src (d : Dev) (x : SrcId) : SrcSt := (tget d.ing.srcs x.key).getD {}
def Dev.setSrc (d : Dev) (x : SrcId) (v : SrcSt) : Dev := { d with ing := { d.ing with srcs := tset d.ing.srcs x.key v } }
def Dev.cam (d : Dev) (c : Nat) : CamSt := (tget d.ing.cams c).getD {}
def Dev.setCam (d : Dev) (c : Nat) (v : CamSt) : Dev := { d with ing := { d.ing with cams := tset d.ing.cams c v } }
def Dev.modCam (d : Dev) (c : Nat) (f : CamSt → CamSt) : Dev := d.setCam c (f (d.cam c))

def Dev.srcEn (d : Dev) (x : SrcId) : Bool := decide (d.srcF F.srcCfg_en x = 1)
def Dev.camRun (d : Dev) (c : Nat) : Bool := decide (d.camF F.camCfg_run c = 1)
def Dev.camDepth (d : Dev) (c : Nat) : Nat := depthBits (d.camF F.camCfg_depth c)
/-- The fill sample of a camera (R215, R241). -/
def Dev.camFillV (d : Dev) (c : Nat) : Nat := d.camF F.camFill_fill c % 2 ^ d.camDepth c

/-- Sources of camera c that are enabled. -/
def Dev.memberSrcs (d : Dev) (c : Nat) : List SrcId :=
  allSrcs.filter fun x => d.srcEn x && decide (d.srcF F.srcCfg_camera x = c)

/-- The source of member m of camera c. -/
def Dev.memberSrc (d : Dev) (c m : Nat) : Option SrcId :=
  (d.memberSrcs c).find? fun x => decide (d.srcF F.srcCfg_member x = m)

/-- HEIGHT of member m. -/
def Dev.memberH (d : Dev) (c m : Nat) : Nat := match d.memberSrc c m with
  | some x => d.srcF F.srcGeom_height x
  | none => 0

/-- P(m), the sum of HEIGHT over members 0 to m − 1 (R233). -/
def Dev.memberP (d : Dev) (c m : Nat) : Nat := ((List.range m).map (d.memberH c)).foldl (· + ·) 0

/-- Parts of a slot (R233): stride × height, then N line records. -/
def Dev.camBase (d : Dev) (c : Nat) : Nat := d.get64 .camBaseLo .camBaseHi uIngest c
def Dev.camLinesOff (d : Dev) (c : Nat) : Nat := d.camF F.camStride_stride c * d.camF F.camSize_height c
def Dev.camRecOff (d : Dev) (c : Nat) : Nat := d.camLinesOff c + 32 * d.memberP c (d.camF F.camCfg_members c)
def Dev.camSlotOf (d : Dev) (c n : Nat) : Nat := n % max 1 (d.camF F.camCfg_slots c)
/-- The HBM address of the slot of camera frame n (R233). -/
def Dev.slotAddr (d : Dev) (c n : Nat) : Nat := d.camBase c + d.camSlotOf c n * (d.camF F.camSlot_slotSize c * 4096)

/-- The plane row of line L of a source (R215). -/
def Dev.planeRow (d : Dev) (x : SrcId) (line : Nat) : Nat :=
  d.srcF F.srcPos_y x + (if d.srcF F.srcCfg_vflip x = 1 then d.srcF F.srcGeom_height x - 1 - line else line)

/-! ### Events and counts (R240, R243, R244) -/

/-- An ingest event: DETAIL0 the camera or link. -/
def inEv (code sev obj : Nat) (d1 d2 : Nat := 0) : Ev := { code := code, sev := sev, unit := uIngest, d0 := obj, d1 := d1, d2 := d2 }

/-- An event of discarded packets, once per ms and link, with their count in the last 1 ms (R243, R244). -/
def Dev.pktErr (d : Dev) (k link code sev : Nat) : Dev :=
  let l := d.lastMs ((tget d.ing.errAt (k + link)).getD [])
  { d with ing := { d.ing with errAt := tset d.ing.errAt (k + link) l } }.raiseOnce link 1000000 (inEv code sev link 0 l.length)

/-- A packet discarded for PTYPE, a disabled SRC or an unmatched TID (R223, R221); the last raises no E_IN_PTYPE (R243). -/
def Dev.ptErr (d : Dev) (link : Nat) (told : Bool) : Dev :=
  let d := d.fadd F.dfStat_ptErr 1 (uDeframer link)
  if told then d.pktErr 0 link 0x0705 1 else d

/-- A packet that fails its CRC-32C trailer (R223, R244). -/
def Dev.crcErr (d : Dev) (link : Nat) : Dev := (d.fadd F.dfStat_crcErr 1 (uDeframer link)).pktErr 0x100 link 0x0702 2

/-- A packet accepted (DF_PKTS). -/
def Dev.pktIn (d : Dev) (link : Nat) : Dev :=
  d.set64 .dfPktsLo .dfPktsHi (d.get64 .dfPktsLo .dfPktsHi (uDeframer link) + 1) (uDeframer link)

/-- A packet of a source discarded under R226, R228 or R230. -/
def Dev.srcDrop (d : Dev) (x : SrcId) : Dev := d.fadd F.srcStat_discarded 1 (uDeframer x.link) x.src

/-- The front of every up packet (R223): the deframer enabled, the source enabled, the trailer good. -/
def Dev.upPacket (d : Dev) (x : SrcId) (crcOk : Bool) (f : Dev → Dev) : Dev :=
  let u := uDeframer x.link
  if !d.fb F.dfCtl_en u || !(d.accepts u) then d
  else if !d.srcEn x then d.ptErr x.link true
  else if !crcOk then d.crcErr x.link
  else f (d.pktIn x.link)

/-! ### Frame and line flags (R235, R236) -/

def flShortFrame : Nat := 0
def flLongFrame : Nat := 1
def flLineLost : Nat := 6
def flLinkGap : Nat := 7
def flSrcMissing : Nat := 8
def flSrcSlip : Nat := 9
def flNoFe : Nat := 10
def flDecl : Nat := 11
def flMetaTrunc : Nat := 12
def flSkip : Nat := 13
def flTimeout : Nat := 14
def flOrder : Nat := 15
def flHoldover : Nat := 16

/-- A frame flag set on the camera's open frame. -/
def Dev.frameFlag (d : Dev) (c b : Nat) : Dev := d.modCam c fun s => { s with flags := s.flags ||| 2 ^ b }

/-- The frame flags that line flags bring (R226, R236). -/
def frameOfLine (f : Nat) : Nat :=
  (if f.testBit 0 then 4 else 0) ||| (if f.testBit 1 then 8 else 0) ||| (if f.testBit 2 then 16 else 0) |||
  (if f.testBit 3 then 32 else 0) ||| (if f.testBit 5 then 128 else 0) ||| (if f.testBit 6 then 2 ^ 15 else 0)

/-- Member m's entry of the open frame changed. -/
def Dev.modMem (d : Dev) (c m : Nat) (f : MemSt → MemSt) : Dev :=
  d.modCam c fun s => { s with mems := s.mems.modify m f }

def MemSt.flag (x : MemSt) (b : Nat) : MemSt := { x with flags := x.flags ||| 2 ^ b }

/-! ### Lines (R215, R225 to R227, R235) -/

/-- A shaped line in plane column order, into the line buffer (R225): CRC-64/XZ over the packed samples as they will be
committed; a line of the in-line camera also goes to the tiles (R237). -/
def Dev.emitLine (d : Dev) (x : SrcId) (no stamp segs fill flags : Nat) (px : List Nat) : Dev :=
  let c := d.srcF F.srcCfg_camera x
  let m := d.srcF F.srcCfg_member x
  let px := if d.srcF F.srcCfg_hflip x = 1 then px.reverse else px
  let bs := packRow (d.camDepth c) px
  let j : LineJob := ⟨c, (d.cam c).no, x.link, m, no, d.planeRow x no, stamp, crc64 bs, flags, segs, min fill 65535, bs⟩
  let d := d.modCam c fun s => { s with flags := s.flags ||| frameOfLine flags,
                                        fillLines := s.fillLines + (if flags.testBit 4 then 1 else 0) }
  let d := d.modMem c m fun e => if flags.testBit 4 then { e with filled := e.filled + 1 } else { e with got := e.got + 1 }
  { d with ing := { d.ing with lines := d.ing.lines ++ [j],
                               inl := if d.camF F.camCfg_inline c = 1 then d.ing.inl ++ [j] else d.ing.inl } }

/-- LINK_GAP of R226: filled while the link was not UP. -/
def Dev.gapBit (d : Dev) (x : SrcId) : Nat := if d.lstate x.link = 4 then 0 else 32

/-- A line made wholly of fill (R226): its stamp is the time of its close (R235). -/
def Dev.fillLine (d : Dev) (gap : Nat) (x : SrcId) (no : Nat) : Dev :=
  let c := d.srcF F.srcCfg_camera x
  let w := d.srcF F.srcGeom_width x
  d.emitLine x no d.stamp 0 w (16 ||| gap) (List.replicate w (d.camFillV c))

/-- Lines [a, a + n) of a source made of fill. -/
def Dev.fillLines (d : Dev) (gap : Nat) (x : SrcId) (a n : Nat) : Dev :=
  (List.range n).foldl (fun e i => e.fillLine gap x (a + i)) d

/-- The line being received closes (R227): padded to WIDTH where it is short. -/
def Dev.closeLine (d : Dev) (x : SrcId) : Dev :=
  let s := d.src x
  match s.cur with
  | none => d
  | some l =>
    let w := d.srcF F.srcGeom_width x
    let short := w - l.px.length
    let c := d.srcF F.srcCfg_camera x
    let fl := if short = 0 then l.flags else l.flags ||| 1 ||| d.gapBit x
    (d.setSrc x { s with cur := none }).emitLine x l.no l.stamp l.segs (l.fill + short) fl
      (l.px ++ List.replicate short (d.camFillV c))

/-- A segment placed in the line being received (R226): gaps filled, samples past WIDTH cut, a segment that failed its
trailer filled. -/
def LineRx.take (l : LineRx) (w fillV col : Nat) (px : List Nat) (good : Bool) (gapBit : Nat) : LineRx :=
  if col < l.reach then { l with flags := l.flags ||| 64 }
  else
    let gap := min col w - l.px.length
    let seg := if good then px else List.replicate px.length fillV
    let room := w - (l.px.length + gap)
    let fl := l.flags ||| (if l.reach < col then 8 ||| gapBit else 0) ||| (if good then 0 else 4) |||
              (if room < px.length then 2 else 0)
    { l with px := l.px ++ List.replicate gap fillV ++ seg.take room, flags := fl, reach := col + px.length,
             segs := if good then l.segs + 1 else l.segs,
             fill := l.fill + gap + (if good then 0 else min room px.length) }

/-! ### Source frames (R228) -/

/-- Whether a source's packets reach an open camera frame. -/
def Dev.joined (d : Dev) (x : SrcId) : Bool :=
  let c := d.srcF F.srcCfg_camera x
  let s := d.cam c
  s.opn && ((s.mems[d.srcF F.srcCfg_member x]?).getD {}).joined && (d.src x).opn

/-- A source's frame closes (R226): its line closes, missing lines are filled. -/
def Dev.closeSource (d : Dev) (x : SrcId) (noFe : Bool) : Dev :=
  let c := d.srcF F.srcCfg_camera x
  let m := d.srcF F.srcCfg_member x
  if d.joined x then
    let d := d.closeLine x
    let h := d.srcF F.srcGeom_height x
    let next := (d.src x).next
    let d := if next < h then (d.fillLines (d.gapBit x) x next (h - next)).frameFlag c flShortFrame else d
    let d := if noFe then (d.frameFlag c flNoFe).modMem c m fun e => e.flag 3 else d
    let d := d.modMem c m fun e => { e with closed := true }
    (d.setSrc x { d.src x with opn := false, cur := none, next := 0 }).fadd F.srcStat_frames 1 (uDeframer x.link) x.src
  else d.setSrc x { d.src x with opn := false, cur := none, next := 0 }

/-! ### Camera frames (R230 to R232) -/

/-- Member m's whole region filled, MISSING (R230 step 3). -/
def Dev.missMember (d : Dev) (c m : Nat) : Dev :=
  match d.memberSrc c m with
  | none => d
  | some x =>
    let d := (d.fillLines 0 x 0 (d.srcF F.srcGeom_height x)).frameFlag c flSrcMissing
    d.modMem c m fun e => e.flag 1

/-- Members that have not joined are missing (R230 step 3). -/
def Dev.missAll (d : Dev) (c : Nat) : Dev :=
  (List.range (d.cam c).mems.length).foldl (fun e m =>
    let s := ((e.cam c).mems[m]?).getD {}
    if s.joined || s.flags.testBit 1 then e else e.missMember c m) d

/-- The 256 bytes of a frame record (R236). -/
def Dev.frameRec (d : Dev) (c : Nat) (slot stop : Nat) : List Byte :=
  let s := d.cam c
  let mem := fun m =>
    match s.mems[m]? with
    | none => leBytes 12 0
    | some e =>
      let id := match d.memberSrc c m with
        | some x => x.link % 8 * 16 + x.src
        | none => 0
      leBytes 1 id ++ leBytes 1 e.flags ++ leBytes 2 e.head ++ leBytes 2 (min e.got 65535) ++ leBytes 2 (min e.filled 65535) ++
      leBytes 4 e.headTime
  leBytes 4 s.no ++ leBytes 1 c ++ leBytes 1 slot ++ leBytes 2 0 ++ leBytes 8 s.start ++ leBytes 8 stop ++ leBytes 4 s.flags ++
  leBytes 4 s.fillLines ++ leBytes 4 s.metaLen ++ leBytes 28 0 ++ ((List.range 16).map mem).flatten

/-- Plane columns of row y that no region covers, as fill in the slot (R215). -/
def Dev.fillGaps (d : Dev) (c : Nat) : Dev :=
  let w := d.camF F.camSize_width c
  let h := d.camF F.camSize_height c
  let srcs := d.memberSrcs c
  let dep := d.camDepth c
  let free := fun (y k : Nat) => srcs.all fun x =>
    !(decide (d.srcF F.srcPos_y x ≤ y) && decide (y < d.srcF F.srcPos_y x + d.srcF F.srcGeom_height x) &&
      decide (d.srcF F.srcPos_x x ≤ 8 * k) && decide (8 * k < d.srcF F.srcPos_x x + d.srcF F.srcGeom_width x))
  let eight := packRow dep (List.replicate 8 (d.camFillV c))
  let base := d.slotAddr c (d.cam c).no
  (List.range h).foldl (fun e y =>
    ((List.range (w / 8)).filter (free y)).foldl (fun e k => e.hbmW (base + y * d.camF F.camStride_stride c + k * dep) eight) e) d

/-- Parameter sets that still wait when a camera stops take effect with its next frame, frame 0 (R296, R297). -/
def Dev.setsWait (d : Dev) (c : Nat) : Dev :=
  let p := d.pcam c
  d.setPcam c { p with waiting := p.waiting.map fun s => { s with effect := 0 } }

/-- RUN falls and E_IN_CAM_STOP is raised (R241); a loaded generation takes effect at once (R268). -/
def Dev.camHalt (d : Dev) (c : Nat) : Dev :=
  let d := (d.modCam c fun s => { s with stopping := false }).setsWait c
  let d := (d.fs F.camCfg_run 0 uIngest c).raise (inEv 0x0709 1 c)
  if (d.pcam c).loadAt.isSome then d.commitIdle c (d.pcam c).job else d

/-- E_IN_FRAME_FLAGS at most once per 10 ms and camera; frames inside the window count in SUPPRESSED (R244). -/
def Dev.tellFlags (d : Dev) (c n flags : Nat) : Dev :=
  if flags = 0 then d
  else
    let d := d.fadd F.camCnt_flagged 1 uIngest c
    let e := d.raiseOnce (0x100 + c) 10000000 (inEv 0x0703 2 c n flags)
    if e.oz.recseq = d.oz.recseq then d.fadd F.camCnt_suppressed 1 uIngest c else e

/-- A closed frame is reported to the recordings and burst rings of its camera (R396, R400). -/
def MediaSt.tell (m : MediaSt) (rep : FrameRep) : MediaSt :=
  let wants := fun (t : Track) => (decide (t.kind = 2) || decide (t.kind = 4) || decide (t.kind = 5)) && decide (t.obj = rep.cam)
  { m with
    recs := m.recs.map fun r => if r.ring = none ∧ r.phase < 2 ∧ r.tracks.any wants then { r with reps := r.reps ++ [rep] } else r
    rings := m.rings.map fun p => if p.2.cam = rep.cam ∧ !p.2.frozen then (p.1, { p.2 with reps := p.2.reps ++ [rep] }) else p }

/-- The camera's open frame closes (R231, R232): members still open close with NO_FE, members that never joined are filled,
the frame record is written and the close is reported. -/
def Dev.closeFrame (d : Dev) (c : Nat) (timeout : Bool) : Dev :=
  if !(d.cam c).opn then d
  else
    let d := (d.memberSrcs c).foldl (fun e x => if e.joined x then e.closeSource x true else e) d
    let d := d.missAll c
    let d := if timeout then d.frameFlag c flTimeout else d
    let d := d.fillGaps c
    let s := d.cam c
    let stop := d.stamp
    let slot := d.camSlotOf c s.no
    let d := d.hbmW (d.slotAddr c s.no + d.camRecOff c) (d.frameRec c slot stop)
    let rep : FrameRep := ⟨c, s.no, slot, s.start, stop, s.flags⟩
    let coded := d.ps.strs.any fun (p : Nat × PsStream) => p.2.run && decide (rdLe p.2.cfg 0 1 = 0) && decide (rdLe p.2.cfg 1 1 = c)
    let d := { d with ing := { d.ing with frames := d.ing.frames ++ [rep] },
                      ps := { d.ps with reps := if coded then d.ps.reps ++ [rep] else d.ps.reps },
                      md := d.md.tell rep }
    let d := d.setCam c { s with opn := false, no := s.no + 1, mems := [] }
    let d := d.fs F.camFrame_frame s.no uIngest c
    let d := d.fs F.camFlags_flags (d.camF F.camFlags_flags c ||| s.flags) uIngest c
    let d := d.tellFlags c s.no s.flags
    let d := if timeout then d.raise (inEv 0x0704 2 c) else d
    if s.stopping then d.camHalt c else d

/-- A camera frame opens at a member's FRAME_START (R230 step 1). -/
def Dev.openFrame (d : Dev) (c : Nat) : Dev :=
  let s := d.cam c
  let n := d.camF F.camCfg_members c
  let hold := if 2 ≤ d.fg F.ftStat_state uTime then 2 ^ flHoldover else 0
  let d := d.setCam c { s with opn := true, start := d.stamp, flags := hold, fillLines := 0, metaLen := 0, skewPast := false,
                               mems := List.replicate n {} }
  ((d.fs F.camRows_slot (d.camSlotOf c s.no) uIngest c).fs F.camRows_lines 0 uIngest c).atOpen c s.no
    (d.camF F.camCfg_slots c) (d.cam c).start

/-- What a FRAME_START carries (R217). -/
structure FrameHead where
  frame : Nat
  width : Nat
  height : Nat
  depth : Nat
  headTime : Nat

/-- A member joins the open frame (R230 step 2, R226). -/
def Dev.joinMember (d : Dev) (x : SrcId) (h : FrameHead) (was : Option Nat) : Dev :=
  let c := d.srcF F.srcCfg_camera x
  let m := d.srcF F.srcCfg_member x
  let decl := decide (h.width ≠ d.srcF F.srcGeom_width x) || decide (h.height ≠ d.srcF F.srcGeom_height x) ||
              decide (h.depth ≠ d.srcF F.srcCfg_depth x)
  let skip := match was with
    | some f => decide (h.frame ≠ (f + 1) % 4096)
    | none => false
  let d := d.setSrc x { d.src x with opn := true, slip := false, next := 0, cur := none }
  let d := d.modMem c m fun e => { e with joined := true, head := h.frame, headTime := h.headTime % 2 ^ 32, flags := e.flags ||| 1 }
  let d := if decl then (d.frameFlag c flDecl).modMem c m fun e => e.flag 4 else d
  if skip then (d.frameFlag c flSkip).modMem c m fun e => e.flag 5 else d

/-- A FRAME_START of source x (R228, R230, R231). -/
def Dev.frameStart (d : Dev) (x : SrcId) (h : FrameHead) : Dev :=
  let c := d.srcF F.srcCfg_camera x
  let m := d.srcF F.srcCfg_member x
  let was := (d.src x).last
  let mine := ((d.cam c).mems[m]?).getD {}
  let d := if (d.src x).opn then d.closeSource x true else d
  let d := d.setSrc x { d.src x with last := some h.frame, slip := false, opn := false }
  let d := if (d.cam c).opn && mine.joined then d.closeFrame c false else d
  if !d.camRun c then d.srcDrop x
  else if (d.cam c).opn then
    if (d.cam c).skewPast then
      ((d.setSrc x { d.src x with slip := true }).frameFlag c flSrcSlip).modMem c m (·.flag 2) |>.srcDrop x
    else d.joinMember x h was
  else if (d.cam c).stopping then d.srcDrop x
  else (d.openFrame c).joinMember x h was

/-- The frame closes when every joined member has closed its frame (R231). -/
def Dev.closeIfDone (d : Dev) (c : Nat) : Dev :=
  if (d.cam c).opn && (d.cam c).mems.all (fun e => !e.joined || e.closed) then d.closeFrame c false else d

/-- A FRAME_END of source x (R219, R228). -/
def Dev.frameEnd (d : Dev) (x : SrcId) (frame : Nat) : Dev :=
  let c := d.srcF F.srcCfg_camera x
  if !d.joined x then (d.setSrc x { d.src x with opn := false }).srcDrop x
  else if (d.src x).last ≠ some frame then (d.srcDrop x).frameFlag c flOrder
  else (d.closeSource x false).closeIfDone c

/-- A segment's header (R218). -/
structure SegHead where
  frame : Nat
  line : Nat
  col : Nat
  last : Bool

/-- A segment of the line being received or of one that opens now (R226, R227); the line's stamp is that of its first accepted segment
(R224). -/
def Dev.segIn (d : Dev) (x : SrcId) (h : SegHead) (px : List Nat) (good : Bool) : Dev :=
  let c := d.srcF F.srcCfg_camera x
  let s := d.src x
  let w := d.srcF F.srcGeom_width x
  let l : LineRx := s.cur.getD ⟨h.line, d.stamp, [], 0, 0, 0, 0⟩
  let dup := decide (h.col < l.reach)
  let l := if l.segs = 0 then { l with stamp := d.stamp } else l
  let l2 := l.take w (d.camFillV c) h.col px good (d.gapBit x)
  let d := d.setSrc x { s with cur := some l2, next := h.line + 1 }
  let d := if dup then d.srcDrop x else d
  if h.last && !dup then d.closeLine x else d

/-- A LINE packet of source x (R226). -/
def Dev.lineIn (d : Dev) (x : SrcId) (h : SegHead) (px : List Nat) (good : Bool) : Dev :=
  let c := d.srcF F.srcCfg_camera x
  let s := d.src x
  let hgt := d.srcF F.srcGeom_height x
  if !d.joined x then d.srcDrop x
  else if s.last ≠ some h.frame then (d.srcDrop x).frameFlag c flOrder
  else if hgt ≤ h.line then (d.srcDrop x).frameFlag c flLongFrame
  else
    match s.cur with
    | some l =>
      if h.line = l.no then d.segIn x h px good
      else if h.line < l.no then (d.srcDrop x).frameFlag c flOrder
      else
        let d := d.closeLine x
        let d := if s.next < h.line then (d.fillLines (d.gapBit x) x s.next (h.line - s.next)).frameFlag c flLineLost else d
        d.segIn x h px good
    | none =>
      if h.line < s.next then
        let d := (d.srcDrop x).frameFlag c flOrder
        if h.line + 1 = s.next then
          { d with ing := { d.ing with lines := d.ing.lines.map fun j =>
              if j.cam = c ∧ j.frame = (d.cam c).no ∧ j.member = d.srcF F.srcCfg_member x ∧ j.line = h.line then
                { j with flags := j.flags ||| 64 } else j } }
        else d
      else
        let d := if s.next < h.line then (d.fillLines (d.gapBit x) x s.next (h.line - s.next)).frameFlag c flLineLost else d
        d.segIn x h px good

/-! ### Commands of the lanes -/

/-- Whether a C0-path unit carries work of camera c (R39): a deframer that feeds it, the twin port, or a unit of the in-line
path. -/
def Dev.servesCam (d : Dev) (c u : Nat) : Bool :=
  match kindOf u with
  | some .deframer => (d.memberSrcs c).any fun x => decide (uDeframer x.link = u)
  | some .twin => true
  | _ => decide (d.camF F.camCfg_inline c = 1)

/-- ACT_LEVELs that wait for a frame start of camera c take effect (R39). -/
def Dev.levelsAtFrame (d : Dev) (c : Nat) : Dev :=
  let now := d.bank.wantLevel.filter fun p => d.servesCam c p.1
  let d := { d with bank := { d.bank with wantLevel := d.bank.wantLevel.filter fun p => !d.servesCam c p.1 } }
  now.foldl (fun e p => e.applyLevel p.1 p.2) d

/-- A LINE packet of source x (R226): `room` is false where the link exceeds its limits and no line buffer remains (R239). -/
def Dev.linePkt (d : Dev) (x : SrcId) (crcOk room : Bool) (h : SegHead) (px : List Nat) : Dev :=
  if !d.fb F.dfCtl_en (uDeframer x.link) || !d.accepts (uDeframer x.link) then d
  else if !room then (d.raise (inEv 0x0708 3 x.link)).c0Risk 1 x.link
  else if !d.srcEn x then d.ptErr x.link true
  else
    let d := if crcOk then d.pktIn x.link else d.crcErr x.link
    d.lineIn x h px crcOk

/-- A FRAME_START packet of source x (R228). -/
def Dev.startPkt (d : Dev) (x : SrcId) (crcOk : Bool) (h : FrameHead) : Dev :=
  d.upPacket x crcOk fun d => d.levelsAtFrame (d.srcF F.srcCfg_camera x) |>.frameStart x h

def execLine (link : Fin 8) (src : Fin 16) (crcOk room : Bool) (frame line col : Nat) (last : Bool) (px : List Nat) (s : State) :
    Host.Outcome State Fault Refusal :=
  s.onDev fun d => d.linePkt ⟨link, src⟩ crcOk room ⟨frame % 4096, line, col, last⟩ px

/-- FRAME_START (R228). -/
def execFrameStart (link : Fin 8) (src : Fin 16) (crcOk : Bool) (frame width height depth headTime : Nat) (s : State) :
    Host.Outcome State Fault Refusal :=
  s.onDev fun d => d.startPkt ⟨link, src⟩ crcOk ⟨frame % 4096, width, height, depth, headTime⟩

/-- FRAME_END (R226). -/
def execFrameEnd (link : Fin 8) (src : Fin 16) (crcOk : Bool) (frame : Nat) (s : State) : Host.Outcome State Fault Refusal :=
  s.onDev fun d => d.upPacket ⟨link, src⟩ crcOk fun d => d.frameEnd ⟨link, src⟩ (frame % 4096)

/-- A META packet of source x (R229). -/
def Dev.metaIn (d : Dev) (x : SrcId) (typ : Nat) (bs : List Byte) : Dev :=
  let c := d.srcF F.srcCfg_camera x
  let s := d.cam c
  if !d.joined x then d.srcDrop x
  else
    let n := 8 + ceilDiv bs.length 8 * 8
    if d.camF F.camCfg_metaKb c * 1024 < s.metaLen + n then d.frameFlag c flMetaTrunc
    else
      let head := leBytes 1 (d.srcF F.srcCfg_member x) ++ leBytes 1 0 ++ leBytes 2 typ ++ leBytes 4 bs.length
      let d := d.hbmW (d.slotAddr c s.no + d.camRecOff c + 256 + s.metaLen) (fitB (head ++ bs) n)
      d.modCam c fun s => { s with metaLen := s.metaLen + n }

def execMeta (link : Fin 8) (src : Fin 16) (crcOk : Bool) (typ : Nat) (bytes : List Byte) (s : State) :
    Host.Outcome State Fault Refusal :=
  s.onDev fun d => d.upPacket ⟨link, src⟩ crcOk fun d => d.metaIn ⟨link, src⟩ typ bytes

def execCamSkewTimeout (c : Fin 16) (s : State) : Host.Outcome State Fault Refusal := s.onDev fun d =>
  if (d.cam c).opn ∧ !(d.cam c).skewPast then (d.modCam c fun s => { s with skewPast := true }).missAll c else d

def execCamCloseTimeout (c : Fin 16) (s : State) : Host.Outcome State Fault Refusal := s.onDev fun d =>
  if (d.cam c).mems.any (·.closed) then d.closeFrame c false else d

def execCamFrameTimeout (c : Fin 16) (s : State) : Host.Outcome State Fault Refusal := s.onDev fun d => d.closeFrame c true

/-! ### Registers (R240, R241) -/

/-- E_IN_CFG (R243). -/
def Dev.inCfg (d : Dev) (m obj : Nat) : Dev := d.raise { inEv 0x0701 1 obj with master := m }

/-- Two regions overlap. -/
def Dev.regionsMeet (d : Dev) (a b : SrcId) : Bool :=
  decide (d.srcF F.srcPos_x a < d.srcF F.srcPos_x b + d.srcF F.srcGeom_width b) &&
  decide (d.srcF F.srcPos_x b < d.srcF F.srcPos_x a + d.srcF F.srcGeom_width a) &&
  decide (d.srcF F.srcPos_y a < d.srcF F.srcPos_y b + d.srcF F.srcGeom_height b) &&
  decide (d.srcF F.srcPos_y b < d.srcF F.srcPos_y a + d.srcF F.srcGeom_height a)

/-- Cameras whose EN or RUN is 1. -/
def Dev.camBusy (d : Dev) (c : Nat) : Bool := decide (d.camF F.camCfg_en c = 1) || d.camRun c

/-- The checks of R241 on camera c, in order: 1 field ranges, 2 members, 3 R215, 4 R233, 5 R237; none where all pass. -/
def Dev.camCheck (d : Dev) (c : Nat) : Option Nat :=
  let w := d.camF F.camSize_width c
  let h := d.camF F.camSize_height c
  let n := d.camF F.camCfg_members c
  let ms := d.memberSrcs c
  let base := d.camBase c
  let bytes := d.camF F.camSlot_slotSize c * 4096
  let need := d.camRecOff c + 256 + d.camF F.camCfg_metaKb c * 1024
  let reg := d.region rgIngest
  if w % 8 ≠ 0 ∨ w < 64 ∨ 24576 < w ∨ h = 0 ∨ 16384 < h ∨ n = 0 ∨ 16 < n ∨ d.camF F.camCfg_slots c < 2 ∨
      64 < d.camF F.camCfg_metaKb c ∨ d.camF F.camFill_skewUs c = 0 ∨ d.camF F.camFill_closeUs c = 0 ∨
      d.camF F.camTimeout_timeoutMs c = 0 then some 1
  else if ms.length ≠ n ∨ !(List.range n).all (fun m => (d.memberSrc c m).isSome) then some 2
  else if ms.any (fun x =>
      decide (d.srcF F.srcPos_x x % 8 ≠ 0) || decide (d.srcF F.srcGeom_width x % 8 ≠ 0) || decide (d.srcF F.srcGeom_width x < 64) ||
      decide (d.srcF F.srcGeom_height x = 0) || decide (d.srcF F.srcCfg_depth x ≠ d.camF F.camCfg_depth c) ||
      decide (w < d.srcF F.srcPos_x x + d.srcF F.srcGeom_width x) || decide (h < d.srcF F.srcPos_y x + d.srcF F.srcGeom_height x) ||
      ms.any fun y => decide (x.key < y.key) && d.regionsMeet x y) then some 3
  else if base % 4096 ≠ 0 ∨ d.camF F.camStride_stride c % 64 ≠ 0 ∨ d.camF F.camStride_stride c * 8 < w * d.camDepth c ∨
      bytes < need ∨ base < reg.1 ∨ reg.2 < base + d.camF F.camCfg_slots c * bytes then some 4
  else if d.camF F.camCfg_inline c = 1 ∧
      (ms.any (fun x => decide (d.srcF F.srcCfg_vflip x = 1)) ∨
       (List.range 16).any fun k => decide (k ≠ c) && decide (d.camF F.camCfg_inline k = 1)) then some 5
  else none

/-- A camera starts (R241): its frames number from 0. -/
def Dev.camStart (d : Dev) (c : Nat) : Dev :=
  (((d.fs F.camCfg_en 1 uIngest c).fs F.camCfg_run 1 uIngest c).setCam c {}).pipeRestart c

/-- A camera stops at the close of its open frame, at once where none is open (R241). -/
def Dev.camStop (d : Dev) (c : Nat) : Dev :=
  let d := d.fs F.camCfg_en 0 uIngest c
  if !d.camRun c then d
  else if (d.cam c).opn then d.modCam c fun s => { s with stopping := true }
  else d.camHalt c

/-- A camera register written (R241): while EN = 1 only EN changes. -/
def Dev.effCamReg (d : Dev) (m c : Nat) (r : Reg) (v : Word) : Dev :=
  let en := decide (d.camF F.camCfg_en c = 1)
  if r = .camCfg then
    let old := d.rd .camCfg uIngest c
    let keep := BitVec.ofNat 32 0x3FC0FFFF
    if en then
      let d := if (v &&& keep) = (old &&& keep) then d else d.inCfg m c
      if getF v 31 31 = 0 then d.camStop c else d
    else if getF v 31 31 = 1 then
      let e := d.wr .camCfg uIngest c ((v &&& keep) ||| (old &&& BitVec.ofNat 32 0x40000000))
      if d.camRun c || (e.camCheck c).isSome then d.inCfg m c else (e.camStart c).cfgWritten .camCfg uIngest c
    else if getF v 29 29 = 1 ∧ (List.range 16).any (fun k => decide (k ≠ c) && decide (d.camF F.camCfg_inline k = 1)) then d.inCfg m c
    else if getF v 29 29 = 1 ∧ (d.memberSrcs c).any (fun x => decide (d.srcF F.srcCfg_vflip x = 1)) then d.inCfg m c
    else (d.wr .camCfg uIngest c ((v &&& keep) ||| (old &&& BitVec.ofNat 32 0x40000000))).cfgWritten .camCfg uIngest c
  else if en then d.inCfg m c
  else if r = .camBaseLo then d.putFields r uIngest c (v &&& BitVec.ofNat 32 0xFFFFF000)
  else d.putFields r uIngest c v

/-- CAM_CFG of camera c written by m. -/
def Dev.camCfgBy (d : Dev) (m c : Nat) (v : Word) : Dev := d.gated m .camCfg uIngest c v fun d => d.effCamReg m c .camCfg v

def execCamEnable (m : Nat) (c : Fin 16) (v : Word) (s : State) : Host.Outcome State Fault Refusal :=
  s.access m fun d => d.camCfgBy m c (v ||| BitVec.ofNat 32 0x80000000)
def execCamDisable (m : Nat) (c : Fin 16) (v : Word) (s : State) : Host.Outcome State Fault Refusal :=
  s.access m fun d => d.camCfgBy m c (v &&& BitVec.ofNat 32 0x7FFFFFFF)

/-- A source register written (R240): dropped while its camera has EN = 1. -/
def Dev.effSrcReg (d : Dev) (m : Nat) (x : SrcId) (r : Reg) (v : Word) : Dev :=
  let busy := fun (c : Nat) => decide (d.camF F.camCfg_en c = 1)
  if busy (d.srcF F.srcCfg_camera x) ∨ (r = .srcCfg ∧ getF v 31 31 = 1 ∧ busy (getF v 23 20)) then d.inCfg m x.link
  else d.putFields r (uDeframer x.link) x.src v

/-- DF_CTL written (R240): a BC_TIMEOUT of 0 drops the write. -/
def Dev.effDfCtl (d : Dev) (m link : Nat) (v : Word) : Dev :=
  if getF v 23 16 = 0 then d.inCfg m link else d.putFields .dfCtl (uDeframer link) 0 v

def execDfStatRead (m : Nat) (link : Fin 8) (s : State) : Host.Outcome State Fault Refusal :=
  s.access m fun d => d.readClear m .dfStat (uDeframer link) 0 [F.dfStat_ptErr, F.dfStat_crcErr]
def execSrcStatRead (m : Nat) (link : Fin 8) (src : Fin 16) (s : State) : Host.Outcome State Fault Refusal :=
  s.access m fun d => d.readClear m .srcStat (uDeframer link) src [F.srcStat_discarded, F.srcStat_frames]
/-- A 32-bit read of CAM_FLAGS (false) or CAM_CNT (true) of camera c. -/
def execCamFlagsRead (m : Nat) (c : Fin 16) (cnt : Bool) (s : State) : Host.Outcome State Fault Refusal :=
  s.access m fun d =>
    if cnt then d.readClear m .camCnt uIngest c [F.camCnt_flagged, F.camCnt_suppressed]
    else d.readClear m .camFlags uIngest c [F.camFlags_flags]

/-! ### The back-channel (R217, R220 to R222) -/

/-- A packet sent on a link's back-channel. -/
def Dev.sendBack (d : Dev) (link : Nat) (bs : List Byte) : Dev := { d with ing := { d.ing with back := (link, bs) :: d.ing.back } }

/-- Register transactions outstanding on a link. -/
def Dev.bcSent (d : Dev) (link : Nat) : Nat := (d.ing.bc.filter fun o => decide (o.link = link) && o.sent).length

/-- At most four transactions are outstanding per link (R221): the next waiting one is sent. -/
def Dev.bcPump (d : Dev) (link : Nat) : Dev :=
  if 4 ≤ d.bcSent link ∨ 2 ≤ d.fg F.twStat_role uTwin then d
  else
    match d.ing.bc.find? fun o => decide (o.link = link) && !o.sent with
    | none => d
    | some o =>
      { d with ing := { d.ing with bc := d.ing.bc.map fun (p : BcOp) => if p.job = o.job ∧ p.tid = o.tid then { p with sent := true } else p } }.sendBack
        link o.packet

/-- A TRIGGER packet (R217, R222): ALL addresses every source with SRC zero. -/
def Dev.sendTrigger (d : Dev) (link src : Nat) (all : Bool) (code launch : Nat) : Dev :=
  let id := d.ing.nextTrig
  let p0 := (if all then 2 ^ 27 else src * 2 ^ 28) + id % 65536
  { d with ing := { d.ing with nextTrig := (id + 1) % 65536 } }.sendBack link
    (leBytes 1 0x12 ++ leBytes 4 p0 ++ leBytes 4 code ++ leBytes 8 launch)

/-- Bytes written to a job's reply block (R150). -/
def Dev.jobReply (d : Dev) (job : Nat) (bs : List Byte) : Dev :=
  match d.oz.jobs.find? fun j => decide (j.job = job) with
  | none => d
  | some j =>
    let r := j.req
    if rgLen r.range1 = 0 then d
    else if rgSpace r.range1 = 0 then d.hbmW (rgAddr r.range1) bs else d.hostW r.master (rgAddr r.range1) bs

/-- A REG_RESP (R221, R223). -/
def Dev.regResp (d : Dev) (link src tid status : Nat) (bs : List Byte) : Dev :=
  match d.ing.bc.find? fun o => decide (o.link = link) && decide (o.tid = tid) && decide (o.src = src) && o.sent with
  | none => d.ptErr link false
  | some o =>
    let d := { d with ing := { d.ing with bc := d.ing.bc.filter fun p => decide (p.tid ≠ o.tid) || decide (p.link ≠ link) } }
    let d := if status ≠ 0 then (d.raise (inEv 0x0707 1 link 0 status)).jobDecided o.job 0x0707
      else (if o.wr then d else d.jobReply o.job bs).jobDecided o.job 0
    d.bcPump link

def execRegResp (link : Fin 8) (src : Fin 16) (crcOk : Bool) (tid status : Nat) (bytes : List Byte) (s : State) :
    Host.Outcome State Fault Refusal :=
  s.onDev fun d => d.upPacket ⟨link, src⟩ crcOk fun d => d.regResp link src tid status bytes

def execBcTimeout (link : Fin 8) (tid : Nat) (s : State) : Host.Outcome State Fault Refusal := s.onDev fun d =>
  match d.ing.bc.find? fun o => decide (o.link = link.val) && decide (o.tid = tid) && o.sent with
  | none => d
  | some o =>
    let d := { d with ing := { d.ing with bc := d.ing.bc.filter fun p => decide (p.tid ≠ o.tid) || decide (p.link ≠ link.val) } }
    ((d.raise (inEv 0x0706 2 link)).jobDecided o.job 0x0706).bcPump link

/-! ### The INGEST service (R242) -/

def vIngest (r : Req) (verb : Nat) (priv : Bool) (body : Dev → VRes Dev) (s : State) : Host.Outcome State Fault Refusal :=
  s.onDev fun d => d.verb r 0x03 verb priv body

def bitmap (n : Nat) (p : Nat → Bool) : Nat := ((List.range n).filter p).foldl (fun a i => a + 2 ^ i) 0

def execIngestInfo (r : Req) (s : State) : Host.Outcome State Fault Refusal := vIngest r 0 false (fun d =>
  .ok d [1, bitmap 8 (fun n => decide (d.lstate n = 4)), bitmap 16 d.camRun,
         ((List.range 16).find? fun c => d.camRun c && decide (d.camF F.camCfg_inline c = 1)).getD 0xFF]) s

/-- A member of a running camera uses the link. -/
def Dev.linkBusy (d : Dev) (link : Nat) : Bool :=
  allSrcs.any fun x => decide (x.link = link) && d.srcEn x && d.camRun (d.srcF F.srcCfg_camera x)

/-- The payload rate of a lane at a RATE code, in kbit/s times 66 / 64 (R194, R196). -/
def laneKbaud (rate : Nat) : Nat := if rate = 0 then 10312500 else if rate = 1 then 12890625 else if rate = 2 then 25781250 else 28125000

/-- The line rate of the mapped ingest links but one. -/
def Dev.mappedKbaud (d : Dev) (but : Nat) : Nat :=
  (((List.range 8).filter fun n => decide (n ≠ but) && d.linkOn n).flatMap fun n =>
    (d.linkLanes n).map fun l => laneKbaud (d.fg F.quadCfg_rate (uQuad (l / 4)))).foldl (· + ·) 0

/-- A combined line payload above 200 Gbit/s, FILL and ALIGN not counted (R511). -/
def overMirror (kbaud : Nat) : Bool := decide (200000000 * 66 < kbaud * 64)

/-- The deframer of a link and its back-channel set on or off with the link (log entry 66). -/
def Dev.dfOn (d : Dev) (link : Nat) (on : Bool) : Dev :=
  let u := uDeframer link
  ((d.fs F.dfCtl_en (bit on) u).fs F.dfCtl_bcEn (bit on) u).cfgWritten .dfCtl u 0

/-- LINK_SET: the link unmapped, its lanes given the rate and enabled, the link mapped (R207, R208). -/
def Dev.ingLinkSet (d : Dev) (r : Req) : VRes Dev :=
  let n := r.object
  let lanes := (List.range r.a1).map (r.a0 + ·)
  if 7 < n then .err 0x0404
  else if 31 < r.a0 then .err 0x0404 (offArg 0)
  else if r.a1 = 0 ∨ 8 < r.a1 ∨ 32 < r.a0 + r.a1 then .err 0x0404 (offArg 1)
  else if 3 < r.a2 then .err 0x0404 (offArg 2)
  else if d.linkBusy n then .err 0x0408
  else if d.fg F.twStat_mode uTwin = 2 ∧ overMirror (d.mappedKbaud n + r.a1 * laneKbaud r.a2) then .err 0x1201
  else
    let e := d.effLnkMap r.master n 0
    let quads := (lanes.map (· / 4)).eraseDups
    let clash := quads.any fun q =>
      decide (e.fg F.quadCfg_rate (uQuad q) ≠ r.a2) && (quadLanes q).any fun l => e.laneEn l && (e.linkOfLane l).isSome
    if clash then .err 0x0404 (offArg 2)
    else
      let e := quads.foldl (fun e q =>
        let old := (quadLanes q).foldl (fun a l => if e.laneEn l && (e.linkOfLane l).isSome then a + 2 ^ (l % 4) else a) 0
        let new := (quadLanes q).foldl (fun a l => if lanes.contains l then a ||| 2 ^ (l % 4) else a) old
        let w := e.rd .quadCfg (uQuad q)
        let e := if e.fg F.quadCfg_rate (uQuad q) = r.a2 then e
          else (e.effQuadCfg r.master q (setF w 19 16 0)).effQuadCfg r.master q (setF (setF w 19 16 0) 23 20 r.a2)
        e.effQuadCfg r.master q (setF (e.rd .quadCfg (uQuad q)) 19 16 new)) e
      let v : Word := BitVec.ofNat 32 (2 ^ 31 + r.a1 * 256 + r.a0)
      if e.mapBad n v then .err 0x0404 (offArg 0) else .job ((e.effLnkMap r.master n v).dfOn n true)

def execIngestLinkSet (r : Req) (s : State) : Host.Outcome State Fault Refusal := vIngest r 1 true (fun d => d.ingLinkSet r) s

def execIngestLinkOff (r : Req) (s : State) : Host.Outcome State Fault Refusal := vIngest r 2 true (fun d =>
  if 7 < r.object then .err 0x0404
  else if d.linkBusy r.object then .err 0x0408
  else .ok ((d.effLnkMap r.master r.object (setF (d.rd .lnkMap uLanes r.object) 31 31 0)).dfOn r.object false)) s

/-- A member's native map in plane coordinates (R253): X and WIDTH are multiples of 8. -/
def Dev.planeMapOf (d : Dev) (s : SrcId) (nat : List Nat) : List Nat :=
  (List.range 64).map fun p =>
    let x := p % 8
    let y := p / 8
    let ny := if d.srcF F.srcCfg_vflip s = 1 then (d.srcF F.srcPos_y s + d.srcF F.srcGeom_height s + 7 - y) % 8
      else (y + 8 - d.srcF F.srcPos_y s % 8) % 8
    let nx := if d.srcF F.srcCfg_hflip s = 1 then 7 - x else x
    nat.getD (ny * 8 + nx) 0

/-- Members' maps of a generation differ in plane coordinates (R253); a member without a source is not compared. -/
def Dev.mapConflict (d : Dev) (t : TabGen) (c : Nat) : Bool :=
  let maps := t.maps.filterMap fun p => (d.memberSrc c p.1).map fun s => d.planeMapOf s p.2
  maps.any fun m => decide (some m ≠ maps.head?)

/-- The tables of a camera conflict (R253), the committed or the pending ones. -/
def Dev.mapsConflict (d : Dev) (c : Nat) : Bool :=
  d.mapConflict (d.pcam c).committed c || (match (d.pcam c).pending with
    | some t => d.mapConflict t c
    | none => false)

/-- SOURCE_SET: the block holds images of SRC_CFG, SRC_GEOM and SRC_POS (log entry 12). -/
def Dev.ingSourceSet (d : Dev) (r : Req) : VRes Dev :=
  let x : SrcId := ⟨r.object / 16, r.object % 16⟩
  let w := d.argW r
  let cam := bitsN (w 0) 23 20
  if 127 < r.object then .err 0x0404
  else if r.argLen < 16 then .err 0x040D
  else if bitsN (w 1) 31 16 % 8 ≠ 0 ∨ bitsN (w 1) 31 16 < 64 ∨ 24576 < bitsN (w 1) 31 16 ∨ bitsN (w 1) 15 0 = 0 ∨
      16384 < bitsN (w 1) 15 0 then .err 0x0404 (offBlk 4)
  else if bitsN (w 2) 31 16 % 8 ≠ 0 then .err 0x0404 (offBlk 8)
  else if (d.srcEn x && d.camBusy (d.srcF F.srcCfg_camera x)) || d.camBusy cam then .err 0x0408
  else
    let put := fun (e : Dev) (q : Reg) (i : Nat) => e.putFields q (uDeframer x.link) x.src (BitVec.ofNat 32 (w i))
    let e := put (put (put d .srcCfg 0) .srcGeom 1) .srcPos 2
    if e.mapsConflict cam && !d.mapsConflict cam then .err 0x0802 (offBlk 0) cam else .ok e

def execIngestSourceSet (r : Req) (s : State) : Host.Outcome State Fault Refusal := vIngest r 3 true (fun d => d.ingSourceSet r) s

/-- CAMERA_SET: the block holds images of CAM_CFG, CAM_SIZE, CAM_FILL and CAM_TIMEOUT (log entry 12); the area is allocated
anew (R233). The line records take N from the members' HEIGHT where they are complete, else MEMBERS × plane height. -/
def Dev.ingCameraSet (d : Dev) (r : Req) : VRes Dev :=
  let c := r.object
  let w := d.argW r
  let n := bitsN (w 0) 26 22
  let wid := bitsN (w 1) 31 16
  let hgt := bitsN (w 1) 15 0
  let slots := bitsN (w 0) 15 8
  let inl := decide (bitsN (w 0) 29 29 = 1)
  if 15 < c then .err 0x0404
  else if r.argLen < 32 then .err 0x040D
  else if d.camBusy c then .err 0x0408
  else if n = 0 ∨ 16 < n ∨ slots < 2 ∨ 64 < bitsN (w 0) 7 0 ∨
      (inl ∧ ((d.memberSrcs c).any (fun x => decide (d.srcF F.srcCfg_vflip x = 1)) ∨
        (List.range 16).any fun k => decide (k ≠ c) && decide (d.camF F.camCfg_inline k = 1))) then .err 0x0404 (offBlk 0)
  else if wid % 8 ≠ 0 ∨ wid < 64 ∨ 24576 < wid ∨ hgt = 0 ∨ 16384 < hgt then .err 0x0404 (offBlk 4)
  else if bitsN (w 2) 15 8 = 0 ∨ bitsN (w 2) 7 0 = 0 then .err 0x0404 (offBlk 8)
  else if bitsN (w 3) 15 0 = 0 then .err 0x0404 (offBlk 12)
  else
    let dep := depthBits (bitsN (w 0) 28 27)
    let stride := ceilDiv (wid * dep / 8) 64 * 64
    let full := decide ((d.memberSrcs c).length = n) && (List.range n).all fun m => (d.memberSrc c m).isSome
    let recs := if full then d.memberP c n else n * hgt
    let pages := ceilDiv (stride * hgt + 32 * recs + 256 + bitsN (w 0) 7 0 * 1024) 4096
    let e := d.freeArea (tagOf 8 c)
    match e.alloc rgIngest (slots * pages * 4096) (tagOf 8 c) with
    | none => .err 0x0409
    | some (base, e) =>
      let put := fun (e : Dev) (q : Reg) (v : Nat) => (e.wr q uIngest c (BitVec.ofNat 32 v)).cfgWritten q uIngest c
      let e := put e .camCfg (w 0 &&& 0x3FC0FFFF)
      let e := put (put (put e .camSize (w 1)) .camFill (w 2)) .camTimeout (w 3 % 65536)
      let e := put (put (put (put e .camBaseLo base) .camBaseHi (base / 2 ^ 32)) .camStride stride) .camSlot pages
      .ok e [base % 2 ^ 32, base / 2 ^ 32, pages, stride]

def execIngestCameraSet (r : Req) (s : State) : Host.Outcome State Fault Refusal := vIngest r 4 true (fun d => d.ingCameraSet r) s

/-- CAMERA_START: DETAIL names the failed check of `camCheck` (log entry 12); the deframers are granted the area (R234). -/
def Dev.ingCameraStart (d : Dev) (r : Req) : VRes Dev :=
  let c := r.object
  if 15 < c then .err 0x0404
  else if d.camBusy c then .err 0x0408
  else
    match d.camCheck c with
    | some k => .err 0x0404 0xFFFF k
    | none =>
      let size := d.camF F.camCfg_slots c * d.camF F.camSlot_slotSize c * 4096
      let links := ((d.memberSrcs c).map (·.link)).eraseDups
      let g := links.foldl (fun (e : Option Dev) l =>
        match e with
        | none => none
        | some e => (e.grantRgn 0x3FF (0x80 + l) (d.camBase c) size false true).map (·.2)) (some d)
      match g with
      | none => .err 0x0409
      | some e => .ok (e.camStart c)

def execIngestCameraStart (r : Req) (s : State) : Host.Outcome State Fault Refusal :=
  vIngest r 5 true (fun d => d.ingCameraStart r) s

/-- CAMERA_STOP; its job succeeds when RUN falls. -/
def execIngestCameraStop (r : Req) (s : State) : Host.Outcome State Fault Refusal := vIngest r 6 true (fun d =>
  if 15 < r.object then .err 0x0404
  else if d.camF F.camCfg_en r.object = 0 then .err 0x0408
  else
    let d := d.camStop r.object
    .job ((List.range 8).foldl (fun e l => e.revokeRgn (0x80 + l) (d.camBase r.object)) d)) s

/-- FRAME_INFO: the record from its slot, unless the frame is not yet closed or its slot is overwritten (R234). -/
def Dev.ingFrameInfo (d : Dev) (r : Req) : VRes Dev :=
  let c := r.object
  let s := d.cam c
  if 15 < c then .err 0x0404
  else if s.no = 0 then .err 0x0404 (offArg 0)
  else
    let n := if r.a0 = 0xFFFFFFFF then s.no - 1 else r.a0
    let newest := if s.opn then s.no else s.no - 1
    if s.no ≤ n ∨ n + d.camF F.camCfg_slots c ≤ newest then .err 0x0404 (offArg 0)
    else
      let bs := d.hbmR (d.slotAddr c n + d.camRecOff c) 256
      .ok d [n, rdLe bs 24 4, d.camSlotOf c n] bs

def execIngestFrameInfo (r : Req) (s : State) : Host.Outcome State Fault Refusal := vIngest r 7 false (fun d => d.ingFrameInfo r) s

/-- HEAD_WRITE and HEAD_READ (R217, R221): the transaction is the job that this verb opens. -/
def Dev.headXfer (d : Dev) (r : Req) (wr : Bool) (n : Nat) (tail : List Byte) : VRes Dev :=
  let link := r.object / 16
  let src := r.object % 16
  let tid := d.ing.nextTid
  let pkt := leBytes 1 (if wr then 0x10 else 0x11) ++ leBytes 4 (src * 2 ^ 28 + tid) ++ leBytes 4 r.a0 ++ tail
  if 127 < r.object then .err 0x0404
  else if n < 4 ∨ 256 < n ∨ n % 4 ≠ 0 then .err 0x0404 (if wr then 0xFFFF else offArg 1)
  else if !d.fb F.dfCtl_bcEn (uDeframer link) then .err 0x0408
  else
    .job ({ d with ing := { d.ing with bc := d.ing.bc ++ [(⟨link, tid, src, wr, d.oz.nextJob, false, pkt⟩ : BcOp)],
                                       nextTid := (tid + 1) % 65536 } }.bcPump link)

def execIngestHeadWrite (r : Req) (s : State) : Host.Outcome State Fault Refusal :=
  vIngest r 8 true (fun d => d.headXfer r true r.argLen (d.argB r)) s
def execIngestHeadRead (r : Req) (s : State) : Host.Outcome State Fault Refusal :=
  vIngest r 9 true (fun d => if r.replyMax < r.a1 then .err 0x040D else d.headXfer r false r.a1 (leBytes 4 r.a1)) s

def execIngestHeadTrigger (r : Req) (s : State) : Host.Outcome State Fault Refusal := vIngest r 0xA true (fun d =>
  let link := r.object / 16
  if 127 < r.object ∨ (r.a1 = 1 ∧ r.object % 16 ≠ 15) then .err 0x0404
  else if 1 < r.a1 then .err 0x0404 (offArg 1)
  else if !d.fb F.dfCtl_bcEn (uDeframer link) then .err 0x0408
  else .ok (d.sendTrigger link (r.object % 16) (decide (r.a1 = 1)) r.a0 d.stamp) [d.stamp % 2 ^ 32, d.stamp / 2 ^ 32]) s

/-- STATS: DF_STAT, DF_PKTS, then the SRC_STAT of each enabled source in ascending SRC, within 64 B (log entry 12). -/
def Dev.ingStats (d : Dev) (r : Req) : VRes Dev :=
  let u := uDeframer r.object
  if 7 < r.object then .err 0x0404
  else
    let per := ((List.range 16).filter fun k => d.srcEn ⟨r.object, k⟩).flatMap fun k => leBytes 4 (d.rd .srcStat u k).toNat
    let bs := fitB (leBytes 4 (d.rd .dfStat u).toNat ++ leBytes 8 (d.get64 .dfPktsLo .dfPktsHi u) ++ per) 64
    let d := (d.fs F.dfStat_ptErr 0 u).fs F.dfStat_crcErr 0 u
    .ok ((List.range 16).foldl (fun e k => (e.fs F.srcStat_discarded 0 u k).fs F.srcStat_frames 0 u k) d) [] bs

def execIngestStats (r : Req) (s : State) : Host.Outcome State Fault Refusal := vIngest r 0xB false (fun d => d.ingStats r) s

end Sys2Proof.Machine
end

