-- ==== Sys2Proof/Machine/Integ.lean ====
section
/-! DEFINITION. Chapter 14, integrity by recoating: mismatches (R409, R426), the commit of a line at point B (R411), row checks
(R415) and the check-value units (R420 to R424). -/
namespace Sys2Proof.Machine

/-! ### Mismatches (R409, R425, R426) -/

/-- The counter of a recoat point: 2 B to 7 G. -/
def mismFld (p : Nat) : Fld :=
  match p with
  | 2 => F.rcMism0_b
  | 3 => F.rcMism0_c
  | 4 => F.rcMism0_d
  | 5 => F.rcMism0_e
  | 6 => F.rcMism1_f
  | _ => F.rcMism1_g

/-- E_RC_MISMATCH at point p for an object, frame and row, counted (R409, R426). -/
def Dev.mismatch (d : Dev) (p sev unit obj d1 d2 : Nat) : Dev :=
  (d.fadd (mismFld p) 1 uInteg).raise { code := 0x0D01, sev := sev, unit := unit, d0 := p * 2 ^ 24 + obj % 2 ^ 24, d1 := d1, d2 := d2 }

/-- A 32-bit read of RC_MISM0 (false) or RC_MISM1 (true) clears it (R425). -/
def execRcMismRead (m : Nat) (second : Bool) (s : State) : Host.Outcome State Fault Refusal :=
  s.access m fun d =>
    if second then d.readClear m .rcMism1 uInteg 0 [F.rcMism1_f, F.rcMism1_g]
    else d.readClear m .rcMism0 uInteg 0 [F.rcMism0_b, F.rcMism0_c, F.rcMism0_d, F.rcMism0_e]

/-! ### Point B (R235, R411) -/

/-- The 32 bytes of a line record (R235). -/
def LineJob.rec32 (j : LineJob) : List Byte :=
  leBytes 8 j.stamp ++ leBytes 8 j.crc ++ leBytes 2 j.row ++ leBytes 1 (j.member % 16 * 16) ++ leBytes 1 (j.flags % 128) ++
  leBytes 4 j.frame ++ leBytes 2 j.segs ++ leBytes 2 j.fill ++ leBytes 4 0

/-- A line committed as the mover reads it; its record keeps the point-A value (R411). -/
def Dev.commitJob (d : Dev) (j : LineJob) (bs : List Byte) : Dev :=
  let c := j.cam
  let d := if decide (crc64 bs = j.crc) then d else d.mismatch 2 3 (uDeframer j.link) c j.frame j.row
  let base := d.slotAddr c j.frame
  let x := match d.memberSrc c j.member with
    | some x => d.srcF F.srcPos_x x
    | none => 0
  let d := d.hbmW (base + j.row * d.camF F.camStride_stride c + x * d.camDepth c / 8) bs
  let d := d.hbmW (base + d.camLinesOff c + 32 * (d.memberP c j.member + j.line)) j.rec32
  if (d.cam c).opn && decide ((d.cam c).no = j.frame) then d.fadd F.camRows_lines 1 uIngest c else d

/-- The oldest line in the buffers is committed. -/
def Dev.commitLine (d : Dev) (seen : Option (List Byte)) : Dev :=
  match d.ing.lines with
  | [] => d
  | j :: js => { d with ing := { d.ing with lines := js } }.commitJob j (seen.getD j.bytes)

/-- LINE_COMMIT (R411): `seen` is what the mover read where that differs from what the deframer placed. -/
def execLineCommit (seen : Option (List Byte)) (s : State) : Host.Outcome State Fault Refusal := s.onDev fun d => d.commitLine seen

/-! ### The row-check area (R415) -/

/-- Base of stream s's slot for a kept frame. -/
def Dev.ringSlot (d : Dev) (s camFrame decim : Nat) : Nat :=
  d.get64 .rcGringLo .rcGringHi uInteg + s * 0x800000 + camFrame / max 1 decim % 16 * 0x80000

/-- The bytes of a slot: CAM_FRAME, ROWS, PLANES, SCRC and the row checks. -/
def ringBytes (camFrame rows planes : Nat) (checks : List Nat) : List Byte :=
  let head := leBytes 4 camFrame ++ leBytes 4 rows ++ leBytes 1 planes ++ leBytes 3 0
  let cs := (checks.map (leBytes 4)).flatten
  head ++ leBytes 4 (crc32c (head ++ cs)) ++ cs

/-! ### Check-value units (R420 to R424) -/

/-- A check of R420 over bytes. -/
def cvuAlg (a : Nat) (bs : List Byte) : Nat :=
  if a = 0 then crc32c bs else if a = 1 then crc32 bs else if a = 2 then crc64 bs else crc16 bs

def cvuWidth (a : Nat) : Nat := if a = 2 then 64 else if a = 3 then 16 else 32

/-- E_RC_CVU_CFG, E_RC_CVU_MISMATCH and the alive codes (R426). -/
def Dev.cvuEv (d : Dev) (code sev n tag d2 : Nat) : Dev :=
  d.raise { code := code, sev := sev, unit := uCvu n, d0 := n, d1 := tag, d2 := d2 }

/-- An entry completed by CVU n (JOBS). -/
def Dev.cvuEnd (d : Dev) (n tag status : Nat) (body : List Byte) : Dev := (d.fadd F.cvuStat_jobs 1 (uCvu n)).endOp tag status body

/-- An entry refused with E_RC_CVU_CFG. -/
def Dev.cvuRefuse (d : Dev) (n tag : Nat) : Dev := (d.cvuEv 0x0D06 1 n tag 0).cvuEnd n tag 0x0D06 []

/-- CHECK (R421): `host` holds the bytes of a range in host memory. -/
def Dev.cvuCheck (d : Dev) (n : Nat) (o : Op) (host : List Byte) : Dev :=
  let b := o.entry.body
  let alg := rdLe b 0 1
  let len := rdLe b 4 4
  let rg := o.entry.range0
  if o.entry.opcode ≠ 0x50 ∨ 3 < alg ∨ len = 0 ∨ rgBytes rg < len ∨ 1 < rgSpace rg ∨ !d.fb F.cvuCtl_en (uCvu n) then
    d.cvuRefuse n o.tag
  else
    let m := (d.q o.qid).owner
    if rgSpace rg = 0 ∧ !d.callerMay m (rgAddr rg) len false then (d.dmaOutside m (rgAddr rg)).cvuEnd n o.tag 0x0310 []
    else
      let bs := if rgSpace rg = 0 then d.hbmR (rgAddr rg) len else fitB host len
      let v := cvuAlg alg bs
      let d := if rgSpace rg = 0 then d.eccRead (rgAddr rg) len else d
      let d := d.set64 .cvuLastLo .cvuLastHi v (uCvu n)
      if rdLe b 1 1 % 2 = 1 ∧ rdLe b 8 8 % 2 ^ cvuWidth alg ≠ v then
        ((d.fadd F.cvuStat_mismatch 1 (uCvu n)).cvuEv 0x0D02 1 n o.tag 0).cvuEnd n o.tag 0x0D02 (leBytes 8 v)
      else d.cvuEnd n o.tag 0 (leBytes 8 v)

/-- ALIVE (R422). -/
def Dev.cvuAlive (d : Dev) (n : Nat) (o : Op) : Dev :=
  let u := uCvu n
  if o.entry.opcode ≠ 0x51 ∨ !d.fb F.cvuCtl_en u ∨ !d.fb F.cvuCtl_alEn u then d.cvuRefuse n o.tag
  else
    let md := if d.fb F.cvuCtl_alW u then 65536 else 256
    let v := rdLe o.entry.body 0 2 % md
    let p := d.fg F.cvuAlive_value u
    let first := !d.integ.seen.contains n
    let d := { d with integ := { d.integ with seen := if first then n :: d.integ.seen else d.integ.seen,
                                              stale := d.integ.stale.filter (· ≠ n) } }
    let d := d.fs F.cvuAlive_value v u
    let body := fun (gap : Nat) => leBytes 2 p ++ leBytes 1 gap
    if first ∨ v = (p + 1) % md then d.cvuEnd n o.tag 0 (body 0)
    else if v = p then ((d.fadd F.cvuAlive_repeats 1 u).cvuEv 0x0D03 2 n o.tag 0).cvuEnd n o.tag 0x0D03 (body 0)
    else
      let gap := (v + 2 * md - p - 1) % md
      ((d.fadd F.cvuAlive_skips 1 u).cvuEv 0x0D04 2 n o.tag gap).cvuEnd n o.tag 0x0D04 (body gap)

/-- What CVU n does with the operation holding a tag. -/
def Dev.cvuOp (d : Dev) (n tag : Nat) (f : Dev → Op → Dev) : Dev :=
  match d.op tag with
  | some o => if o.unit = uCvu n then f d o else d
  | none => d

/-- A CHECK entry runs on CVU n (R421); a range with uncorrectable words records them in the event NVM (R436). -/
def execCvuCheck (n : Fin 8) (tag : Nat) (host : List Byte) (s : State) : Host.Outcome State Fault Refusal :=
  s.onNvm 0 fun d => d.cvuOp n tag fun d o => d.cvuCheck n o host
def execCvuAlive (n : Fin 8) (tag : Nat) (s : State) : Host.Outcome State Fault Refusal :=
  s.onDev fun d => d.cvuOp n tag fun d o => d.cvuAlive n o

/-- No ALIVE value for AL_TIMEOUT µs (R422). -/
def execAliveTimeout (n : Fin 8) (s : State) : Host.Outcome State Fault Refusal := s.onDev fun d =>
  let u := uCvu n
  if d.fb F.cvuCtl_alEn u ∧ d.fg F.cvuCtl_alTimeout u ≠ 0 ∧ !d.integ.stale.contains n.val then
    (({ d with integ := { d.integ with stale := n.val :: d.integ.stale } }).fadd F.cvuStat_stale 1 u).cvuEv 0x0D05 2 n 0 0
  else d

/-- CVU_CTL written (R424): a change of AL_W while AL_EN = 1 drops the write; a rise of AL_EN resets the first-value state. -/
def Dev.effCvuCtl (d : Dev) (m n : Nat) (v : Word) : Dev :=
  let u := uCvu n
  if d.fb F.cvuCtl_alEn u ∧ getF v 29 29 ≠ d.fg F.cvuCtl_alW u then
    d.raise { code := 0x0D06, sev := 1, unit := u, master := m, d0 := n }
  else
    let rise := decide (getF v 30 30 = 1) && !d.fb F.cvuCtl_alEn u
    let d := d.putFields .cvuCtl u 0 v
    if rise then { d with integ := { d.integ with seen := d.integ.seen.filter (· ≠ n), stale := d.integ.stale.filter (· ≠ n) } } else d

def execCvuCtlWrite (m : Nat) (n : Fin 8) (v : Word) (s : State) : Host.Outcome State Fault Refusal :=
  s.access m fun d => d.gated m .cvuCtl (uCvu n) 0 v fun d => d.effCvuCtl m n v

/-- A 32-bit read of CVU_STAT (false) or CVU_ALIVE (true) of CVU n. -/
def execCvuCounterRead (m : Nat) (n : Fin 8) (alive : Bool) (s : State) : Host.Outcome State Fault Refusal :=
  s.access m fun d =>
    if alive then d.readClear m .cvuAlive (uCvu n) 0 [F.cvuAlive_repeats, F.cvuAlive_skips]
    else d.readClear m .cvuStat (uCvu n) 0 [F.cvuStat_jobs, F.cvuStat_mismatch, F.cvuStat_stale]

end Sys2Proof.Machine
end

