-- ==== Sys2Proof/Machine/Stripe.lean ====
section
/-! DEFINITION. A stripe of a camera frame in a tile: what stages 1 to 8 read (R246, R247, R263, R285), stage 9 (R318 to R322), and
what the end of a stripe writes (R281, R283, R326 to R328). -/
namespace Sys2Proof.Machine

/-! ### Where a pixel's data stand -/

/-- The member whose region holds plane pixel (x, y), with its source. -/
def Dev.regionAt (d : Dev) (c x y : Nat) : Option SrcId :=
  (d.memberSrcs c).find? fun s =>
    decide (d.srcF F.srcPos_x s ≤ x) && decide (x < d.srcF F.srcPos_x s + d.srcF F.srcGeom_width s) &&
    decide (d.srcF F.srcPos_y s ≤ y) && decide (y < d.srcF F.srcPos_y s + d.srcF F.srcGeom_height s)

/-- The source line that lies on plane row y of a source. -/
def Dev.lineAt (d : Dev) (s : SrcId) (y : Nat) : Nat :=
  let r := y - d.srcF F.srcPos_y s
  if d.srcF F.srcCfg_vflip s = 1 then d.srcF F.srcGeom_height s - 1 - r else r

/-- The HBM address of the line record under plane pixel (x, y) of a frame. -/
def Dev.recAddr (d : Dev) (c n : Nat) (s : SrcId) (y : Nat) : Nat :=
  d.slotAddr c n + d.camLinesOff c + 32 * (d.memberP c (d.srcF F.srcCfg_member s) + d.lineAt s y)

/-- The line record's fields a tile reads: FRAME, FLAGS, FILL_PX (R235). -/
def Dev.lineRec (d : Dev) (c n x y : Nat) : Nat × Nat × Nat :=
  match d.regionAt c x y with
  | none => (n, 16, 1)
  | some s =>
    match d.ing.inl.find? fun j => decide (j.cam = c) && decide (j.frame = n) && decide (j.row = y) &&
        decide (j.member = d.srcF F.srcCfg_member s) with
    | some j => (n, j.flags, j.fill)
    | none =>
      let r := d.hbmR (d.recAddr c n s y) 32
      (rdLe r 20 4, rdLe r 19 1, rdLe r 26 2)

/-- The sample of plane pixel (x, y) of a frame: from the line handed over in-line (R237), else from HBM (R233). -/
def Dev.sample (d : Dev) (c n x y : Nat) : Nat :=
  let dep := d.camDepth c
  let bits := fun (bs : List Byte) (k : Nat) => leNat ((bs.drop (k * dep / 8)).take 4) / 2 ^ (k * dep % 8) % 2 ^ dep
  match d.ing.inl.find? fun j => decide (j.cam = c) && decide (j.frame = n) && decide (j.row = y) &&
      (match d.regionAt c x y with
       | some s => decide (j.member = d.srcF F.srcCfg_member s)
       | none => false) with
  | some j =>
    let x0 := match d.regionAt c x y with
      | some s => d.srcF F.srcPos_x s
      | none => 0
    bits j.bytes (x - x0)
  | none => leNat (d.hbmR (d.slotAddr c n + y * d.camF F.camStride_stride c + x * dep / 8) 4) / 2 ^ (x * dep % 8) % 2 ^ dep

/-! ### Tables -/

/-- A member's defect entry covers plane pixel (x, y) (R255, R215). -/
def Dev.defectAt (d : Dev) (t : TabGen) (c x y : Nat) : Bool :=
  match d.regionAt c x y with
  | none => false
  | some s =>
    let w := d.srcF F.srcGeom_width s
    let nx := if d.srcF F.srcCfg_hflip s = 1 then w - 1 - (x - d.srcF F.srcPos_x s) else x - d.srcF F.srcPos_x s
    let ny := d.lineAt s y
    ((tget t.defs (d.srcF F.srcCfg_member s)).getD []).any fun e =>
      if e.kind = 1 then decide (e.col = nx) && decide (e.row ≤ ny) && decide (ny < e.row + e.len)
      else if e.kind = 2 then decide (e.row = ny) && decide (e.col ≤ nx) && decide (nx < e.col + e.len)
      else decide (e.col = nx) && decide (e.row = ny)

/-- The plane map of a generation: that of the first member that has one. -/
def Dev.planeMap (d : Dev) (t : TabGen) (c : Nat) : List Nat :=
  match t.maps with
  | [] => []
  | (m, nat) :: _ => match d.memberSrc c m with
    | some s => d.planeMapOf s nat
    | none => nat

/-- A flat-field entry at index i of a plane: gain, offset (R258). -/
def flatEntry (t : TabGen) (i : Nat) (pair : Bool) : Fl × Fl :=
  let n := if pair then 4 else 2
  (Fl.ofScaled (rdLe t.ff (n * i) 2) 14, if pair then Fl.ofScaled (sgn 16 (rdLe t.ff (n * i + 2) 2)) 16 else Fl.zero)

/-- Gain and offset of plane pixel (x, y) (R259); the interpolation is exact and rounded once (log entry 25). -/
def flatAt (t : TabGen) (w h x y : Nat) : Fl × Fl :=
  if t.ffS = 1 then
    let row := ceilDiv (2 * w) 64 * 64
    let g := Fl.ofScaled (rdLe t.ff (y * row + 2 * x) 2) 14
    (g, Fl.ofScaled (sgn 16 (rdLe t.ff (h * row + y * row + 2 * x) 2)) 16)
  else
    let s := t.ffS
    let cols := ceilDiv w s + 1
    let p := phaseOf x y
    let at0 := fun (i j : Nat) => flatEntry t ((j * cols + i) * 64 + p) (decide (t.ffMode = 2))
    let i := x / s
    let j := y / s
    let fx := Fl.ofNat (x % s)
    let fy := Fl.ofNat (y % s)
    let cx := Fl.ofNat (s - x % s)
    let cy := Fl.ofNat (s - y % s)
    let mix := fun (f : Fl × Fl → Fl) =>
      let a := ((f (at0 i j)).mulE cx).addE ((f (at0 (i + 1) j)).mulE fx)
      let b := ((f (at0 i (j + 1))).mulE cx).addE ((f (at0 (i + 1) (j + 1))).mulE fx)
      (((a.mulE cy).addE (b.mulE fy)).div fmtW (Fl.ofNat (s * s))).clean
    (mix (·.1), mix (·.2))

/-- The matrix set of a member (R263): its own, else the one for all members. -/
def TabGen.setOf (t : TabGen) (m : Nat) : MSet := ((tget t.sets m).orElse fun _ => tget t.sets 0xFF).getD ⟨[], [], false⟩

/-- The default IR vector of R266, and the vector in use. -/
def irDefault : List Nat := [(0 : Int), 0, 2298, 35702, 41333, 20667].map fun n => wfBits (Fl.dec fmt64 n 5)
def TabGen.irVec (t : TabGen) : List Nat := if t.ir = [] then irDefault else t.ir

/-- What stages 1 to 5 read for frame n of camera c under a generation. A pixel outside every region takes member 0's tables;
a member without a sensor record has black level 0 and the depth's largest code as WHITE (log entry 26). -/
def Dev.rawCtx (d : Dev) (t : TabGen) (c n : Nat) : RawCtx :=
  let w := d.camF F.camSize_width c
  let h := d.camF F.camSize_height c
  let fillV := d.camFillV c
  { w := w, h := h, code := d.sample c n
    isFill := fun x y =>
      let r := d.lineRec c n x y
      (r.2.1).testBit 4 || (decide (r.2.2 ≠ 0) && decide (d.sample c n x y = fillV))
    member := fun x y => match d.regionAt c x y with
      | some s => d.srcF F.srcCfg_member s
      | none => 0
    map := d.planeMap t c
    bl := fun m p => ((tget t.bl m).getD []).getD p 0
    white := fun m => (tget t.white m).getD (2 ^ d.camDepth c - 1)
    isDef := d.defectAt t c
    ffMode := t.ffMode
    gain := fun x y => (flatAt t w h x y).1
    offs := fun x y => (flatAt t w h x y).2
    coef := fun m => (t.setOf m).coef
    ir := t.irVec
    clear := fun m =>
      let r := (t.setOf m).src
      (List.range 6).map fun k => if r = [] then wfOf (Config.clearRow k) else (charA r tyC k).rnd fmtW }

/-- Output transform k of a generation; one never set is disabled (R287). -/
def TabGen.ot (t : TabGen) (k : Nat) : Ot :=
  ⟨(tget t.ots k).getD [], (tget t.shapers k).getD [], (tget t.luts k).getD []⟩

/-! ### Stripes (R246) -/

/-- Stripe width of a plane of w columns in n stripes. -/
def stripeWidth (w n : Nat) : Nat := 8 * ceilDiv w (8 * max 1 n)

def Dev.allocOf (d : Dev) (c : Nat) : CamAlloc := (tget d.pipe.allocs c).getD ⟨0, 0, 0, 0⟩

/-- The stripe that holds plane column x. -/
def Dev.stripeOf (d : Dev) (c x : Nat) : Nat := x / stripeWidth (d.camF F.camSize_width c) (d.allocOf c).n

/-- First core column and core columns of stripe i. -/
def Dev.core (d : Dev) (c i : Nat) : Nat × Nat :=
  let w := d.camF F.camSize_width c
  let s := stripeWidth w (d.allocOf c).n
  (i * s, min (i * s + s) w - i * s)

/-! ### Stage 7 (R283 to R285) -/

def histRow (w : Nat) (uf : Bool) : Nat := 64 * ceilDiv (w * (if uf then 4 else 6)) 64

/-- The address of a pixel in history buffer b. -/
def TabGen.histAt (t : TabGen) (w h b x y : Nat) : Nat :=
  t.hist + b * (histRow w t.uf32 * h) + y * histRow w t.uf32 + x * (if t.uf32 then 4 else 6)

/-- The reason of a whole-frame reset of stage 7 (R285): 0 none due, 1 commit, 2 layout, 9 without event. -/
def PipeCam.tnrReset (p : PipeCam) (n : Nat) : Nat :=
  if n = 0 ∨ p.tnrFrame = some n then 9
  else if p.commitFrame = n then 1
  else if p.layoutFrame = some n then 2 else 0

/-- The tag of stripe i in the buffer that frame n reads shows frame n − 1 whole (R285). -/
def Dev.tagGood (d : Dev) (c n i : Nat) : Bool :=
  match tget (d.pcam c).tags ((n + 1) % 2 * 256 + i) with
  | some (f, _, l) => decide (f + 1 = n) && decide (l = d.camF F.camSize_height c)
  | none => false

/-- Stages 6 and 7 for a pixel. -/
structure Px7 where
  xyz : V3
  aces : V3

/-- Stage 6 for a plane pixel. -/
def px6 (r : RawCtx) (s : FrameSet) (x y : Nat) : Px7 :=
  let xyz := xyzOf (r.weights x y)
  ⟨xyz, s.aces xyz (r.s2 x y).sat⟩

/-- Stage 7 for a plane pixel (R284): coordinates outside the plane take copies (R247). -/
def Dev.px7 (d : Dev) (r : RawCtx) (t : TabGen) (s : FrameSet) (c n x y : Nat) : Px7 :=
  let me := px6 r s x y
  if !t.tnr then me
  else
    let i := d.stripeOf c x
    let pass := decide ((d.pcam c).tnrReset n ≠ 0) || !d.tagGood c n i || ((d.lineRec c n x y).2.1).testBit 4 || (r.s2 x y).sat
    let expTag := match tget (d.pcam c).tags ((n + 1) % 2 * 256 + i) with
      | some (_, e, _) => e
      | none => s.exposure
    let b := if t.uf32 then 4 else 6
    let win := (List.range 9).map fun k =>
      let x := wrapC r.w ((x : Int) + (k % 3 : Nat) - 1)
      let y := wrapC r.h ((y : Int) + (k / 3 : Nat) - 1)
      ((px6 r s x y).aces, histDec t.uf32 (d.hbmR (t.histAt r.w r.h ((n + 1) % 2) x y) b))
    { me with aces := tnrPx s expTag win pass }

/-! ### Stage 9 (R318 to R322) -/

/-- A stream's configuration, as its registers hold it. -/
structure StrCfg where
  cam : Nat
  fmt : Nat
  ot : Nat
  corr : Bool
  conf : Bool
  cx : Nat
  cy : Nat
  cw : Nat
  ch : Nat
  ow : Nat
  oh : Nat
  ph : Nat
  pv : Nat
  coef : List Nat

def Dev.strF (d : Dev) (f : Fld) (s : Nat) : Nat := d.fg f uPipe s
def Dev.str (d : Dev) (s : Nat) : StrSt := (tget d.pipe.strs s).getD {}
def Dev.setStr (d : Dev) (s : Nat) (v : StrSt) : Dev := { d with pipe := { d.pipe with strs := tset d.pipe.strs s v } }
def Dev.modStr (d : Dev) (s : Nat) (f : StrSt → StrSt) : Dev := d.setStr s (f (d.str s))
def Dev.strRun (d : Dev) (s : Nat) : Bool := decide (d.strF F.strCfg_run s = 1)

def Dev.strCfg (d : Dev) (s : Nat) : StrCfg :=
  { cam := d.strF F.strCfg_camera s, fmt := d.strF F.strCfg_format s, ot := d.strF F.strCfg_ot s,
    corr := decide (d.strF F.strCfg_corr s = 1), conf := decide (d.strF F.strCfg_conf s = 1),
    cx := d.strF F.strCrop0_x s, cy := d.strF F.strCrop0_y s, cw := d.strF F.strCrop1_w s, ch := d.strF F.strCrop1_h s,
    ow := d.strF F.strSize_outW s, oh := d.strF F.strSize_outH s, ph := 2 ^ d.strF F.strCfg_ph s, pv := 2 ^ d.strF F.strCfg_pv s,
    coef := if d.strF F.strCfg_coef s = 1 then (d.str s).coef else [] }

/-- Bytes per pixel times two of a format at a depth (R322). -/
def bpp2 (fmt depth : Nat) (corr : Bool) : Nat :=
  match fmt with
  | 0 => 4
  | 1 => 12
  | 2 => 5
  | 3 => if corr then 4 else depth / 4
  | _ => 4

/-- Bytes of one row of ow pixels (R322); RAW rows are whole bytes since OUT_W is a multiple of 8. -/
def rowLen (fmt depth : Nat) (corr : Bool) (ow : Nat) : Nat :=
  if fmt = 3 ∧ !corr then ow * depth / 8 else ow * bpp2 fmt depth corr / 2
def rowBytes (fmt depth : Nat) (corr : Bool) (ow : Nat) : Nat := 64 * ceilDiv (rowLen fmt depth corr ow) 64
def planesOf (fmt : Nat) (conf : Bool) : Nat := if fmt = 0 then 3 else if fmt = 4 ∧ conf then 2 else 1

/-- Bytes of row checks' rows: plane p of a format (the confidence plane has 1 B per pixel). -/
def planeRowLen (k : StrCfg) (depth p : Nat) : Nat := if k.fmt = 4 ∧ p = 1 then k.ow else rowLen k.fmt depth k.corr k.ow

/-- A scaler's position for output x of n (R320): floor(u), and φ with the step of φ = 64 taken. -/
def scalePos (x crop p out : Nat) : Int × Int × Nat :=
  let den : Int := 2 * p * out
  let num : Int := (2 * x + 1 : Nat) * (crop : Int) - p * out
  let i := num / den
  let fr := num - i * den
  let ph := (Fl.div fmt64 (Fl.ofInt (64 * fr)) (Fl.ofInt den)).round
  (i, if ph = 64 then i + 1 else i, if ph = 64 then 0 else ph.toNat)

/-- Coefficients of a phase: a loaded table's, else the default's, scaled so that they sum to 16,384 (R321). -/
def coefsOf (coef : List Nat) (axis num den phase : Nat) : List Fl :=
  if coef = [] then
    let l := (List.range 8).map fun t => f64Of (Config.lanczos (min num den) den phase t)
    let s := l.foldl (fun a v => a.add fmt64 v) Fl.zero
    l.map fun v => Fl.ofScaled ((v.mul fmt64 (Fl.ofNat 16384)).div fmt64 s).round 14
  else (List.range 8).map fun t => Fl.ofScaled (sgn 16 (coef.getD (axis * 512 + phase * 8 + t) 0)) 14

/-- A unit index brought inside the plane: units that lie whole within n columns, for a crop at c (R320). -/
def unitIn (c p n : Nat) (j : Int) : Int :=
  let lo : Int := -(c / p : Nat)
  let hi : Int := ((n - c) / p : Nat) - 1
  if j < lo then lo else if hi < j then hi else j

/-- The mean of a unit's P_H × P_V pixels of one component (R318 step 2). -/
def unitMean (k : StrCfg) (w h : Nat) (f : Nat → Nat → Fl) (jx jy : Int) : Fl :=
  let x0 := ((k.cx : Int) + unitIn k.cx k.ph w jx * k.ph).toNat
  let y0 := ((k.cy : Int) + unitIn k.cy k.pv h jy * k.pv).toNat
  if k.ph = 1 ∧ k.pv = 1 then f x0 y0
  else
    let s := (List.range (k.ph * k.pv)).foldl (fun a i => a.add fmt32 (f (x0 + i % k.ph) (y0 + i / k.ph))) Fl.zero
    (s.div fmt32 (Fl.ofNat (k.ph * k.pv))).rnd fmtW

/-- One component of output pixel (ox, oy): horizontally, then vertically (R318, R320). -/
def scaled (k : StrCfg) (w h : Nat) (f : Nat → Nat → Fl) (ox oy : Nat) : Fl :=
  let (_, ix, px) := scalePos ox k.cw k.ph k.ow
  let (_, iy, py) := scalePos oy k.ch k.pv k.oh
  let cxs := coefsOf k.coef 0 (k.ow * k.ph) k.cw px
  let cys := coefsOf k.coef 1 (k.oh * k.pv) k.ch py
  let row := fun (jy : Int) =>
    (dotIn fmt32 cxs ((List.range 8).map fun (t : Nat) => unitMean k w h f (ix + (t : Int) - 3) jy)).rnd fmtW
  (dotIn fmt32 cys ((List.range 8).map fun (t : Nat) => row (iy + (t : Int) - 3))).rnd fmtW

/-- A code of R293: offset + gain × value, to nearest, clamped. -/
def quant (off gain : Nat) (x : Fl) (lo hi : Nat) : Nat :=
  let v := ((Fl.ofNat off).addE ((Fl.ofNat gain).mulE x)).round
  if v < lo then lo else if (hi : Int) < v then hi else v.toNat

/-- Kr and Kb (R293). -/
def krkb (wide : Bool) : Fl × Fl :=
  if wide then (Fl.dec fmt32 2627 4, Fl.dec fmt32 593 4) else (Fl.dec fmt32 2126 4, Fl.dec fmt32 722 4)

/-- Y′, Cb, Cr of R′G′B′ (R293). -/
def ycc (wide : Bool) (v : V3) : V3 :=
  let (kr, kb) := krkb wide
  let one := Fl.ofNat 1
  let two := Fl.ofNat 2
  let y := ((kr.mul fmt32 v.r).add fmt32 (((one.sub fmt32 kr).sub fmt32 kb).mul fmt32 v.g)).add fmt32 (kb.mul fmt32 v.b)
  ⟨y, (v.b.sub fmt32 y).div fmt32 (two.sub fmt32 (two.mul fmt32 kb)), (v.r.sub fmt32 y).div fmt32 (two.sub fmt32 (two.mul fmt32 kr))⟩

/-- The black code of a format (R332 FILL): 0, or narrow range's black with chroma 512. -/
def ycode (full : Bool) (y : Fl) : Nat := if full then quant 0 1023 y 0 1023 else quant 64 876 y 4 1019
def ccode (full : Bool) (x : Fl) : Nat := if full then quant 512 1023 x 0 1023 else quant 512 896 x 4 1019
def rgbcode (full : Bool) (x : Fl) : Nat := if full then quant 0 4095 x 0 4095 else quant 256 3504 x 16 4079

/-- One output pixel's bytes by plane (R322), but for YCC422_10 and RAW rows, which are packed in groups. -/
structure PxSrc where
  /-- R′G′B′ of an output pixel, and the IR value -/
  rgb : Nat → Nat → V3
  ir : Nat → Nat → Fl
  conf : Nat → Nat → Nat
  code : Nat → Nat → Nat
  s3 : Nat → Nat → Fl
  full : Bool
  wide : Bool

/-- Output columns per packed group: 8 for RAW, 2 for YCC422_10, else 1. -/
def groupOf (k : StrCfg) : Nat := if k.fmt = 3 ∧ !k.corr then 8 else if k.fmt = 2 then 2 else 1

/-- The bytes of the group of output columns that starts at x, in row y, by plane. -/
def groupBytes (k : StrCfg) (depth : Nat) (p : PxSrc) (x y : Nat) : List (List Byte) :=
  match k.fmt with
  | 0 =>
    let v := p.rgb x y
    [leBytes 2 (f16Bits v.r), leBytes 2 (f16Bits v.g), leBytes 2 (f16Bits v.b)]
  | 1 =>
    let v := p.rgb x y
    [leBytes 2 (rgbcode p.full v.r) ++ leBytes 2 (rgbcode p.full v.g) ++ leBytes 2 (rgbcode p.full v.b)]
  | 2 =>
    let a := ycc p.wide (p.rgb x y)
    let b := ycc p.wide (p.rgb (x + 1) y)
    let mean := fun (u v : Fl) => (u.add fmt32 v).div fmt32 (Fl.ofNat 2)
    [leBytes 5 (ccode p.full (mean a.g b.g) + ycode p.full a.r * 2 ^ 10 + ccode p.full (mean a.b b.b) * 2 ^ 20 +
      ycode p.full b.r * 2 ^ 30)]
  | 3 =>
    if k.corr then [leBytes 2 (quant 0 65535 (p.s3 x y) 0 65535)]
    else [packRow depth ((List.range 8).map fun i => p.code (x + i) y)]
  | _ => [leBytes 2 (f16Bits (p.ir x y))] ++ (if k.conf then [leBytes 1 (p.conf x y)] else [])

/-- A stream's bytes written into a buffer. -/
def Dev.bufW (d : Dev) (b : StrFrame) (a : Nat) (bs : List Byte) : Dev :=
  if b.space = 0 then d.hbmW (b.base + a) bs else d.hostW b.owner (b.base + a) bs
def Dev.bufR (d : Dev) (b : StrFrame) (a n : Nat) : List Byte :=
  if b.space = 0 then d.hbmR (b.base + a) n else d.hostR b.owner (b.base + a) n

/-- The value sources of a stream for camera frame n: R′G′B′ and IR through the scaler, codes and stage-3 values by crop. -/
def Dev.pxSrc (d : Dev) (k : StrCfg) (r : RawCtx) (t : TabGen) (s : FrameSet) (n : Nat) : PxSrc :=
  let o := t.ot k.ot
  let src := fun (x y : Nat) => let p := d.px7 r t s k.cam n x y; o.run (if o.srcXyz then p.xyz else p.aces)
  let sc := fun (f : Nat → Nat → Fl) (x y : Nat) => scaled k r.w r.h f x y
  { rgb := fun x y => ⟨sc (fun a b => (src a b).v.r) x y, sc (fun a b => (src a b).v.g) x y, sc (fun a b => (src a b).v.b) x y⟩
    ir := fun x y => sc (fun a b => r.irOf (r.weights a b)) x y
    conf := fun x y => r.conf (k.cx + x) (k.cy + y) (r.weights (k.cx + x) (k.cy + y))
    code := fun x y => r.code (k.cx + x) (k.cy + y)
    s3 := fun x y => (r.s3 (k.cx + x) (k.cy + y)).v
    full := o.full, wide := o.ycc2020 }

/-- The stripe that develops the output group starting at column x (R320): that of its first column's centre unit. -/
def Dev.stripeOfOut (d : Dev) (k : StrCfg) (x : Nat) : Nat :=
  let i := if k.fmt = 3 ∨ (k.cw = k.ow) then (x : Int) else (scalePos x k.cw k.ph k.ow).1
  d.stripeOf k.cam ((k.cx : Int) + i * (if k.fmt = 3 then 1 else k.ph)).toNat

/-- Stage 9 writes the columns of stripe i of frame n into the stream's buffer. -/
def Dev.writeOut (d : Dev) (s : Nat) (b : StrFrame) (n i : Nat) : Dev :=
  let k := d.strCfg s
  let p := d.pcam k.cam
  let t := p.genOf n
  let depth := d.camDepth k.cam
  let src := d.pxSrc k (d.rawCtx t k.cam n) t (p.setOf n).set n
  let g := groupOf k
  let pitch := rowBytes k.fmt depth k.corr k.ow
  let xs := ((List.range (k.ow / g)).map (g * ·)).filter fun x => decide (d.stripeOfOut k x = i)
  (List.range k.oh).foldl (fun e y => xs.foldl (fun e x =>
    ((groupBytes k depth src x y).zipIdx).foldl (fun e q =>
      e.bufW b (q.2 * (pitch * k.oh) + y * pitch + x / g * q.1.length) q.1) e) e) d

/-! ### The end of a stripe (R281, R283, R285) -/

/-- What a stripe's pixels count. -/
structure StripeSum where
  corrected : Nat
  unfixed : Nat
  sat : Nat
  range : Nat
  shp : Nat
  lut : Nat
  valid : Nat
  sums : List Fl
  sumY : Fl

/-- A pixel's part of the statistics (R281): weights and Y where it is valid. -/
def statPx (t : TabGen) (r : RawCtx) (x y : Nat) (w : List Fl) : Option (List Fl × Fl) :=
  let p := r.s2 x y
  let yv := (xyzOf w).g
  if p.sat ∨ p.defect ∨ yv.lt (f32Of t.statLo) ∨ (f32Of t.statHi).lt yv then none else some (w, yv)

/-- One line's sums in binary32, then added in binary64 (R281). -/
def lineSums (rows : List (List Fl × Fl)) : List Fl × Fl :=
  let col := fun (k : Nat) => rows.foldl (fun a p => a.add fmt32 (p.1.getD k Fl.zero)) Fl.zero
  ((List.range 6).map col, rows.foldl (fun a p => a.add fmt32 p.2) Fl.zero)

/-- Everything the core pixels of a stripe count. -/
def stripeSum (t : TabGen) (r : RawCtx) (ots : List Ot) (src7 : Nat → Nat → Px7) (left wid : Nat) : StripeSum :=
  let zero : StripeSum := ⟨0, 0, 0, 0, 0, 0, 0, List.replicate 6 Fl.zero, Fl.zero⟩
  (List.range r.h).foldl (fun a y =>
    let xs := (List.range wid).map (left + ·)
    let a := xs.foldl (fun (a : StripeSum) x =>
      let w := r.weights x y
      let p := r.s2 x y
      let dfc := r.isDef x y
      let outs := ots.map fun o => o.run (if o.srcXyz then (src7 x y).xyz else (src7 x y).aces)
      { a with corrected := a.corrected + (if dfc && (r.correct x y).isSome then 1 else 0),
               unfixed := a.unfixed + (if dfc && (r.correct x y).isNone then 1 else 0),
               sat := a.sat + (if p.sat then 1 else 0),
               range := a.range + (r.s3 x y).v.sat + (w.map (·.sat)).foldl (· + ·) 0 + (r.irOf w).sat,
               shp := a.shp + (outs.map (·.shp)).foldl (· + ·) 0, lut := a.lut + (outs.map (·.lut)).foldl (· + ·) 0 }) a
    let rows := xs.filterMap fun x => statPx t r x y (r.weights x y)
    let l := lineSums rows
    { a with valid := a.valid + rows.length, sums := List.zipWith (fun u v => u.add fmt64 v) a.sums l.1, sumY := a.sumY.add fmt64 l.2 })
    zero

/-- The 64 bytes of a statistics record (R281). -/
def StripeSum.enc (a : StripeSum) : List Byte :=
  leBytes 4 a.valid ++ leBytes 4 a.sat ++ ((a.sums.map fun v => leBytes 8 (f64Bits v)).flatten) ++ leBytes 8 (f64Bits a.sumY)

/-- A stripe of a generation writes its history (R283): the core columns of buffer n mod 2, and its tag. -/
def Dev.writeHist (d : Dev) (t : TabGen) (s : FrameSet) (c n i : Nat) (src7 : Nat → Nat → Px7) : Dev :=
  if !t.tnr then d
  else
    let w := d.camF F.camSize_width c
    let h := d.camF F.camSize_height c
    let k := d.core c i
    let d := (List.range h).foldl (fun e y => (List.range k.2).foldl (fun e x =>
      e.hbmW (t.histAt w h (n % 2) (k.1 + x) y) (histEnc t.uf32 (src7 (k.1 + x) y).aces)) e) d
    let p := d.pcam c
    d.setPcam c { p with tags := tset p.tags (n % 2 * 256 + i) (n, s.exposure, h) }

/-- The statistics record of stripe i of frame n, in the camera's area of 16 frames (R281). -/
def Dev.writeStat (d : Dev) (c n i : Nat) (a : StripeSum) : Dev :=
  let p := d.pcam c
  let slot := n % 16
  let cnt := match tget p.statFrames slot with
    | some (f, k) => if f = n then k + 1 else 1
    | none => 1
  (d.hbmW (p.stats + slot * 6144 + i * 64) a.enc).setPcam c { p with statFrames := tset p.statFrames slot (n, cnt) }

/-- Stage 7's reset of a stripe, with its event where it has one (R285). -/
def Dev.tnrTell (d : Dev) (t : TabGen) (c n i tile : Nat) : Dev :=
  if !t.tnr then d
  else
    let why := (d.pcam c).tnrReset n
    let why := if why = 0 then (if d.tagGood c n i then 0 else 3) else why
    if why = 0 then d
    else
      let d := d.fadd F.clTnr_resets 1 tile
      if why = 9 then d else d.raiseOnce (0x300 + c) 10000000 (pxEv 0x0904 1 c tile why)

end Sys2Proof.Machine
end

