-- ==== Sys2Proof/Machine/Pipe.lean ====
section
/-! DEFINITION. Chapter 09, the PIPE service: pending tables, their checks and their commit (R253 to R273), and a tile's counters
(R270). -/
namespace Sys2Proof.Machine

/-- Device time as RAW loads: HBM bandwidth of the C0 share, bytes/s × 1,000 (R38, R260). -/
def c0Share : Nat := 245760000000 * 1000

/-- The pending generation, which starts as a copy of the committed one (R268). -/
def Dev.pend (d : Dev) (c : Nat) : TabGen :=
  let p := d.pcam c
  p.pending.getD { p.committed with gen := p.nextGen % 65536 }

/-- A pending generation stored, its number shown in PIPE_GEN. -/
def Dev.setPend (d : Dev) (c : Nat) (t : TabGen) : Dev :=
  let p := d.pcam c
  let nxt := if p.pending.isNone then p.nextGen + 1 else p.nextGen
  (d.setPcam c { p with pending := some t, nextGen := nxt }).fs F.pipeGen_pending t.gen uPipe c

/-- A COMMIT of the camera runs (R269): until the commit frame's first stripe starts (R273). -/
def Dev.committing (d : Dev) (c : Nat) : Bool := (d.pcam c).loadAt.isSome || (d.pcam c).announce

/-- The front of the camera verbs of the PIPE and COLOUR services: OBJECT, and no COMMIT running (R269, R295). -/
def Dev.onCam (d : Dev) (r : Req) (f : Nat → VRes Dev) : VRes Dev :=
  if 15 < r.object then .err 0x0404 else if d.committing r.object then .err 0x0408 else f r.object

/-- A long verb whose outcome is decided at its checks: a failure raises its code (R143, R159). -/
def Dev.failJob (d : Dev) (code obj d2 : Nat) : VRes Dev :=
  .job (d.raise (pxEv code 1 obj 0xFFFFFFFF d2)) (some code)

/-- The frame rate of a camera's allocation in mHz (R305). -/
def Dev.camRate (d : Dev) (c : Nat) : Nat := (d.allocOf c).rate

/-- Ingest commit load of a camera, bytes per frame: lines and their records (R260, R235). -/
def Dev.commitBytes (d : Dev) (c : Nat) : Nat :=
  ((d.memberSrcs c).map fun x => d.srcF F.srcGeom_height x * (d.srcF F.srcGeom_width x * d.camDepth c / 8 + 32)).foldl (· + ·) 0

/-- Output bytes per frame of a C0 stream (R325). -/
def Dev.strBytes (d : Dev) (s : Nat) : Nat :=
  (d.rd .strRowb uPipe s).toNat * d.strF F.strSize_outH s * planesOf (d.strF F.strCfg_format s) (decide (d.strF F.strCfg_conf s = 1)) /
    max 1 (d.strF F.strDecim_decim s)

/-- The sum of R260 with the history traffic of R283 and the C0 streams of R325, for camera c in-line under generation t with
TNR `tnr`, in bytes/s × 1,000; `skip` is a stream left out. A grid's fetch is less than 1 GB/s and is not counted (R260; log
entry 27). -/
def Dev.c0Sum (d : Dev) (c rate : Nat) (t : TabGen) (skip : Nat) : Nat :=
  let w := d.camF F.camSize_width c
  let h := d.camF F.camSize_height c
  let commit := (((List.range 16).filter fun k => d.camRun k || decide (k = c)).map fun k =>
    d.commitBytes k * (if k = c then rate else d.camRate k)).foldl (· + ·) 0
  let flat := if t.ffMode ≠ 0 ∧ t.ffS = 1 then w * h * (if t.ffMode = 2 then 4 else 2) else 0
  let defs := (t.defs.map fun p => 8 * p.2.length).foldl (· + ·) 0
  let hist := if t.tnr then 2 * (if t.uf32 then 4 else 6) * w * h else 0
  let outs := (((List.range 8).filter fun s => decide (s ≠ skip) && d.strRun s && decide (d.strF F.strCfg_class s = 0)).map
    d.strBytes).foldl (· + ·) 0
  commit + (flat + defs + hist + outs) * rate

/-- Whether a table of camera c breaks the C0 sum (R260): in-line cameras only. -/
def Dev.c0Breaks (d : Dev) (c : Nat) (t : TabGen) : Bool :=
  decide (d.camF F.camCfg_inline c = 1) && decide (c0Share < d.c0Sum c (d.camRate c) t 8)

def vPipe (r : Req) (verb : Nat) (priv : Bool) (body : Dev → VRes Dev) (s : State) : Host.Outcome State Fault Refusal :=
  s.onDev fun d => d.verb r 0x04 verb priv body

def tileCount (p : Nat → Bool) : Nat := ((List.range 72).filter fun n => p (uTile n)).length

def execPipeInfo (r : Req) (s : State) : Host.Outcome State Fault Refusal := vPipe r 0 false (fun d =>
  .ok d [1, tileCount fun u => decide (d.own u = stReady) || decide (d.own u = stActive), tileCount fun u => decide (d.own u = stUnusable),
         tileCount fun u => d.inRole (· == .spare) u]) s

/-- SENSOR_SET (R254): DETAIL holds the byte that fails. -/
def Dev.pipeSensorSet (d : Dev) (r : Req) (c : Nat) : VRes Dev :=
  let b := d.argB r
  let white := rdLe b 0 2
  let bl := (List.range 64).map fun i => rdLe b (16 + 4 * i) 4
  if 15 < r.a0 then .err 0x0404 (offArg 0)
  else if r.argLen < 272 then .err 0x0404
  else if white = 0 ∨ 2 ^ d.camDepth c ≤ white then .err 0x0801 (offBlk 0) 0
  else if rdLe b 2 14 ≠ 0 then .err 0x0801 (offBlk 2) 2
  else
    match (List.range 64).find? fun i => decide (2 ^ 20 ≤ bl.getD i 0) with
    | some i => .err 0x0801 (offBlk (16 + 4 * i)) (16 + 4 * i)
    | none =>
      let t := d.pend c
      .ok (d.setPend c { t with white := tset t.white r.a0 white, bl := tset t.bl r.a0 bl }) [t.gen]

def execPipeSensorSet (r : Req) (s : State) : Host.Outcome State Fault Refusal :=
  vPipe r 1 true (fun d => d.onCam r fun c => d.pipeSensorSet r c) s

/-- MOSAIC_SET (R252, R253): sets loaded directly are stale after it (R273). -/
def Dev.pipeMosaicSet (d : Dev) (r : Req) (c : Nat) : VRes Dev :=
  let b := d.argB r
  let nat := (List.range 64).map fun i => let v := rdLe b (i / 2) 1; if i % 2 = 0 then v % 16 else v / 16
  if 15 < r.a0 then .err 0x0404 (offArg 0)
  else if r.argLen < 32 then .err 0x0404
  else
    match (List.range 64).find? fun i => decide (4 < nat.getD i 0) with
    | some i => .err 0x0801 (offBlk (i / 2)) (i / 2)
    | none =>
      let t := d.pend c
      let t2 := { t with maps := tset t.maps r.a0 nat, sets := t.sets.map fun p => (p.1, { p.2 with stale := true }) }
      if d.mapConflict t2 c then .err 0x0802 0xFFFF r.a0 else .ok (d.setPend c t2) [t2.gen]

def execPipeMosaicSet (r : Req) (s : State) : Host.Outcome State Fault Refusal :=
  vPipe r 2 true (fun d => d.onCam r fun c => d.pipeMosaicSet r c) s

/-- The entries of a defect map (R255). -/
def decDefects (b : List Byte) (n : Nat) : List Defect :=
  (List.range n).map fun i => ⟨rdLe b (8 * i) 2, rdLe b (8 * i + 2) 2, rdLe b (8 * i + 4) 1, rdLe b (8 * i + 5) 2⟩

def Defect.bad (e : Defect) : Bool :=
  decide (2 < e.kind) || decide (e.len = 0) || decide (4096 < e.len) || (decide (e.kind = 0) && decide (e.len ≠ 1))

/-- The native pixels of an entry. -/
def Defect.px (e : Defect) : List (Nat × Nat) :=
  if e.kind = 1 then (List.range e.len).map fun i => (e.col, e.row + i)
  else if e.kind = 2 then (List.range e.len).map fun i => (e.col + i, e.row) else [(e.col, e.row)]

/-- A member's defective pixels in plane coordinates, as row × 65536 + column. -/
def Dev.planeDefects (d : Dev) (c : Nat) (p : Nat × List Defect) : List Nat :=
  match d.memberSrc c p.1 with
  | none => []
  | some s =>
    let w := d.srcF F.srcGeom_width s
    let h := d.srcF F.srcGeom_height s
    (p.2.flatMap Defect.px).map fun q =>
      let x := d.srcF F.srcPos_x s + (if d.srcF F.srcCfg_hflip s = 1 then w - 1 - q.1 else q.1)
      let y := d.srcF F.srcPos_y s + (if d.srcF F.srcCfg_vflip s = 1 then h - 1 - q.2 else q.2)
      y * 65536 + x

/-- The first plane row that breaks R256, or 0xFFFFFFFF where the whole map or a run does; none where it holds. -/
def Dev.defectDense (d : Dev) (t : TabGen) (c : Nat) : Option Nat :=
  let out := t.defs.any fun p => match d.memberSrc c p.1 with
    | none => false
    | some s => (p.2.flatMap Defect.px).any fun q => decide (d.srcF F.srcGeom_width s ≤ q.1) || decide (d.srcF F.srcGeom_height s ≤ q.2)
  let all := ((t.defs.flatMap (d.planeDefects c)).mergeSort fun a b => decide (a ≤ b)).eraseDups
  if out ∨ 4194304 < all.length then some 0xFFFFFFFF
  else ((all.zip (all.drop 64)).find? fun p => decide (p.1 / 65536 = p.2 / 65536) && decide (p.2 < p.1 + 1024)).map fun p => p.1 / 65536

/-- DEFECT_LOAD (R255, R256, R260). -/
def Dev.pipeDefectLoad (d : Dev) (r : Req) (c : Nat) : VRes Dev :=
  let b := d.argB r
  let n := r.argLen / 8
  let es := decDefects b n
  let t := d.pend c
  let old := if r.a1 % 2 = 1 then (tget t.defs r.a0).getD [] else []
  let t2 := { t with defs := tset t.defs r.a0 (old ++ es) }
  if 15 < r.a0 then .err 0x0404 (offArg 0)
  else if 1 < r.a1 then .err 0x0404 (offArg 1)
  else if r.argLen % 8 ≠ 0 then .err 0x0404
  else if d.c0Breaks c t2 then .err 0x0408
  else
    match (List.range n).find? fun i => (es.getD i ⟨0, 0, 3, 0⟩).bad || decide (rdLe b (8 * i + 7) 1 ≠ 0) with
    | some i => d.failJob 0x0801 c (8 * i + 4)
    | none =>
      match d.defectDense t2 c with
      | some row => d.failJob 0x0804 c row
      | none => .job (d.setPend c t2) (some 0)

def execPipeDefectLoad (r : Req) (s : State) : Host.Outcome State Fault Refusal :=
  vPipe r 3 true (fun d => d.onCam r fun c => d.pipeDefectLoad r c) s

/-- Bytes of the flat-field planes at spacing S in FF_MODE m (R259). -/
def flatSize (w h s m : Nat) : Nat :=
  if s = 1 then m * (ceilDiv (2 * w) 64 * 64 * h) else (ceilDiv w s + 1) * (ceilDiv h s + 1) * 64 * (2 * m)

/-- FLAT_LOAD (R258 to R260): firmware copies the planes. -/
def Dev.pipeFlatLoad (d : Dev) (r : Req) (c : Nat) : VRes Dev :=
  let addr := r.a2 + r.a3 * 2 ^ 32
  let n := flatSize (d.camF F.camSize_width c) (d.camF F.camSize_height c) r.a0 r.a1
  let t := d.pend c
  if ! [1, 8, 16, 32, 64].contains r.a0 then .err 0x0404 (offArg 0)
  else if 2 < r.a1 then .err 0x0404 (offArg 1)
  else if r.a1 = 0 then .job (d.setPend c { t with ffMode := 0, ffS := r.a0, ff := [] }) (some 0)
  else if !d.callerMay r.master addr n false then .err 0x040D (offArg 2)
  else
    let t2 := { t with ffMode := r.a1, ffS := r.a0, ff := d.hbmR addr n }
    if d.c0Breaks c t2 then .err 0x0408 else .job (d.setPend c t2) (some 0)

def execPipeFlatLoad (r : Req) (s : State) : Host.Outcome State Fault Refusal :=
  vPipe r 4 true (fun d => d.onCam r fun c => d.pipeFlatLoad r c) s

/-- SPECTRAL_LOAD (R264, R265): derived at once where the map is known, and again by COMMIT after the map changes. -/
def Dev.pipeSpectralLoad (d : Dev) (r : Req) (c : Nat) : VRes Dev :=
  let b := fitB (d.argB r) 2964
  let t := d.pend c
  let map := d.planeMap t c
  if 15 < r.a0 ∧ r.a0 ≠ 0xFF then .err 0x0404 (offArg 0)
  else if r.argLen < 2964 then .err 0x0404
  else if recBad b then d.failJob 0x0805 c 0
  else if map = [] then .job (d.setPend c { t with sets := tset t.sets r.a0 ⟨[], b, true⟩ }) (some 0)
  else
    match deriveSet b map with
    | .error p => d.failJob 0x0805 c p
    | .ok l => .job (d.setPend c { t with sets := tset t.sets r.a0 ⟨l, b, false⟩ }) (some 0)

def execPipeSpectralLoad (r : Req) (s : State) : Host.Outcome State Fault Refusal :=
  vPipe r 5 true (fun d => d.onCam r fun c => d.pipeSpectralLoad r c) s

/-- MATRIX_LOAD: a set of 9,600 working floats. -/
def Dev.pipeMatrixLoad (d : Dev) (r : Req) (c : Nat) : VRes Dev :=
  let b := d.argB r
  let l := (List.range 9600).map fun i => rdLe b (3 * i) 3
  let t := d.pend c
  if 15 < r.a0 ∧ r.a0 ≠ 0xFF then .err 0x0404 (offArg 0)
  else if r.argLen < 28800 then .err 0x0404
  else
    match (List.range 9600).find? fun i => wfSpecial (l.getD i 0) with
    | some i => d.failJob 0x0801 c (3 * i)
    | none => .job (d.setPend c { t with sets := tset t.sets r.a0 ⟨l, [], false⟩ }) (some 0)

def execPipeMatrixLoad (r : Req) (s : State) : Host.Outcome State Fault Refusal :=
  vPipe r 6 true (fun d => d.onCam r fun c => d.pipeMatrixLoad r c) s

def Dev.pipeIrSet (d : Dev) (r : Req) (c : Nat) : VRes Dev :=
  let b := d.argB r
  let l := (List.range 6).map fun i => rdLe b (3 * i) 3
  let t := d.pend c
  if r.argLen < 18 then .err 0x0404
  else
    match (List.range 6).find? fun i => wfSpecial (l.getD i 0) with
    | some i => .err 0x0801 (offBlk (3 * i)) (3 * i)
    | none => .ok (d.setPend c { t with ir := l }) [t.gen]

def execPipeIrSet (r : Req) (s : State) : Host.Outcome State Fault Refusal :=
  vPipe r 7 true (fun d => d.onCam r fun c => d.pipeIrSet r c) s

/-! ### COMMIT (R268, R269) -/

/-- Every kept record derived again for the present map (R265); the phase at which one is refused, or a stale direct set. -/
def rederive (map : List Nat) : List (Nat × MSet) → Except Nat (List (Nat × MSet))
  | [] => .ok []
  | (m, s) :: l =>
    if s.stale then
      if s.src = [] then .error 0
      else
        match deriveSet s.src map with
        | .error p => .error p
        | .ok c =>
          match rederive map l with
          | .error p => .error p
          | .ok r => .ok ((m, ⟨c, s.src, false⟩) :: r)
    else
      match rederive map l with
      | .error p => .error p
      | .ok r => .ok ((m, s) :: r)

/-- Output transforms of a generation with PATH = LUT (R289). -/
def TabGen.lutCount (t : TabGen) : Nat := ((List.range 4).filter fun k => (t.ot k).en && (t.ot k).isLut).length

/-- The distinct matrix sets a generation uses (R263). -/
def Dev.setCount (d : Dev) (t : TabGen) (c : Nat) : Nat :=
  ((List.range (d.camF F.camCfg_members c)).map fun m => if (tget t.sets m).isSome then m else 0xFF).eraseDups.length

/-- Cameras that have tiles in tile group g. -/
def Dev.camsOfGroup (d : Dev) (g : Nat) : List Nat :=
  ((List.range 4).flatMap fun i =>
    match tget d.pipe.roles (uTile (4 * g + i)) with
    | some (.inl c _) => [c]
    | some (.part k) => (d.pipe.allocs.filter fun p => decide (p.2.mode = 2) && decide (p.2.part = k)).map (·.1)
    | some .compat => (d.pipe.allocs.filter fun p => decide (p.2.mode = 3)).map (·.1)
    | _ => []).eraseDups

/-- The generation of a camera with one of them replaced. -/
def Dev.genWith (d : Dev) (c : Nat) (t : TabGen) (k : Nat) : TabGen := if k = c then t else (d.pcam k).committed

/-- A tile group whose cameras' LUT transforms would number more than two (R289). -/
def Dev.lutGroup (d : Dev) (c : Nat) (t : TabGen) : Option Nat :=
  (List.range 18).find? fun g =>
    let cs := d.camsOfGroup g
    decide (2 < ((cs.map fun k => (d.genWith c t k).lutCount).foldl (· + ·) 0))

/-- Matrix sets that the cameras of one partition need together (R307). -/
def Dev.partSets (d : Dev) (c : Nat) (t : TabGen) (k : Nat) : Nat :=
  (((d.pipe.allocs.filter fun p => decide (p.2.mode = 2) && decide (p.2.part = k)).map (·.1)).map fun x =>
    d.setCount (d.genWith c t x) x).foldl (· + ·) 0

/-- Matrix sets that the compatibility cameras need together (R317). -/
def Dev.cptSets (d : Dev) (c : Nat) (t : TabGen) : Nat :=
  (((d.pipe.allocs.filter fun p => decide (p.2.mode = 3)).map (·.1)).map fun x => d.setCount (d.genWith c t x) x).foldl (· + ·) 0

/-- A stripe of width w, with its 32 overlap columns on each side (R247), touches more than four members with distinct sets (R263). -/
def Dev.setsCrowd (d : Dev) (c : Nat) (t : TabGen) (n w : Nat) : Bool :=
  (List.range n).any fun i =>
    let near := (d.memberSrcs c).filter fun s =>
      decide (d.srcF F.srcPos_x s < (i + 1) * w + 32) && decide (i * w < d.srcF F.srcPos_x s + d.srcF F.srcGeom_width s + 32)
    let sets := near.map fun s => if (tget t.sets (d.srcF F.srcCfg_member s)).isSome then d.srcF F.srcCfg_member s else 0xFF
    decide (4 < sets.eraseDups.length)

/-- A running stream uses an output transform that a generation disables (R330). -/
def Dev.otInUse (d : Dev) (c : Nat) (t : TabGen) : Bool :=
  (List.range 8).any fun s => d.strRun s && decide (d.strF F.strCfg_camera s = c) && decide (d.strF F.strCfg_format s < 3) &&
    !(t.ot (d.strF F.strCfg_ot s)).en

/-- The first check of COMMIT that fails, with DETAIL2 (R263, R268, R295, R307, R317, R330). -/
def Dev.commitCheck (d : Dev) (c : Nat) (t : TabGen) : Except (Nat × Nat) TabGen :=
  let map := d.planeMap t c
  if map = [] then .error (0x0802, 0)
  else if d.mapConflict t c then .error (0x0802, 0)
  else
    match d.defectDense t c with
    | some row => .error (0x0804, row)
    | none =>
      if d.c0Breaks c t then .error (0x0408, 0)
      else
        match rederive map t.sets with
        | .error p => .error (0x0805, p)
        | .ok sets =>
          let t := { t with sets := sets }
          if (List.range (d.camF F.camCfg_members c)).any (fun m => decide ((t.setOf m).coef = [])) then .error (0x0805, 0)
          else if d.setsCrowd c t (d.allocOf c).n (stripeWidth (d.camF F.camSize_width c) (d.allocOf c).n) then .error (0x0805, 0)
          else if 2 < t.lutCount then .error (0x0902, 0xFFFFFFFF)
          else
            match d.lutGroup c t with
            | some g => .error (0x0902, g)
            | none =>
              if (d.allocOf c).mode = 2 ∧ 4 < d.partSets c t (d.allocOf c).part then .error (0x0A02, 0)
              else if (d.allocOf c).mode = 3 ∧ 4 < d.cptSets c t then .error (0x0A02, 0)
              else if d.otInUse c t then .error (0x0408, 0) else .ok t

/-- COMMIT (R268): at once where the camera does not run; else at the first frame that opens 2 ms after the load. -/
def Dev.pipeCommit (d : Dev) (c : Nat) : VRes Dev :=
  match (d.pcam c).pending with
  | none => .err 0x0408
  | some t =>
    match d.commitCheck c t with
    | .error (code, d2) => if code = 0x0408 then .job d (some 0x0408) else d.failJob code c d2
    | .ok t =>
      let e := d.setPcam c { d.pcam c with pending := some t }
      if d.camRun c then .job (e.setPcam c { e.pcam c with loadAt := some d.up, job := d.oz.nextJob })
      else .job (e.commitIdle c 0) (some 0)

def execPipeCommit (r : Req) (s : State) : Host.Outcome State Fault Refusal :=
  vPipe r 8 true (fun d => d.onCam r fun c => d.pipeCommit c) s

def execPipeDiscard (r : Req) (s : State) : Host.Outcome State Fault Refusal := vPipe r 9 true (fun d => d.onCam r fun c =>
  .ok ((d.setPcam c { d.pcam c with pending := none }).fs F.pipeGen_pending 0 uPipe c)) s

/-- The largest coefficient magnitude of a set, as binary32 (R265). -/
def MSet.largest (s : MSet) : Nat := f32Bits ((s.coef.map fun w => (wfOf w).abs).foldl Fl.max Fl.zero)

/-- TABLE_INFO's 64 B (log entry 12): generations, commit frame, defect pixels, FF_MODE, S, set count, four largest
coefficients, plane map. -/
def Dev.tableInfo (d : Dev) (c : Nat) : List Byte :=
  let p := d.pcam c
  let t := p.committed
  let map := d.planeMap t c
  leBytes 2 t.gen ++ leBytes 2 ((p.pending.map (·.gen)).getD 0) ++ leBytes 4 p.commitFrame ++
  leBytes 4 (((t.defs.flatMap (d.planeDefects c)).eraseDups).length) ++ leBytes 1 t.ffMode ++ leBytes 1 t.ffS ++
  leBytes 2 t.sets.length ++ ((List.range 4).flatMap fun i => leBytes 4 (((t.sets[i]?).map fun q => q.2.largest).getD 0)) ++
  ((List.range 32).map fun k => BitVec.ofNat 8 (map.getD (2 * k) 0 + 16 * map.getD (2 * k + 1) 0))

def execPipeTableInfo (r : Req) (s : State) : Host.Outcome State Fault Refusal :=
  vPipe r 0xA false (fun d => d.onCam r fun c => .ok d [] (d.tableInfo c)) s

/-- Registers of a tile read by firmware and cleared: the reply's words and the fields that fall to 0. -/
def Dev.tileStats (d : Dev) (r : Req) (regs : List Reg) (clear : List Fld) : VRes Dev :=
  let u := r.object
  if kindOf u ≠ some .tile then .err 0x0404
  else .ok (clear.foldl (fun e f => e.fs f 0 u) d) (regs.map fun q => (d.rd q u).toNat)

def execPipeTileStats (r : Req) (s : State) : Host.Outcome State Fault Refusal := vPipe r 0xB false (fun d =>
  d.tileStats r [.pxDef, .pxSat, .pxEcc, .pxGen]
    [F.pxDef_corrected, F.pxDef_unfixed, F.pxSat_sat, F.pxEcc_range, F.pxEcc_ce]) s

/-- A 32-bit read of PX_DEF (0), PX_SAT (1) or PX_ECC (2) of tile n (R270). -/
def execPxCounterRead (m : Nat) (n : Fin 72) (which : Fin 3) (s : State) : Host.Outcome State Fault Refusal :=
  s.access m fun d =>
    let u := uTile n
    match which.val with
    | 0 => d.readClear m .pxDef u 0 [F.pxDef_corrected, F.pxDef_unfixed]
    | 1 => d.readClear m .pxSat u 0 [F.pxSat_sat]
    | _ => d.readClear m .pxEcc u 0 [F.pxEcc_range, F.pxEcc_ce]

end Sys2Proof.Machine
end

