-- ==== Sys2Proof/Machine/Colour.lean ====
section
/-! DEFINITION. Chapter 10, the COLOUR service: output transforms, shapers, LUTs, temporal noise reduction, parameter sets and
automatic control (R281, R282, R287 to R301). -/
namespace Sys2Proof.Machine

def vColour (r : Req) (verb : Nat) (priv : Bool) (body : Dev → VRes Dev) (s : State) : Host.Outcome State Fault Refusal :=
  s.onDev fun d => d.verb r 0x05 verb priv body

/-- OBJECT of a verb that a running COMMIT does not shut (R295). -/
def camOnly (r : Req) (f : Nat → VRes Dev) : VRes Dev := if 15 < r.object then .err 0x0404 else f r.object

def execColourInfo (r : Req) (s : State) : Host.Outcome State Fault Refusal := vColour r 0 false (fun d => .ok d [1, 4, 2, 0x1F]) s

/-- The first byte of a descriptor that fails its check (R287). -/
def otBad (b : List Byte) : Option Nat :=
  let f := fun (o : Nat) => rdLe b o 4
  let enc := rdLe b 1 1
  if 16 ≤ rdLe b 0 1 then some 0
  else if 4 < enc then some 1
  else if 1 < rdLe b 2 1 then some 2
  else if 2 < rdLe b 3 1 then some 3
  else
    match ((List.range 12).map fun i => 4 + 4 * i).find? fun o => f32Special (f o) with
    | some o => some o
    | none =>
      if rdLe b 3 1 ≠ 0 ∧ !((f32Of (f 4)).lt (f32Of (f 8))) then some 8
      else if enc = 3 ∧ ((f32Of (f 12)).lt (Fl.ofNat 1) ∨ (Fl.ofNat 10000).lt (f32Of (f 12))) then some 12
      else if rdLe b 52 12 ≠ 0 then some 52 else none

def Dev.colourOtSet (d : Dev) (r : Req) (c : Nat) : VRes Dev :=
  let b := fitB (d.argB r) 64
  if 3 < r.a0 then .err 0x0404 (offArg 0)
  else if r.argLen < 64 then .err 0x0404
  else
    match otBad b with
    | some o => .err 0x0901 (offBlk o) o
    | none =>
      let t := d.pend c
      .ok (d.setPend c { t with ots := tset t.ots r.a0 b }) [t.gen]

def execColourOtSet (r : Req) (s : State) : Host.Outcome State Fault Refusal :=
  vColour r 1 true (fun d => d.onCam r fun c => d.colourOtSet r c) s

/-- SHAPER_LOAD (R290): a NaN or an infinity fails the job. -/
def Dev.colourShaperLoad (d : Dev) (r : Req) (c : Nat) : VRes Dev :=
  let b := d.argB r
  let l := (List.range 12288).map fun i => rdLe b (2 * i) 2
  let t := d.pend c
  if 3 < r.a0 then .err 0x0404 (offArg 0)
  else if r.argLen < 24576 then .err 0x040D
  else
    match (List.range 12288).find? fun i => f16Special (l.getD i 0) with
    | some i => d.failJob 0x0901 c (2 * i)
    | none => .job (d.setPend c { t with shapers := tset t.shapers r.a0 l }) (some 0)

def execColourShaperLoad (r : Req) (s : State) : Host.Outcome State Fault Refusal :=
  vColour r 2 true (fun d => d.onCam r fun c => d.colourShaperLoad r c) s

/-- LUT_LOAD (R289, R291): a third LUT of the camera fails the job. -/
def Dev.colourLutLoad (d : Dev) (r : Req) (c : Nat) : VRes Dev :=
  let b := d.argB r
  let t := d.pend c
  if 3 < r.a0 then .err 0x0404 (offArg 0)
  else if r.argLen < 1647750 then .err 0x040D
  else
    let luts := tset t.luts r.a0 ((List.range 823875).map fun i => rdLe b (2 * i) 2)
    if 2 < luts.length then d.failJob 0x0902 c 0xFFFFFFFF else .job (d.setPend c { t with luts := luts }) (some 0)

def execColourLutLoad (r : Req) (s : State) : Host.Outcome State Fault Refusal :=
  vColour r 3 true (fun d => d.onCam r fun c => d.colourLutLoad r c) s

/-- The tag under which a new history is allocated: not that of the committed one (R283). -/
def Dev.histTag (d : Dev) (c : Nat) : Nat :=
  let a := tagOf 10 (2 * c)
  match d.area a with
  | some x => if (d.pcam c).committed.tnr ∧ x.base = (d.pcam c).committed.hist then a + 1 else a
  | none => a

/-- TNR_SET (R283). -/
def Dev.colourTnrSet (d : Dev) (r : Req) (c : Nat) : VRes Dev :=
  let t := d.pend c
  let w := d.camF F.camSize_width c
  let h := d.camF F.camSize_height c
  if 1 < r.a0 then .err 0x0404 (offArg 0)
  else if 1 < r.a1 then .err 0x0404 (offArg 1)
  else if r.a0 = 0 then .ok (d.setPend c { t with tnr := false }) [0, 0, 0]
  else
    let uf := decide (r.a1 = 1)
    let t2 := { t with tnr := true, uf32 := uf, rate := r.a2 }
    if d.camF F.camCfg_inline c = 1 ∧ c0Share < d.c0Sum c (1000 * r.a2) t2 8 then .err 0x0408
    else
      match (d.freeArea (d.histTag c)).alloc rgDevelop (2 * (histRow w uf * h)) (d.histTag c) with
      | none => .err 0x0409
      | some (base, e) => .ok (e.setPend c { t2 with hist := base }) [base % 2 ^ 32, base / 2 ^ 32, histRow w uf]

def execColourTnrSet (r : Req) (s : State) : Host.Outcome State Fault Refusal :=
  vColour r 4 true (fun d => d.onCam r fun c => d.colourTnrSet r c) s

def execColourStatSet (r : Req) (s : State) : Host.Outcome State Fault Refusal := vColour r 5 true (fun d => d.onCam r fun c =>
  if f32Special r.a0 ∨ ((f32Of r.a0).neg ∧ !(f32Of r.a0).isZero) then .err 0x0404 (offArg 0)
  else if f32Special r.a1 ∨ !((f32Of r.a0).lt (f32Of r.a1)) then .err 0x0404 (offArg 1)
  else
    let t := d.pend c
    .ok (d.setPend c { t with statLo := r.a0, statHi := r.a1 })) s

/-! ### Parameter sets (R296, R297) -/

/-- The first camera frame that opens at least 1 ms from now (R297), reckoned from the frame rate of the camera's allocation;
where firmware has no rate, which frame that is, is a free value (log entry 28). -/
def Dev.earliest (d : Dev) (c : Nat) : Nat :=
  let s := d.cam c
  if !d.camRun c then 0
  else
    let next := if s.opn then s.no + 1 else s.no
    let rate := d.camRate c
    if rate = 0 then next + d.freeVal % 256
    else
      let period := 1000000000000 / rate
      let t := stampNs s.start + period
      let due := d.devNs + 1000000
      next + (if t < due then ceilDiv (due - t) period else 0)

/-- A set accepted with its PSEQ and effect frame; where the camera does not run, it waits for the frames of the next run. -/
def Dev.putSet (d : Dev) (c mask : Nat) (v : FrameSet) (effect : Nat) : Dev :=
  let p := d.pcam c
  let d := d.setPcam c { p with waiting := p.waiting ++ [⟨effect, p.nextPseq, mask, v⟩], nextPseq := p.nextPseq + 1 }
  d.useFree

/-- The parameter block of R296. -/
def decSet (b : List Byte) : FrameSet :=
  let f := fun (o : Nat) => rdLe b o 4
  { wmode := rdLe b 4 1, hilite := rdLe b 5 1, exposure := f 8, white := (List.range 6).map fun i => f (12 + 4 * i), d := f 36,
    aMin := f 40, tLo := f 44, tHi := f 48, n0 := f 52, n1 := f 56 }
def FrameSet.enc (s : FrameSet) (mask : Nat) : List Byte :=
  leBytes 4 mask ++ leBytes 1 s.wmode ++ leBytes 1 s.hilite ++ leBytes 2 0 ++ leBytes 4 s.exposure ++
  ((List.range 6).flatMap fun i => leBytes 4 (s.white.getD i 0)) ++ leBytes 4 s.d ++ leBytes 4 s.aMin ++ leBytes 4 s.tLo ++
  leBytes 4 s.tHi ++ leBytes 4 s.n0 ++ leBytes 4 s.n1 ++ leBytes 4 0

/-- A binary32 outside [lo, hi]. -/
def f32Out (w : Nat) (lo hi : Fl) : Bool := f32Special w || (f32Of w).lt lo || hi.lt (f32Of w)
def f32Neg (w : Nat) : Bool := f32Special w || ((f32Of w).neg && !(f32Of w).isZero)

/-- The first byte of a parameter block that fails its check, among the fields that its mask selects (R278, R296). -/
def setBad (b : List Byte) : Option Nat :=
  let mask := rdLe b 0 4
  let s := decSet b
  let one := Fl.ofNat 1
  if 64 ≤ mask then some 0
  else if mask.testBit 1 ∧ 1 < s.wmode then some 4
  else if mask.testBit 3 ∧ 1 < s.hilite then some 5
  else if rdLe b 6 2 ≠ 0 then some 6
  else if mask.testBit 0 ∧ f32Out s.exposure (Fl.ofScaled 1 16) (Fl.ofNat 65536) then some 8
  else if mask.testBit 1 ∧ (s.white.any f32Special ∨ s.whiteBad) then some 12
  else if mask.testBit 2 ∧ f32Out s.d Fl.zero one then some 36
  else if mask.testBit 4 ∧ f32Out s.aMin Fl.zero one then some 40
  else if mask.testBit 4 ∧ f32Neg s.tLo then some 44
  else if mask.testBit 4 ∧ (f32Special s.tHi ∨ !((f32Of s.tLo).lt (f32Of s.tHi))) then some 48
  else if mask.testBit 5 ∧ f32Neg s.n0 then some 52
  else if mask.testBit 5 ∧ f32Neg s.n1 then some 56
  else if rdLe b 60 4 ≠ 0 then some 60 else none

/-- FRAME_SET (R297). -/
def Dev.colourFrameSet (d : Dev) (r : Req) (c : Nat) : VRes Dev :=
  let b := fitB (d.argB r) 64
  let mask := rdLe b 0 4
  let a := (d.pcam c).autoMask
  if r.argLen < 64 then .err 0x0901 (offBlk 0) 0
  else
    match setBad b with
    | some o => .err 0x0901 (offBlk o) o
    | none =>
      if (mask.testBit 1 ∧ a.testBit 0) ∨ (mask.testBit 0 ∧ a.testBit 1) then .err 0x0408
      else
        let e := d.earliest c
        let n := if r.a0 = 0xFFFFFFFF then e else max r.a0 e
        .ok (d.putSet c mask (decSet b) n) [n, (d.pcam c).nextPseq]

def execColourFrameSet (r : Req) (s : State) : Host.Outcome State Fault Refusal :=
  vColour r 6 true (fun d => d.onCam r fun c => d.colourFrameSet r c) s

/-- AUTO_SET: a TARGET_Y of 0 means the default 0.18 (log entry 12). -/
def execColourAutoSet (r : Req) (s : State) : Host.Outcome State Fault Refusal := vColour r 7 true (fun d => d.onCam r fun c =>
  let lo := Fl.ofScaled 1 16
  let hi := Fl.ofNat 65536
  let t := if r.a1 = 0 then 0x3E3851EC else r.a1
  if 3 < r.a0 then .err 0x0404 (offArg 0)
  else if f32Neg t then .err 0x0404 (offArg 1)
  else if r.a0.testBit 1 ∧ f32Out r.a2 lo hi then .err 0x0404 (offArg 2)
  else if r.a0.testBit 1 ∧ (f32Out r.a3 lo hi ∨ (f32Of r.a3).lt (f32Of r.a2)) then .err 0x0404 (offArg 3)
  else .ok (d.setPcam c { d.pcam c with autoMask := r.a0, target := t, expMin := r.a2, expMax := r.a3 })) s

/-! ### Statistics and automatic control (R281, R282) -/

/-- A frame's totals: COUNT, SATCOUNT, the six weight sums and the sum of Y. -/
structure StatSum where
  count : Nat
  sat : Nat
  w : List Fl
  y : Fl

/-- The totals of a frame whose stripes the area holds; none where it does not. -/
def Dev.statOf (d : Dev) (c n : Nat) : Option StatSum :=
  let p := d.pcam c
  match tget p.statFrames (n % 16) with
  | none => none
  | some (f, _) =>
    if f ≠ n then none
    else
      some <| (List.range (d.allocOf c).n).foldl (fun (a : StatSum) i =>
        let b := d.hbmR (p.stats + n % 16 * 6144 + i * 64) 64
        { count := a.count + rdLe b 0 4, sat := a.sat + rdLe b 4 4,
          w := (List.range 6).map fun k => (a.w.getD k Fl.zero).add fmt64 (f64Of (rdLe b (8 + 8 * k) 8)),
          y := a.y.add fmt64 (f64Of (rdLe b 56 8)) }) ⟨0, 0, List.replicate 6 Fl.zero, Fl.zero⟩

/-- The newest frame whose stripes are all written. -/
def Dev.lastStat (d : Dev) (c : Nat) : Option Nat :=
  ((d.pcam c).statFrames.filter fun p => decide (p.2.2 = (d.allocOf c).n)).foldl (fun (a : Option Nat) p =>
    match a with
    | none => some p.2.1
    | some n => some (max n p.2.1)) none

def execColourStats (r : Req) (s : State) : Host.Outcome State Fault Refusal := vColour r 8 false (fun d => camOnly r fun c =>
  match if r.a0 = 0xFFFFFFFF then d.lastStat c else some r.a0 with
  | none => .err 0x0404 (offArg 0)
  | some n =>
    match d.statOf c n with
    | none => .err 0x0404 (offArg 0)
    | some a =>
      .ok d [] (leBytes 4 a.count ++ leBytes 4 a.sat ++ (a.w.flatMap fun v => leBytes 8 (f64Bits v)) ++ leBytes 8 (f64Bits a.y))) s

/-- QUERY: the committed descriptors, the pending ones where a generation is pending, then the parameter block, within 512 B
(log entry 12). -/
def execColourQuery (r : Req) (s : State) : Host.Outcome State Fault Refusal := vColour r 9 false (fun d => camOnly r fun c =>
  let p := d.pcam c
  let ots := fun (t : TabGen) => (List.range 4).flatMap fun k => fitB (t.ot k).desc 64
  let pend := match p.pending with
    | some t => ots t
    | none => []
  .ok d [] (fitB (ots p.committed ++ pend ++ p.curSet.enc 0x3F) 512)) s

def execColourTileStats (r : Req) (s : State) : Host.Outcome State Fault Refusal := vColour r 0xA false (fun d =>
  d.tileStats r [.clParam, .clTnr, .clClip, .clEcc]
    [F.clTnr_resets, F.clTnr_waits, F.clClip_shpClip, F.clClip_lutClip, F.clEcc_ce]) s

/-- 2^(1/3) and 2^(−1/3) in binary64. -/
def cbrt2 : Fl := Fl.dec fmt64 12599210498948732 16
def cbrtHalf : Fl := Fl.dec fmt64 7937005259840998 16

/-- Automatic white and exposure for a frame (R282), computed in binary64 and stored as binary32. Where the white is one of mode XY
the weights that R282 starts from are not given: free values (log entry 28). -/
def Dev.autoRun (d : Dev) (c n : Nat) : Dev :=
  let p := d.pcam c
  let due := match p.autoAt with
    | some t => decide (t + 2000000 ≤ d.up)
    | none => true
  match d.statOf c n with
  | none => d
  | some a =>
    let whole := match tget p.statFrames (n % 16) with
      | some (_, k) => decide ((d.allocOf c).n ≤ k)
      | none => false
    if p.autoMask = 0 ∨ !due ∨ a.count < 1024 ∨ !whole then d
    else
      let cur := p.curSet
      let cnt := Fl.ofNat a.count
      let white := if p.autoMask.testBit 0 then
          (List.range 6).map fun k =>
            let w := f32Of (if cur.wmode = 0 then cur.white.getD k 0 else d.freeVal / 2 ^ (8 + 32 * k) % 2 ^ 32)
            let m := (a.w.getD k Fl.zero).div fmt64 cnt
            f32Bits (w.add fmt64 ((m.sub fmt64 w).div fmt64 (Fl.ofNat 8)))
        else cur.white
      let ex := f32Of cur.exposure
      let e := (f32Of p.target).div fmt64 (a.y.div fmt64 cnt)
      let e := ex.mul fmt64 ((e.div fmt64 ex).clamp cbrtHalf cbrt2)
      let e := e.clamp (f32Of p.expMin) (f32Of p.expMax)
      let v : FrameSet := { cur with wmode := if p.autoMask.testBit 0 then 0 else cur.wmode, white := white,
                                     exposure := if p.autoMask.testBit 1 then f32Bits e else cur.exposure }
      let mask := (if p.autoMask.testBit 0 then 2 else 0) + (if p.autoMask.testBit 1 then 1 else 0)
      (d.setPcam c { p with autoAt := some d.up }).putSet c mask v (d.earliest c)

def execAutoControlRun (c : Fin 16) (frame : Nat) (s : State) : Host.Outcome State Fault Refusal := s.onDev fun d => d.autoRun c frame

/-- EXPOSURE held at a limit for 1 s (R282). -/
def execAutoLimitTimeout (c : Fin 16) (s : State) : Host.Outcome State Fault Refusal := s.onDev fun d =>
  let p := d.pcam c
  if p.autoMask.testBit 1 ∧ (p.curSet.exposure = p.expMin ∨ p.curSet.exposure = p.expMax) then d.raise (pxEv 0x0905 2 c 0xFFFFFFFF)
  else d

/-- A 32-bit read of CL_TNR (0), CL_CLIP (1) or CL_ECC (2) of tile n, or LUT_STAT (3) of tile group n mod 18 (R298, R299). -/
def execClCounterRead (m : Nat) (n : Fin 72) (which : Fin 4) (s : State) : Host.Outcome State Fault Refusal :=
  s.access m fun d =>
    let u := uTile n
    match which.val with
    | 0 => d.readClear m .clTnr u 0 [F.clTnr_resets, F.clTnr_waits]
    | 1 => d.readClear m .clClip u 0 [F.clClip_shpClip, F.clClip_lutClip]
    | 2 => d.readClear m .clEcc u 0 [F.clEcc_ce]
    | _ => d.readClear m .lutStat (uTileGroup (n.val % 18)) 0 [F.lutStat_ce]

end Sys2Proof.Machine
end

