-- ==== Sys2Proof/Machine/Share.lean ====
section
/-! DEFINITION. Chapter 11, sharing the pipeline: allocation of tiles and partitions (R305 to R307, R317), stripe jobs (R308, R315),
tile failures (R272, R300, R314) and the verbs of the OUT service that allocate (R337). -/
namespace Sys2Proof.Machine

/-! ### Groups that can change roles -/

/-- A camera that runs in partition k, or in the compatibility pool (k = 4). -/
def Dev.partBusy (d : Dev) (k : Nat) : Bool :=
  d.pipe.allocs.any fun p => d.camRun p.1 && (decide (p.2.mode = 2 ∧ p.2.part = k) || decide (p.2.mode = 3 ∧ k = 4))

/-- Spares beyond eight: a whole spare group can leave the spares. -/
def Dev.sparesBeyond (d : Dev) : Bool := decide (12 ≤ (allTiles.filter (d.inRole (· == .spare))).length)

/-- A tile group free of other roles (R306): no tile UNUSABLE, its tiles in partitions where no camera runs, or spares beyond
the eight. -/
def Dev.groupFree (d : Dev) (g : Nat) : Bool :=
  (tilesOf g).all fun u => decide (d.own u ≠ stUnusable) && (match d.roleOf u with
    | some (.part k) => !d.partBusy k
    | some .spare => d.sparesBeyond
    | _ => false)

/-- Tiles of partition k (4: the compatibility pool). -/
def Dev.tilesIn (d : Dev) (k : Nat) : List Nat :=
  allTiles.filter fun u => if k = 4 then d.inRole (· == .compat) u else d.inRole (· == .part k) u

/-- Pixel rate of a camera at an allocation's frame rate: px/s × 1,000. -/
def Dev.pxRate (d : Dev) (c rate : Nat) : Nat := d.camF F.camSize_width c * d.camF F.camSize_height c * rate

/-- Rates of partition k's cameras, px/s × 1,000. -/
def Dev.partLoad (d : Dev) (k : Nat) : Nat :=
  ((d.pipe.allocs.filter fun p => decide (p.2.mode = 2 ∧ p.2.part = k)).map fun p => d.pxRate p.1 p.2.rate).foldl (· + ·) 0

/-- The compatibility pool's load for a set of cameras, ns per 1,000 s (R317): each stripe takes its work at 0.8 Gpx/s plus 4 µs. -/
def Dev.cptLoad (d : Dev) (cams : List Nat) : Nat :=
  (cams.map fun c =>
    let a := d.allocOf c
    let px := ((List.range a.n).map fun i => (d.core c i).2 * d.camF F.camSize_height c).foldl (· + ·) 0
    (px * 5 / 4 + 4000 * a.n) * a.rate).foldl (· + ·) 0

/-- Cameras of the slot table, by slot (R336). -/
def slotCams (lo hi n : Nat) : List Nat := (List.range n).map fun i => bitsN (if i < 8 then lo else hi) (4 * (i % 8) + 3) (4 * (i % 8))
def Dev.cptSlots (d : Dev) : List Nat :=
  if d.fg F.cptCfg_mode uPipe = 0 then []
  else slotCams (d.rd .cptSlot uPipe 0).toNat (d.rd .cptSlot uPipe 1).toNat (d.fg F.cptCfg_slots uPipe + 1)

/-! ### CAMERA_ALLOC and CAMERA_FREE (R305 to R307) -/

/-- An allocation's refusal of a stripe count (R246, R305). -/
def stripesBad (w n : Nat) : Bool :=
  if w < 256 then decide (n ≠ 1)
  else decide (n < ceilDiv w 1024) || decide (96 < n) || decide (stripeWidth w n < 256) || decide (w ≤ (n - 1) * stripeWidth w n)

/-- A camera's allocation dropped: its in-line tiles go back to partition 0. -/
def Dev.freeAlloc (d : Dev) (c : Nat) : Dev :=
  let mine := allTiles.filter fun u => d.inRole (fun r => match r with | .inl k _ => decide (k = c) | _ => false) u
  let gs := (mine.map groupOfTile).eraseDups
  let d := (gs.flatMap tilesOf).foldl (fun e u => if e.inRole Role.isC0 u then e.setRole u (.part 0) else e) d
  let d := { d with pipe := { d.pipe with
    allocs := tdel d.pipe.allocs c
    rots := d.pipe.rots.filter fun r => !mine.contains r.a
    frames := d.pipe.frames.filter fun f => decide (f.rep.cam ≠ c)
    jobs := d.pipe.jobs.filter fun j => decide (j.cam ≠ c) } }
  (d.wr .outCam uPipe c 0).syncPool

/-- OUT_CAM shows an allocation (R334). -/
def Dev.showAlloc (d : Dev) (c : Nat) : Dev :=
  let a := d.allocOf c
  let d := ((d.fs F.outCam_mode a.mode uPipe c).fs F.outCam_stripes a.n uPipe c).fs F.outCam_tiles (if a.mode = 1 then a.n else 0) uPipe c
  (d.fs F.outCam_part (if a.mode = 2 then a.part else 0) uPipe c).fs F.outCam_sw
    (stripeWidth (d.camF F.camSize_width c) a.n) uPipe c

/-- The allocation recorded, with the statistics area (R281) and, in compatibility mode, the context record (R316); the stripe
layout changes with n (R285). -/
def Dev.putAlloc (d : Dev) (c : Nat) (a : CamAlloc) : Option Dev :=
  let old := d.allocOf c
  match (d.freeArea (tagOf 11 c)).alloc rgDevelop 98304 (tagOf 11 c) with
  | none => none
  | some (base, d) =>
    let e := if a.mode = 3 then ((d.freeArea (tagOf 12 c)).alloc rgDevelop 65536 (tagOf 12 c)).map (·.2) else some d
    match e with
    | none => none
    | some d =>
      let p := d.pcam c
      let p := { p with stats := base, statFrames := [], layoutFrame := if old.n = a.n then p.layoutFrame else some (d.cam c).no }
      some ({ d.setPcam c p with pipe := { (d.setPcam c p).pipe with allocs := tset d.pipe.allocs c a } }.showAlloc c)

/-- The stripes of an in-line camera placed in the tiles of whole groups, the rest being reserves (R306). -/
def Dev.placeInline (d : Dev) (c n : Nat) (gs : List Nat) : Dev :=
  (((gs.flatMap tilesOf).zipIdx).foldl (fun e p =>
    e.setRole p.1 (if p.2 < n then .inl c p.2 else .reserve)) d).syncPool

def Dev.capacityErr (off : Nat := 0xFFFF) : VRes Dev := .err 0x0A02 off

def Dev.outCameraAlloc (d : Dev) (r : Req) : VRes Dev :=
  let c := r.object
  let w := d.camF F.camSize_width c
  let n := if r.a1 = 0 then ceilDiv w 1024 else r.a1
  let rate := r.a2
  let sw := stripeWidth w n
  let part := if r.a0 = 2 then r.a3 else 0
  if 15 < c then .err 0x0404
  else if r.a0 = 0 ∨ 3 < r.a0 then .err 0x0404 (offArg 0)
  else if r.a0 = 3 ∧ d.camF F.camCfg_inline c = 1 then .err 0x0404 (offArg 0)
  else if stripesBad w n then .err 0x0404 (offArg 1)
  else if 3 < part then .err 0x0404 (offArg 3)
  else if d.camRun c then .err 0x0408
  else
    let d := d.freeAlloc c
    let t := (d.pcam c).committed
    let fail := fun (bad : Bool) (k : Dev → Dev) =>
      if bad = true then Dev.capacityErr
      else match d.putAlloc c ⟨r.a0, n, rate, part⟩ with
        | none => VRes.err 0x0409
        | some e => let e := (k e).syncPool; .ok e [(e.rd .outCam uPipe c).toNat]
    if d.setsCrowd c t n sw then .err 0x0404 (offArg 1)
    else if r.a0 = 1 then
      let gs := ((List.range 18).filter d.groupFree).take (ceilDiv n 4)
      fail (decide (800000000000 < sw * d.camF F.camSize_height c * rate) || decide (gs.length < ceilDiv n 4) ||
        decide (c0Share < d.c0Sum c rate t 8)) fun e => e.placeInline c n gs
    else if r.a0 = 2 then
      let e := { d with pipe := { d.pipe with allocs := tset d.pipe.allocs c ⟨2, n, rate, part⟩ } }
      fail (decide (800000000000 * (d.tilesIn part).length < d.partLoad part + d.pxRate c rate) || decide (4 < e.partSets c t part) ||
        (e.lutGroup c t).isSome) id
    else
      let e := { d with pipe := { d.pipe with allocs := tset d.pipe.allocs c ⟨3, n, rate, 0⟩ } }
      fail (decide (1000000000000 * (d.tilesIn 4).length < e.cptLoad d.cptSlots.eraseDups) || decide (4 < e.cptSets c t) ||
        (e.lutGroup c t).isSome) id

def vOut (r : Req) (verb : Nat) (priv : Bool) (body : Dev → VRes Dev) (s : State) : Host.Outcome State Fault Refusal :=
  s.onDev fun d => d.verb r 0x06 verb priv body

def execOutCameraAlloc (r : Req) (s : State) : Host.Outcome State Fault Refusal := vOut r 1 true (fun d => d.outCameraAlloc r) s

/-- A running stream takes camera c. -/
def Dev.camStreams (d : Dev) (c : Nat) : Bool := (List.range 8).any fun s => d.strRun s && decide (d.strF F.strCfg_camera s = c)

def execOutCameraFree (r : Req) (s : State) : Host.Outcome State Fault Refusal := vOut r 2 true (fun d =>
  if 15 < r.object then .err 0x0404
  else if d.camRun r.object ∨ d.camStreams r.object then .err 0x0408
  else .ok (((d.freeAlloc r.object).freeArea (tagOf 11 r.object)).freeArea (tagOf 12 r.object))) s

/-! ### POOL_SET and COMPAT_SET (R307, R317) -/

/-- A group serves the in-line camera or the compatibility pool. -/
def Dev.groupKept (d : Dev) (g : Nat) : Bool := (tilesOf g).any (d.inRole fun r => r.isC0 || r == .compat)

/-- The groups of partition k (OUT_PART). -/
def Dev.partGroups (d : Dev) (k : Nat) : Nat := d.fg F.outPart_groups uPipe k

/-- POOL_SET: groups of partitions 0 to 3; a group in none becomes spare. -/
def Dev.outPoolSet (d : Dev) (r : Req) : VRes Dev :=
  let gs := [r.a0, r.a1, r.a2, r.a3]
  let bad := (List.range 4).find? fun k =>
    let v := gs.getD k 0
    decide (2 ^ 18 ≤ v) || (List.range 18).any fun g => v.testBit g &&
      (d.groupKept g || (List.range k).any fun j => (gs.getD j 0).testBit g)
  match bad with
  | some k => .err 0x0404 (offArg k)
  | none =>
    if (List.range 4).any fun k => decide (gs.getD k 0 ≠ d.partGroups k) && d.partBusy k then .err 0x0408
    else
      .job ((((List.range 18).filter fun g => !d.groupKept g).foldl (fun e g =>
        let role := match (List.range 4).find? fun k => (gs.getD k 0).testBit g with
          | some k => Role.part k
          | none => Role.spare
        (tilesOf g).foldl (fun e u => if e.own u = stUnusable then e else e.setRole u role) e) d).syncPool) (some 0)

def execOutPoolSet (r : Req) (s : State) : Host.Outcome State Fault Refusal := vOut r 3 true (fun d => d.outPoolSet r) s

/-- COMPAT_SET: the argument block holds SLOTS − 1, then SLOT_WAIT_US, 16 bits each. -/
def Dev.outCompatSet (d : Dev) (r : Req) : VRes Dev :=
  let b := d.argB r
  let slots := rdLe b 0 2
  let cams := slotCams r.a2 r.a3 (slots + 1)
  let gs := (List.range 18).filter fun g => r.a1.testBit g
  let isCpt := fun g => (tilesOf g).any (d.inRole (· == .compat))
  if 2 < r.a0 then .err 0x0404 (offArg 0)
  else if 2 ^ 18 ≤ r.a1 then .err 0x0404 (offArg 1)
  else if r.argLen < 4 then .err 0x0404
  else if 15 < slots then .err 0x0404 (offBlk 0)
  else if r.a0 ≠ 0 ∧ (4 < cams.eraseDups.length ∨ cams.any fun c => decide (d.camF F.camCfg_inline c = 1)) then .err 0x0404 (offArg 2)
  else if d.partBusy 4 ∨ gs.any fun g => !isCpt g && !d.groupFree g then .err 0x0408
  else if r.a0 ≠ 0 ∧ 1000000000000 * (4 * gs.length) < d.cptLoad cams.eraseDups then Dev.capacityErr
  else
    let mine := if r.a0 = 0 then [] else gs
    let d := (List.range 18).foldl (fun e g =>
      if mine.contains g then (tilesOf g).foldl (fun e u => e.setRole u .compat) e
      else if isCpt g then (tilesOf g).foldl (fun e u => e.setRole u (.part 0)) e else e) d
    let d := ((d.fs F.cptCfg_mode r.a0 uPipe).fs F.cptCfg_groups (mine.foldl (fun a g => a + 2 ^ g) 0) uPipe).fs F.cptCfg_slots slots uPipe
    let d := ((d.wr .cptSlot uPipe 0 (BitVec.ofNat 32 r.a2)).wr .cptSlot uPipe 1 (BitVec.ofNat 32 r.a3)).fs F.cptSw_slotWaitUs (rdLe b 2 2) uPipe
    .job ({ d with pipe := { d.pipe with cptSlot := 0, cptLast := [] } }.syncPool) (some 0)

def execOutCompatSet (r : Req) (s : State) : Host.Outcome State Fault Refusal := vOut r 0xA true (fun d => d.outCompatSet r) s

/-! ### ROTATE (R311 to R313) -/

/-- ROTATE names tiles by their number 0 to 71. -/
def Dev.outRotate (d : Dev) (r : Req) : VRes Dev :=
  let a := uTile r.object
  let b := uTile r.a0
  if 71 < r.object then .err 0x0404
  else if 71 < r.a0 then .err 0x0404 (offArg 0)
  else if !d.inRole (fun x => x == .spare || x == .reserve) b || !d.accepts b then .err 0x0408
  else
    match d.roleOf a with
    | some (.inl _ _) =>
      let d := d.prepare a b
      .job { d with pipe := { d.pipe with rots := d.pipe.rots.filter (fun x => decide (x.a ≠ a)) ++ [(⟨a, b, d.oz.nextJob⟩ : Rotation)] } }
    | some .spare => .err 0x0408
    | some .reserve => .err 0x0408
    | none => .err 0x0408
    | some _ => .job ((d.prepare a b).swapRole a b 0) (some 0)

def execOutRotate (r : Req) (s : State) : Host.Outcome State Fault Refusal := vOut r 0xB true (fun d => d.outRotate r) s

/-! ### Frames in development and stripe jobs (R308, R314) -/

/-- OUT_DISP WAITING shows the jobs not started. -/
def Dev.syncJobs (d : Dev) : Dev := d.fs F.outDisp_waiting (min d.pipe.jobs.length 0xFFFF) uPipe

def Dev.frameDev (d : Dev) (c n : Nat) : Option FrameDev :=
  d.pipe.frames.find? fun f => decide (f.rep.cam = c) && decide (f.rep.frame = n)
def Dev.modFrame (d : Dev) (c n : Nat) (g : FrameDev → FrameDev) : Dev :=
  { d with pipe := { d.pipe with frames := d.pipe.frames.map fun f => if f.rep.cam = c ∧ f.rep.frame = n then g f else f } }

/-- The partition with the most free tiles (R314). -/
def Dev.freeTiles (d : Dev) (k : Nat) : List Nat :=
  (d.tilesIn k).filter fun u => d.accepts u && (tget d.pipe.runs u).isNone && !d.isWithheld u 1
def Dev.roomiest (d : Dev) : Nat :=
  (List.range 4).foldl (fun best k => if (d.freeTiles best).length < (d.freeTiles k).length then k else best) 0

/-- Redo of stripe i of a frame, queued once (R314, R413). -/
def Dev.queueRedo (d : Dev) (c n i part : Nat) : Dev :=
  let d := d.modFrame c n fun f => { f with redone := true, left := if f.left.contains i then f.left else f.left ++ [i] }
  if d.pipe.jobs.any fun j => j.redo && decide (j.cam = c ∧ j.frame = n ∧ j.stripe = i) then d
  else
    ({ d with pipe := { d.pipe with jobs := d.pipe.jobs ++ [(⟨c, n, i, true, part⟩ : SJob)] } }.fadd F.outDisp_redo 1 uPipe).syncJobs

/-- The partition in which a camera's redo work runs. -/
def Dev.redoPart (d : Dev) (c : Nat) : Nat :=
  let a := d.allocOf c
  if a.mode = 1 then d.roomiest else if a.mode = 3 then 4 else a.part

/-- A closed camera frame becomes jobs (R308); an in-line frame's report joins its development (R309), and its stripes whose
tile waits for its rotation become redo jobs (R314). -/
def Dev.admitFrame (d : Dev) (rep : FrameRep) : Dev :=
  let c := rep.cam
  let a := d.allocOf c
  let known := (d.frameDev c rep.frame).isSome
  let d := if known then d.modFrame c rep.frame fun f => { f with rep := rep }
    else { d with pipe := { d.pipe with frames := d.pipe.frames ++ [(⟨rep, List.range a.n, false, [], false, false⟩ : FrameDev)] } }
  if a.mode = 1 then
    (d.pipe.rots.filterMap fun r => match d.roleOf r.a with
      | some (.inl k i) => if k = c then some i else none
      | _ => none).foldl (fun e i => if ((e.frameDev c rep.frame).map (·.left)).getD [] |>.contains i then e.queueRedo c rep.frame i e.roomiest else e) d
  else
    let part := if a.mode = 3 then 4 else a.part
    { d with pipe := { d.pipe with jobs := d.pipe.jobs ++ (List.range a.n).map fun i => (⟨c, rep.frame, i, false, part⟩ : SJob) } }.syncJobs

/-- Reports whose lines are all committed leave ingest; a camera without an allocation has none developed. -/
def Dev.takeJobs (d : Dev) : Dev :=
  let ready := fun (f : FrameRep) => d.ing.lines.all fun j => decide (j.cam ≠ f.cam) || decide (j.frame ≠ f.frame)
  let due := d.ing.frames.filter ready
  let d := { d with ing := { d.ing with frames := d.ing.frames.filter fun f => !ready f } }
  due.foldl (fun e f => if (e.allocOf f.cam).mode = 0 then e else e.admitFrame f) d

/-- START_TIME of a job's frame. -/
def Dev.jobStart (d : Dev) (j : SJob) : Nat := ((d.frameDev j.cam j.frame).map fun f => stampNs f.rep.start).getD 0

/-- A job that goes before another (R308). -/
def Dev.jobBefore (d : Dev) (a b : SJob) : Bool :=
  if a.redo ≠ b.redo then a.redo
  else if a.redo then false
  else if d.jobStart a ≠ d.jobStart b then decide (d.jobStart a < d.jobStart b)
  else if a.cam ≠ b.cam then decide (a.cam < b.cam)
  else decide (a.stripe < b.stripe)

def Dev.firstJob (d : Dev) : List SJob → Option SJob
  | [] => none
  | j :: js => match d.firstJob js with
    | none => some j
    | some k => if d.jobBefore k j then some k else some j

/-- The next slot of the compatibility table. -/
def Dev.nextSlot (d : Dev) : Dev :=
  { d with pipe := { d.pipe with cptSlot := (d.pipe.cptSlot + 1) % max 1 d.cptSlots.length } }

/-- The job the compatibility pool takes next (R315): redo work first, else the slot's camera's oldest ready frame, and whether
the slot is then done. -/
def Dev.cptJob (d : Dev) : Option (SJob × Bool) :=
  let js := d.pipe.jobs.filter fun j => decide (j.part = 4)
  match js.find? fun j => j.redo with
  | some j => some (j, false)
  | none =>
    let c := d.cptSlots.getD d.pipe.cptSlot 0
    let mine := js.filter fun j => decide (j.cam = c)
    match d.firstJob mine with
    | none => none
    | some j =>
      let last := decide ((mine.filter fun k => decide (k.frame = j.frame)).length = 1)
      some (j, decide (d.fg F.cptCfg_mode uPipe = 2) || last)

/-- Partition k, or the compatibility pool (4), gives its next job to a free tile (R308): which of the free tiles, the spec
leaves open. -/
def Dev.dispatchJob (d : Dev) (k : Nat) : Dev :=
  let d := d.takeJobs
  let pick := if k = 4 then d.cptJob
    else (d.firstJob (d.pipe.jobs.filter fun j => decide (j.part = k))).map fun j => (j, false)
  let tiles := d.freeTiles k
  match pick with
  | none => d
  | some (j, slotDone) =>
    match tiles[d.freeVal % tiles.length]? with
    | none => d
    | some u =>
      let d := d.useFree
      let d := { d with pipe := { d.pipe with
        jobs := d.pipe.jobs.erase j, runs := tset d.pipe.runs u ⟨j.cam, j.frame, j.stripe, j.redo, false, k⟩ } }
      let d := (d.firstOp u).syncJobs
      if slotDone then d.nextSlot else d

def execStripeJobDispatch (part : Fin 5) (s : State) : Host.Outcome State Fault Refusal := s.onDev fun d => d.dispatchJob part

/-- A slot whose camera has no ready frame is skipped (R315). -/
def execCompatSlotWait (s : State) : Host.Outcome State Fault Refusal := s.onDev fun d =>
  let d := d.takeJobs
  if d.fg F.cptCfg_mode uPipe = 0 then d
  else match d.cptJob with
    | some _ => d
    | none => d.nextSlot

/-! ### Tile failure (R272, R300, R314) -/

/-- A READY tile that satisfies p. -/
def Dev.readyIn (d : Dev) (f : Role → Bool) : Option Nat := allTiles.find? fun u => d.inRole f u && decide (d.own u = stReady)

/-- The in-line role of a failed tile goes onto a reserve, else a spare, else the first partition tile to finish (R314; 0 stands
for that tile until one does). -/
def Dev.replaceInline (d : Dev) (u cam : Nat) : Dev :=
  if d.pipe.rots.any fun r => decide (r.a = u) then d
  else
    let put := fun (e : Dev) (b : Nat) =>
      { e with pipe := { e.pipe with rots := e.pipe.rots ++ [(⟨u, b, 0⟩ : Rotation)] } }
    match (d.readyIn (· == .reserve)).orElse fun _ => d.readyIn (· == .spare) with
    | some b => let d := d.rollTaken b
      put (d.prepare u b) b
    | none => (put d 0).raise (pxEv 0x0A0C 2 cam (memberNo u))

/-- A partition or compatibility tile that failed leaves its role to a READY spare and returns to the spares (R304, R314). -/
def Dev.replacePart (d : Dev) (u : Nat) : Dev :=
  match d.roleOf u with
  | none => d
  | some r =>
    let gone := decide (d.own u = stUnusable)
    match d.readyIn (· == .spare) with
    | some b => ((((d.rollTaken b).prepare u b).setRole b r).setRole u .spare).syncPool
    | none => if gone then d.syncPool else (d.setRole u .spare).syncPool

/-- A tile with a stripe in progress fails (R314): the stripe is abandoned and redone, the role moves, E_OUT_TILE_FAIL is raised;
firmware drains and reloads the tile (R272). -/
def Dev.failTile (d : Dev) (u : Nat) : Dev :=
  match tget d.pipe.runs u with
  | none => d
  | some r =>
    let d := { d with pipe := { d.pipe with runs := tdel d.pipe.runs u } }.fs F.pxStripe_valid 0 u
    let inl := d.inRole (fun x => match x with | .inl _ _ => true | _ => false) u
    let d := (d.queueRedo r.cam r.frame r.stripe (d.redoPart r.cam)).raise
      (pxEv 0x0A04 (if inl then 3 else 2) r.cam (memberNo u))
    let d := if inl then d.replaceInline u r.cam else d.replacePart u
    d.drainTile u true

def execTileFail (n : Fin 72) (s : State) : Host.Outcome State Fault Refusal := s.onDev fun d => d.failTile (uTile n)

/-- An uncorrectable error of a tile's table store (R272) or of its shaper and matrix stores (R300). -/
def execTileTableUe (n : Fin 72) (colour : Bool) (s : State) : Host.Outcome State Fault Refusal := s.onDev fun d =>
  let u := uTile n
  let cam := ((tget d.pipe.runs u).map (·.cam)).getD 0
  let d := if colour then (d.fadd F.clEcc_ue 1 u).raise { pxEv 0x0906 (d.sevC0 u) cam u with unit := u }
    else (d.fadd F.pxEcc_ue 1 u).raise { pxEv 0x0808 (d.sevC0 u) cam u with unit := u }
  (d.failTile u).drainTile u true

/-! ### LUT slots (R289, R299, R300) -/

/-- The LUTs a tile group holds: committed ones of its cameras, then pending ones, at most four: camera, transform, committed. -/
def Dev.lutSlots (d : Dev) (g : Nat) : List (Nat × Nat × Bool) :=
  let cs := d.camsOfGroup g
  let of := fun (t : TabGen) (c : Nat) (com : Bool) =>
    ((List.range 4).filter fun k => (t.ot k).en && (t.ot k).isLut).map fun k => (c, k, com)
  ((cs.flatMap fun c => of (d.pcam c).committed c true) ++
   (cs.flatMap fun c => match (d.pcam c).pending with
     | some t => of t c false
     | none => [])).take 4

/-- LUT_STAT shows the slots in use and those of committed generations (R299). -/
def Dev.syncLut (d : Dev) (g : Nat) : Dev :=
  let l := d.lutSlots g
  (d.fs F.lutStat_used (2 ^ l.length - 1) (uTileGroup g)).fs F.lutStat_bank
    ((l.zipIdx).foldl (fun a p => if p.1.2.2 then a + 2 ^ p.2 else a) 0) (uTileGroup g)

/-- An uncorrectable error of LUT slot k of a group (R300): every tile of the group that uses it fails; firmware reloads the
slot. -/
def execLutSlotUe (g : Fin 18) (slot : Fin 4) (s : State) : Host.Outcome State Fault Refusal := s.onDev fun d =>
  let u := uTileGroup g
  let cam := ((d.lutSlots g)[slot.val]?).map (·.1)
  let d := (d.fadd F.lutStat_ue 1 u).raise { pxEv 0x0906 (d.sevC0 u) (cam.getD 0) u with unit := u }
  (tilesOf g).foldl (fun e t => match tget e.pipe.runs t with
    | some r => if some r.cam = cam then e.failTile t else e
    | none => e) d

end Sys2Proof.Machine
end

