-- ==== Sys2Proof/Machine/Outputs.lean ====
section
/-! DEFINITION. Chapter 11, output streams and alignment groups: configuration (R318 to R326), buffers and completions (R327 to R330,
R415), groups (R331 to R333), registers (R334 to R336) and the stream verbs of the OUT service (R337, R338). -/
namespace Sys2Proof.Machine

/-! ### STREAM_SET (R319, R321, R322, R324 to R326, R338) -/

/-- P of an axis: the smallest of 1, 2, 4 with OUT × P / CROP at least 1/4 (R319); none where no P serves. -/
def axisP (out crop : Nat) : Option Nat := (List.range 3).find? fun k => decide (crop ≤ 4 * (out * 2 ^ k))

/-- Geometry that R319 refuses. -/
def geomBad (w h cx cy cw ch ow oh : Nat) : Bool :=
  decide (cx % 8 ≠ 0) || decide (cy % 8 ≠ 0) || decide (cw % 8 ≠ 0) || decide (ch % 8 ≠ 0) || decide (cw = 0) || decide (ch = 0) ||
  decide (w < cx + cw) || decide (h < cy + ch) || decide (ow % 8 ≠ 0) || decide (ow = 0) || decide (oh < 2) ||
  decide (16 * ow < cw) || decide (2 * cw < ow) || decide (16 * oh < ch) || decide (2 * ch < oh) ||
  (axisP ow cw).isNone || (axisP oh ch).isNone

/-- Output pixels that a stream takes from stripe i per frame (R324). -/
def Dev.outOfStripe (d : Dev) (k : StrCfg) (i : Nat) : Nat :=
  let g := groupOf k
  (((List.range (k.ow / g)).filter fun x => decide (d.stripeOfOut k (g * x) = i)).length * g) * k.oh

/-- A stream with configuration k breaks the limit of R324 beside the camera's other running streams. -/
def Dev.breaks324 (d : Dev) (s : Nat) (k : StrCfg) : Bool :=
  let others := ((List.range 8).filter fun t => decide (t ≠ s) && d.strRun t && decide (d.strF F.strCfg_camera t = k.cam)).map d.strCfg
  (List.range (d.allocOf k.cam).n).any fun i =>
    decide (4 * ((d.core k.cam i).2 * d.camF F.camSize_height k.cam) < ((k :: others).map fun t => d.outOfStripe t i).foldl (· + ·) 0)

/-- The configuration that an argument block describes. -/
def Dev.argCfg (d : Dev) (s : Nat) (b : List Byte) : StrCfg :=
  let h := fun (o : Nat) => rdLe b o 2
  let f := rdLe b 2 1
  { cam := rdLe b 0 1, fmt := rdLe b 1 1, ot := f % 4, corr := f.testBit 2, conf := f.testBit 3, cx := h 4, cy := h 6, cw := h 8,
    ch := h 10, ow := h 12, oh := h 14, ph := 2 ^ (axisP (h 12) (h 8)).getD 0, pv := 2 ^ (axisP (h 14) (h 10)).getD 0,
    coef := if (rdLe b 3 1).testBit 4 then (d.str s).coef else [] }

/-- The camera's mosaic holds type C (R322). -/
def Dev.hasC (d : Dev) (c : Nat) : Bool := (d.planeMap (d.pcam c).committed c).contains tyC

/-- An argument block that R319, R321, R322, R325 or R338 refuses with E_OUT_CFG. -/
def Dev.cfgBad (d : Dev) (s : Nat) (b : List Byte) : Bool :=
  let k := d.argCfg s b
  let f3 := rdLe b 3 1
  let whole := decide (k.ow = k.cw) && decide (k.oh = k.ch)
  decide (15 < k.cam) || decide (4 < k.fmt) || decide (16 ≤ rdLe b 2 1) || decide (32 ≤ f3) || decide (f3 % 4 = 3) ||
  geomBad (d.camF F.camSize_width k.cam) (d.camF F.camSize_height k.cam) k.cx k.cy k.cw k.ch k.ow k.oh ||
  (decide (k.fmt = 3) && !whole) || (k.corr && decide (k.fmt ≠ 3)) ||
  (k.conf && (decide (k.fmt ≠ 4) || !whole || !d.hasC k.cam)) ||
  (f3.testBit 4 && decide ((d.str s).coef = [])) ||
  decide (rdLe b 16 1 = 0) || decide (rdLe b 16 1 ≤ rdLe b 17 1) || decide (rdLe b 18 1 < 2) || decide (8 < rdLe b 18 1) ||
  decide (rdLe b 19 13 ≠ 0) ||
  (decide (f3 % 4 = 0) && (decide ((d.allocOf k.cam).mode ≠ 1) || decide (2 < k.pv)))

/-- Streams S0 to S7 in class C0, besides s. -/
def Dev.c0Streams (d : Dev) (s : Nat) : Nat :=
  ((List.range 8).filter fun t => decide (t ≠ s) && decide (d.strF F.strCfg_class t = 0) && decide ((d.rd .strRowb uPipe t).toNat ≠ 0)).length

/-- The stream's registers hold a configuration (R335). -/
def Dev.putStream (d : Dev) (s : Nat) (b : List Byte) (k : StrCfg) : Dev :=
  let f3 := rdLe b 3 1
  let put := fun (e : Dev) (p : Fld × Nat) => e.fs p.1 p.2 uPipe s
  [(F.strCfg_format, k.fmt), (F.strCfg_ot, k.ot), (F.strCfg_class, f3 % 4), (F.strCfg_camera, k.cam), (F.strCfg_fill, bit (f3.testBit 2)),
   (F.strCfg_coef, bit (f3.testBit 4)), (F.strCfg_corr, bit k.corr), (F.strCfg_conf, bit k.conf),
   (F.strCfg_ph, (axisP k.ow k.cw).getD 0), (F.strCfg_pv, (axisP k.oh k.ch).getD 0), (F.strCrop0_x, k.cx), (F.strCrop0_y, k.cy),
   (F.strCrop1_w, k.cw), (F.strCrop1_h, k.ch), (F.strSize_outW, k.ow), (F.strSize_outH, k.oh), (F.strDecim_decim, rdLe b 16 1),
   (F.strDecim_phase, rdLe b 17 1), (F.strRowb_rowBytes, rowBytes k.fmt (d.camDepth k.cam) k.corr k.ow)].foldl put d

/-- The buffer queue: made once, then given a new epoch (R326); entries in execution for the earlier configuration go back. -/
def Dev.putBufq (d : Dev) (s owner cls depthLog2 errQid : Nat) : Dev :=
  let t := d.str s
  let ep := (t.epoch + 1) % 0x10000
  let first := decide (d.strF F.strBufq_qid s = 0)
  let q := if first then d.oz.nextQid else d.strF F.strBufq_qid s
  let d := if first then { d with oz := { d.oz with nextQid := d.oz.nextQid + 1 } }.fs F.strBufq_qid q uPipe s else d
  let old := d.q q
  let d := (d.opsOf q).foldl (fun e o => (e.closeTag o).returnRole q o.entry o.tag ep uQf) d
  let r : Queue := { old with
    owner := owner, cls := cls, mode := 0, rstate := 1, depthLog2 := depthLog2, ringHost := false, inflLog2 := 8, epoch := ep,
    unit := uPipe, errQid := errQid, ringBase := Config.ringPlace q }
  (d.setQ q r).setStr s { t with epoch := ep, depthLog2 := depthLog2, owner := owner }

/-- The reply queue of the request's mailbox. -/
def Dev.replyQ (d : Dev) (r : Req) : Nat := ((d.mbox r.qid).map (·.reply)).getD r.replyQid

/-- Buffer bytes of a stream (R327). -/
def Dev.bufBytes (d : Dev) (s : Nat) : Nat :=
  (d.rd .strRowb uPipe s).toNat * d.strF F.strSize_outH s * planesOf (d.strF F.strCfg_format s) (decide (d.strF F.strCfg_conf s = 1))

/-- STREAM_SET; a stream bound to an internal consumer is owned by Ozder until its service binds it (R326). -/
def Dev.outStreamSet (d : Dev) (r : Req) : VRes Dev :=
  let s := r.object
  let b := fitB (d.argB r) 32
  let k := d.argCfg s b
  let cls := rdLe b 3 1 % 4
  if 7 < s then .err 0x0404
  else if d.strRun s then .err 0x0408
  else if r.argLen < 32 ∨ d.cfgBad s b then .err 0x0A01 (offBlk 0)
  else
    let e := d.putStream s b k
    if d.breaks324 s k then Dev.capacityErr
    else if cls = 0 ∧ (2 ≤ d.c0Streams s ∨ c0Share <
        d.c0Sum k.cam (d.camRate k.cam) (d.pcam k.cam).committed s + e.strBytes s * d.camRate k.cam) then Dev.capacityErr
    else
      let internal := (rdLe b 3 1).testBit 3
      let e := e.putBufq s (if internal then 0x40 else r.master) cls (rdLe b 18 1) (d.replyQ r)
      let e := e.modStr s fun t => { t with internal := internal, frames := [], outs := [], skipped := 0, lastGood := 0xFFFFFFFF, stopping := false,
                                            dropped := none, joinAt := none }
      .ok e [e.strF F.strBufq_qid s, (e.str s).epoch, e.bufBytes s, (e.rd .strRowb uPipe s).toNat]

def execOutStreamSet (r : Req) (s : State) : Host.Outcome State Fault Refusal := vOut r 4 true (fun d => d.outStreamSet r) s

/-- The number of the camera's next frame. -/
def Dev.nextFrame (d : Dev) (c : Nat) : Nat := if (d.cam c).opn then (d.cam c).no + 1 else (d.cam c).no

/-- STREAM_START: the stream is configured, its camera allocated and its transform enabled (R330). -/
def Dev.outStreamStart (d : Dev) (r : Req) : VRes Dev :=
  let s := r.object
  let k := d.strCfg s
  if 7 < s then .err 0x0404
  else if d.strRun s ∨ d.rd .strRowb uPipe s = 0 ∨ (d.allocOf k.cam).mode = 0 ∨
      (k.fmt < 3 ∧ !((d.pcam k.cam).committed.ot k.ot).en) then .err 0x0408
  else
    let n := d.nextFrame k.cam
    .ok ((d.fs F.strCfg_run 1 uPipe s).modStr s fun t => { t with firstFrame := n, stopping := false }) [n]

def execOutStreamStart (r : Req) (s : State) : Host.Outcome State Fault Refusal := vOut r 5 true (fun d => d.outStreamStart r) s

def Dev.algF (d : Dev) (f : Fld) (g : Nat) : Nat := d.fg f uPipe g

/-- A stream leaves its group's members. -/
def Dev.unmember (d : Dev) (g s : Nat) : Dev :=
  let m := d.algF F.algCfg_members g
  let d := d.fs F.algCfg_members (if m.testBit s then m - 2 ^ s else m) uPipe g
  d.fs F.strCfg_grouped 0 uPipe s

/-- A stream's unused buffers complete with E_OUT_STOPPED and it no longer runs (R330); it leaves its group, which binds running
streams (R331; log entry 69). -/
def Dev.strStopNow (d : Dev) (s : Nat) : Dev :=
  let d := (d.fs F.strCfg_run 0 uPipe s).modStr s fun t => { t with stopping := false, dropped := none, joinAt := none }
  let d := if d.strF F.strCfg_grouped s = 1 then d.unmember (d.strF F.strCfg_group s) s else d
  let q := d.strF F.strBufq_qid s
  let ops := d.opsOf q
  let d := ops.foldl (fun e o => e.endOp o.tag 0x0A09 []) d
  let d := d.closeWaiting q 0x0A09
  d

/-- Streams that stop and have no frame in progress have stopped. -/
def Dev.settleStops (d : Dev) : Dev :=
  (List.range 8).foldl (fun e s => if (e.str s).stopping && (e.str s).frames.isEmpty then e.strStopNow s else e) d

/-- The group whose enabled reference stream's camera is that of stream s. -/
def Dev.isReference (d : Dev) (s : Nat) : Bool :=
  d.strF F.strCfg_grouped s = 1 && d.fb F.algCfg_en uPipe (d.strF F.strCfg_group s) &&
  decide (d.fg F.algCfg_refCam uPipe (d.strF F.strCfg_group s) = d.strF F.strCfg_camera s)

def execOutStreamStop (r : Req) (s : State) : Host.Outcome State Fault Refusal := vOut r 6 true (fun d =>
  if 7 < r.object then .err 0x0404
  else if !d.strRun r.object ∨ d.isReference r.object then .err 0x0408
  else .job (d.modStr r.object fun t => { t with stopping := true }).settleStops) s

/-- COEF_LOAD (R321): each phase sums to 16,384 ± 64. -/
def Dev.outCoefLoad (d : Dev) (r : Req) : VRes Dev :=
  let b := d.argB r
  let l := (List.range 1024).map fun i => rdLe b (2 * i) 2
  let sum := fun (p : Nat) => (List.range 8).foldl (fun (a : Int) t => a + sgn 16 (l.getD (8 * p + t) 0)) 0
  if 7 < r.object then .err 0x0404
  else if d.strRun r.object then .err 0x0408
  else if r.argLen < 2048 ∨ (List.range 128).any (fun p => decide (sum p < 16320) || decide (16448 < sum p)) then .err 0x0A01 (offBlk 0)
  else .ok (d.modStr r.object fun t => { t with coef := l })

def execOutCoefLoad (r : Req) (s : State) : Host.Outcome State Fault Refusal := vOut r 7 true (fun d => d.outCoefLoad r) s

/-! ### Alignment groups (R331, R333) -/

def Dev.isMember (d : Dev) (g s : Nat) : Bool := (d.algF F.algCfg_members g).testBit s

/-- A stream joins group g's members. -/
def Dev.member (d : Dev) (g s : Nat) : Dev :=
  let d := d.fs F.algCfg_members (d.algF F.algCfg_members g ||| 2 ^ s) uPipe g
  ((d.fs F.strCfg_group g uPipe s).fs F.strCfg_grouped 1 uPipe s).modStr s fun t => { t with dropped := none, joinAt := none, outs := [] }

def Dev.outAlignSet (d : Dev) (r : Req) : VRes Dev :=
  let g := r.object
  let mem := r.a0 % 256
  let ref := bitsN r.a0 10 8
  let en := decide (bitsN r.a0 31 31 = 1)
  let ms := (List.range 8).filter fun s => mem.testBit s
  let cam := d.strF F.strCfg_camera ref
  if 3 < g then .err 0x0404
  else if bitsN r.a0 30 11 ≠ 0 then .err 0x0404 (offArg 0)
  else if en ∧ (ms.length < 2 ∨ !mem.testBit ref) then .err 0x0404 (offArg 0)
  else if 2 ^ 16 ≤ r.a2 ∨ r.a2 / 256 = 0 ∨ r.a2 % 256 = 0 then .err 0x0404 (offArg 2)
  else if en ∧ ms.any fun s => decide (d.camRate (d.strF F.strCfg_camera s) ≠ d.camRate cam) then .err 0x0404 (offArg 0)
  else if en ∧ ms.any fun s => !d.strRun s || (decide (d.strF F.strCfg_grouped s = 1) && decide (d.strF F.strCfg_group s ≠ g)) then .err 0x0408
  else
    let d := (List.range 8).foldl (fun e s => if e.isMember g s then e.unmember g s else e) d
    let d := ((d.fs F.algCfg_en (bit en) uPipe g).fs F.algCfg_refCam cam uPipe g).fs F.algCfg_subLimit (r.a2 / 256) uPipe g
    let d := (d.fs F.algCfg_windowUs (r.a2 % 256) uPipe g).wr .algLate uPipe g (BitVec.ofNat 32 r.a1)
    .ok (if en then ms.foldl (fun e s => e.member g s) d else d)

def execOutAlignSet (r : Req) (s : State) : Host.Outcome State Fault Refusal := vOut r 8 true (fun d => d.outAlignSet r) s

def execOutAlignJoin (r : Req) (s : State) : Host.Outcome State Fault Refusal := vOut r 9 true (fun d =>
  if 3 < r.object then .err 0x0404
  else if 7 < r.a0 then .err 0x0404 (offArg 0)
  else if (d.str r.a0).dropped ≠ some r.object ∨ !d.fb F.algCfg_en uPipe r.object ∨ !d.strRun r.a0 then .err 0x0408
  else
    let n := d.nextFrame (d.algF F.algCfg_refCam r.object)
    .ok (d.modStr r.a0 fun t => { t with joinAt := some n }) [n]) s

/-! ### INFO, STREAM_INFO, STATS (R337) -/

def execOutInfo (r : Req) (s : State) : Host.Outcome State Fault Refusal := vOut r 0 false (fun d =>
  .ok d [1, (d.rd .outPool uPipe).toNat, bitmap 8 d.strRun, bitmap 4 fun g => d.fb F.algCfg_en uPipe g]) s

/-- STREAM_INFO: the nine registers of the stream, then ENC and RANGE of its transform (log entry 12). -/
def execOutStreamInfo (r : Req) (s : State) : Host.Outcome State Fault Refusal := vOut r 0xC false (fun d =>
  let x := r.object
  if 7 < x then .err 0x0404
  else
    let regs : List Reg := [.strCfg, .strCrop0, .strCrop1, .strSize, .strDecim, .strBufq, .strRowb, .strFrame, .strCnt]
    let o := (d.pcam (d.strF F.strCfg_camera x)).committed.ot (d.strF F.strCfg_ot x)
    .ok d [] (fitB ((regs.flatMap fun q => leBytes 4 (d.rd q uPipe x).toNat) ++ leBytes 1 (rdLe o.desc 1 1) ++ leBytes 1 (bit o.full)) 64)) s

def execOutStats (r : Req) (s : State) : Host.Outcome State Fault Refusal := vOut r 0xD false (fun d =>
  .ok (((d.fs F.outDisp_redo 0 uPipe).fs F.outDisp_overrun 0 uPipe).fs F.cptSw_switches 0 uPipe)
    [(d.rd .outDisp uPipe).toNat, (d.rd .cptSw uPipe).toNat]) s

/-- A 32-bit read of OUT_DISP (0), STR_CNT of stream k (1), ALG_UNM of group k (2) or CPT_SW (3). -/
def execOutCounterRead (m : Nat) (which : Fin 4) (k : Fin 8) (s : State) : Host.Outcome State Fault Refusal :=
  s.access m fun d =>
    match which.val with
    | 0 => d.readClear m .outDisp uPipe 0 [F.outDisp_redo, F.outDisp_overrun]
    | 1 => d.readClear m .strCnt uPipe k [F.strCnt_subst, F.strCnt_skip]
    | 2 => d.readClear m .algUnm uPipe (k.val % 4) [F.algUnm_unmatched]
    | _ => d.readClear m .cptSw uPipe 0 [F.cptSw_switches]

/-! ### Buffers (R327) -/

def bufBase (e : Entry) : Nat := rdLe e.body 0 8
def bufSize (e : Entry) : Nat := rdLe e.body 8 8
def bufSpace (e : Entry) : Nat := rdLe e.body 16 1

/-- The stream whose buffer queue is q. -/
def Dev.streamOfQ (d : Dev) (q : Nat) : Option Nat :=
  (List.range 8).find? fun s => decide (d.strF F.strBufq_qid s = q) && decide (q ≠ 0)

/-- A buffer entry that breaks R327 (or R325: a C0 stream's buffer outside HBM). -/
def Dev.bufBad (d : Dev) (s : Nat) (e : Entry) : Bool :=
  decide (e.opcode ≠ 0x60) || !e.notify || decide (bufBase e % 64 ≠ 0) || decide (bufSize e < d.bufBytes s) || decide (1 < bufSpace e) ||
  (decide (bufSpace e = 1) && !isFn e.master) || decide (rdLe e.body 17 15 ≠ 0) ||
  (decide (d.strF F.strCfg_class s = 0) && decide (bufSpace e ≠ 0))

/-- A buffer entry as it is dispatched (R327). -/
def Dev.bufDispatched (d : Dev) (o : Op) : Dev :=
  match d.streamOfQ o.qid with
  | none => d
  | some s => if d.bufBad s o.entry then (d.raise { pxEv 0x0A0A 1 s with master := o.entry.master }).endOp o.tag 0x0A0A [] else d

/-- The next buffer of a stream: its oldest entry not in use. -/
def Dev.nextBuf (d : Dev) (s : Nat) : Option Op :=
  let used := (d.str s).frames.map (·.tag)
  (d.opsOf (d.strF F.strBufq_qid s)).foldl (fun (a : Option Op) o =>
    if used.contains o.tag || o.dying then a
    else match a with
      | none => some o
      | some b => if o.num < b.num then some o else some b) none

/-- Buffer entry o taken for camera frame n; a buffer outside what its owner may write is a violation (R87). -/
def Dev.takeBuf (d : Dev) (s n out : Nat) (o : Op) : Dev :=
  let e := o.entry
  if bufSpace e = 0 && !d.callerMay e.master (bufBase e) (d.bufBytes s) true then (d.dmaOutside e.master (bufBase e)).endOp o.tag 0x0310 []
  else d.modStr s fun t => { t with frames := t.frames ++ [(⟨n, out, o.tag, bufBase e, bufSpace e, e.master⟩ : StrFrame)] }

/-- The buffer of a frame is still with its stream: a hold closes it (R118, R330). -/
def Dev.bufLive (d : Dev) (s : Nat) (b : StrFrame) : Bool :=
  match d.op b.tag with
  | some o => decide (o.qid = d.strF F.strBufq_qid s) && decide (bufBase o.entry = b.base)
  | none => false

/-- Frames whose buffer was closed under them are not written further; an ungrouped stream starves for them (R330). -/
def Dev.pruneStr (d : Dev) (s : Nat) : Dev :=
  let lost := (d.str s).frames.filter fun b => !d.bufLive s b
  let e := d.modStr s fun t => { t with frames := t.frames.filter fun b => d.bufLive s b }
  if d.strF F.strCfg_grouped s = 1 then e
  else lost.foldl (fun e b =>
    ((e.modStr s fun t => { t with skipped := t.skipped + 1 }).fadd F.strCnt_skip 1 uPipe s).raiseOnce (0x700 + s) 10000000
      (pxEv 0x0A08 2 s b.frame)) e
def Dev.pruneBufs (d : Dev) : Dev := (List.range 8).foldl (fun e s => if (e.str s).frames.all (e.bufLive s) then e else e.pruneStr s) d

/-! ### What a frame's first stripe does to its streams (R323, R328, R329, R331) -/

/-- START_TIME of a camera's frame, while the device keeps it. -/
def Dev.startOf (d : Dev) (c n : Nat) : Option Nat :=
  (((tget d.ing.opened c).getD []).find? fun p => decide (p.1 = n)).map (·.2)

def absDiff (a b : Nat) : Nat := (a - b) + (b - a)

/-- The frame of camera dst whose START_TIME lies within the group's window of frame n of camera frm (R331). -/
def Dev.matchOf (d : Dev) (g frm n dst : Nat) : Option Nat :=
  if frm = dst then some n
  else
    match d.startOf frm n with
    | none => none
    | some t => (((tget d.ing.opened dst).getD []).find? fun p =>
        decide (absDiff (stampNs p.2) (stampNs t) ≤ d.algF F.algCfg_windowUs g * 1000)).map (·.1)

/-- A stream that asked to rejoin does so from its joining reference frame on (R333). -/
def Dev.rejoin (d : Dev) (s n : Nat) : Dev :=
  match (d.str s).dropped, (d.str s).joinAt with
  | some g, some at0 =>
    match d.matchOf g (d.strF F.strCfg_camera s) n (d.algF F.algCfg_refCam g) with
    | some ref => if at0 ≤ ref ∧ d.fb F.algCfg_en uPipe g then d.member g s else d
    | none => d
  | _, _ => d

/-- The stream at the first stripe start of its camera's frame n. -/
def Dev.strFirst (d : Dev) (s n : Nat) : Dev :=
  let d := d.rejoin s n
  let t := d.str s
  let dec := max 1 (d.strF F.strDecim_decim s)
  let ph := d.strF F.strDecim_phase s
  if t.stopping || decide (n < t.firstFrame) then d
  else if d.strF F.strCfg_grouped s = 1 then
    let g := d.strF F.strCfg_group s
    match d.matchOf g (d.strF F.strCfg_camera s) n (d.algF F.algCfg_refCam g) with
    | none => (d.fadd F.algUnm_unmatched 1 uPipe g).raiseOnce (0x600 + g) 10000000 (pxEv 0x0A0B 1 s n)
    | some ref =>
      if ref % dec ≠ ph ∨ t.outs.contains ref then d
      else match d.nextBuf s with
        | some o => d.takeBuf s n ref o
        | none => d
  else if n % dec ≠ ph then d
  else
    match d.nextBuf s with
    | some o => d.takeBuf s n n o
    | none =>
      ((d.modStr s fun t => { t with skipped := t.skipped + 1 }).fadd F.strCnt_skip 1 uPipe s).raiseOnce (0x700 + s) 10000000
        (pxEv 0x0A08 2 s n)

/-- Every running stream of camera c at the first stripe start of frame n. -/
def Dev.streamsFirst (d : Dev) (c n : Nat) : Dev :=
  ((List.range 8).filter fun s => d.strRun s && decide (d.strF F.strCfg_camera s = c)).foldl (fun e s => e.strFirst s n) d.pruneBufs

/-! ### Completions (R328, R415) -/

def osSubst : Nat := 1
def osRepeat : Nat := 2
def osFilled : Nat := 4
def osRedo : Nat := 8
def osUngrouped : Nat := 16

/-- The body of a stream's completion (R328). -/
def strBody (cam out start inF outF tgen pseq skipped last : Nat) : List Byte :=
  leBytes 4 cam ++ leBytes 4 out ++ leBytes 8 start ++ leBytes 4 inF ++ leBytes 2 outF ++ leBytes 2 tgen ++ leBytes 2 pseq ++
  leBytes 2 (min skipped 65535) ++ leBytes 4 last

/-- Row checks of a stream's buffer, by plane and row (R415). -/
def Dev.rowChecks (d : Dev) (s : Nat) (b : StrFrame) : List Nat :=
  let k := d.strCfg s
  let depth := d.camDepth k.cam
  let pitch := rowBytes k.fmt depth k.corr k.ow
  (List.range (planesOf k.fmt k.conf)).flatMap fun p => (List.range k.oh).map fun y =>
    crc32c (d.bufR b (p * (pitch * k.oh) + y * pitch) (planeRowLen k depth p))

/-- The row-check slot of a frame, ROWS 0 for a REPEAT substitute (R415). -/
def Dev.ringOut (d : Dev) (s : Nat) (b : StrFrame) (rows : Nat) : Dev :=
  let k := d.strCfg s
  d.hbmW (d.ringSlot s b.frame (d.strF F.strDecim_decim s))
    (ringBytes b.frame rows (planesOf k.fmt k.conf) (if rows = 0 then [] else d.rowChecks s b))

/-- The frame of a stream ends with its completion; the next kept frame starts its SKIPPED anew. -/
def Dev.strPost (d : Dev) (s : Nat) (b : StrFrame) (inF outF last : Nat) : Dev :=
  let c := d.strF F.strCfg_camera s
  let t := d.str s
  let p := d.pcam c
  let start := (d.startOf c b.frame).getD (d.freeVal % 2 ^ 64)
  let ung := if t.dropped.isSome then osUngrouped else 0
  let body := strBody b.frame b.out start inF (outF + ung) (p.genOf b.frame).gen ((p.setOf b.frame).pseq) t.skipped last
  let d := (d.endOp b.tag 0 body).useFree
  (d.wr .strFrame uPipe s (BitVec.ofNat 32 b.frame)).modStr s fun t =>
    { t with frames := t.frames.filter fun f => decide (f.tag ≠ b.tag), skipped := 0, outs := (b.out :: t.outs).take 64 }

/-- Whether a frame's lines all have their point-C verdict (R413). -/
def Dev.verdictsIn (d : Dev) (f : FrameDev) : Bool :=
  decide ((d.allocOf f.rep.cam).mode = 1) ||
  decide (d.memberP f.rep.cam (d.camF F.camCfg_members f.rep.cam) ≤ f.verdicts.length)

/-- Frames that are developed and whose streams have all answered leave; so do the in-line lines kept for them. -/
def Dev.reap (d : Dev) : Dev :=
  let busy := fun (f : FrameDev) => (List.range 8).any fun s => decide (d.strF F.strCfg_camera s = f.rep.cam) &&
    (d.str s).frames.any fun b => decide (b.frame = f.rep.frame)
  let done := fun (f : FrameDev) => f.left.isEmpty && d.verdictsIn f && !busy f
  let gone := d.pipe.frames.filter done
  { d with pipe := { d.pipe with frames := d.pipe.frames.filter fun f => !done f },
           ing := { d.ing with inl := d.ing.inl.filter fun j => !gone.any fun f => decide (f.rep.cam = j.cam ∧ f.rep.frame = j.frame) } }

/-- STREAM_FRAME_DONE: the frame's last row is written and verified (R328, R413). `hostBad`: the endpoint's row check failed
over a host buffer (R416). -/
def Dev.strDone (d : Dev) (s n : Nat) (hostBad : Bool) : Dev :=
  let d := d.takeJobs.pruneBufs
  let c := d.strF F.strCfg_camera s
  match (d.str s).frames.find? fun b => decide (b.frame = n), d.frameDev c n with
  | some b, some f =>
    if f.left.isEmpty && d.verdictsIn f then
      let d := d.ringOut s b (d.strF F.strSize_outH s)
      let d := if hostBad && decide (b.space = 1) then d.mismatch 7 3 uPcie s n 0 else d
      let d := d.strPost s b f.rep.flags (if f.redone then osRedo else 0) n
      let d := (d.modStr s fun t => { t with lastGood := n }).fs F.strCnt_consec 0 uPipe s
      let g := d.strF F.strCfg_group s
      let d := if d.isReference s then d.wr .algFrame uPipe g (BitVec.ofNat 32 b.out) else d
      d.settleStops.reap
    else d
  | _, _ => d

def execStreamFrameDone (str : Fin 8) (frame : Nat) (hostBad : Bool) (s : State) : Host.Outcome State Fault Refusal :=
  s.onDev fun d => d.strDone str frame hostBad

/-! ### Deadlines (R332, R333) -/

/-- The zero-signal fill of a group of output columns, by plane. -/
def fillGroup (k : StrCfg) (full : Bool) : List (List Byte) :=
  let z := Fl.zero
  match k.fmt with
  | 0 => List.replicate 3 (leBytes 2 0)
  | 1 => [leBytes 2 (rgbcode full z) ++ leBytes 2 (rgbcode full z) ++ leBytes 2 (rgbcode full z)]
  | 2 => [leBytes 5 (ccode full z + ycode full z * 2 ^ 10 + ccode full z * 2 ^ 20 + ycode full z * 2 ^ 30)]
  | 3 => if k.corr then [leBytes 2 0] else [[]]
  | _ => [leBytes 2 0] ++ (if k.conf then [leBytes 1 0] else [])

/-- The whole buffer as fill (R332). -/
def Dev.fillBuf (d : Dev) (s : Nat) (b : StrFrame) : Dev :=
  let k := d.strCfg s
  let depth := d.camDepth k.cam
  let t := (d.pcam k.cam).genOf b.frame
  let g := groupOf k
  let pitch := rowBytes k.fmt depth k.corr k.ow
  let px := if k.fmt = 3 ∧ !k.corr then [packRow depth (List.replicate 8 0)] else fillGroup k (t.ot k.ot).full
  (List.range k.oh).foldl (fun e y => (List.range (k.ow / g)).foldl (fun e x =>
    (px.zipIdx).foldl (fun e q => e.bufW b (q.2 * (pitch * k.oh) + y * pitch + x * q.1.length) q.1) e) e) d

/-- A REPEAT substitute's buffer: its contents are undefined (R332), free values. -/
def Dev.blurBuf (d : Dev) (s : Nat) (b : StrFrame) : Dev :=
  (d.bufW b 0 ((List.range (d.bufBytes s)).map fun i => BitVec.ofNat 8 (d.freeVal / 2 ^ (8 * i)))).useFree

/-- IN_FLAGS of a frame; for one the device no longer holds, the spec gives none. -/
def Dev.inFlags (d : Dev) (c n : Nat) : Nat :=
  match d.frameDev c n with
  | some f => f.rep.flags
  | none => if (d.cam c).opn ∧ (d.cam c).no = n then (d.cam c).flags else d.freeVal % 2 ^ 32

/-- A substitute in the buffer that a late member has (R332). -/
def Dev.substitute (d : Dev) (s : Nat) (b : StrFrame) : Dev :=
  let c := d.strF F.strCfg_camera s
  let d := d.fadd F.strCnt_subst 1 uPipe s
  if d.strF F.strCfg_fill s = 1 then
    ((d.fillBuf s b).ringOut s b (d.strF F.strSize_outH s)).strPost s b (d.inFlags c b.frame) (osSubst + osFilled) b.frame
  else ((d.blurBuf s b).ringOut s b 0).strPost s b (d.inFlags c b.frame) (osSubst + osRepeat) (d.str s).lastGood

/-- A member that has not completed group frame ref: a substitute where it has a buffer, else a skip; then the run of them is
counted, and the member dropped at SUB_LIMIT (R332, R333). -/
def Dev.lateMember (d : Dev) (g ref s : Nat) : Dev :=
  let c := d.strF F.strCfg_camera s
  let mine := d.matchOf g (d.algF F.algCfg_refCam g) ref c
  let n := mine.getD (d.freeVal % 2 ^ 32)
  let d := match (d.str s).frames.find? fun b => decide (b.out = ref) with
    | some b => d.substitute s b
    | none =>
      match d.nextBuf s with
      | some o =>
        let e := d.takeBuf s n ref o
        match (e.str s).frames.find? fun (b : StrFrame) => decide (b.tag = o.tag) with
        | some b => e.substitute s b
        | none => e
      | none =>
        (d.modStr s fun t => { t with skipped := t.skipped + 1, outs := (ref :: t.outs).take 64 }).fadd F.strCnt_skip 1 uPipe s
  let d := ((d.useFree).fadd F.strCnt_consec 1 uPipe s).raise (pxEv 0x0A06 2 s n)
  if d.algF F.algCfg_subLimit g ≤ d.strF F.strCnt_consec s then
    ((d.unmember g s).modStr s fun t => { t with dropped := some g, joinAt := none }).raise (pxEv 0x0A07 2 s n)
  else d

def Dev.alignDeadline (d : Dev) (g ref : Nat) : Dev :=
  let d := d.takeJobs.pruneBufs
  if !d.fb F.algCfg_en uPipe g then d
  else
    let late := (List.range 8).filter fun s => d.isMember g s && decide (d.strF F.strCfg_grouped s = 1) && !(d.str s).outs.contains ref &&
      decide (ref % max 1 (d.strF F.strDecim_decim s) = d.strF F.strDecim_phase s) &&
      (!(d.str s).stopping || (d.str s).frames.any fun b => decide (b.out = ref))
    (late.foldl (fun e s => e.lateMember g ref s) d).settleStops.reap

def execAlignDeadline (g : Fin 4) (ref : Nat) (s : State) : Host.Outcome State Fault Refusal := s.onDev fun d => d.alignDeadline g ref

end Sys2Proof.Machine
end

