-- ==== Sys2Proof/Machine/Tiles.lean ====
section
/-! DEFINITION. A tile's stripe from start to end (R245, R268, R281, R285, R286, R297, R298, R316), and the verdict at point C
(R412, R413). -/
namespace Sys2Proof.Machine

/-! ### The start of a stripe -/

/-- The frame and stripe an in-line tile starts next (R309): the oldest in development whose stripe has not been taken, else the
open frame. -/
def Dev.inlineNext (d : Dev) (c i : Nat) : Option (Nat × Bool) :=
  let taken := fun (n : Nat) => d.pipe.runs.any (fun r => decide (r.2.cam = c ∧ r.2.frame = n ∧ r.2.stripe = i)) ||
    d.pipe.jobs.any (fun j => decide (j.cam = c ∧ j.frame = n ∧ j.stripe = i))
  match d.pipe.frames.find? fun f => decide (f.rep.cam = c) && f.left.contains i && !taken f.rep.frame with
  | some f => some (f.rep.frame, true)
  | none =>
    let n := (d.cam c).no
    if (d.cam c).opn && (d.frameDev c n).isNone then some (n, false) else none

/-- The run an in-line tile begins. -/
def Dev.inlineRun (d : Dev) (u c i : Nat) : Dev :=
  match d.inlineNext c i with
  | none => d
  | some (n, known) =>
    let rep : FrameRep := ⟨c, n, d.camSlotOf c n, (d.cam c).start, 0, 0⟩
    let fs := if known then d.pipe.frames
      else d.pipe.frames ++ [(⟨rep, List.range (d.allocOf c).n, false, [], false, false⟩ : FrameDev)]
    { d with pipe := { d.pipe with frames := fs, runs := tset d.pipe.runs u ⟨c, n, i, false, false, d.roomiest⟩ } }.firstOp u

/-- The context record of a compatibility camera (R316); the places within each part are not given (log entry 12). -/
def Dev.cptRecord (d : Dev) (c : Nat) : List Byte :=
  let p := d.pcam c
  let cur := p.setOf 0xFFFFFFFF
  let ss := (List.range 8).filter fun s => decide (d.strF F.strCfg_camera s = c)
  fitB (p.curSet.enc 0x3F ++ leBytes 4 cur.pseq ++ leBytes 4 cur.effect) 256 ++
  fitB ((List.range 4).flatMap fun k => fitB (p.committed.ot k).desc 64) 256 ++
  fitB (leBytes 4 (d.rd .outCam uPipe c).toNat ++ leBytes 2 p.committed.gen ++ leBytes 8 p.stats) 256 ++
  fitB (p.tags.flatMap fun q => leBytes 2 q.1 ++ leBytes 4 q.2.1 ++ leBytes 2 q.2.2.2) 256 ++
  fitB (ss.flatMap fun s => leBytes 4 (d.rd .strCfg uPipe s).toNat) 1024 ++
  (List.range 8).flatMap fun s => fitB (if ss.contains s then ((d.str s).coef.flatMap (leBytes 2)) else []) 2048

/-- A compatibility tile that turns to another camera stores the outgoing record and counts a switch (R316). -/
def Dev.cptSwitch (d : Dev) (u c : Nat) : Dev :=
  if !d.inRole (· == .compat) u then d
  else
    let d := match tget d.pipe.cptLast u with
      | some o =>
        if o = c then d
        else
          let d := d.fadd F.cptSw_switches 1 uPipe
          match d.area (tagOf 12 o) with
          | some a => d.hbmW a.base (d.cptRecord o)
          | none => d
      | none => d
    { d with pipe := { d.pipe with cptLast := tset d.pipe.cptLast u c } }

/-- A tile's registers at the start of a stripe (R270, R298): tables of the frame's generation, parameters of its set. -/
def Dev.latchTile (d : Dev) (u : Nat) (r : TileRun) : Dev :=
  let c := r.cam
  let p := d.pcam c
  let t := p.genOf r.frame
  let s := p.setOf r.frame
  let k := d.core c r.stripe
  let bank := if d.fg F.pxGen_tgen u = t.gen then d.fg F.pxGen_bank u else 1 - d.fg F.pxGen_bank u
  let ots := (List.range 4).foldl (fun a i => if (t.ot i).en then a + 2 ^ i else a) 0
  [(F.pxStripe_valid, 1), (F.pxStripe_camera, c), (F.pxStripe_stripe, r.stripe), (F.pxCols_left, k.1), (F.pxCols_width, k.2),
   (F.pxFrame_frame, r.frame), (F.pxGen_tgen, t.gen), (F.pxGen_bank, bank), (F.pxGen_sets, min 7 (d.setCount t c)),
   (F.clParam_pseq, s.pseq % 65536), (F.clParam_otEn, ots), (F.clParam_tnr, bit t.tnr), (F.clParam_hist, bit t.uf32),
   (F.clParam_hilite, s.set.hilite), (F.clExp_exposure, wfBits ((f32Of s.set.exposure).rnd fmtW))].foldl
    (fun (e : Dev) (q : Fld × Nat) => e.fs q.1 q.2 u) d

/-- The first stripe of a frame: the commit is told on the commit frame (R268, R274), the streams take their buffers (R328). -/
def Dev.firstStripe (d : Dev) (c n : Nat) : Dev :=
  match d.frameDev c n with
  | none => d
  | some f =>
    if f.begun then d
    else
      let d := d.modFrame c n fun g => { g with begun := true }
      let p := d.pcam c
      let d := if p.announce ∧ p.commitFrame ≤ n then (d.tellCommit c).jobDecided p.job 0 else d
      d.streamsFirst c n

/-- STRIPE_START: the tile takes its assigned job, or an in-line tile its next stripe. -/
def Dev.stripeStart (d : Dev) (u : Nat) : Dev :=
  let d := d.takeJobs
  let d := match tget d.pipe.runs u, d.roleOf u with
    | none, some (.inl c i) => if d.accepts u then d.inlineRun u c i else d
    | _, _ => d
  match tget d.pipe.runs u with
  | none => d
  | some r =>
    if r.started || !d.accepts u then d
    else
      let d := { d with pipe := { d.pipe with runs := tset d.pipe.runs u { r with started := true } } }
      let d := ((d.cptSwitch u r.cam).latchTile u r).syncLut (groupOfTile u)
      let d := d.tnrTell ((d.pcam r.cam).genOf r.frame) r.cam r.frame r.stripe u
      d.firstStripe r.cam r.frame

def execStripeStart (n : Fin 72) (s : State) : Host.Outcome State Fault Refusal := s.onDev fun d => d.stripeStart (uTile n)

/-! ### The end of a stripe -/

/-- The stripe's frame is closed, so that every line of it is there. -/
def Dev.closedFrame (d : Dev) (c n : Nat) : Bool := !((d.cam c).opn && decide ((d.cam c).no ≤ n))

/-- Stage 7 waits for the developer of the same stripe of the frame before (R286). -/
def Dev.tnrWaits (d : Dev) (c n i : Nat) : Bool :=
  ((d.pcam c).genOf n).tnr && decide (0 < n) && (match d.frameDev c (n - 1) with
    | some f => f.left.contains i && decide ((d.pcam c).tnrReset n = 0)
    | none => false)

/-- A line record the tile reads shows another frame: the slot has been overwritten (R310). -/
def Dev.staleStripe (d : Dev) (c n i : Nat) : Bool :=
  let k := d.core c i
  (List.range (d.camF F.camSize_height c)).any fun y => decide ((d.lineRec c n k.1 y).1 ≠ n)

/-- A frame lost while a tile develops it (R310): the stripe is abandoned, jobs left are discarded, the streams skip it. -/
def Dev.overrunRun (d : Dev) (u : Nat) (r : TileRun) : Dev :=
  let d := { d with pipe := { d.pipe with
    runs := tdel d.pipe.runs u
    jobs := d.pipe.jobs.filter fun j => !decide (j.cam = r.cam ∧ j.frame = r.frame) } }.fs F.pxStripe_valid 0 u
  if (d.frameDev r.cam r.frame).isNone then d.syncJobs
  else
    let d := { d with pipe := { d.pipe with frames := d.pipe.frames.filter fun f => !decide (f.rep.cam = r.cam ∧ f.rep.frame = r.frame) } }
    (((d.syncJobs).fadd F.outDisp_overrun 1 uPipe).streamsLose r.cam r.frame).raise (pxEv 0x0A03 2 r.cam r.frame)

/-- What the stripe counts and tells (R251, R257, R270, R289, R290, R298). -/
def Dev.countStripe (d : Dev) (u c n : Nat) (a : StripeSum) : Dev :=
  let d := [(F.pxDef_corrected, a.corrected), (F.pxDef_unfixed, a.unfixed), (F.pxSat_sat, a.sat), (F.pxEcc_range, a.range),
    (F.clClip_shpClip, a.shp), (F.clClip_lutClip, a.lut)].foldl (fun (e : Dev) (q : Fld × Nat) => e.fadd q.1 q.2 u) d
  let d := if a.unfixed = 0 then d else d.raiseOnce u 10000000 { pxEv 0x0803 2 c u n with unit := u }
  if a.range = 0 then d else d.raiseOnce u 10000000 { pxEv 0x0807 2 c u n with unit := u }

/-- A partition tile that finishes while a failed in-line tile waits for a replacement takes its place (R314). -/
def Dev.lateReplace (d : Dev) (u : Nat) : Dev :=
  match d.pipe.rots.find? fun r => decide (r.b = 0) with
  | none => d
  | some r =>
    if d.inRole Role.isPart u then
      let d := { d with pipe := { d.pipe with rots := d.pipe.rots.map fun (x : Rotation) => if x.a = r.a then { x with b := u } else x } }
      d.prepare r.a u
    else d

/-- The stripe's results (R281, R283, R318, R412): every stream's columns, history, statistics. -/
def Dev.developStripe (d : Dev) (u : Nat) (r : TileRun) : Dev :=
  let c := r.cam
  let n := r.frame
  let i := r.stripe
  let t := (d.pcam c).genOf n
  let set := ((d.pcam c).setOf n).set
  let raw := d.rawCtx t c n
  let k := d.core c i
  let src := d.px7 raw t set c n
  let mine := (List.range 8).filter fun s => d.strRun s && decide (d.strF F.strCfg_camera s = c) && decide (d.strF F.strCfg_format s < 3)
  let ots := ((mine.map fun s => d.strF F.strCfg_ot s).eraseDups).map t.ot
  let sum := stripeSum t raw ots src k.1 k.2
  let outs := (List.range 8).flatMap fun s => if d.strF F.strCfg_camera s = c then
    ((d.str s).frames.filter fun b => decide (b.frame = n)).map fun b => (s, b) else []
  let e := outs.foldl (fun e p => e.writeOut p.1 p.2 n i) d
  let e := (e.writeHist t set c n i src).writeStat c n i sum
  e.countStripe u c n sum

/-- STRIPE_END. -/
def Dev.stripeEnd (d : Dev) (u : Nat) : Dev :=
  let d := d.takeJobs.pruneBufs
  match tget d.pipe.runs u with
  | none => d
  | some r =>
    if !r.started || !d.closedFrame r.cam r.frame then d
    else if d.tnrWaits r.cam r.frame r.stripe then
      d.useFree.fadd F.clTnr_waits (d.freeVal % d.camF F.camSize_height r.cam + 1) u
    else if (!d.ing.inl.any fun j => decide (j.cam = r.cam ∧ j.frame = r.frame)) && d.staleStripe r.cam r.frame r.stripe then
      d.overrunRun u r
    else
      let d := d.developStripe u r
      let d := { d with pipe := { d.pipe with runs := tdel d.pipe.runs u } }.fs F.pxStripe_valid 0 u
      let d := d.modFrame r.cam r.frame fun f => { f with left := f.left.filter (· ≠ r.stripe) }
      (d.lateReplace u).reap

def execStripeEnd (n : Fin 72) (s : State) : Host.Outcome State Fault Refusal := s.onDev fun d => d.stripeEnd (uTile n)

/-! ### Point C (R412, R413) -/

/-- The bytes of member m's line of a frame, in HBM. -/
def Dev.lineBytes (d : Dev) (c n m line : Nat) : List Byte :=
  match d.memberSrc c m with
  | none => []
  | some x =>
    d.hbmR (d.slotAddr c n + d.planeRow x line * d.camF F.camStride_stride c + d.srcF F.srcPos_x x * d.camDepth c / 8)
      (d.srcF F.srcGeom_width x * d.camDepth c / 8)

/-- The CRC of a line: as carried with it in-line, else as stored. -/
def Dev.lineCrc (d : Dev) (c n m line : Nat) : Nat :=
  match d.ing.inl.find? fun j => decide (j.cam = c ∧ j.frame = n ∧ j.member = m ∧ j.line = line) with
  | some j => j.crc
  | none => rdLe (d.hbmR (d.slotAddr c n + d.camLinesOff c + 32 * (d.memberP c m + line)) 32) 8 8

/-- The verdict on a member line (R413): `seen` is what the tiles took in where it differs from the line in HBM. -/
def Dev.verdictC (d : Dev) (c n m line : Nat) (seen : Option (List Byte)) : Dev :=
  match d.frameDev c n, d.memberSrc c m with
  | some f, some x =>
    let bs := seen.getD (d.lineBytes c n m line)
    let key := m * 65536 + line
    let put := fun (e : Dev) => e.modFrame c n fun g => { g with verdicts := if g.verdicts.contains key then g.verdicts else key :: g.verdicts }
    if crc64 bs = d.lineCrc c n m line then (put d).reap
    else if f.again then ((put d).mismatch 3 3 uPipe c n (d.planeRow x line)).reap
    else
      let d := d.mismatch 3 2 uPipe c n (d.planeRow x line)
      let d := d.modFrame c n fun g => { g with again := true, verdicts := [] }
      let part := d.redoPart c
      let todo := (List.range (d.allocOf c).n).filter fun i =>
        !d.pipe.jobs.any fun j => decide (j.cam = c ∧ j.frame = n ∧ j.stripe = i)
      (todo.foldl (fun e i => e.queueRedo c n i part) d).modFrame c n fun g => { g with redone := true }
  | _, _ => d

def execPointCVerdict (c : Fin 16) (frame : Nat) (m : Fin 16) (line : Nat) (seen : Option (List Byte)) (s : State) :
    Host.Outcome State Fault Refusal := s.onDev fun d => d.takeJobs.verdictC c frame m line seen

end Sys2Proof.Machine
end

