-- ==== Sys2Proof/Machine/Codec.lean ====
section
/-! DEFINITION. Chapter 12, the codec: streams and slices (R340 to R343, R372), coding and commit (R353, R355, R356), source verdicts
(R354), saved state (R357 to R359), engines (R360 to R363) and buffers (R364 to R367). -/
namespace Sys2Proof.Machine

/-! ### Streams and their configuration (R341 to R343, R372) -/

def Dev.psStr (d : Dev) (n : Nat) : PsStream := (tget d.ps.strs n).getD {}
def Dev.setPs (d : Dev) (n : Nat) (v : PsStream) : Dev := { d with ps := { d.ps with strs := tset d.ps.strs n v } }
def Dev.modPs (d : Dev) (n : Nat) (f : PsStream → PsStream) : Dev := d.setPs n (f (d.psStr n))
def PsStream.kind (s : PsStream) : Nat := rdLe s.cfg 0 1
def PsStream.idx (s : PsStream) : Nat := rdLe s.cfg 1 1
def PsStream.mode (s : PsStream) : Nat := rdLe s.cfg 2 1
def PsStream.qmax (s : PsStream) : Nat := if s.mode = 0 then 0 else rdLe s.cfg 3 1
def PsStream.qmin (s : PsStream) : Nat := rdLe s.cfg 4 1
def PsStream.slices (s : PsStream) : Nat := rdLe s.cfg 5 1
def PsStream.chunkRows (s : PsStream) : Nat := rdLe s.cfg 6 2
def PsStream.keyInt (s : PsStream) : Nat := rdLe s.cfg 8 2
def PsStream.fhist (s : PsStream) : Bool := (rdLe s.cfg 10 1).testBit 0
def PsStream.target (s : PsStream) : Nat := if s.mode = 2 then rdLe s.cfg 12 4 else 0
def PsStream.rate (s : PsStream) : Nat := rdLe s.cfg 16 4

/-- A codec event: DETAIL0 the stream or decode job. -/
def psEv (code sev obj : Nat) (d1 d2 : Nat := 0) : Ev := { code := code, sev := sev, unit := uCodec, d0 := obj, d1 := d1, d2 := d2 }

/-- A source's components (R341): count, depth, mosaic periods, row width in samples, rows, FORMAT of R351, pixels per sample
as 1 or 2 samples, and whether only the exact mode serves. -/
structure PsSrc where
  ncomp : Nat
  d : Nat
  sx : Nat
  sy : Nat
  wc : Nat
  h : Nat
  fmt : Nat
  perPx : Nat
  exact : Bool

/-- The smallest of 1, 2, 4, 8 for which a map repeats that many columns (or rows) on (R342). -/
def mapPeriod (map : List Nat) (rows : Bool) : Nat :=
  let same := fun (n : Nat) => (List.range 64).all fun p =>
    let x := p % 8
    let y := p / 8
    let q := if rows then (y + n) % 8 * 8 + x else y * 8 + (x + n) % 8
    decide (map.getD p 0 = map.getD q 0)
  ([1, 2, 4].find? same).getD 8

/-- The components of a configuration's source; none where the format is refused (R341). -/
def Dev.psSrc (d : Dev) (b : List Byte) : Option PsSrc :=
  let i := rdLe b 1 1
  let mosaic := fun (c dep wc h fmt : Nat) =>
    let m := d.planeMap (d.pcam c).committed c
    (⟨1, dep, mapPeriod m false, mapPeriod m true, wc, h, fmt, 1, false⟩ : PsSrc)
  if rdLe b 0 1 = 0 then
    if 15 < i ∨ d.camF F.camSize_width i = 0 then none
    else some (mosaic i (d.camDepth i) (d.camF F.camSize_width i) (d.camF F.camSize_height i) 0xFF)
  else if 7 < i ∨ !(d.str i).internal then none
  else
    let k := d.strCfg i
    match k.fmt with
    | 0 => some ⟨3, 16, 1, 1, k.ow, k.oh, 0, 1, true⟩
    | 1 => some ⟨3, 12, 1, 1, k.ow, k.oh, 1, 1, false⟩
    | 2 => some ⟨1, 10, 4, 1, 2 * k.ow, k.oh, 2, 2, false⟩
    | 3 => some (mosaic k.cam (if k.corr then 16 else d.camDepth k.cam) k.ow k.oh 3)
    | _ => if k.conf then none else some ⟨1, 16, 1, 1, k.ow, k.oh, 4, 1, true⟩

/-- First sample and width of slice i (R343). -/
def sliceAt (wc slices i : Nat) : Nat × Nat :=
  let s := 8 * ceilDiv wc (8 * max 1 slices)
  (i * s, min s (wc - i * s))

/-- CHUNK_MAX (R343). -/
def chunkMax (s : PsSrc) (slices rows : Nat) : Nat :=
  ceilDiv (64 + rows * s.ncomp * (sliceAt s.wc slices 0).2 * s.d / 8) 64 * 64

/-- A configuration block that R341, R343, R344 or R372 refuses. -/
def Dev.psBad (d : Dev) (b : List Byte) : Bool :=
  let f := fun (o n : Nat) => rdLe b o n
  match d.psSrc b with
  | none => true
  | some s =>
    decide (1 < f 0 1) || decide (2 < f 2 1) || (s.exact && decide (f 2 1 ≠ 0)) ||
    (decide (f 2 1 = 1) && (decide (f 3 1 = 0) || decide (15 < f 3 1))) ||
    (decide (f 2 1 = 2) && (decide (15 < f 3 1) || decide (f 3 1 < f 4 1))) ||
    decide (f 5 1 = 0) || decide (16 < f 5 1) || decide (f 6 2 = 0) || decide (256 < f 6 2) || decide (1 < f 10 1) ||
    decide (f 11 1 < 2) || decide (12 < f 11 1) || decide (f 20 12 ≠ 0) ||
    decide ((sliceAt s.wc (f 5 1) (f 5 1 - 1)).2 = 0) || decide (s.wc ≤ (sliceAt s.wc (f 5 1) (f 5 1 - 1)).1) ||
    decide (8192 < s.ncomp * (sliceAt s.wc (f 5 1) 0).2) || decide (262144 < chunkMax s (f 5 1) (f 6 2))

/-- Bytes of a slice's window and of its two frame-history planes (R358). -/
def winBytes (s : PsSrc) (w : Nat) : Nat := 64 * s.ncomp * w * 2
def planeBytes (s : PsSrc) (w mode : Nat) (fhist : Bool) : Nat := if fhist && decide (mode ≠ 0) then s.ncomp * w * s.h * 2 else 0
def histBytes (s : PsSrc) (b : List Byte) : Nat :=
  ((List.range (rdLe b 5 1)).map fun i =>
    let w := (sliceAt s.wc (rdLe b 5 1) i).2
    winBytes s w + 2 * planeBytes s w (rdLe b 2 1) ((rdLe b 10 1).testBit 0)).foldl (· + ·) 0

def vCodec (r : Req) (verb : Nat) (priv : Bool) (body : Dev → VRes Dev) (s : State) : Host.Outcome State Fault Refusal :=
  s.onDev fun d => d.verb r 0x07 verb priv body

/-! ### Engines (R360, R361, R369) -/

def Dev.eng (d : Dev) (e : Nat) : EngineSt := (tget d.ps.engines e).getD {}
def Dev.setEng (d : Dev) (e : Nat) (v : EngineSt) : Dev := { d with ps := { d.ps with engines := tset d.ps.engines e v } }

/-- Slices on engine e: stream and slice. -/
def Dev.slicesOn (d : Dev) (e : Nat) : List (Nat × Nat) :=
  d.ps.strs.flatMap fun p => ((p.2.parts.zipIdx).filter fun q => decide (q.1.engine = e)).map fun q => (p.1, q.2)

/-- A slice's work in ns per 1,000 s: its pixels, and a switch per frame where the engine holds other slices (R361). -/
def sliceWork (s : PsSrc) (w rate : Nat) (shared : Bool) : Nat :=
  (w / s.perPx * s.h * 10 / 32 + (if shared then 4000 + winBytes s w * 10 / 128 else 0)) * rate

/-- Load of engine e with further slices, in ns per 1,000 s. -/
def Dev.engLoad (d : Dev) (e : Nat) (more : List (PsSrc × Nat × Nat)) : Nat :=
  let mine := (d.slicesOn e).filterMap fun p =>
    let st := d.psStr p.1
    match d.psSrc st.cfg, st.parts[p.2]? with
    | some s, some x => if st.run then some (s, x.w, st.rate) else none
    | _, _ => none
  let l := mine ++ more
  (l.map fun q => sliceWork q.1 q.2.1 q.2.2 (decide (1 < l.length))).foldl (· + ·) 0

/-- A load of 1 in those units. -/
def fullLoad : Nat := 1000000000000

def activeEngines (d : Dev) : List Nat := (List.range 18).filter fun e => decide ((d.eng e).role = 1) && decide (d.own (uEngine e) ≠ stUnusable)
def readySpares (d : Dev) : List Nat := (List.range 18).filter fun e => decide ((d.eng e).role = 2) && decide (d.own (uEngine e) = stReady)

/-- An engine's registers follow its role and slices (R369); its class follows its streams (R360). -/
def Dev.syncEngine (d : Dev) (e : Nat) : Dev :=
  let u := uEngine e
  let sl := d.slicesOn e
  let raw := sl.any fun p => decide ((d.psStr p.1).kind = 0) && decide (d.camF F.camCfg_inline (d.psStr p.1).idx = 1)
  let cls := if sl = [] then 3 else if raw then 1 else 2
  let d := { d with bank := { d.bank with ctx := tset d.bank.ctx u { d.slot u with cls := cls } } }
  ((d.fs F.psBind_role (d.eng e).role u).fs F.psBind_slices (min sl.length 31) u).fs F.psLoad_load
    (min (d.engLoad e [] * 65536 / fullLoad) 65535) u
def Dev.syncEngines (d : Dev) : Dev := (List.range 18).foldl Dev.syncEngine d

/-- Roles at service-ready (R360): the two highest-indexed engines that are not UNUSABLE are spares. -/
def Dev.initEngines (d : Dev) : Dev :=
  let ok := (List.range 18).reverse.filter fun e => decide (d.own (uEngine e) ≠ stUnusable)
  (ok.foldl (fun x e => x.setEng e { role := if (ok.take 2).contains e then 2 else 1 }) d).syncEngines

/-- Slices of width w that engine e takes beside its own and `more`. -/
def Dev.engRoom (d : Dev) (e : Nat) (s : PsSrc) (w rate : Nat) (more : List (PsSrc × Nat × Nat)) : Nat :=
  ((List.range 17).filter fun k => decide (0 < k) &&
    decide (d.engLoad e (more ++ List.replicate k (s, w, rate)) ≤ fullLoad)).length

/-- An assignment of a stream's slices to active engines: the last, which may be narrower, on engine e0, the rest in turn. -/
def Dev.assignWith (d : Dev) (s : PsSrc) (slices rate e0 : Nat) : Option (List Nat) :=
  let w := (sliceAt s.wc slices 0).2
  let wl := (sliceAt s.wc slices (slices - 1)).2
  let last := [(s, wl, rate)]
  if fullLoad < d.engLoad e0 last then none
  else
    let slots := (activeEngines d).flatMap fun e => List.replicate (d.engRoom e s w rate (if e = e0 then last else [])) e
    if slots.length < slices - 1 then none else some (slots.take (slices - 1) ++ [e0])

/-- Whether some assignment keeps every engine's load at or below 1, and which is taken (R361 leaves it open). -/
def Dev.assign (d : Dev) (s : PsSrc) (slices rate : Nat) : Option (List Nat) :=
  let all := (activeEngines d).filterMap (d.assignWith s slices rate)
  all[d.freeVal % all.length]?

/-! ### STREAM_SET, START, STOP (R340, R364, R371, R372) -/

/-- CST follows the stream (R370). -/
def Dev.syncCst (d : Dev) (n : Nat) : Dev :=
  let s := d.psStr n
  let d := (d.fs F.cst_run (bit s.run) uCodec n).fs F.cst_mode s.mode uCodec n
  let d := (d.fs F.cst_qcur ((s.parts[0]?.map (·.q)).getD 0) uCodec n).fs F.cst_slices (s.slices - 1) uCodec n
  d.fs F.cst_fhist (bit s.fhist) uCodec n

/-- The stream's buffer queue made once, then given a new epoch (R364). -/
def Dev.psQueue (d : Dev) (n owner depthLog2 cls errQid : Nat) : Dev :=
  let ep := ((d.psStr n).epoch + 1) % 0x10000
  let old := d.fg F.cst_bufq uCodec n
  let q := if old = 0 then d.oz.nextQid else old
  let d := if old = 0 then { d with oz := { d.oz with nextQid := d.oz.nextQid + 1 } }.fs F.cst_bufq q uCodec n else d
  let d := (d.opsOf q).foldl (fun e o => (e.closeTag o).returnRole q o.entry o.tag ep uQf) d
  let r : Queue := { d.q q with
    owner := owner, cls := cls, mode := 0, rstate := 1, depthLog2 := depthLog2, ringHost := false, inflLog2 := 12, epoch := ep,
    unit := uCodec, errQid := errQid, ringBase := Config.ringPlace q }
  (d.setQ q r).modPs n fun s => { s with epoch := ep, depthLog2 := depthLog2 }

def Dev.codecStreamSet (d : Dev) (r : Req) : VRes Dev :=
  let n := r.object
  let b := fitB (d.argB r) 32
  if 31 < n then .err 0x0404
  else if (d.psStr n).run then .err 0x0408
  else if r.argLen < 32 ∨ d.psBad b then .err 0x0B01 (offBlk 0)
  else
    match d.psSrc b with
    | none => .err 0x0B01 (offBlk 0)
    | some s =>
      let hist := histBytes s b
      let slices := rdLe b 5 1
      match (d.freeArea (tagOf 13 n)).alloc rgCodec (hist + slices * 0x4000) (tagOf 13 n) with
      | none => .err 0x0409
      | some (base, e) =>
        let cls := if rdLe b 0 1 = 0 ∧ d.camF F.camCfg_inline (rdLe b 1 1) = 1 then 1 else 2
        let e := e.psQueue n r.master (rdLe b 11 1) cls (d.replyQ r)
        let e := e.modPs n fun o => { o with cfg := b, cfgGen := o.cfgGen + 1, hist := base, frames := [], parts := [], waiting := false }
        .ok (e.syncCst n) [e.fg F.cst_bufq uCodec n, (e.psStr n).epoch, chunkMax s slices (rdLe b 6 2), hist]

def execCodecStreamSet (r : Req) (s : State) : Host.Outcome State Fault Refusal := vCodec r 1 true (fun d => d.codecStreamSet r) s

/-- Buffers that the codec service gives a bound output stream, from its own region (R340): four. -/
def psBufs : Nat := 4

/-- Buffer j of a bound output stream submitted to the stream's queue, its completion going to the codec's own queue. -/
def Dev.psFeed (d : Dev) (n j : Nat) : Dev :=
  let st := d.psStr n
  let s := st.idx
  match d.area (tagOf 14 n) with
  | none => d
  | some a =>
    let size := d.bufBytes s
    let e : Entry := { Entry.zero with
      opcode := 0x60, typ := 1, notify := true, epoch := (d.str s).epoch, unit := uPipe, replyQid := st.replyQ, master := 0x40, seq := j,
      body := leBytes 8 (a.base + j * (ceilDiv size 64 * 64)) ++ leBytes 8 size ++ leBytes 16 0 }
    let q := d.strF F.strBufq_qid s
    if (d.q q).room = 0 then d else d.enqueue q e

/-- The output stream bound, its buffers given, and the stream started (R340). -/
def Dev.psBind (d : Dev) (n : Nat) (r : Req) : Option Dev :=
  let s := (d.psStr n).idx
  let size := ceilDiv (d.bufBytes s) 64 * 64
  match (d.freeArea (tagOf 14 n)).alloc rgCodec (psBufs * size) (tagOf 14 n) with
  | none => none
  | some (_, d) =>
    let q := d.oz.nextQid
    let rq : Queue := { Queue.disabled with
      owner := 0x40, cls := 2, rstate := 1, depthLog2 := 4, epoch := 1, unit := uCodec, ringBase := Config.ringPlace q, errQid := q }
    let d := { d with oz := { d.oz with nextQid := q + 1 } }.setQ q rq
    let d := d.modPs n fun st => { st with replyQ := q }
    match d.outStreamStart { r with object := s } with
    | .ok e _ _ _ => some ((List.range psBufs).foldl (fun e j => e.psFeed n j) e)
    | _ => none

/-- Slices at STREAM_START (R356). -/
def PsStream.newParts (st : PsStream) (s : PsSrc) (engines : List Nat) : List PsSlice :=
  (engines.zipIdx).map fun p =>
    let x := sliceAt s.wc st.slices p.2
    let t := st.target / max 1 st.slices
    ⟨p.1, x.1, x.2, 0, 0, if st.mode = 2 then st.qmin else st.qmax, t * st.chunkRows / max 1 s.h, 0, { ctx := ctxReset s.d }, true, none⟩

def Dev.codecStreamStart (d : Dev) (r : Req) : VRes Dev :=
  let n := r.object
  let st := d.psStr n
  if 31 < n then .err 0x0404
  else if (st.run && !st.waiting) ∨ st.cfg = [] then .err 0x0408
  else
    match d.psSrc st.cfg with
    | none => .err 0x0408
    | some s =>
      match (d.modPs n fun x => { x with parts := [], run := false }).assign s st.slices st.rate with
      | none => .err 0x0B02
      | some es =>
        let cam := if st.kind = 0 then st.idx else d.strF F.strCfg_camera st.idx
        let first := (d.cam cam).no
        let e := d.useFree.modPs n fun x => { x with
          run := true, frames := [], nextFrame := 0, keyAt := [], lost := false, stopping := false, waiting := false, save := none,
          prevCam := none, parts := x.newParts s es }
        let e := if st.kind = 1 ∧ !st.waiting then e.psBind n r else some e
        match e with
        | none => .err 0x0408
        | some e => .ok ((e.syncCst n).syncEngines) [first]

def execCodecStreamStart (r : Req) (s : State) : Host.Outcome State Fault Refusal := vCodec r 2 true (fun d => d.codecStreamStart r) s

/-- The stream has ended: its output stream stops and its engines are freed. -/
def Dev.psEnd (d : Dev) (n : Nat) : Dev :=
  let st := d.psStr n
  let d := if st.kind = 1 ∧ d.strRun st.idx then (d.modStr st.idx fun t => { t with stopping := true }).settleStops else d
  let d := d.modPs n fun x => { x with run := false, stopping := false, frames := [], parts := [] }
  ((d.syncCst n).syncEngines).jobDecided st.stopJob 0

/-- Frames not begun are dropped at a stop; a stream without frames in progress has stopped. -/
def Dev.psSettle (d : Dev) (n : Nat) : Dev :=
  let st := d.psStr n
  if st.run && st.stopping then
    let d := d.modPs n fun x => { x with frames := x.frames.filter (·.hdr) }
    if (d.psStr n).frames.isEmpty && (d.psStr n).parts.all (·.moveTo.isNone) then d.psEnd n else d
  else d

def execCodecStreamStop (r : Req) (s : State) : Host.Outcome State Fault Refusal := vCodec r 3 true (fun d =>
  if 31 < r.object then .err 0x0404
  else if !(d.psStr r.object).run then .err 0x0408
  else .job ((d.modPs r.object fun x => { x with stopping := true, stopJob := d.oz.nextJob }).psSettle r.object)
    (if (d.psStr r.object).frames.all (!·.hdr) then some 0 else none)) s

def execCodecInfo (r : Req) (s : State) : Host.Outcome State Fault Refusal := vCodec r 0 false (fun d =>
  .ok d [1, (activeEngines d).length, (readySpares d).length, bitmap 32 fun n => (d.psStr n).run]) s

/-- STREAM_INFO: the configuration block, CST, then per slice the engine and CHUNK_SEQ, within 64 B (log entry 12). -/
def execCodecStreamInfo (r : Req) (s : State) : Host.Outcome State Fault Refusal := vCodec r 4 false (fun d =>
  let st := d.psStr r.object
  if 31 < r.object then .err 0x0404
  else .ok d [] (fitB (fitB st.cfg 32 ++ leBytes 4 (d.rd .cst uCodec r.object).toNat ++
    (st.parts.flatMap fun p => leBytes 1 p.engine ++ leBytes 4 p.seq)) 64)) s

def execCodecKey (r : Req) (s : State) : Host.Outcome State Fault Refusal := vCodec r 9 true (fun d =>
  let st := d.psStr r.object
  if 31 < r.object then .err 0x0404
  else if !st.run then .err 0x0408
  else .ok (d.modPs r.object fun x => { x with keyAt := st.nextFrame :: x.keyAt }) [st.nextFrame]) s

def execCodecEngineStats (r : Req) (s : State) : Host.Outcome State Fault Refusal := vCodec r 0xA false (fun d =>
  let u := r.object
  if kindOf u ≠ some .engine then .err 0x0404
  else
    let regs : List Reg := [.psBind, .psLoad, .psCnt, .psEcc]
    .ok ([F.psCnt_chunks, F.psCnt_literal, F.psCnt_switches, F.psEcc_ce].foldl (fun (e : Dev) f => e.fs f 0 u) d)
      (regs.map fun q => (d.rd q u).toNat)) s

/-- A 32-bit read of PS_CNT (false) or PS_ECC (true) of engine n (R369). -/
def execPsCounterRead (m : Nat) (n : Fin 18) (ecc : Bool) (s : State) : Host.Outcome State Fault Refusal :=
  s.access m fun d =>
    if ecc then d.readClear m .psEcc (uEngine n) 0 [F.psEcc_ce]
    else d.readClear m .psCnt (uEngine n) 0 [F.psCnt_chunks, F.psCnt_literal, F.psCnt_switches]

/-! ### Frames offered to a stream (R340, R366) -/

/-- A camera frame offered to the raw streams of its camera. -/
def Dev.offerRaw (d : Dev) (rep : FrameRep) : Dev :=
  (d.ps.strs.filter fun p => p.2.run && !p.2.stopping && decide (p.2.kind = 0) && decide (p.2.idx = rep.cam)).foldl (fun e p =>
    e.modPs p.1 fun st => { st with frames := st.frames ++
      [(⟨0, rep.frame, rep.start, rep.flags, 0, 0, 0, 0, false, false, false, List.range st.slices, 0, [], []⟩ : PsFrame)] }) d

/-- A completion of a bound output stream becomes a frame; a buffer that came back unused is given again. -/
def Dev.offerOut (d : Dev) (n : Nat) (c : Entry) : Dev :=
  let st := d.psStr n
  if c.status ≠ 0 ∨ !st.run ∨ st.stopping then d
  else
    match d.area (tagOf 14 n) with
    | none => d
    | some a =>
      let b := c.body
      let f := rdLe b
      d.modPs n fun st => { st with frames := st.frames ++
        [(⟨0, f 0 4, f 8 8, f 16 4, f 20 2, f 22 2, f 24 2, a.base + c.seq * (ceilDiv (d.bufBytes st.idx) 64 * 64), false, false, false,
           List.range st.slices, 0, [], []⟩ : PsFrame)] }

/-- The codec takes in what ingest and the output streams have reported. -/
def Dev.psAdmit (d : Dev) : Dev :=
  let ready := fun (f : FrameRep) => d.ing.lines.all fun j => decide (j.cam ≠ f.cam) || decide (j.frame ≠ f.frame)
  let due := d.ps.reps.filter ready
  let d := { d with ps := { d.ps with reps := d.ps.reps.filter fun f => !ready f } }
  let d := due.foldl Dev.offerRaw d
  (d.ps.strs.filter fun p => decide (p.2.kind = 1) && decide (p.2.replyQ ≠ 0)).foldl (fun e p =>
    let q := e.q p.2.replyQ
    let e := e.setQ p.2.replyQ { q with ents := [], head := q.tail }
    q.ents.foldl (fun e c => e.offerOut p.1 c) e) d

/-- The mapping of binary16 patterns (R342). -/
def map16 (h : Nat) : Nat := if h < 0x8000 then h + 0x8000 else 0xFFFF - h
def unmap16 (u : Nat) : Nat := if 0x8000 ≤ u then u - 0x8000 else 0xFFFF - u

/-- A source row of a frame: all samples of a component. -/
def Dev.psRow (d : Dev) (st : PsStream) (f : PsFrame) (comp y : Nat) : List Nat :=
  let i := st.idx
  if st.kind = 0 then
    let w := d.camF F.camSize_width i
    let dep := d.camDepth i
    unpackRow dep w (d.hbmR (d.slotAddr i f.cam + y * d.camF F.camStride_stride i) (w * dep / 8))
  else
    let k := d.strCfg i
    let pitch := rowBytes k.fmt (d.camDepth k.cam) k.corr k.ow
    let row := fun (p n : Nat) => d.hbmR (f.base + p * (pitch * k.oh) + y * pitch) n
    match k.fmt with
    | 0 => let b := row comp (2 * k.ow); (List.range k.ow).map fun x => map16 (rdLe b (2 * x) 2)
    | 1 => let b := row 0 (6 * k.ow); (List.range k.ow).map fun x => rdLe b (6 * x + 2 * comp) 2 % 4096
    | 2 => unpackRow 10 (2 * k.ow) (row 0 (5 * k.ow / 2))
    | 3 => if k.corr then let b := row 0 (2 * k.ow); (List.range k.ow).map fun x => rdLe b (2 * x) 2
      else unpackRow (d.camDepth k.cam) k.ow (row 0 (k.ow * d.camDepth k.cam / 8))
    | _ => let b := row 0 (2 * k.ow); (List.range k.ow).map fun x => map16 (rdLe b (2 * x) 2)

/-- The slot of a camera frame still shows its FRAME (R234, R357, R366). -/
def Dev.rawValid (d : Dev) (c n : Nat) : Bool := decide (rdLe (d.hbmR (d.slotAddr c n + d.camRecOff c) 4) 0 4 = n)

/-! ### Headers and completions (R351, R352, R365) -/

/-- The frame header (R351). -/
def psFrameHdr (n : Nat) (st : PsStream) (s : PsSrc) (f : PsFrame) : List Byte :=
  let lg := fun (k : Nat) => k.log2
  withCrc (leBytes 4 0x48465350 ++ leBytes 2 1 ++ leBytes 1 (st.mode + 16 * bit st.fhist) ++ leBytes 1 st.qmax ++ leBytes 1 n ++
    leBytes 1 st.slices ++ leBytes 1 s.fmt ++ leBytes 1 s.d ++ leBytes 4 f.no ++ leBytes 4 f.cam ++ leBytes 2 s.wc ++ leBytes 2 s.h ++
    leBytes 1 s.ncomp ++ leBytes 1 (lg s.sx + 4 * lg s.sy) ++ leBytes 2 st.chunkRows ++ leBytes 2 st.keyInt ++
    leBytes 1 (bit f.key + 2 * bit f.skipped) ++ leBytes 1 0 ++ leBytes 8 f.start ++ leBytes 4 f.inFlags ++ leBytes 2 f.outFlags ++
    leBytes 2 f.tgen ++ leBytes 2 f.pseq ++ leBytes 2 0 ++ leBytes 4 st.target ++
    ((List.range 16).flatMap fun i => let x := sliceAt s.wc st.slices i
      leBytes 4 (if i < st.slices then x.1 * 65536 + x.2 else 0)) ++ leBytes 4 0)

/-- The body of a unit's completion (R365). -/
def psBody (frame kind slice cflags q bytes seq cam : Nat) : List Byte :=
  leBytes 4 frame ++ leBytes 1 kind ++ leBytes 1 slice ++ leBytes 1 cflags ++ leBytes 1 q ++ leBytes 4 bytes ++ leBytes 4 seq ++ leBytes 4 cam ++
  leBytes 12 0

def cbufBase (e : Entry) : Nat := rdLe e.body 0 8

/-- A buffer entry that breaks R364. -/
def Dev.cbufBad (d : Dev) (n : Nat) (e : Entry) : Bool :=
  let st := d.psStr n
  let need := match d.psSrc st.cfg with
    | some s => chunkMax s st.slices st.chunkRows
    | none => 0
  decide (e.opcode ≠ 0x61) || !e.notify || decide (cbufBase e % 64 ≠ 0) || decide (rdLe e.body 8 8 < need) || decide (1 < rdLe e.body 16 1) ||
  (decide (rdLe e.body 16 1 = 1) && !isFn e.master) || decide (rdLe e.body 17 15 ≠ 0)

/-- A codec buffer entry as it is dispatched (R364). -/
def Dev.cbufDispatched (d : Dev) (o : Op) : Dev :=
  match (List.range 32).find? fun n => decide (d.fg F.cst_bufq uCodec n = o.qid) && decide (o.qid ≠ 0) with
  | none => d
  | some n => if d.cbufBad n o.entry then (d.raise { psEv 0x0B0B 1 n with master := o.entry.master }).endOp o.tag 0x0B0B [] else d

/-- The next buffer of a stream: its oldest entry not in use. -/
def Dev.nextCbuf (d : Dev) (n : Nat) : Option Op :=
  let used := (d.psStr n).frames.flatMap fun f => (f.chunks.filter (!·.posted)).map (·.tag)
  (d.opsOf (d.fg F.cst_bufq uCodec n)).foldl (fun (a : Option Op) o =>
    if used.contains o.tag || o.dying then a
    else match a with
      | none => some o
      | some b => if o.num < b.num then some o else some b) none

/-- A unit written into a buffer; one outside what its owner may write is a violation (R87). -/
def Dev.unitW (d : Dev) (space owner base : Nat) (bs : List Byte) : Dev := if space = 0 then d.hbmW base bs else d.hostW owner base bs
def Dev.unitR (d : Dev) (space owner base n : Nat) : List Byte := if space = 0 then d.hbmR base n else d.hostR owner base n
def Dev.cbufOk (d : Dev) (o : Op) (n : Nat) : Bool :=
  decide (rdLe o.entry.body 16 1 ≠ 0) || d.callerMay o.entry.master (cbufBase o.entry) n true
def Dev.cbufBreach (d : Dev) (o : Op) : Dev := (d.dmaOutside o.entry.master (cbufBase o.entry)).endOp o.tag 0x0310 []

/-- A frame of a stream changed. -/
def Dev.modPsFrame (d : Dev) (n no cam : Nat) (g : PsFrame → PsFrame) : Dev :=
  d.modPs n fun st => { st with frames := st.frames.map fun f => if f.no = no ∧ f.cam = cam then g f else f }

/-- The frame begins: its number, key and loss marks, its header written and completed (R351, R365, R367). -/
def Dev.psHeader (d : Dev) (n : Nat) (s : PsSrc) (f : PsFrame) (o : Op) : Dev :=
  let st := d.psStr n
  let no := st.nextFrame
  let key := decide (no = 0) || (decide (st.keyInt ≠ 0) && decide (no % st.keyInt = 0)) || st.lost || st.keyAt.contains no
  let g := { f with no := no, key := key, skipped := st.lost, hdr := true }
  let sp := rdLe o.entry.body 16 1
  let d := d.unitW sp o.entry.master (cbufBase o.entry) (psFrameHdr n st s g)
  let d := d.modPs n fun st => { st with nextFrame := no + 1, lost := false, keyAt := st.keyAt.filter (· ≠ no),
                                         frames := st.frames.map fun x => if x = f then g else x }
  d.endOp o.tag 0 (psBody no 0 0 0 0 128 0 f.cam)

/-! ### Saved state (R357 to R359) -/

/-- The rows a slice's window holds before row y, oldest first. -/
def Coder.window (c : Coder) (ncomp y : Nat) : List Byte :=
  (lineOrder ncomp (max c.base (y - 64)) (y - max c.base (y - 64))).flatMap fun q =>
    ((tget c.rows (q.1 * 4 + q.2)).getD []).flatMap fun x => leBytes 2 x

/-- Base of slice i's window in the stream's history area, and of its first frame-history plane. -/
def PsStream.winBase (st : PsStream) (s : PsSrc) (i : Nat) : Nat × Nat :=
  let size := fun (k : Nat) => let w := (sliceAt s.wc st.slices k).2
    winBytes s w + 2 * planeBytes s w st.mode st.fhist
  let b := st.hist + st.slices * 0x4000 + ((List.range i).map size).foldl (· + ·) 0
  (b, b + winBytes s (sliceAt s.wc st.slices i).2)

/-- A slice's 16 KiB context record (R358). -/
def psRecord (n i : Nat) (st : PsStream) (s : PsSrc) (p : PsSlice) : List Byte :=
  let b := st.winBase s i
  let pl := planeBytes s p.w st.mode st.fhist
  let win := p.coder.window s.ncomp p.row
  let t := st.target / max 1 st.slices
  withCrc (fitB (leBytes 4 0x58435350 ++ leBytes 2 1 ++ leBytes 1 n ++ leBytes 1 i ++ leBytes 2 st.epoch ++ leBytes 2 0 ++ leBytes 4 st.cfgGen ++
    leBytes 4 st.nextFrame ++ leBytes 4 p.row ++ leBytes 4 p.seq ++ leBytes 4 0 ++
    leBytes 1 p.q ++ leBytes 3 0 ++ leBytes 4 p.last ++ leBytes 4 p.spent ++ leBytes 4 t ++
    leBytes 8 b.1 ++ leBytes 2 (min 64 (p.row - p.coder.base)) ++ leBytes 2 0 ++ leBytes 8 (if pl = 0 then 0 else b.2) ++
    leBytes 8 (if pl = 0 then 0 else b.2 + pl) ++ leBytes 4 0 ++ leBytes 4 (crc32c win) ++ leBytes 172 0 ++
    (p.coder.ctx.flatMap fun a => leBytes 4 a.1 ++ leBytes 2 a.2 ++ leBytes 2 0)) 0x3FFC)

/-- Slice i saved: its record at `dest`, its window and, with frame history, the rows of the previous frame and of the frame in
progress in the history area (R357, R358). -/
def Dev.psSave (d : Dev) (n i dest : Nat) : Dev :=
  let st := d.psStr n
  match d.psSrc st.cfg, st.parts[i]? with
  | some s, some p =>
    let b := st.winBase s i
    let d := (d.hbmW dest (psRecord n i st s p)).hbmW b.1 (p.coder.window s.ncomp p.row)
    let pl := planeBytes s p.w st.mode st.fhist
    let plane := fun (t : Tab (List Nat)) =>
      (lineOrder s.ncomp 0 s.h).flatMap fun q => ((tget t (q.1 * 4 + q.2)).getD (List.replicate p.w 0)).flatMap (leBytes 2)
    if pl = 0 then d else (d.hbmW b.2 (plane p.coder.prev)).hbmW (b.2 + pl) (plane p.coder.rows)
  | _, _ => d

/-- Samples of 2 bytes. -/
def samples16 (bs : List Byte) (n : Nat) : List Nat := (List.range n).map fun i => rdLe bs (2 * i) 2

/-- A record that R359 rejects. -/
def Dev.recReject (d : Dev) (n i : Nat) (st : PsStream) (s : PsSrc) (p : PsSlice) (b : List Byte) : Bool :=
  let area := st.hist
  let size := histBytes s st.cfg + st.slices * 0x4000
  let held := rdLe b 0x38 2
  let win := rdLe b 0x30 8
  let inArea := fun (a : Nat) => decide (area ≤ a) && decide (a < area + size)
  decide (rdLe b 0 4 ≠ 0x58435350) || decide (rdLe b 4 2 ≠ 1) || decide (crc32c (b.take 0x3FFC) ≠ rdLe b 0x3FFC 4) || decide (rdLe b 6 1 ≠ n) ||
  decide (rdLe b 7 1 ≠ i) || decide (rdLe b 8 2 ≠ st.epoch) || decide (rdLe b 0xC 4 ≠ st.cfgGen) || !inArea win ||
  (decide (rdLe b 0x3C 8 ≠ 0) && !inArea (rdLe b 0x3C 8)) || (decide (rdLe b 0x44 8 ≠ 0) && !inArea (rdLe b 0x44 8)) ||
  decide (crc32c (d.hbmR win (held * s.ncomp * p.w * 2)) ≠ rdLe b 0x50 4)

/-- Slice i restored from its record: the slice, or none where the record is rejected. -/
def Dev.psRestore (d : Dev) (n i src : Nat) (st : PsStream) (s : PsSrc) (p : PsSlice) : Option PsSlice :=
  let b := d.hbmR src 0x4000
  if d.recReject n i st s p b then none
  else
    let row := rdLe b 0x14 4
    let held := rdLe b 0x38 2
    let take := fun (base row0 rows : Nat) => ((lineOrder s.ncomp row0 rows).zipIdx).foldl (fun (t : Tab (List Nat)) q =>
      tset t (q.1.1 * 4 + q.1.2) (samples16 (d.hbmR (base + q.2 * p.w * 2) (p.w * 2)) p.w)) []
    let prev := if rdLe b 0x3C 8 = 0 then [] else take (rdLe b 0x3C 8) 0 s.h
    some { p with
      row := row, seq := rdLe b 0x18 4, q := rdLe b 0x20 1, last := rdLe b 0x24 4, spent := rdLe b 0x28 4, hreset := false,
      coder := { ctx := (List.range 24).map fun k => (rdLe b (0x100 + 8 * k) 4, rdLe b (0x104 + 8 * k) 2),
                 rows := if rdLe b 0x44 8 = 0 then take (rdLe b 0x30 8) (row - held) held else take (rdLe b 0x44 8) 0 s.h,
                 base := row - held, prev := prev } }

/-! ### Coding a chunk (R353, R355, R356, R361, R366) -/

/-- q for a chunk of `rows` rows with `left` rows of the frame still to code (R356). -/
def rateQ (st : PsStream) (p : PsSlice) (rows left : Nat) : Nat :=
  if st.mode ≠ 2 then st.qmax
  else
    let t : Int := (st.target / max 1 st.slices : Nat)
    let a := (t - p.spent) * rows
    if a ≤ 0 then st.qmax
    else if 11 * a < 10 * (p.last : Int) * left then min (p.q + 1) st.qmax
    else if 10 * (p.last : Int) * left < 8 * a then max (p.q - 1) st.qmin else p.q

/-- A slice of a stream changed. -/
def Dev.modPart (d : Dev) (n i : Nat) (f : PsSlice → PsSlice) : Dev := d.modPs n fun st => { st with parts := st.parts.modify i f }

/-- The next chunk job of engine e in the order of R361: stream, slice, frame. A slice that waits for a move is at its chunk
boundary; frames that a save or stop shuts out do not begin. -/
def Dev.nextChunk (d : Dev) (e : Nat) : Option (Nat × Nat × PsFrame) :=
  let cand := d.ps.strs.flatMap fun p =>
    let st := p.2
    if !st.run || st.waiting then []
    else
      let fs := if st.save.isSome || st.stopping then st.frames.filter (·.hdr) else st.frames
      (st.parts.zipIdx).filterMap fun q =>
        if q.1.engine = e ∧ q.1.moveTo = none then
          (fs.find? fun f => f.left.contains q.2).map fun f => (p.1, q.2, f)
        else none
  cand.foldl (fun (best : Option (Nat × Nat × PsFrame)) c =>
    match best with
    | none => some c
    | some b => if stampNs c.2.2.start < stampNs b.2.2.start then some c else some b) none

/-- The rest of a frame's chunks for a slice is not produced (R363 step 3, R366): the slice resumes with HRESET, the next frame is
KEY and SKIPPED. -/
def Dev.psLose (d : Dev) (n i : Nat) (f : PsFrame) (h : Nat) : Dev :=
  let st := d.psStr n
  let p := (st.parts[i]?).getD ⟨0, 0, 0, 0, 0, 0, 0, 0, {}, false, none⟩
  let missing := if f.hdr then ceilDiv (h - p.row) (max 1 st.chunkRows) else 0
  let d := d.modPart n i fun p => { p with row := 0, hreset := true, seq := p.seq + missing }
  let d := if f.hdr then d.modPsFrame n f.no f.cam fun g => { g with left := g.left.filter (· ≠ i) }
    else d.modPs n fun st => { st with frames := st.frames.filter fun g => g ≠ f }
  (d.modPs n fun st => { st with lost := true }).raise (psEv 0x0B05 2 n p.seq)

/-- A new frame for a slice: the window empties, the frame before becomes history (R345, R357). -/
def PsSlice.newFrame (p : PsSlice) (fhist : Bool) : PsSlice :=
  { p with spent := 0, coder := { p.coder with rows := [], base := 0, prev := if fhist then p.coder.rows else [] } }

/-- A coded chunk: its bytes with header, the slice after it, and its flags and q. -/
structure Coded where
  bytes : List Byte
  part : PsSlice
  cflags : Nat
  q : Nat

/-- Slice i's next chunk coded, or coded as LITERAL (R353, R355). -/
def Dev.codeChunk (d : Dev) (n i : Nat) (s : PsSrc) (f : PsFrame) (p : PsSlice) (lit : Bool) : Coded :=
  let st := d.psStr n
  let rows := min st.chunkRows (s.h - p.row)
  let hr := p.hreset || (f.key && decide (p.row = 0))
  let rq := rateQ st p rows (s.h - p.row)
  let q := if lit then 0 else rq
  let par : PsPar := ⟨s.ncomp, s.d, s.sx, s.sy, p.w, q⟩
  let c := if hr then p.coder.hreset par p.row else p.coder
  let src := fun (k y : Nat) => ((d.psRow st f k y).drop p.x0).take p.w
  let hist := st.fhist && !f.key && (decide (st.kind ≠ 0) || decide (st.mode ≠ 0) ||
    (match st.prevCam with | some m => d.rawValid st.idx m | none => false))
  let r := if lit then c.literal par p.row rows src else c.encode par hist d.freeVal p.row rows src
  let flags := st.mode + 4 * bit lit + 8 * bit hr
  let hd : ChunkHdr := ⟨flags, q, n, i, f.no, p.row, rows, p.x0, p.w, s.d, s.fmt, s.sx.log2 + 4 * s.sy.log2, s.ncomp, r.1.length, crc32c r.1,
    crc32c (r.2.samples par p.row rows), p.seq⟩
  let bytes := fitB (hd.enc ++ r.1) (ceilDiv (64 + r.1.length) 64 * 64)
  ⟨bytes, { p with row := p.row + rows, seq := p.seq + 1, q := rq, hreset := false, coder := r.2,
                   last := bytes.length * st.chunkRows / max 1 rows, spent := p.spent + bytes.length }, flags, q⟩

/-- The shadow decoder's check of a chunk (R353): no error, the encoder's reconstruction, within q of the source. -/
def Dev.shadowOk (d : Dev) (n : Nat) (s : PsSrc) (f : PsFrame) (p : PsSlice) (k : Coded) : Bool :=
  let st := d.psStr n
  let h := ChunkHdr.dec k.bytes
  let r := decodeChunk p.coder h ((k.bytes.drop 64).take h.len)
  (match r.2 with | none => true | some _ => false) && decide (r.1.rows = k.part.coder.rows) &&
  (lineOrder s.ncomp p.row h.rows).all fun q =>
    (((tget r.1.rows (q.1 * 4 + q.2)).getD []).zip (((d.psRow st f q.2 q.1).drop p.x0).take p.w)).all fun v =>
      decide (v.1 ≤ v.2 + k.q) && decide (v.2 ≤ v.1 + k.q)

/-- Moves of all slices of an engine onto a READY spare, one per chunk boundary (R355, R362). -/
def Dev.evacuate (d : Dev) (e : Nat) : Dev :=
  match readySpares d with
  | [] => d
  | b :: _ => (d.slicesOn e).foldl (fun x p => x.modPart p.1 p.2 fun q => { q with moveTo := q.moveTo.orElse fun _ => some (b, 0) }) d

/-- A frame whose slices have all ended: E_PS_RATE past 110% of TARGET (R356). -/
def Dev.frameCoded (d : Dev) (n : Nat) (f : PsFrame) : Dev :=
  let st := d.psStr n
  let d := d.modPs n fun x => { x with prevCam := some f.cam }
  if st.mode = 2 ∧ 11 * st.target < 10 * f.bytes then d.raise (psEv 0x0B06 1 n f.no) else d

/-- The chunk committed to a buffer (R353, R365). -/
def Dev.commitChunk (d : Dev) (e n i : Nat) (s : PsSrc) (f : PsFrame) (p : PsSlice) (k : Coded) (o : Op) : Dev :=
  let sp := rdLe o.entry.body 16 1
  let d := (d.unitW sp o.entry.master (cbufBase o.entry) k.bytes).useFree
  let c : PsChunk := ⟨i, p.seq, p.row, k.part.row - p.row, o.tag, cbufBase o.entry, sp, o.entry.master, k.bytes.length, k.cflags, k.q, false⟩
  let last := decide (s.h ≤ k.part.row)
  let d := d.modPart n i fun _ => if last then { k.part with row := 0 } else k.part
  let d := d.modPsFrame n f.no f.cam fun g => { g with
    chunks := g.chunks ++ [c], bytes := g.bytes + k.bytes.length, left := if last then g.left.filter (· ≠ i) else g.left }
  let u := uEngine e
  let other := decide (d.fg F.psBind_stream u * 16 + d.fg F.psBind_slice u ≠ n * 16 + i) && decide (1 < (d.slicesOn e).length)
  let d := if other then d.fadd F.psCnt_switches 2 u else d
  let d := (((d.fs F.psBind_stream n u).fs F.psBind_slice i u).fadd F.psCnt_chunks 1 u).syncCst n
  match (d.psStr n).frames.find? fun g => decide (g.no = f.no ∧ g.cam = f.cam) with
  | some g => if g.left = [] then d.frameCoded n g else d
  | none => d

/-- Fewer than two READY spares (R363). -/
def Dev.spareCheck (d : Dev) (e : Nat) : Dev := if (readySpares d).length < 2 then d.raise (psEv 0x0B09 2 0 e) else d

/-- The active engine with the lowest load. -/
def Dev.leastLoaded (d : Dev) (not : Nat) : Option Nat :=
  ((activeEngines d).filter (· ≠ not)).foldl (fun (b : Option Nat) e => match b with
    | none => some e
    | some x => if d.engLoad e [] < d.engLoad x [] then some e else some x) none

/-- A freed engine that awaits its self-test asks for it (R355, R362). -/
def Dev.testFreed (d : Dev) (e : Nat) : Dev :=
  if (d.eng e).testDue && d.slicesOn e = [] then
    let d := d.setEng e { role := 3 }
    match d.hl.roll with
    | some (a, b) => if a = uEngine e then d.rollMoved a b else d.testDrained (uEngine e) false
    | none => d.testDrained (uEngine e) false
  else d

/-- An engine fails (R363): its slices go to a spare, else to the active engine with the lowest load; the slice whose chunk was in
progress codes it again with HRESET. -/
def Dev.engineFail (d : Dev) (e : Nat) (hit : Option (Nat × Nat)) : Dev :=
  let tgt := (readySpares d).head?.orElse fun _ => d.leastLoaded e
  let d := match tgt with
    | none => d
    | some b =>
      let d := d.rollTaken (uEngine b)
      let d := d.setEng b { d.eng b with role := 1 }
      (d.slicesOn e).foldl (fun (x : Dev) (p : Nat × Nat) =>
        (x.modPart p.1 p.2 fun (q : PsSlice) => { q with engine := b, moveTo := none }).raise (psEv 0x0B07 1 p.1 b)) d
  let d := match hit with
    | none => d
    | some (n, i) => d.modPart n i fun q => { q with hreset := true }
  let u := uEngine e
  let works := decide (d.own u = stReady) || decide (d.own u = stActive)
  let d := d.setEng e { role := 0, testDue := works }
  (((d.raise (psEv 0x0B08 2 ((hit.map fun (p : Nat × Nat) => p.1).getD 0) e)).spareCheck e).testFreed e).syncEngines

/-- Buffer, code, verify, commit: `fault` 0 none, 1 the verification fails, 2 that of the literal chunk fails too. -/
def Dev.codeInto (d : Dev) (e n i : Nat) (s : PsSrc) (f : PsFrame) (fault : Nat) : Dev :=
  let st := d.psStr n
  match st.parts[i]?, d.nextCbuf n with
  | some p, some o =>
    let p := if p.row = 0 then p.newFrame st.fhist else p
    let k := d.codeChunk n i s f p false
    if !d.cbufOk o k.bytes.length then d.cbufBreach o
    else if decide (fault = 0) && d.shadowOk n s f p k then d.commitChunk e n i s f p k o
    else
      let d := (d.fadd F.psCnt_literal 1 (uEngine e)).raise (psEv 0x0B03 2 n p.seq)
      let d := (d.setEng e { d.eng e with testDue := true })
      if fault = 2 then d.engineFail e (some (n, i))
      else (d.commitChunk e n i s f p (d.codeChunk n i s f p true) o).evacuate e
  | _, _ => d

/-- CHUNK_CODE: engine e's next chunk; the first of a frame writes the frame header too. -/
def Dev.chunkCode (d : Dev) (e fault : Nat) : Dev :=
  let d := d.psAdmit
  match if d.accepts (uEngine e) then d.nextChunk e else none with
  | none => d
  | some (n, i, f) =>
    let st := d.psStr n
    match d.psSrc st.cfg with
    | none => d
    | some s =>
      if decide (st.kind = 0) && !d.rawValid st.idx f.cam then d.psLose n i f s.h
      else
        let d := d.firstOp (uEngine e)
        if f.hdr then d.codeInto e n i s f fault
        else
          match d.nextCbuf n with
          | none => d
          | some o =>
            if !d.cbufOk o 128 then d.cbufBreach o
            else
              let d := d.psHeader n s f o
              match (d.psStr n).frames.find? fun g => g.hdr && decide (g.no + 1 = (d.psStr n).nextFrame) with
              | some g => d.codeInto e n i s g fault
              | none => d

def execChunkCode (e : Fin 18) (fault : Fin 3) (s : State) : Host.Outcome State Fault Refusal := s.onDev fun d => d.chunkCode e fault

/-- ENGINE_FAIL: an engine with a chunk in progress fails: `chunk` says so, its next job being the one in progress (R363). -/
def execEngineFail (e : Fin 18) (chunk ue : Bool) (s : State) : Host.Outcome State Fault Refusal := s.onDev fun d =>
  let d := d.psAdmit
  let d := if ue then d.fadd F.psEcc_ue 1 (uEngine e) else d
  d.engineFail e (if chunk then (d.nextChunk e).map fun j => (j.1, j.2.1) else none)

/-! ### Verdicts and completions (R354, R365) -/

/-- A chunk of frame f holds a row. -/
def PsChunk.hasRow (c : PsChunk) (y : Nat) : Bool := decide (c.row0 ≤ y) && decide (y < c.row0 + c.rows)

/-- The row as it stands in its source agrees with its check: line CRCs of point B, or row checks of point G (R354). -/
def Dev.psRowGood (d : Dev) (st : PsStream) (f : PsFrame) (y : Nat) : Bool :=
  let i := st.idx
  if st.kind = 0 then
    (d.memberSrcs i).all fun x =>
      if decide (d.srcF F.srcPos_y x ≤ y) && decide (y < d.srcF F.srcPos_y x + d.srcF F.srcGeom_height x) then
        let line := d.lineAt x y
        let m := d.srcF F.srcCfg_member x
        decide (crc64 (d.lineBytes i f.cam m line) =
          rdLe (d.hbmR (d.slotAddr i f.cam + d.camLinesOff i + 32 * (d.memberP i m + line)) 32) 8 8)
      else true
  else
    let k := d.strCfg i
    let pitch := rowBytes k.fmt (d.camDepth k.cam) k.corr k.ow
    let slot := d.ringSlot i f.cam (d.strF F.strDecim_decim i)
    (List.range (planesOf k.fmt k.conf)).all fun p =>
      decide (crc32c (d.hbmR (f.base + p * (pitch * k.oh) + y * pitch) (planeRowLen k (d.camDepth k.cam) p)) =
        rdLe (d.hbmR (slot + 16 + 4 * (p * k.oh + y)) 4) 0 4)

/-- The row has a check: a REPEAT substitute's slot holds none (R415). -/
def Dev.psRowHasCheck (d : Dev) (st : PsStream) (f : PsFrame) : Bool :=
  let slot := d.hbmR (d.ringSlot st.idx f.cam (d.strF F.strDecim_decim st.idx)) 8
  decide (st.kind = 0) || decide (rdLe slot 0 4 ≠ f.cam) || decide (rdLe slot 4 4 ≠ 0)

/-- A committed chunk's header rewritten with further flags and a new HCRC (R354). -/
def Dev.reflag (d : Dev) (c : PsChunk) (flags : Nat) : Dev :=
  let h := ChunkHdr.dec (d.unitR c.space c.owner c.base 64)
  d.unitW c.space c.owner c.base ({ h with cflags := flags }).enc

/-- Every slice saved at the frame boundary; the stream then waits. -/
def Dev.saveNow (d : Dev) (n : Nat) : Dev :=
  let st := d.psStr n
  match st.save with
  | none => d
  | some (dest, job) =>
    if st.frames.any (·.hdr) then d
    else
      let d := (List.range st.slices).foldl (fun e i => e.psSave n i (dest + i * 0x4000)) d
      (d.modPs n fun x => { x with save := none, waiting := true }).jobDecided job 0

/-- Completions that may post: chunks of each slice in CHUNK_SEQ order, once every row of the chunk has its verdict (R365). -/
def Dev.psPost (d : Dev) (n : Nat) : Dev :=
  let st := d.psStr n
  let ready := fun (f : PsFrame) (c : PsChunk) => (List.range c.rows).all fun k => f.checked.contains (c.row0 + k)
  let all := st.frames.flatMap fun f => f.chunks.map fun c => (f, c)
  let due := all.filter fun p => !p.2.posted && ready p.1 p.2 &&
    all.all fun q => q.2.posted || decide (q.2.slice ≠ p.2.slice) || decide (p.2.seq ≤ q.2.seq) || ready q.1 q.2
  let due := due.mergeSort fun a b => decide (a.2.seq ≤ b.2.seq)
  let d := due.foldl (fun e p =>
    let e := e.endOp p.2.tag 0 (psBody p.1.no 1 p.2.slice p.2.cflags p.2.q p.2.bytes p.2.seq p.1.cam)
    e.modPsFrame n p.1.no p.1.cam fun g => { g with chunks := g.chunks.map fun c => if c.seq = p.2.seq ∧ c.slice = p.2.slice then { c with posted := true } else c }) d
  let done := (d.psStr n).frames.filter fun f => f.hdr && f.left.isEmpty && f.chunks.all (·.posted)
  let d := d.modPs n fun st => { st with frames := st.frames.filter fun f => !(f.hdr && f.left.isEmpty && f.chunks.all (·.posted)) }
  let d := if st.kind = 1 then done.foldl (fun e f =>
      match e.area (tagOf 14 n) with
      | some a => e.psFeed n ((f.base - a.base) / max 1 (ceilDiv (e.bufBytes st.idx) 64 * 64))
      | none => e) d
    else d
  (d.saveNow n).psSettle n

/-- SRC_VERDICT: the last partial of a row is in (R354). `good`: the bytes the engines read were those of the source. -/
def Dev.srcVerdict (d : Dev) (n frame y : Nat) (good : Bool) : Dev :=
  let st := d.psStr n
  match st.frames.find? fun f => f.hdr && decide (f.no = frame) with
  | none => d
  | some f =>
    let made := fun (i : Nat) => f.chunks.any fun c => decide (c.slice = i) && c.hasRow y
    let passed := fun (i : Nat) => made i || !f.left.contains i
    if f.checked.contains y || !(List.range st.slices).all passed then d
    else
      let hold := f.chunks.filter fun c => c.hasRow y
      let whole := (List.range st.slices).all made && d.psRowHasCheck st f
      let bad := !(good && d.psRowGood st f y)
      let add := if !whole then 64 else if bad then 32 else 0
      let d := if add = 0 then d
        else hold.foldl (fun (e : Dev) c =>
          (e.reflag c (c.cflags ||| add)).modPsFrame n f.no f.cam fun g =>
            { g with chunks := g.chunks.map fun (x : PsChunk) => if x = c then { x with cflags := x.cflags ||| add } else x }) d
      let d := if add = 32 then
          (d.fadd (mismFld 4) 1 uInteg).raise (psEv 0x0B04 3 n (((hold.head?).map (·.seq)).getD 0) y)
        else d
      (d.modPsFrame n f.no f.cam fun g => { g with checked := y :: g.checked }).psPost n

def execSrcVerdict (n : Fin 32) (frame row : Nat) (good : Bool) (s : State) : Host.Outcome State Fault Refusal :=
  s.onDev fun d => d.srcVerdict n frame row good

/-- A slice with work that has waited 1 ms for a buffer (R366). -/
def execCodecStarvedTimeout (n : Fin 32) (slice : Fin 16) (s : State) : Host.Outcome State Fault Refusal := s.onDev fun d =>
  let d := d.psAdmit
  let st := d.psStr n
  if st.run && st.frames.any (fun f => f.left.contains slice.val) && (d.nextCbuf n).isNone then
    d.raiseOnce n 10000000 (psEv 0x0B0A 2 n (((st.parts[slice.val]?).map (·.seq)).getD 0))
  else d

/-! ### Moves (R362) -/

/-- SLICE_MOVE: the slice, between chunks, is saved by its engine and restored by the other (R356, R362). -/
def Dev.sliceMove (d : Dev) (n i : Nat) : Dev :=
  let st := d.psStr n
  match st.parts[i]?, d.psSrc st.cfg with
  | some p, some s =>
    match p.moveTo with
    | none => d
    | some (b, job) =>
      let a := p.engine
      let d := d.psSave n i (st.hist + i * 0x4000)
      let t := st.target / max 1 st.slices
      let d := d.modPart n i fun p => { p with
        engine := b, moveTo := none, q := if st.mode = 2 then st.qmin else p.q, last := t * st.chunkRows / max 1 s.h }
      let d := if (d.eng b).role = 2 then d.setEng b { d.eng b with role := 1 } else d
      let d := (d.fadd F.psCnt_switches 1 (uEngine a)).fadd F.psCnt_switches 1 (uEngine b)
      let d := (d.raise (psEv 0x0B07 1 n b)).jobDecided job 0
      ((d.testFreed a).spareCheck a).syncEngines.psSettle n
  | _, _ => d

def execSliceMove (n : Fin 32) (slice : Fin 16) (s : State) : Host.Outcome State Fault Refusal := s.onDev fun d => d.sliceMove n slice

/-- CODEC.MOVE: the engine must keep its load at or below 1. -/
def Dev.codecMove (d : Dev) (r : Req) : VRes Dev :=
  let st := d.psStr r.object
  match st.parts[r.a0]?, d.psSrc st.cfg with
  | some p, some s =>
    if 31 < r.object then .err 0x0404
    else if 17 < r.a1 ∨ ! [1, 2].contains (d.eng r.a1).role ∨ !d.accepts (uEngine r.a1) then .err 0x0404 (offArg 1)
    else if fullLoad < d.engLoad r.a1 [(s, p.w, st.rate)] then .err 0x0B02
    else .job (d.modPart r.object r.a0 fun q => { q with moveTo := some (r.a1, d.oz.nextJob) })
  | _, _ => if 31 < r.object then .err 0x0404 else .err 0x0404 (offArg 0)

def execCodecMove (r : Req) (s : State) : Host.Outcome State Fault Refusal := vCodec r 8 true (fun d => d.codecMove r) s

/-! ### CTX_SAVE and CTX_LOAD (R359, R371) -/

def execCodecCtxSave (r : Req) (s : State) : Host.Outcome State Fault Refusal := vCodec r 6 true (fun d =>
  let addr := r.a0 + r.a1 * 2 ^ 32
  let st := d.psStr r.object
  if 31 < r.object then .err 0x0404
  else if !st.run ∨ st.waiting ∨ st.save.isSome then .err 0x0408
  else if !d.callerMay r.master addr (st.slices * 0x4000) true then .err 0x0404 (offArg 0)
  else
    let e := (d.modPs r.object fun x => { x with save := some (addr, d.oz.nextJob) }).saveNow r.object
    .job e (if (e.psStr r.object).waiting then some 0 else none)) s

/-- The slices of a stream restored from their areas onto the engines es (R359). -/
def Dev.ctxOnto (d : Dev) (r : Req) (n addr : Nat) (st : PsStream) (s : PsSrc) (es : List Nat) : VRes Dev :=
  let fresh := st.newParts s es
  let got : List (PsSlice × Option PsSlice) :=
    (fresh.zipIdx).map fun (p : PsSlice × Nat) => (p.1, d.psRestore n p.2 (addr + p.2 * 0x4000) st s p.1)
  let bad := got.any fun (p : PsSlice × Option PsSlice) => p.2.isNone
  let good := (List.range got.length).find? fun i => ((got[i]?).bind (·.2)).isSome
  let frame := good.map fun i => rdLe (d.hbmR (addr + i * 0x4000 + 0x10) 4) 0 4
  let d := d.useFree.modPs n fun x => { x with
    run := true, waiting := false, parts := got.map fun p => p.2.getD p.1, lost := bad, nextFrame := frame.getD x.nextFrame }
  let d := if bad then (d.raise (psEv 0x0B15 2 n)).raise (psEv 0x0B05 2 n) else d
  match if st.kind = 1 ∧ !st.run then d.psBind n r else some d with
  | none => .err 0x0408
  | some d => .job ((d.syncCst n).syncEngines) (some (if bad then eState else 0))

/-- CTX_LOAD: slices whose record is rejected continue from their next frame start with HRESET (R359). -/
def Dev.codecCtxLoad (d : Dev) (r : Req) : VRes Dev :=
  let n := r.object
  let addr := r.a0 + r.a1 * 2 ^ 32
  let st := d.psStr n
  match d.psSrc st.cfg with
  | none => if 31 < n then .err 0x0404 else .err 0x0408
  | some s =>
    if 31 < n then .err 0x0404
    else if (st.run && !st.waiting) ∨ !d.callerMay r.master addr (st.slices * 0x4000) false then .err 0x0408
    else
      let es := if st.parts = [] then (d.modPs n fun x => { x with run := false }).assign s st.slices st.rate else some (st.parts.map (·.engine))
      match es with
      | none => .err 0x0408
      | some es => d.ctxOnto r n addr st s es

def execCodecCtxLoad (r : Req) (s : State) : Host.Outcome State Fault Refusal := vCodec r 7 true (fun d => d.codecCtxLoad r) s

/-! ### DECODE (R368) -/

/-- A decode job: frame headers by stream, and per stream × 16 + slice the coder, last CHUNK_SEQ, next row, frame and whether it
is skipping to an HRESET; the first error; whether E_PS_HIST_LOST is told. -/
structure DecJob where
  hdrs : Tab (List Byte) := []
  coders : Tab (Coder × Nat × Nat × Nat) := []
  dead : List Nat := []
  first : Nat := 0
  told : List Nat := []

/-- Rows of a plane written: 2 bytes per sample, binary16 restored (R368). -/
def Dev.planeW (d : Dev) (base hgt wc fmt : Nat) (h : ChunkHdr) (rows : Tab (List Nat)) (upTo : Nat) : Dev :=
  let pitch := 64 * ceilDiv (wc * 2) 64
  (lineOrder h.ncomp h.row0 h.rows).foldl (fun e q =>
    let px := if q.1 < upTo then (tget rows (q.1 * 4 + q.2)).getD [] else List.replicate h.w 0
    let px := if fmt = 0 ∨ fmt = 4 then (if q.1 < upTo then px.map unmap16 else px) else px
    e.hbmW (base + q.2 * (pitch * hgt) + q.1 * pitch + h.x0 * 2) (px.flatMap (leBytes 2))) d

/-- A decoder error: the job's outcome is the first, the event at most once per 10 ms and stream (R373). -/
def Dev.decErr (d : Dev) (j : DecJob) (job stream seq code off : Nat) : Dev × DecJob :=
  (d.raiseOnce (0x800 + stream) 10000000 (psEv code 2 job seq off), { j with first := if j.first = 0 then code else j.first })

/-- A chunk of a decode job. -/
def Dev.decChunk (d : Dev) (j : DecJob) (job base : Nat) (u : List Byte) : Dev × DecJob :=
  let h := ChunkHdr.dec u
  let key := h.stream * 16 + h.slice
  match tget j.hdrs h.stream with
  | none => d.decErr j job h.stream h.seq eHdr 0
  | some f =>
    let (c, seq, row, frame) := (tget j.coders key).getD ({}, h.seq - 1, 0, h.frame)
    let c := if frame = h.frame then c else { c with prev := c.rows, rows := [], base := 0 }
    let row := if frame = h.frame then row else 0
    let bad := chunkHdrBad u || hdrDiffers f h || decide (h.frame ≠ rdLe f 0xC 4) || (decide (h.seq ≠ seq + 1) && !h.hreset) || decide (h.row0 ≠ row) ||
      decide (rdLe f 0x16 2 < h.row0 + h.rows)
    let wc := rdLe f 0x14 2
    let hgt := rdLe f 0x16 2
    let fmt := rdLe f 0xA 1
    let dead := j.dead.contains key
    let next := fun (j : DecJob) (c : Coder) (isDead : Bool) => { j with
      coders := tset j.coders key (c, h.seq, h.row0 + h.rows, h.frame), dead := if isDead then key :: j.dead.filter (· ≠ key) else j.dead.filter (· ≠ key),
      told := if isDead then j.told else j.told.filter (· ≠ key) }
    if bad then
      let (d, j) := d.decErr j job h.stream h.seq eHdr 0
      (d, { j with dead := key :: j.dead.filter (· ≠ key) })
    else if dead && !h.hreset then
      let d := d.planeW base hgt wc fmt h [] 0
      let d := if j.told.contains key then d else d.raise (psEv 0x0B16 1 job h.seq)
      (d, { next j c true with told := if j.told.contains key then j.told else key :: j.told })
    else
      let (c2, e) := decodeChunk c h ((u.drop 64).take h.len)
      match e with
      | none => (d.planeW base hgt wc fmt h c2.rows (h.row0 + h.rows), next j c2 false)
      | some (code, y, off) =>
        let (d, j) := (d.planeW base hgt wc fmt h c2.rows y).decErr j job h.stream h.seq code off
        (d, next j c2 true)

/-- One unit of the list. -/
def Dev.decUnit (job base : Nat) (s : Dev × DecJob) (u : List Byte) : Dev × DecJob :=
  if rdLe u 0 4 = 0x48465350 then
    if frameHdrBad u then s.1.decErr s.2 job (rdLe u 8 1 % 32) 0 eHdr 0 else (s.1, { s.2 with hdrs := tset s.2.hdrs (rdLe u 8 1) u })
  else s.1.decChunk s.2 job base u

/-- The planes of the frame headers in a list fit what the caller may write. -/
def Dev.decFits (d : Dev) (m base : Nat) (us : List (List Byte)) : Bool :=
  us.all fun u => decide (rdLe u 0 4 ≠ 0x48465350) || frameHdrBad u ||
    d.callerMay m base (rdLe u 0x18 1 * rdLe u 0x16 2 * (64 * ceilDiv (rdLe u 0x14 2 * 2) 64)) true

def Dev.codecDecode (d : Dev) (r : Req) : VRes Dev :=
  let b := d.argB r
  let n := r.argLen / 16
  let base := r.a0 + r.a1 * 2 ^ 32
  let ents := (List.range n).map fun i => (rdLe b (16 * i) 8, rdLe b (16 * i + 8) 8)
  if n = 0 ∨ r.argLen % 16 ≠ 0 then .err 0x0404
  else if ents.any fun e => !d.callerMay r.master e.1 e.2 false then .err 0x040D
  else
    let us := ents.map fun e => d.hbmR e.1 e.2
    if !d.decFits r.master base us then .err 0x040D (offArg 0)
    else
      let x := us.foldl (Dev.decUnit d.oz.nextJob base) (d, ({} : DecJob))
      .job x.1 (some x.2.first)

def execCodecDecode (r : Req) (s : State) : Host.Outcome State Fault Refusal := vCodec r 5 true (fun d => d.codecDecode r) s

end Sys2Proof.Machine
end

