-- ==== Sys2Proof/Machine/Audio.lean ====
section
/-! DEFINITION. Chapter 17, the audio ports: formats (R467 to R469), AES3 (R471, R472), masks and blocks (R473, R476 to R478), changes at
zero crossings (R474), clock faults (R475), the AUDIO service (R480). Samples are worked on as a block completes. -/
namespace Sys2Proof.Machine

def Dev.aud (d : Dev) (n : Nat) : AudPort := (tget d.au.ports n).getD {}
def Dev.setAud (d : Dev) (n : Nat) (p : AudPort) : Dev := { d with au := { d.au with ports := tset d.au.ports n p } }
def Dev.modAud (d : Dev) (n : Nat) (f : AudPort → AudPort) : Dev := d.setAud n (f (d.aud n))
def Dev.audF (d : Dev) (f : Fld) (n : Nat) : Nat := d.fg f (uAudioPort n)
def Dev.audFs (d : Dev) (f : Fld) (v n : Nat) : Dev := d.fs f v (uAudioPort n)

/-- An audio event: DETAIL0 the port, DETAIL1 the BSEQ (R481). -/
def Dev.audEv (d : Dev) (code sev n : Nat) (d2 : Nat := 0) : Ev :=
  { code := code, sev := sev, unit := uAudioPort n, d0 := n, d1 := (d.aud n).bseq, d2 := d2 }

/-- States of AU_CFG. -/
def auOff : Nat := 0
def auStarting : Nat := 1
def auRun : Nat := 2
def auStopping : Nat := 3
def auStoppedRate : Nat := 4

def Dev.audState (d : Dev) (n : Nat) : Nat := d.audF F.auCfg_state n
def Dev.audLive (d : Dev) (n : Nat) : Bool := decide (1 ≤ d.audState n) && decide (d.audState n ≤ 3)

/-- fs in Hz by RATE (R468), MRATIO by its code and WIDTH in bits. -/
def audHz (rate : Nat) : Nat := [32000, 44100, 48000, 88200, 96000, 176400, 192000].getD rate 48000
def audRatio (c : Nat) : Nat := [128, 256, 384, 512, 768].getD c 256
def audWidth (c : Nat) : Nat := [16, 24, 32].getD c 24

/-- Channels: the slots of SLOT_MASK in order (R473). -/
def Dev.audSlots (d : Dev) (n : Nat) : List Nat := (List.range 16).filter fun k => (d.audF F.auMask_slotMask n).testBit k
def Dev.audBytes (d : Dev) (n : Nat) : Nat := 64 + d.audF F.auBlkf_frames n * (d.audSlots n).length * 4

/-- An AES3 port that is not locked, or hears non-audio, or a port without MCLK: every channel is held muted (R471, R472, R475). -/
def Dev.audHeld (d : Dev) (n : Nat) : Bool :=
  (d.aud n).mclkLost || (decide (d.audF F.auCfg_mode n = 3) && (decide (d.audF F.auStat_aesLock n = 0) || decide (d.audF F.auStat_nonaudio n = 1)))

/-! ### Samples (R473, R474) -/

/-- A received slot word: bits 31:0 the slot, bit 32 a subframe that failed parity or biphase coding, bit 33 its validity bit. -/
def slotWord (width w : Nat) : Nat := w % 2 ^ 32 / 2 ^ (32 - width) * 2 ^ (32 - width)

/-- A zero crossing (R474). -/
def crossing (prev : Option Nat) (x : Nat) : Bool :=
  decide (x = 0) || (match prev with
    | some p => decide (p / 2 ^ 31 ≠ x / 2 ^ 31)
    | none => false)

/-- The changes of a channel that wait take effect. -/
def AudChan.apply (c : AudChan) : AudChan :=
  { c with on := c.wantOn.getD c.on, muted := c.wantMute.getD c.muted, wantOn := none, wantMute := none }

def AudChan.waits (c : AudChan) : Bool := c.wantOn.isSome || c.wantMute.isSome

/-- A change of the port reaches channel k (R474's table, R475). -/
def AudChan.event (held : Bool) (k : Nat) (c : AudChan) (e : AudEv) : AudChan :=
  match e with
  | .start => { c with wantOn := some true }
  | .stop => { c with wantOn := if c.on then some false else none, wantMute := none }
  | .mute on mask =>
    if !mask.testBit k then c
    else if held then { c with sw := on }
    else { c with sw := on, wantMute := if c.muted = on then none else some on }
  | .due mask => if mask.testBit k then c.apply else c
  | .hold => { c with on := if c.wantOn = some false then false else c.on, wantOn := if c.wantOn = some false then none else c.wantOn,
                      muted := true, wantMute := none }
  | .release => if held || c.sw then c else { c with wantMute := some false }
  | .glitch => c

/-- A sample of a channel: the channel after it, and the word stored. -/
def AudChan.sample (c : AudChan) (x : Nat) : AudChan × Nat :=
  let c := if c.waits && crossing c.prev x then c.apply else c
  ({ c with prev := some x }, if c.on && !c.muted then x else 0)

/-- What a block gathers frame by frame: port, words stored, FLAGS, MUTED, DOUT frames, subframes replaced. -/
structure AudAcc where
  port : AudPort
  words : List Nat
  muted : Nat
  dout : List (List Nat)
  repl : Nat

def auNonaudio : Nat := 0
def auMclkLost : Nat := 1
def auZc : Nat := 2
def auGlitch : Nat := 3
def auParity : Nat := 4
def auUnlock : Nat := 5
def auRate : Nat := 6
def auStart : Nat := 7
def auStop : Nat := 8
def auValidity : Nat := 9

def AudPort.flag (p : AudPort) (b : Nat) : AudPort := { p with flags := p.flags ||| 2 ^ b }
def AudPort.flagIf (p : AudPort) (c : Bool) (b : Nat) : AudPort := if c then p.flag b else p

/-- One frame received at a stamp: changes that are due apply; a replaced subframe or a disturbed frame repeats the one before. -/
def audFrame (held dout : Bool) (width : Nat) (slots : List Nat) (a : AudAcc) (stamp : Nat) (raw : List Nat) : AudAcc :=
  let due := (a.port.evs.filter fun e => decide (e.1 ≤ stamp)).map (·.2)
  let p := { a.port with evs := a.port.evs.filter fun e => decide (stamp < e.1) }
  let zc := due.any fun e => match e with
    | .due m => (p.chans.zipIdx).any fun (c : AudChan × Nat) => m.testBit c.2 && c.1.waits
    | _ => false
  let chans := due.foldl (fun (cs : List AudChan) e => cs.mapIdx fun k c => c.event held k e) p.chans
  let rep := due.any (· == .glitch)
  let raw := if p.mclkLost then raw.map fun _ => 0 else if rep then p.last else raw
  let fixed := raw.mapIdx fun i w => if w.testBit 32 then p.last.getD i 0 else w
  let xs := slots.map fun k => slotWord width (fixed.getD k 0)
  let out := List.zipWith AudChan.sample chans xs
  let bad := (raw.filter (·.testBit 32)).length
  let chs := out.map (·.1)
  let p := (((p.flagIf zc auZc).flagIf rep auGlitch).flagIf (decide (bad ≠ 0)) auParity).flagIf (raw.any (·.testBit 33)) auValidity
  let mutedSlots := ((slots.zip chs).filter fun (s : Nat × AudChan) => s.2.muted).map (·.1)
  let copy := if dout then p.last.mapIdx fun i w => if mutedSlots.contains i then 0 else w % 2 ^ 32 else []
  { port := { p with chans := chs, last := fixed.map (· % 2 ^ 32), stopping := p.stopping || due.any (· == .stop) },
    words := a.words ++ out.map (·.2),
    muted := a.muted ||| ((chs.zipIdx).foldl (fun (m : Nat) (c : AudChan × Nat) => if c.1.muted then m + 2 ^ c.2 else m) 0),
    dout := a.dout ++ [copy], repl := a.repl + bad }

/-! ### Blocks and buffers (R476 to R478) -/

/-- A block's header and samples (R477). -/
def Dev.audBlock (d : Dev) (n time : Nat) (p : AudPort) (muted : Nat) (words : List Nat) : List Byte :=
  let h := leBytes 4 0x4B4C4241 ++ leBytes 1 n ++ leBytes 1 (d.audSlots n).length ++ leBytes 1 (d.audF F.auCfg_rate n) ++
    leBytes 1 (d.audF F.auCfg_mode n) ++ leBytes 8 (stamp64 time) ++ leBytes 4 p.bseq ++ leBytes 2 (d.audF F.auBlkf_frames n) ++ leBytes 2 muted ++
    leBytes 4 p.flags ++ leBytes 4 p.lost ++ fitB (if d.audF F.auCfg_mode n = 3 then p.cs else []) 24 ++ leBytes 4 0
  h ++ leBytes 4 (crc32c h) ++ words.flatMap (leBytes 4)

/-- An ABUF entry that breaks R478. -/
def Dev.abufBad (d : Dev) (n : Nat) (e : Entry) : Bool :=
  decide (e.opcode ≠ 0x63) || !e.notify || decide (rdLe e.body 0 8 % 64 ≠ 0) || decide (rdLe e.body 8 8 < d.audBytes n) ||
  decide (1 < rdLe e.body 16 1) || (decide (rdLe e.body 16 1 = 1) && !isFn e.master)

/-- The port whose block queue is qid. -/
def Dev.audOfQ (d : Dev) (qid : Nat) : Option Nat := (List.range 4).find? fun n => decide (d.audF F.auBlk_qid n = qid) && decide (qid ≠ 0)

/-- A buffer entry of a port as it is dispatched (R478). -/
def Dev.abufDispatched (d : Dev) (o : Op) : Dev :=
  match d.audOfQ o.qid with
  | none => d
  | some n =>
    if d.abufBad n o.entry then (d.raise { d.audEv 0x1001 1 n with master := o.entry.master }).endOp o.tag 0x1001 [] else d

/-- The port's next buffer. -/
def Dev.nextAbuf (d : Dev) (n : Nat) : Option Op :=
  ((d.opsOf (d.audF F.auBlk_qid n)).filter (!·.dying)).foldl (fun (a : Option Op) o =>
    match a with
    | none => some o
    | some b => if o.num < b.num then some o else some b) none

/-- A block that finds no buffer is lost (R478). -/
def Dev.audLost (d : Dev) (n : Nat) : Dev :=
  let d := (d.fadd F.auCnt_overflow 1 (uAudioPort n)).modAud n fun p => { p with lost := p.lost + 1 }
  d.raiseOnce n 100000000 (d.audEv 0x1008 2 n)

/-- A block delivered into the next buffer, its completion posted; one outside what its owner may write is a violation (R87). -/
def Dev.audDeliver (d : Dev) (n time : Nat) (bs : List Byte) : Dev :=
  match d.nextAbuf n with
  | none => d.audLost n
  | some o =>
    if !d.cbufOk o bs.length then (d.cbufBreach o).audLost n
    else
      let p := d.aud n
      let d := d.unitW (rdLe o.entry.body 16 1) o.entry.master (cbufBase o.entry) bs
      (d.modAud n fun p => { p with lost := 0 }).endOp o.tag 0 (leBytes 4 p.bseq ++ leBytes 4 p.flags ++ leBytes 8 (stamp64 time) ++ leBytes 16 0)

/-- AU_MASK MUTE follows the channels. -/
def Dev.syncMute (d : Dev) (n : Nat) : Dev :=
  d.audFs F.auMask_mute (((d.aud n).chans.zipIdx).foldl (fun (m : Nat) (c : AudChan × Nat) => if c.1.muted then m + 2 ^ c.2 else m) 0) n

/-- FLAGS that a new block begins with: the conditions that stand. -/
def Dev.audStanding (d : Dev) (n : Nat) : Nat :=
  let aes := d.audF F.auCfg_mode n = 3
  bit (aes && decide (d.audF F.auStat_nonaudio n = 1)) + 2 * bit (d.aud n).mclkLost + 32 * bit (aes && decide (d.audF F.auStat_aesLock n = 0))

/-- A block gathered: `frames` as received, first stamp `time`; missing frames are silent. `last` gives the flag of a port that stops on
a rate change. -/
def Dev.audGather (d : Dev) (n time : Nat) (frames : List (List Nat)) (rate : Bool) : Dev :=
  let k := d.audF F.auBlkf_frames n
  let slots := d.audSlots n
  let fs := audHz (d.audF F.auCfg_rate n)
  let p := d.aud n
  let p := (({ p with fresh := false }).flagIf p.fresh auStart).flagIf rate auRate
  let a := ((frames.take k).zipIdx).foldl (fun (a : AudAcc) (x : List Nat × Nat) =>
    audFrame (d.audHeld n) (d.fb F.auCfg_doutEn (uAudioPort n) && decide (d.audF F.auCfg_mode n ≠ 3) && decide (d.audState n = auRun))
      (audWidth (d.audF F.auCfg_width n)) slots a (time + x.2 * 1000000000 / fs)
      (if d.audF F.auCfg_mode n = 3 then x.1 else x.1.map (· % 2 ^ 32))) (⟨p, [], 0, [], 0⟩ : AudAcc)
  let words := a.words ++ List.replicate ((k - min k frames.length) * slots.length) 0
  let p := a.port
  let ended := (p.stopping && p.chans.all fun c => !c.on) || rate
  let p := (p.flagIf (p.stopping && ended) auStop)
  let d := (d.setAud n { p with dout := a.dout }).fadd F.auCnt_parity a.repl (uAudioPort n)
  let d := (d.audDeliver n time (d.audBlock n time p a.muted words)).modAud n fun p => { p with bseq := p.bseq + 1 }
  let d := (d.modAud n fun p => { p with flags := d.audStanding n }).syncMute n
  let job := (d.aud n).stopJob
  if ended then
    ((d.audFs F.auCfg_state (if rate then auStoppedRate else auOff) n).modAud n fun p =>
      { p with stopping := false, stopJob := 0, evs := [], chans := p.chans.map fun _ => {} }).jobDecided job 0
  else if d.audState n = auStarting ∧ ((d.aud n).chans.all (·.on)) then d.audFs F.auCfg_state auRun n
  else if (d.aud n).stopping then d.audFs F.auCfg_state auStopping n
  else d

/-- AUDIO_BLOCK_DONE: the frames of a block as received at the balls, the stamp of the first in ns, and the last complete
channel-status block of subframe A where one came. -/
def execAudioBlockDone (n : Fin 4) (time : Nat) (frames : List (List Nat)) (cs : List Byte) (s : State) :
    Host.Outcome State Fault Refusal :=
  s.onDev fun d =>
    if !d.audLive n then d
    else (if cs = [] then d else d.modAud n fun p => { p with cs := fitB cs 24 }).audGather n time frames false

/-- A change noted for its time. -/
def Dev.audNote (d : Dev) (n at_ : Nat) (e : AudEv) : Dev := d.modAud n fun p => { p with evs := p.evs ++ [(at_, e)] }

/-- ZC_TIMEOUT: changes of the channels in `mask` that still wait ZC_MS after their request apply at once (R474). -/
def execZcTimeout (n : Fin 4) (mask : Nat) (s : State) : Host.Outcome State Fault Refusal := s.onDev fun d =>
  let p := d.aud n
  let open_ := (p.chans.zipIdx).any (fun (c : AudChan × Nat) => mask.testBit c.2 && c.1.waits) || p.evs.any fun e => match e.2 with
    | .start | .stop | .mute _ _ => true
    | _ => false
  if d.audLive n && open_ then
    let d := (d.audNote n d.devNs (.due mask)).fadd F.auCnt_zcTo 1 (uAudioPort n)
    d.raiseOnce n.val 100000000 (d.audEv 0x1007 1 n)
  else d

/-! ### Faults (R471, R472, R475) -/

/-- Every channel mutes at once; waiting mute and stop changes complete at once. -/
def Dev.audHold (d : Dev) (n : Nat) : Dev := if d.audLive n then (d.audNote n d.devNs .hold).audFs F.auMask_mute (2 ^ (d.audSlots n).length - 1) n else d

/-- A cause of muting has gone: with none left, channels unmute by zero crossing unless software muted them. -/
def Dev.audRelease (d : Dev) (n : Nat) : Dev := if d.audLive n && !d.audHeld n then d.audNote n d.devNs .release else d

def execMclkLost (n : Fin 4) (s : State) : Host.Outcome State Fault Refusal := s.onDev fun d =>
  let live := d.audLive n
  let d := (d.audFs F.auStat_mclkOk 0 n).raise (d.audEv 0x1002 2 n)
  if live then ((d.modAud n fun p => ({ p with mclkLost := true } : AudPort).flag auMclkLost)).audHold n else d

/-- MCLK is back at its rate for 10 ms, at an offset in 1/16 ppm. -/
def execMclkReturn (n : Fin 4) (ppm : Int) (s : State) : Host.Outcome State Fault Refusal := s.onDev fun d =>
  let lost := (d.aud n).mclkLost
  let d := ((d.audFs F.auStat_mclkOk 1 n).audFs F.auStat_mclkPpm (unsgn 16 ppm) n).raise (d.audEv 0x1003 1 n)
  if lost then (d.modAud n fun p => { p with mclkLost := false }).audRelease n else d

/-- The port stops on a rate change (R475): its last block completes with STOPPED_RATE. -/
def Dev.audRateChange (d : Dev) (n time : Nat) (frames : List (List Nat)) : Dev :=
  if d.audLive n then ((d.raise (d.audEv 0x1004 2 n)).audGather n time frames true).modAud n fun p => { p with mclkLost := false }
  else d

/-- AUDIO_RATE_CHANGE: `aes` where the AES3 frame rate changed and MCLK keeps its own. -/
def execAudioRateChange (n : Fin 4) (aes : Bool) (time : Nat) (frames : List (List Nat)) (s : State) :
    Host.Outcome State Fault Refusal :=
  s.onDev fun d =>
    let e := d.audRateChange n time frames
    if aes then e else e.audFs F.auStat_mclkOk 0 n

/-- FS_GLITCH: `run` is the number of glitched frames in a row with this one; eight act as a rate change. -/
def execFsGlitch (n : Fin 4) (run time : Nat) (frames : List (List Nat)) (s : State) : Host.Outcome State Fault Refusal := s.onDev fun d =>
  if d.audLive n && decide (d.audF F.auCfg_master n = 0) && decide (d.audF F.auCfg_mode n ≠ 3) then
    let d := (d.audNote n d.devNs .glitch).fadd F.auCnt_glitch 1 (uAudioPort n)
    let d := d.raiseOnce n.val 10000000 (d.audEv 0x1009 1 n)
    if 8 ≤ run then d.audRateChange n time frames else d
  else d

def execAesUnlock (n : Fin 4) (s : State) : Host.Outcome State Fault Refusal := s.onDev fun d =>
  if d.audF F.auCfg_mode n = 3 ∧ d.audF F.auStat_aesLock n = 1 then
    ((d.audFs F.auStat_aesLock 0 n).raise (d.audEv 0x1006 2 n)).modAud n (fun p => p.flag auUnlock) |>.audHold n
  else d

def execAesRelock (n : Fin 4) (s : State) : Host.Outcome State Fault Refusal := s.onDev fun d =>
  if d.audF F.auCfg_mode n = 3 ∧ d.audF F.auStat_aesLock n = 0 then
    ((d.audFs F.auStat_aesLock 1 n).raise (d.audEv 0x1006 2 n 1)).audRelease n
  else d

def execNonaudioDetect (n : Fin 4) (s : State) : Host.Outcome State Fault Refusal := s.onDev fun d =>
  if d.audF F.auCfg_mode n = 3 ∧ d.audF F.auStat_nonaudio n = 0 then
    ((d.audFs F.auStat_nonaudio 1 n).raise (d.audEv 0x1005 2 n)).modAud n (fun p => p.flag auNonaudio) |>.audHold n
  else d

def execNonaudioClear (n : Fin 4) (s : State) : Host.Outcome State Fault Refusal := s.onDev fun d =>
  if d.audF F.auStat_nonaudio n = 1 then (d.audFs F.auStat_nonaudio 0 n).audRelease n else d

def auCntFlds : List Fld := [F.auCnt_overflow, F.auCnt_glitch, F.auCnt_parity, F.auCnt_zcTo]

def execAuCntRead (m : Nat) (n : Fin 4) (s : State) : Host.Outcome State Fault Refusal :=
  s.access m fun d => d.readClear m .auCnt (uAudioPort n) 0 auCntFlds

/-! ### The AUDIO service (R480) -/

def vAudio (r : Req) (verb : Nat) (priv : Bool) (body : Dev → VRes Dev) (s : State) : Host.Outcome State Fault Refusal :=
  s.onDev fun d => d.verb r 0x0A verb priv body

def execAudioInfo (r : Req) (s : State) : Host.Outcome State Fault Refusal := vAudio r 0 false (fun d =>
  .ok d [1, bitmap 4 fun n => decide (d.audState n = auRun), 3]) s

/-- A configuration that R467 to R469, R473, R474, R476 or R480 refuses: images of AU_CFG and SLOT_MASK, BLOCK_FRAMES, DEPTH_LOG2. -/
def audCfgBad (n cfg mask frames depth : Nat) : Bool :=
  let mode := bitsN cfg 28 27
  let rate := bitsN cfg 22 20
  let ratio := bitsN cfg 19 17
  let slots := bitsN cfg 14 11 + 1
  decide (6 < rate) || decide (4 < ratio) || decide (2 < bitsN cfg 16 15) || (decide (mode ≠ 2) && decide (slots ≠ 2)) || decide (slots < 2) ||
  (decide (mode = 3) && (decide (1 < n) || decide (audRatio ratio < 256))) || (decide (mode = 2) && decide (1536000 < slots * audHz rate)) ||
  (decide (mode ≠ 3) && decide (bitsN cfg 26 26 = 1) && decide (audRatio ratio % (32 * slots) ≠ 0)) || decide (bitsN cfg 7 0 = 0) ||
  decide (mask % 2 ^ slots = 0) || decide (2 ^ slots ≤ mask) || decide (frames < 16) || decide (4096 < frames) || decide (depth < 2) ||
  decide (10 < depth) || decide (bitsN cfg 10 8 ≠ 0)

/-- The port's block queue made once, then given a new epoch (R478). -/
def Dev.audQueue (d : Dev) (n owner depthLog2 cls errQid : Nat) (internal : Bool) : Dev :=
  let ep := ((d.aud n).epoch + 1) % 0x10000
  let old := d.audF F.auBlk_qid n
  let q := if old = 0 then d.oz.nextQid else old
  let d := if old = 0 then { d with oz := { d.oz with nextQid := d.oz.nextQid + 1 } }.audFs F.auBlk_qid q n else d
  let d := (d.opsOf q).foldl (fun e o => (e.closeTag o).returnRole q o.entry o.tag ep uQf) d
  let r : Queue := { d.q q with
    owner := owner, cls := cls, mode := 0, rstate := 1, depthLog2 := depthLog2, ringHost := false, inflLog2 := 10, epoch := ep,
    unit := uAudioPort n, errQid := errQid, ringBase := Config.ringPlace q }
  (d.setQ q r).modAud n fun p => { p with epoch := ep, depthLog2 := depthLog2, owner := owner, internal := internal, set := true }

def Dev.audPortSet (d : Dev) (r : Req) : VRes Dev :=
  let n := r.object
  let w := d.argW r
  let mask := w 1 % 0x10000
  if 3 < n then .err 0x0404
  else if r.argLen < 16 then .err 0x040D
  else if d.audState n ≠ auOff then .err 0x0408
  else if audCfgBad n (w 0) mask (w 2) (w 3 % 256) then .err 0x1001 (offBlk 0)
  else
    let e := d.wr .auCfg (uAudioPort n) 0 (BitVec.ofNat 32 (w 0 % 2 ^ 29))
    let e := (e.wr .auMask (uAudioPort n) 0 (BitVec.ofNat 32 mask)).audFs F.auBlkf_frames (w 2) n
    let e := e.audQueue n (if (w 3).testBit 8 then 0x40 else r.master) (w 3 % 256) (if (w 3).testBit 9 then 2 else 1) (d.replyQ r) ((w 3).testBit 8)
    .ok e [e.audF F.auBlk_qid n, (e.aud n).epoch, e.audBytes n]

def execAudioPortSet (r : Req) (s : State) : Host.Outcome State Fault Refusal := vAudio r 1 true (fun d => d.audPortSet r) s

/-- A stated time in ns; zero and times past are now. -/
def Dev.timeArg (d : Dev) (r : Req) : Nat := max d.devNs (stampNs (r.a0 + r.a1 * 2 ^ 32))

/-- START; the first frame at or after the stated time falls within a frame period of it, the FS phase being free. -/
def Dev.audStart (d : Dev) (r : Req) : VRes Dev :=
  let n := r.object
  let st := d.audState n
  if 3 < n then .err 0x0404
  else if !(d.aud n).set ∨ ¬(st = auOff ∨ st = auStoppedRate) then .err 0x0408
  else if d.audF F.auStat_mclkOk n = 0 then .err 0x1002
  else
    let t := d.timeArg r
    let first := stamp64 (t + d.freeVal % (1000000000 / audHz (d.audF F.auCfg_rate n)))
    let held := d.audHeld n
    let e := (d.useFree.audFs F.auCfg_state auStarting n).modAud n fun p => { p with
      chans := (d.audSlots n).map fun _ => { muted := held }, evs := [(t, .start)], bseq := 0, lost := 0, last := [], dout := [],
      stopping := false, fresh := true, flags := d.audStanding n }
    .ok (e.syncMute n) [first % 2 ^ 32, first / 2 ^ 32]

def execAudioStart (r : Req) (s : State) : Host.Outcome State Fault Refusal := vAudio r 2 true (fun d => d.audStart r) s

def execAudioStop (r : Req) (s : State) : Host.Outcome State Fault Refusal := vAudio r 3 true (fun d =>
  let n := r.object
  if 3 < n then .err 0x0404
  else if ¬(d.audState n = auStarting ∨ d.audState n = auRun) ∨ (d.aud n).stopJob ≠ 0 then .err 0x0408
  else
    let t := d.timeArg r
    let e := (d.audNote n t .stop).modAud n fun p => { p with stopJob := d.oz.nextJob }
    .job (if t = d.devNs then e.audFs F.auCfg_state auStopping n else e)) s

def execAudioMute (r : Req) (s : State) : Host.Outcome State Fault Refusal := vAudio r 4 true (fun d =>
  let n := r.object
  let k := (d.audSlots n).length
  if 3 < n then .err 0x0404
  else if 2 ^ k ≤ r.a0 then .err 0x0404 (offArg 0)
  else if 1 < r.a1 then .err 0x0404 (offArg 1)
  else if !d.audLive n then .err 0x0408
  else
    let e := d.audNote n d.devNs (.mute (decide (r.a1 = 1)) r.a0)
    let p := e.aud n
    let after := p.evs.foldl (fun (m : Nat) x => match x.2 with
      | .mute on mask => if on then m ||| mask else m - (m &&& mask)
      | _ => m) (((p.chans.zipIdx).foldl (fun (m : Nat) (c : AudChan × Nat) => if c.1.sw then m + 2 ^ c.2 else m) 0))
    .ok e [if d.audHeld n then 2 ^ k - 1 else after]) s

def execAudioStatus (r : Req) (s : State) : Host.Outcome State Fault Refusal := vAudio r 5 false (fun d =>
  let n := r.object
  let w := fun (q : Reg) => leBytes 4 (d.rd q (uAudioPort n)).toNat
  if 3 < n then .err 0x0404
  else .ok d [] (w .auCfg ++ w .auMask ++ w .auStat ++ fitB (d.aud n).cs 20)) s

def execAudioStats (r : Req) (s : State) : Host.Outcome State Fault Refusal := vAudio r 6 true (fun d =>
  let n := r.object
  if 3 < n then .err 0x0404
  else .ok (auCntFlds.foldl (fun (e : Dev) f => e.audFs f 0 n) d) [(d.rd .auCnt (uAudioPort n)).toNat]) s

end Sys2Proof.Machine
end

