-- ==== Sys2Proof/Machine/Clock.lean ====
section
/-! DEFINITION. Chapter 18, the clocks (R482 to R487) and the action slots (R496) as operations other chapters use. -/
namespace Sys2Proof.Machine

/-! ### Domain clocks (R482) -/

def TimeSt.clock (t : TimeSt) (dom : Nat) : Clock := if dom = 0 then t.c0 else t.c1
def TimeSt.setClock (t : TimeSt) (dom : Nat) (c : Clock) : TimeSt := if dom = 0 then { t with c0 := c } else { t with c1 := c }
def Dev.modTm (d : Dev) (f : TimeSt → TimeSt) : Dev := { d with tm := f d.tm }

/-- A clock advanced by its increment (R482): 2³² parts to the ns, 10⁹ ns to the second, seconds of 48 bits. -/
def Clock.tick (c : Clock) : Clock :=
  let f := c.frac + c.incFrac
  let n := c.ns + c.incNs + f / 2 ^ 32
  if 1000000000 ≤ n then { c with frac := f % 2 ^ 32, ns := n - 1000000000, sec := (c.sec + 1) % 2 ^ 48 }
  else { c with frac := f % 2 ^ 32, ns := n }

/-- TM_CTL SEL and TM_OFS show the selection and OFS (R500). -/
def Dev.syncTm (d : Dev) : Dev := (d.fs F.tmCtl_sel d.tm.sel uTime).fs F.tmOfs_ofs (unsgn 32 d.tm.ofs) uTime

/-- OFS moves towards zero by SLEW ppm of one tick's 4 ns (R485). -/
def slewTick (slew : Nat) (t : TimeSt) : TimeSt :=
  if t.ofs = 0 then { t with slewed := 0 }
  else
    let a := t.slewed + 4 * slew
    if 1000000 ≤ a then { t with slewed := a - 1000000, ofs := if 0 < t.ofs then t.ofs - 1 else t.ofs + 1 }
    else { t with slewed := a }

/-- One tick of TBCLK (R482, R483 steps 2 and 4): 4 ns. -/
def Dev.tick (d : Dev) : Dev :=
  let d := { d with up := d.up + 4 }
  (d.modTm fun t => slewTick (d.fg F.tmCtl_slew uTime) { t with c0 := t.c0.tick, c1 := t.c1.tick }).syncTm

/-- A device-time stamp as a word of R142. -/
def Dev.nowNs (d : Dev) : Nat := d.devNs

/-- A domain's time in ns as a stamp of R142. -/
def Dev.domStamp (d : Dev) (dom : Nat) : Nat := stamp64 (d.tm.clock dom).total

/-! ### Action slots (R496) -/

/-- TA_ARMED and the slots agree. -/
def Dev.syncActs (d : Dev) : Dev :=
  let b := fun (lo : Nat) => (List.range 32).foldl (fun (a i : Nat) => if (tget d.tm.acts (lo + i)).isSome then a + 2 ^ i else a) 0
  (d.fs F.taArmedLo_slots (b 0) uTime).fs F.taArmedHi_slots (b 32) uTime

/-- A free slot; which one firmware takes is a free value (log entry 29). -/
def Dev.freeSlot (d : Dev) : Option Nat :=
  let l := (List.range 64).filter fun k => (tget d.tm.acts k).isNone
  l[d.freeVal % max 1 l.length]?

/-- A slot armed. -/
def Dev.arm (d : Dev) (a : Act) : Option (Nat × Dev) :=
  match d.freeSlot with
  | none => none
  | some k => some (k, (d.useFree.modTm fun t => { t with acts := tset t.acts k a, stepped := t.stepped.filter (· ≠ k) }).syncActs)

/-- A slot freed. -/
def Dev.disarm (d : Dev) (k : Nat) : Dev := (d.modTm fun t => { t with acts := tdel t.acts k }).syncActs

/-- An action of the media service (R496): kind 3 starts, kind 4 stops the recording of a clip at a device time. -/
def mediaAct (kind time clip : Nat) : Act :=
  { kind := kind, late := true, frameRef := false, count := 1, time := time, period := 0, offset := 0, div := 0, param := [],
    owner := 0x40, obj := clip }

/-- Slots armed for a clip withdrawn. -/
def Dev.disarmClip (d : Dev) (clip : Nat) : Dev :=
  (d.modTm fun t => { t with acts := t.acts.filter fun p =>
    !((decide (p.2.kind = 3) || decide (p.2.kind = 4)) && decide (p.2.obj = clip)) }).syncActs

end Sys2Proof.Machine
end

