-- ==== Sys2Proof/Machine/Sha.lean ====
section
/-! DEFINITION. SHA-256 (FIPS 180-4), which R394 keeps for a clip and R513 carries as an intermediate state: eight 32-bit words. -/
namespace Sys2Proof.Machine

/-- The round constants. -/
def shaK : List Nat :=
  [0x428A2F98, 0x71374491, 0xB5C0FBCF, 0xE9B5DBA5, 0x3956C25B, 0x59F111F1, 0x923F82A4, 0xAB1C5ED5] ++
  [0xD807AA98, 0x12835B01, 0x243185BE, 0x550C7DC3, 0x72BE5D74, 0x80DEB1FE, 0x9BDC06A7, 0xC19BF174] ++
  [0xE49B69C1, 0xEFBE4786, 0x0FC19DC6, 0x240CA1CC, 0x2DE92C6F, 0x4A7484AA, 0x5CB0A9DC, 0x76F988DA] ++
  [0x983E5152, 0xA831C66D, 0xB00327C8, 0xBF597FC7, 0xC6E00BF3, 0xD5A79147, 0x06CA6351, 0x14292967] ++
  [0x27B70A85, 0x2E1B2138, 0x4D2C6DFC, 0x53380D13, 0x650A7354, 0x766A0ABB, 0x81C2C92E, 0x92722C85] ++
  [0xA2BFE8A1, 0xA81A664B, 0xC24B8B70, 0xC76C51A3, 0xD192E819, 0xD6990624, 0xF40E3585, 0x106AA070] ++
  [0x19A4C116, 0x1E376C08, 0x2748774C, 0x34B0BCB5, 0x391C0CB3, 0x4ED8AA4A, 0x5B9CCA4F, 0x682E6FF3] ++
  [0x748F82EE, 0x78A5636F, 0x84C87814, 0x8CC70208, 0x90BEFFFA, 0xA4506CEB, 0xBEF9A3F7, 0xC67178F2]

/-- The initial state. -/
def sha0 : List Nat := [0x6A09E667, 0xBB67AE85, 0x3C6EF372, 0xA54FF53A, 0x510E527F, 0x9B05688C, 0x1F83D9AB, 0x5BE0CD19]

def rotr (n x : Nat) : Nat := (x >>> n) ||| (x <<< (32 - n)) % 2 ^ 32
def bsig0 (x : Nat) : Nat := rotr 2 x ^^^ rotr 13 x ^^^ rotr 22 x
def bsig1 (x : Nat) : Nat := rotr 6 x ^^^ rotr 11 x ^^^ rotr 25 x
def ssig0 (x : Nat) : Nat := rotr 7 x ^^^ rotr 18 x ^^^ (x >>> 3)
def ssig1 (x : Nat) : Nat := rotr 17 x ^^^ rotr 19 x ^^^ (x >>> 10)

/-- The message schedule after t further words, newest first. -/
def shaW : Nat → List Nat → List Nat
  | 0, w => w
  | n + 1, w =>
    shaW n (((ssig1 (w.getD 1 0) + w.getD 6 0 + ssig0 (w.getD 14 0) + w.getD 15 0) % 2 ^ 32) :: w)

/-- One round. -/
def shaRound (s : List Nat) (kw : Nat × Nat) : List Nat :=
  let g := fun i => s.getD i 0
  let ch := (g 4 &&& g 5) ^^^ ((2 ^ 32 - 1 - g 4) &&& g 6)
  let maj := (g 0 &&& g 1) ^^^ (g 0 &&& g 2) ^^^ (g 1 &&& g 2)
  let t1 := g 7 + bsig1 (g 4) + ch + kw.1 + kw.2
  [(t1 + bsig0 (g 0) + maj) % 2 ^ 32, g 0, g 1, g 2, (g 3 + t1) % 2 ^ 32, g 4, g 5, g 6]

/-- A big-endian word of four bytes. -/
def beWord (bs : List Byte) : Nat := leNat (bs.take 4).reverse

/-- The state after one block of 64 bytes. -/
def shaBlock (s : List Nat) (b : List Byte) : List Nat :=
  let w0 := (List.range 16).map fun i => beWord (b.drop (4 * i))
  let w := (shaW 48 w0.reverse).reverse
  let t := (shaK.zip w).foldl shaRound s
  List.zipWith (fun a c => (a + c) % 2 ^ 32) s t

/-- The state after every whole block of bs, from state s; n bounds the blocks. -/
def shaBlocks : Nat → List Nat → List Byte → List Nat
  | 0, s, _ => s
  | n + 1, s, bs => if bs.length < 64 then s else shaBlocks n (shaBlock s (bs.take 64)) (bs.drop 64)

/-- The state after bytes whose length is a multiple of 64. -/
def shaOn (s : List Nat) (bs : List Byte) : List Nat := shaBlocks (bs.length / 64) s bs

/-- Big-endian bytes of a state. -/
def shaBytes (s : List Nat) : List Byte := s.flatMap fun x => (leBytes 4 x).reverse

/-- The hash of n bytes in all, from the state after the whole blocks and the rest (fewer than 64 bytes). -/
def shaEnd (s : List Nat) (rest : List Byte) (n : Nat) : List Byte :=
  let z := (119 - rest.length % 64) % 64
  shaBytes (shaOn s (rest ++ [0x80] ++ List.replicate z 0 ++ (leBytes 8 (8 * n)).reverse))

/-- SHA-256 of a byte string. -/
def sha256 (bs : List Byte) : List Byte :=
  let k := bs.length / 64 * 64
  shaEnd (shaOn sha0 (bs.take k)) (bs.drop k) bs.length

end Sys2Proof.Machine
end

