-- ==== Sys2Proof/Machine/Volume.lean ====
section
/-! DEFINITION. The clip volume's formats (R381, R391 to R395): command units, allocation units, headers, clip entries, run tables and
records as bytes. -/
namespace Sys2Proof.Machine

/-- Data bytes of an AU, blocks of an AU, bytes of a block. -/
def auData : Nat := 1044480
def auBlocks : Nat := 256
def blkBytes : Nat := 4096

/-- A command unit (R381). -/
def cmdUnit (opc cid nsid lba nblk cdw0 : Nat) : List Byte :=
  leBytes 1 opc ++ leBytes 1 0 ++ leBytes 2 cid ++ leBytes 4 nsid ++ leBytes 8 lba ++ leBytes 4 nblk ++ leBytes 4 cdw0 ++ leBytes 8 0

/-- Bytes with x laid over them at an offset. -/
def overlay (b : List Byte) (off : Nat) (x : List Byte) : List Byte := fitB b off ++ x ++ b.drop (off + x.length)

/-! ### Allocation units (R391) -/

/-- The check block of an AU whose data blocks are given. -/
def checkBlock (vol : List Byte) (clip auseq used gen : Nat) (data : List Byte) : List Byte :=
  let h := leBytes 4 0x42554143 ++ fitB vol 4 ++ leBytes 4 clip ++ leBytes 4 auseq ++ leBytes 8 (auseq * auData) ++ leBytes 4 used ++
    leBytes 4 gen ++ ((List.range 255).flatMap fun i => leBytes 4 (crc32c (sliceB data (i * blkBytes) blkBytes))) ++ leBytes 3040 0
  h ++ leBytes 4 (crc32c h)

/-- The 1 MiB of an AU holding some data bytes. -/
def auBytes (vol : List Byte) (clip auseq gen : Nat) (used : List Byte) : List Byte :=
  let d := fitB used auData
  d ++ checkBlock vol clip auseq (min used.length auData) gen d

/-- The check block of 1 MiB read, where its CCRC verifies. -/
def auCheck (au : List Byte) : Option (List Byte) :=
  let c := sliceB au auData blkBytes
  if rdLe c 0 4 = 0x42554143 ∧ rdLe c 4092 4 = crc32c (c.take 4092) then some c else none

/-- Every BCRC of an AU agrees. -/
def auWhole (au : List Byte) : Bool :=
  match auCheck au with
  | none => false
  | some c => (List.range 255).all fun i => decide (rdLe c (32 + 4 * i) 4 = crc32c (sliceB au (i * blkBytes) blkBytes))

/-- The stream bytes of an AU accepted as number k of a clip (R399 step 2). -/
def auAccept (clip k : Nat) (au : List Byte) : Option (List Byte) :=
  match auCheck au with
  | none => none
  | some c => if rdLe c 8 4 = clip ∧ rdLe c 12 4 = k ∧ rdLe c 24 4 ≠ 0 then some (au.take (min (rdLe c 24 4) auData)) else none

/-! ### Headers, clip entries, run tables (R392 to R394) -/

/-- The 256 bytes of copy `member` of a volume header (R393). -/
def VolHdr.enc (h : VolHdr) (member : Nat) : List Byte :=
  let b := leBytes 4 0x4C4F5643 ++ leBytes 2 1 ++ leBytes 1 h.members ++ leBytes 1 member ++ fitB h.id 16 ++ leBytes 8 h.pau ++
    leBytes 4 h.rtAu ++ leBytes 4 h.rtCount ++ leBytes 4 h.dataAu ++ leBytes 4 h.runs ++ leBytes 4 h.gen ++ leBytes 4 0 ++ leBytes 8 h.created ++
    ((List.range 8).flatMap fun i => leBytes 8 (h.serials.getD i 0)) ++ fitB h.label 64 ++ leBytes 60 0
  b ++ leBytes 4 (crc32c b)

/-- A header copy whose CRC verifies. -/
def VolHdr.dec (b : List Byte) : Option VolHdr :=
  let f := rdLe b
  if f 0 4 = 0x4C4F5643 ∧ f 4 2 = 1 ∧ f 252 4 = crc32c (fitB b 252) ∧ 1 ≤ f 6 1 ∧ f 6 1 ≤ 8 then
    some ⟨f 6 1, sliceB b 8 16, f 24 8, f 32 4, f 36 4, f 40 4, f 44 4, f 48 4, f 56 8, (List.range 8).map fun i => f (64 + 8 * i) 8,
          sliceB b 128 64⟩
  else none

/-- The 256 bytes of a clip entry (R394). -/
def Clip.enc (c : Clip) : List Byte :=
  let b := leBytes 1 c.state ++ leBytes 1 c.kind ++ leBytes 2 c.tracks ++ leBytes 4 c.first ++ leBytes 8 c.length ++ leBytes 8 c.start ++
    leBytes 8 c.stop ++ leBytes 4 c.frames ++ leBytes 4 c.flags ++ fitB c.sha 32 ++ leBytes 4 c.aus ++ leBytes 4 c.triggers ++ fitB c.name 64 ++
    fitB c.uuid 16 ++ leBytes 92 0
  b ++ leBytes 4 (crc32c b)

/-- A clip entry whose ECRC verifies. -/
def Clip.dec (b : List Byte) : Option Clip :=
  let f := rdLe b
  if f 252 4 = crc32c (fitB b 252) then
    some ⟨f 0 1, f 1 1, f 2 2, f 4 4, f 8 8, f 16 8, f 24 8, f 32 4, f 36 4, sliceB b 40 32, f 72 4, f 76 4, sliceB b 80 64, sliceB b 144 16⟩
  else none

/-- A free entry. -/
def Clip.free : List Byte := let b := leBytes 252 0; b ++ leBytes 4 (crc32c b)

/-- Entries of AU `au` of the clip table: 4,080, or the 256 of the last AU. -/
def clipSlots (au : Nat) : Nat := if au < 16 then 4080 else 256

/-- The bytes a pack write carries. -/
def MData.enc : MData → List Byte
  | .empty => []
  | .bytes b => b
  | .header m g h => auBytes h.id 0xFFFFFFFF m g (h.enc m)
  | .clips au g vol t => auBytes vol 0xFFFFFFFF au g
      ((List.range (clipSlots au)).flatMap fun i => match tget t (au * 4080 + i) with
        | some c => c.enc
        | none => Clip.free)
  | .runs au g vol t => auBytes vol 0xFFFFFFFF au g
      ((List.range 261120).flatMap fun i => leBytes 4 ((tget t (au * 261120 + i)).getD 0xFFFFFFFF))

/-- Run-table marks. -/
def runFree : Nat := 0xFFFFFFFF
def runLast : Nat := 0xFFFFFFFE

/-- The chain of runs from a first run; n bounds it. -/
def runChain (t : Tab Nat) : Nat → Nat → List Nat
  | 0, _ => []
  | n + 1, r =>
    match tget t r with
    | none => []
    | some x => if x = runLast then [r] else r :: runChain t n x

/-- The sizes of a volume of `total` logical AUs on m members (R392): the smallest run table that has an entry for every run. -/
def volSizes (total m : Nat) : Nat × Nat × Nat :=
  let dataAt := fun (c : Nat) => ceilDiv (m + 17 + c) 256 * 256
  let nruns := fun (c : Nat) => (total - dataAt c) / 256
  let c := ((List.range (total / 256 / 261120 + 2)).find? fun c => decide (1 ≤ c) && decide (nruns c ≤ c * 261120)).getD 1
  (c, dataAt c, nruns c)

/-! ### Records (R395) -/

/-- A record: head, payload, padding to 64 bytes. -/
def recBytes (typ track time frame rseq : Nat) (payload : List Byte) : List Byte :=
  let h := leBytes 1 typ ++ leBytes 1 track ++ leBytes 2 0 ++ leBytes 4 payload.length ++ leBytes 8 time ++ leBytes 4 frame ++ leBytes 4 rseq ++
    leBytes 4 (crc32c payload)
  let r := h ++ leBytes 4 (crc32c h) ++ payload
  fitB r (ceilDiv r.length 64 * 64)

/-- Bytes a record takes in the stream. -/
def recSize (len : Nat) : Nat := ceilDiv (32 + len) 64 * 64

/-- The length of the complete, valid record at the start of bs; none where there is none. -/
def recAt (bs : List Byte) : Option Nat :=
  let len := rdLe bs 4 4
  if 32 ≤ bs.length ∧ rdLe bs 28 4 = crc32c (fitB bs 28) ∧ recSize len ≤ bs.length ∧ rdLe bs 24 4 = crc32c (sliceB bs 32 len) then
    some (recSize len)
  else none

/-- The records at the start of a stream, as (offset, head and payload bytes); n bounds them. -/
def recsOf : Nat → Nat → List Byte → List (Nat × List Byte)
  | 0, _, _ => []
  | n + 1, off, bs =>
    match recAt bs with
    | none => []
    | some k => (off, bs.take k) :: recsOf n (off + k) (bs.drop k)

end Sys2Proof.Machine
end

