-- ==== Sys2Proof/Machine/Packs.lean ====
section
/-! DEFINITION. Chapter 13, pack ports and block commands: packets (R378, R379), pack commands in flight (R377, R380, R385, R390), host
queue pairs (R383, R384), the target side (R376, R379, R387, R388). -/
namespace Sys2Proof.Machine

/-- A media event: DETAIL0 the port, pair or clip (R407). -/
def mdEv (code sev obj : Nat) (d1 d2 : Nat := 0) : Ev := { code := code, sev := sev, unit := uMedia, d0 := obj, d1 := d1, d2 := d2 }

def Dev.modMd (d : Dev) (f : MediaSt → MediaSt) : Dev := { d with md := f d.md }
def Dev.pport (d : Dev) (n : Nat) : PackPort := (tget d.md.ports n).getD {}
def Dev.modPport (d : Dev) (n : Nat) (f : PackPort → PackPort) : Dev :=
  d.modMd fun m => { m with ports := tset m.ports n (f (d.pport n)) }

/-- MP_STAT of port n: PORT, ROLE, PSTATE. -/
def Dev.pkState (d : Dev) (n : Nat) : Nat := d.fg F.mpStat_port (uPack n)
def Dev.pkRole (d : Dev) (n : Nat) : Nat := d.fg F.mpStat_role (uPack n)
def Dev.pkPower (d : Dev) (n : Nat) : Nat := d.fg F.mpStat_pstate (uPack n)
def Dev.setPk (d : Dev) (n st : Nat) : Dev := d.fs F.mpStat_port st (uPack n)

def pkOff : Nat := 0
def pkDown : Nat := 1
def pkConnect : Nat := 2
def pkReady : Nat := 3
def pkUnfit : Nat := 4
def pkFailed : Nat := 5
def pkFenced : Nat := 6

/-- The device's role in a pair (R504). -/
def Dev.role (d : Dev) : Nat := d.fg F.twStat_role uTwin
def roleLead : Nat := 1
def roleShadow : Nat := 2
def roleIsolated : Nat := 4

/-! ### Packets (R378, R531) -/

/-- A Bastu-M packet from PTYPE on. -/
def mPkt (pt q ctag p1 : Nat) (bs : List Byte) : List Byte :=
  leBytes 1 pt ++ leBytes 4 (q % 8 * 2 ^ 24 + ctag % 2 ^ 16) ++ leBytes 4 p1 ++ bs

/-- The port towards a node, where there is a route (R533). -/
def Dev.route (d : Dev) (node : Nat) : Option Nat :=
  let p := getF (d.rd .chRoute uChain (node / 16 % 256)) (2 * (node % 16) + 1) (2 * (node % 16))
  if p = 3 then none else some p

/-- A Bastu-C packet that this node originates on a port (R526). -/
def Dev.chSend (d : Dev) (k pt dest : Nat) (body : List Byte) : Dev :=
  let p0 := d.fg F.chNode_node uChain * 2 ^ 20 + dest % 0x1000 * 2 ^ 8 + 1
  let p1 := d.ch.seq % 0x10000 * 2 ^ 16 + d.fg F.chNode_rig uChain
  { d with ch := { d.ch with sent := (k, leBytes 1 pt ++ leBytes 4 p0 ++ leBytes 4 p1 ++ body) :: d.ch.sent, seq := (d.ch.seq + 1) % 0x10000 } }

/-- E_CH_CFG (R525, R531). -/
def Dev.chCfg (d : Dev) (obj : Nat) : Dev := d.raise { code := 0x1210, sev := 1, unit := uChain, d0 := obj }

/-- A packet sent to a connection: on its port, or over the chain to a node (R531). -/
def Dev.mdSend (d : Dev) (key : Nat) (bs : List Byte) : Dev :=
  if key < 0x1000 then d.modMd fun m => { m with sent := (key, bs) :: m.sent }
  else
    match d.route (key - 0x1000) with
    | none => d.chCfg (key - 0x1000)
    | some k => (d.modMd fun m => { m with sent := (key, bs) :: m.sent }).chSend k 0x04 (key - 0x1000) bs

/-- MP_BYTES. -/
def Dev.pkBytes (d : Dev) (n k : Nat) : Dev := if n < 8 then d.add64 .mpBytesLo .mpBytesHi k (uPack n) else d

/-! ### Commands to packs (R377, R385, R390) -/

def PCmd.writes (c : PCmd) : Bool := decide (c.opc = 2) || decide (c.opc = 3)
def PCmd.moves (c : PCmd) : Bool := decide (c.opc = 1) || c.writes

/-- Two commands to one pack may not be outstanding together (R385). -/
def PCmd.meets (a b : PCmd) : Bool :=
  decide (a.port = b.port) && a.moves && b.moves && (a.writes || b.writes) && decide (a.lba < b.lba + b.nblk) &&
  decide (b.lba < a.lba + a.nblk)

/-- OUTSTANDING follows. -/
def Dev.syncOut (d : Dev) (n : Nat) : Dev :=
  d.fs F.mpStat_outstanding (min (d.md.pcmds.filter fun c => decide (c.port = n) && c.issued).length 0xFFFF) (uPack n)

/-- A queue of the connection with room for one more command. -/
def Dev.pkRoom (d : Dev) (n : Nat) : Option Nat :=
  (List.range (d.pport n).queues).find? fun q =>
    decide ((d.md.pcmds.filter fun c => decide (c.port = n) && c.issued && decide (c.q = q)).length < (d.pport n).depth)

/-- A CTAG that no command of the queue uses; 0 is left to IDENTIFY. -/
def Dev.pkTag (d : Dev) (n q : Nat) : Nat :=
  let used := (d.md.pcmds.filter fun c => decide (c.port = n) && c.issued && decide (c.q = q)).map (·.ctag)
  ((List.range (used.length + 1)).map (· + 1)).find? (fun t => !used.contains t) |>.getD 1

/-- Whether port n takes commands now. -/
def Dev.pkServes (d : Dev) (n : Nat) : Bool :=
  (decide (d.pkState n = pkReady) || decide (d.pkState n = pkFenced)) && decide (d.pkPower n = 0) && decide (d.lstate (12 + n) = 4) &&
  decide (d.role ≠ roleIsolated)

/-- The command waits for nothing that came before it; a write waits for the fence before it (R376). -/
def Dev.pkClear (d : Dev) (before : List PCmd) (c : PCmd) : Bool :=
  !before.any c.meets && !(c.writes && before.any fun b => decide (b.opc = 6)) && !(d.md.cmds.any fun m => decide (m.id = c.after) && decide (c.after ≠ 0))

/-- A command sent to its pack; for READ, WRITE and TRIM `cdw0` holds the far end's NSID, 0 being namespace 1 (log entry 34). -/
def Dev.pkIssue (d : Dev) (c : PCmd) (q : Nat) : Dev :=
  let t := d.pkTag c.port q
  let d := d.modMd fun m => { m with pcmds := m.pcmds.map fun x => if x = c then { c with issued := true, q := q, ctag := t } else x }
  let nsid := if c.moves then max 1 c.cdw0 else 0
  d.mdSend c.port (mPkt 1 q t 0 (cmdUnit c.opc (c.parent % 0x10000) nsid c.lba c.nblk (if c.moves then 0 else c.cdw0)))

/-- Commands that can go out on port n go out, in the order of submission. -/
def Dev.pump (d : Dev) (n : Nat) : Dev :=
  if !d.pkServes n then d
  else
    let mine := d.md.pcmds.filter fun c => decide (c.port = n)
    ((mine.zipIdx).foldl (fun (e : Dev) (p : PCmd × Nat) =>
      if !p.1.issued && e.pkClear (mine.take p.2) p.1 then
        match e.pkRoom n with
        | some q => e.pkIssue p.1 q
        | none => e
      else e) d).syncOut n

def Dev.pumpAll (d : Dev) : Dev := (List.range 8).foldl Dev.pump d

/-- A command for a port in M1 to M3 starts its exit (R390): PM 0 in M1, a fast retrain in M2, full training in M3. -/
def Dev.pkWake (d : Dev) (n : Nat) : Dev :=
  match d.pkPower n with
  | 0 => d
  | 1 => d.mdSend n (mPkt 0x0A 0 0 0 (leBytes 1 0))
  | 2 => if d.lstate (12 + n) = 1 then (d.setLinkSt (12 + n) {}).train (12 + n) 1 else d
  | _ => if d.lstate (12 + n) = 0 then (d.setLinkSt (12 + n) {}).train (12 + n) 2 else d

/-! ### Completion rings of host queue pairs (R383, R384, R404) -/

def QPair.depth (p : QPair) : Nat := 2 ^ p.cqLog2
def Dev.cqHead (d : Dev) (n : Nat) : Nat := d.fg F.mqCqh_head uMedia n
def Dev.modQp (d : Dev) (n : Nat) (f : QPair → QPair) : Dev := d.modMd fun m => { m with qps := tmod m.qps n f }

/-- Completions in the ring that the host has not freed. -/
def Dev.cqUsed (d : Dev) (n : Nat) (p : QPair) : Nat := (p.tail + 2 * p.depth - d.cqHead n) % (2 * p.depth)

/-- An entry written into the ring, with its phase bit, and its vector signalled (R384). -/
def Dev.cqWrite (d : Dev) (n : Nat) (p : QPair) (e : List Byte) : Dev :=
  let ph := if p.tail / p.depth % 2 = 0 then 0x8000 else 0
  let d := d.hostW p.owner (p.cqBase + 16 * (p.tail % p.depth)) (e.take 14 ++ leBytes 2 ph)
  let d := d.modQp n fun p => { p with tail := (p.tail + 1) % (2 * p.depth) }
  d.signal { Queue.disabled with owner := p.owner, intEn := true, vector := p.vector, cls := 1 }

/-- A completion of pair n: written, or waiting while the ring is full, dispatch from the pair's queue then stopped. -/
def Dev.cqPost (d : Dev) (n result flags cid status : Nat) : Dev :=
  match tget d.md.qps n with
  | none => d
  | some p =>
    let e := leBytes 4 result ++ leBytes 2 (d.q p.sq).head ++ leBytes 1 n ++ leBytes 1 flags ++ leBytes 2 cid ++ leBytes 2 status ++ leBytes 4 0
    if p.waiting = [] ∧ d.cqUsed n p < p.depth then d.cqWrite n p e
    else
      let d := d.modQp n fun p => { p with waiting := p.waiting ++ [e] }
      { d with qf := { d.qf with stopped := if d.qf.stopped.contains p.sq then d.qf.stopped else p.sq :: d.qf.stopped } }

/-- Completions that waited go out as room appears. -/
def Dev.cqDrain (d : Dev) (n : Nat) : Nat → Dev
  | 0 => d
  | k + 1 =>
    match tget d.md.qps n with
    | none => d
    | some p =>
      match p.waiting with
      | [] => { d with qf := { d.qf with stopped := d.qf.stopped.filter (· ≠ p.sq) } }
      | e :: es =>
        if d.cqUsed n p < p.depth then ((d.modQp n fun p => { p with waiting := es }).cqWrite n p e).cqDrain n k else d

/-- A queue pair whose commands have all ended closes (MEDIA.QP_DELETE). -/
def Dev.qpSettle (d : Dev) (n : Nat) : Dev :=
  match tget d.md.qps n with
  | none => d
  | some p =>
    if p.closeJob ≠ 0 ∧ d.opsOf p.sq = [] ∧ (d.q p.sq).ents = [] ∧ p.waiting = [] then
      let d := ((d.destroyQ p.sq).destroyQ p.errQ).modMd fun m => { m with qps := tdel m.qps n }
      let d := (d.fs F.mdCfg_qps d.md.qps.length uMedia).fs F.mqCqh_head 0 uMedia n
      d.jobDecided p.closeJob 0
    else d

/-- Command with tag `tag` of pair n ends: its tag closes without a fabric completion, and its completion entry is written. -/
def Dev.hostEnd (d : Dev) (n tag status result : Nat) : Dev :=
  match d.op tag with
  | none => d
  | some o =>
    let d := ((d.closeTag o).flushFifo o.qid).cqPost n result 0 (rdLe o.entry.body 2 2) status
    d.qpSettle n

/-- The media service takes what its internal error queue of pair n holds: RESET_DONE becomes a completion with RESET and
E_MD_QRESET, a RETURN one with RETURN (R384, R388). -/
def Dev.qpErrors (d : Dev) (n : Nat) : Dev :=
  match tget d.md.qps n with
  | none => d
  | some p =>
    let q := d.q p.errQ
    let d := d.setQ p.errQ { q with ents := [], head := q.tail }
    q.ents.foldl (fun e x =>
      if x.typ = 5 then (e.raise (mdEv 0x0C04 1 n)).cqPost n (rdLe x.body 0 4) 1 0xFFFF 0x0C04
      else if x.typ = 3 then e.cqPost n 0 2 (rdLe x.body 2 2) x.status
      else e) d
def Dev.mdErrors (d : Dev) : Dev := (d.md.qps.map (·.1)).foldl (fun e n => (e.qpErrors n).qpSettle n) d

/-! ### Ends of media commands -/

/-- RESP of a connection's command. -/
def Dev.tgtResp (d : Dev) (key q ctag status result : Nat) : Dev :=
  d.mdSend key (mPkt 5 q ctag 0 (leBytes 2 status ++ leBytes 2 0 ++ leBytes 4 result))

/-- Data sent as DATA_IN in ascending offset, at most 8,192 bytes a packet (R378, R379). -/
def Dev.tgtData (d : Dev) (key q ctag : Nat) (bs : List Byte) : Dev :=
  ((List.range (ceilDiv bs.length 8192)).foldl (fun e i => e.mdSend key (mPkt 4 q ctag (8192 * i) ((bs.drop (8192 * i)).take 8192))) d).pkBytes
    key bs.length

/-- A recording changed. -/
def Dev.modRec (d : Dev) (clip : Nat) (f : Rec → Rec) : Dev :=
  d.modMd fun m => { m with recs := m.recs.map fun r => if r.clip = clip then f r else r }

/-- The parent has no pack command left: it answers its sender. -/
def Dev.mcmdEnd (d : Dev) (m : MCmd) : Dev :=
  let d := d.modMd fun s => { s with cmds := s.cmds.filter fun c => decide (c.id ≠ m.id) }
  let done := if m.status = 0 then (if m.opc = 4 ∨ m.opc = 5 then 1 else m.nblk) else 0
  match m.orig with
  | .host n tag => d.hostEnd n tag m.status done
  | .tgt key q ctag =>
    let d := if (m.opc = 1 ∨ m.opc = 4 ∨ m.opc = 5) ∧ m.status = 0 then d.tgtData key q ctag m.data else d
    d.tgtResp key q ctag m.status done
  | .au clip seq => d.modRec clip fun r => { r with ended := r.ended ++ [(seq, m.status)] }
  | .tab job => d.jobDecided job m.status
  | .fence n => if m.status = 0 ∧ d.pkState n = pkFenced then d.setPk n pkReady else d
  | .dead => d

/-- A pack command ends with a status. -/
def Dev.pcmdEnd (d : Dev) (c : PCmd) (status : Nat) : Dev :=
  let d := (d.modMd fun m => { m with pcmds := m.pcmds.erase c }).syncOut c.port
  match d.md.cmds.find? fun m => decide (m.id = c.parent) with
  | none => d
  | some m =>
    let m := { m with left := m.left - 1, status := if m.status = 0 then status else m.status }
    let d := d.modMd fun s => { s with cmds := s.cmds.map fun x => if x.id = m.id then m else x }
    if m.left = 0 then d.mcmdEnd m else d

/-- Every command of port n ends with a status. -/
def Dev.pkEndAll (d : Dev) (n status : Nat) : Dev :=
  (d.md.pcmds.filter fun c => decide (c.port = n)).foldl (fun e c => e.pcmdEnd c status) d

/-- A port whose packs cannot answer: no PACK role, UNFIT or FAILED. -/
def Dev.pkDead (d : Dev) (n : Nat) : Bool := decide (d.pkRole n ≠ 1) || decide (d.pkState n = pkUnfit) || decide (d.pkState n = pkFailed) ||
  decide (d.pkState n = pkOff)

/-- A media command begins with its pack commands; those for a dead port end at once with E_MD_PACK_FAIL, a command with none ends. -/
def Dev.mdBegin (d : Dev) (m : MCmd) (ps : List PCmd) : Dev :=
  let fresh := decide (m.id = 0)
  let m := { m with id := if fresh then d.md.nextCmd else m.id, begun := true, left := ps.length }
  let ps := ps.map fun p => { p with parent := m.id }
  let d := d.modMd fun s => { s with
    nextCmd := if fresh then s.nextCmd + 1 else s.nextCmd
    cmds := if fresh then s.cmds ++ [m] else s.cmds.map fun c => if c.id = m.id then m else c
    pcmds := s.pcmds ++ ps }
  if ps = [] then d.mcmdEnd m
  else
    let d := (ps.filter fun p => d.pkDead p.port).foldl (fun e p => e.pcmdEnd p 0x0C07) d
    let d := (((ps.filter fun p => !d.pkDead p.port).map (·.port)).eraseDups).foldl Dev.pkWake d
    d.pumpAll

/-- FENCE with the pair epoch sent to the pack on port n (R376, R505). -/
def Dev.fencePort (d : Dev) (n : Nat) : Dev :=
  d.mdBegin { id := 0, orig := .fence n, opc := 6, ord := false, cid := 0, nsid := 0, lba := 0, nblk := 0, owner := 0x40, buf := 0,
              begun := false, left := 0 }
    [{ port := n, parent := 0, opc := 6, lba := 0, nblk := 0, cdw0 := d.fg F.twStat_pairEpoch uTwin, off := 0, data := .empty, after := 0 }]

/-! ### What a command may do (R376, R381, R389) -/

/-- A value is not behind a kept one (R376). -/
def notBehind (v f : Nat) : Bool := decide ((v + 65536 - f % 65536) % 65536 ≤ 32767)

/-- A write from a sender meets the fence the device keeps as a target (R376). -/
def Dev.fencedOut (d : Dev) (key : Nat) : Bool :=
  match d.md.fence with
  | none => false
  | some f => decide (tget d.md.fenced key ≠ some f)

/-- What a command unit answers without reaching a pack: 0 where it may run. -/
def Dev.mdRefuse (d : Dev) (key opc nsid lba nblk cdw0 : Nat) : Nat :=
  if opc = 1 ∨ opc = 2 ∨ opc = 3 then
    match tget d.md.spaces nsid with
    | none => 0x0C01
    | some s =>
      if nblk = 0 ∨ 512 < nblk ∨ s.blocks < lba + nblk then 0x0C01
      else if opc = 1 then 0
      else if s.vol then 0x0C0A
      else if d.role = roleShadow ∨ d.role = roleIsolated then 0x0408
      else if d.fencedOut key then 0x0C09
      else 0
  else if opc = 4 then (if cdw0 = 0 then 0 else if cdw0 = 1 ∧ (tget d.md.spaces nsid).isSome then 0 else 0x0C01)
  else if opc = 5 then 0
  else if opc = 6 then
    match d.md.fence with
    | none => 0
    | some f => if notBehind (cdw0 % 65536) f then 0 else 0x0C09
  else 0x0C01

/-- Pieces of [lba, lba+n) within 1 MiB units: first block and count; k bounds them. -/
def auPieces : Nat → Nat → Nat → List (Nat × Nat)
  | 0, _, _ => []
  | k + 1, lba, n =>
    if n = 0 then [] else let c := min n (256 - lba % 256); (lba, c) :: auPieces k (lba + c) (n - c)

/-- Where block L of a striped space lies (R389, R392): member port and its block. -/
def stripeAt (members : List Nat) (l : Nat) : Nat × Nat :=
  let m := max 1 members.length
  (members.getD (l / 256 % m) 0, l / 256 / m * 256 + l % 256)

/-- The pack commands of a range of a space; `bs` is the data of a WRITE. -/
def spaceCmds (members : List Nat) (opc lba n : Nat) (bs : List Byte) : List PCmd :=
  (auPieces (n / 256 + 2) lba n).map fun p =>
    let w := stripeAt members p.1
    let off := (p.1 - lba) * blkBytes
    ⟨w.1, 0, opc, w.2, p.2, 0, off, if opc = 2 then .bytes (sliceB bs off (p.2 * blkBytes)) else .empty, 0, false, 0, 0⟩

/-- The IDENTIFY page of the device as a target (R382); its rates, which the spec does not give, are free values. -/
def Dev.identPage (d : Dev) : List Byte :=
  let cap := (d.md.spaces.map fun p => p.2.blocks).foldl (· + ·) 0
  fitB (leBytes 4 0x44494D42 ++ leBytes 2 1 ++ leBytes 1 7 ++ leBytes 1 d.md.spaces.length ++ leBytes 8 Config.serial ++ leBytes 8 cap ++
    leBytes 4 1024 ++ leBytes 8 d.freeVal ++ leBytes 4 20 ++ leBytes 4 2000 ++ leBytes 4 150000) blkBytes

/-- The page an IDENTIFY or LOG answers with; one the spec does not lay out is free. -/
def Dev.mdPage (d : Dev) (opc cdw0 : Nat) : List Byte := if opc = 4 ∧ cdw0 = 0 then d.identPage else leBytes blkBytes d.freeVal

/-- A command that may run begins: IDENTIFY, LOG and FENCE end at once. -/
def Dev.mdRun (d : Dev) (key : Nat) (m : MCmd) (cdw0 : Nat) (bs : List Byte) : Dev :=
  match m.opc with
  | 6 =>
    let v := cdw0 % 65536
    (d.modMd fun s => { s with fence := some v, fenced := tset s.fenced key v }).mdBegin m []
  | 4 | 5 =>
    let page := d.mdPage m.opc cdw0
    let d := d.useFree
    let d := match m.orig with
      | .host _ _ => d.hostW m.owner m.buf page
      | _ => d
    d.mdBegin { m with data := page } []
  | _ =>
    match tget d.md.spaces m.nsid with
    | none => d
    | some s => d.mdBegin { m with data := [] } (spaceCmds s.members m.opc m.lba m.nblk bs)

/-- The severity of a refusal's code. -/
def Dev.mdTell (d : Dev) (code obj d1 : Nat) : Dev := if code / 256 = 0x0C then d.raise (mdEv code (sevOf code) obj d1) else d

/-! ### Host submissions (R383, R384) -/

/-- The pair whose submission queue is qid. -/
def Dev.qpOf (d : Dev) (qid : Nat) : Option (Nat × QPair) := d.md.qps.find? fun p => decide (p.2.sq = qid)

/-- An entry's ranges, ORD, OPCODE or reply differ from what R384 gives its command. -/
def mdEntryBad (e : Entry) : Bool :=
  let b := e.body
  let opc := rdLe b 0 1
  let lba := rdLe b 8 8
  let n := rdLe b 16 4
  let r0 := e.range0
  let r1 := e.range1
  let io := decide (opc = 1) || decide (opc = 2)
  let host := decide (rgSpace r0 = 1) && decide (rgBytes r0 = n * blkBytes) && (rgWr r0 == decide (opc = 1))
  let med := decide (rgSpace r1 = 2) && decide (rgAddr r1 = lba * blkBytes) && decide (rgBytes r1 = n * blkBytes) && (rgWr r1 == !decide (opc = 1))
  let page := decide (rgSpace r0 = 1) && decide (rgBytes r0 = blkBytes) && rgWr r0 && decide (rgLen r1 = 0)
  decide (e.opcode ≠ 0x70) || decide (e.replyQid ≠ 0) || (e.ord != (rdLe b 1 1).testBit 0) ||
  decide (2 ≤ rdLe b 1 1) || decide (rdLe b 24 8 ≠ 0) ||
  !(if io then host && med else if opc = 3 then decide (rgLen r0 = 0) && med else if opc = 4 ∨ opc = 5 then page
    else decide (rgLen r0 = 0) && decide (rgLen r1 = 0))

/-- HOST_MEDIA_SUBMIT: the entry holding a tag is checked and begun; `host` holds the bytes of its host buffer. -/
def Dev.hostSubmit (d : Dev) (tag : Nat) (host : List Byte) : Dev :=
  match d.op tag with
  | none => d
  | some o =>
    match d.qpOf o.qid with
    | none => d
    | some (n, p) =>
      let b := o.entry.body
      let f := rdLe b
      if d.md.cmds.any fun m => decide (m.orig = .host n tag) then d
      else if !d.priv p.owner then d.hostEnd n tag 0x0405 0
      else if mdEntryBad o.entry then (d.raise { mdEv 0x0C01 1 n (f 2 2) with master := p.owner }).hostEnd n tag 0x0C01 0
      else
        match d.mdRefuse (0x2000 + n) (f 0 1) (f 4 4) (f 8 8) (f 16 4) (f 20 4) with
        | 0 => d.mdRun (0x2000 + n) ⟨0, .host n tag, f 0 1, o.entry.ord, f 2 2, f 4 4, f 8 8, f 16 4, p.owner, rgAddr o.entry.range0, false, 0,
                                      0, [], none, 0⟩ (f 20 4) (fitB host (f 16 4 * blkBytes))
        | st => (d.mdTell st n (f 2 2)).hostEnd n tag st 0

def execHostMediaSubmit (tag : Nat) (host : List Byte) (s : State) : Host.Outcome State Fault Refusal :=
  s.onDev fun d => d.hostSubmit tag host

/-- MQ_CQH of pair n written by m (R404). -/
def Dev.effMqCqh (d : Dev) (m n : Nat) (v : Word) : Dev :=
  let bad := d.raise { mdEv 0x0C13 1 n with master := m }
  match tget d.md.qps n with
  | none => bad
  | some p =>
    let h := getF v 15 0
    if p.owner ≠ m ∨ 2 * p.depth ≤ h ∨ d.cqUsed n p < (h + 2 * p.depth - d.cqHead n) % (2 * p.depth) then bad
    else ((d.fs F.mqCqh_head h uMedia n).cqDrain n (p.waiting.length + 1)).qpSettle n

/-- The write by a master: one that is not the pair's owner makes no violation. -/
def Dev.mqCqhBy (d : Dev) (m n : Nat) (v : Word) : Dev :=
  let own := match tget d.md.qps n with
    | some p => decide (p.owner = m)
    | none => false
  if own then d.gated m .mqCqh uMedia n v fun d => d.effMqCqh m n v else d.unlessHeld m fun d => d.effMqCqh m n v

def execMqCqhWrite (m : Nat) (n : Fin 64) (v : Word) (s : State) : Host.Outcome State Fault Refusal :=
  s.access m fun d => d.mqCqhBy m n.val v

/-- QUEUE_RESET_DONE (R119, R388): a host pair's unfinished commands are discarded, their pack commands run to their end; the media
service turns RESET_DONE into a completion entry. -/
def Dev.resetDoneMd (d : Dev) (qid : Nat) (done : List (Nat × Nat × List Byte)) : Dev :=
  match d.qpOf qid with
  | none => d.resetDone qid done
  | some (n, _) =>
    if (d.q qid).rstate ≠ 3 then d
    else
      let d := d.modMd fun m => { m with cmds := m.cmds.map fun c => match c.orig with
        | .host k _ => if k = n then { c with orig := .dead } else c
        | _ => c }
      (d.resetDone qid []).mdErrors

def execQueueResetDone (qid : Nat) (done : List (Nat × Nat × List Byte)) (s : State) : Host.Outcome State Fault Refusal :=
  s.onDev fun d => d.resetDoneMd qid done

end Sys2Proof.Machine
end

