-- ==== Sys2Proof/Machine/Targets.lean ====
section
/-! DEFINITION. Chapter 13, the Bastu-M rows: the target side (R376, R378, R379, R381, R385, R387, R388), the initiator side (R375,
R377, R379, R380) and power states (R390). -/
namespace Sys2Proof.Machine

/-! ### The target side -/

def Dev.conn (d : Dev) (key : Nat) : Option Conn := d.md.conns.find? fun c => decide (c.key = key)

/-- A command of a connection's queue. -/
def MCmd.isOf (m : MCmd) (key q : Nat) : Bool := match m.orig with
  | .tgt k x _ => decide (k = key) && decide (x = q)
  | _ => false
def MCmd.isTag (m : MCmd) (key q ctag : Nat) : Bool := decide (m.orig = .tgt key q ctag)

def MCmd.writes (m : MCmd) : Bool := decide (m.opc = 2) || decide (m.opc = 3)
def MCmd.moves (m : MCmd) : Bool := decide (m.opc = 1) || m.writes

/-- Ranges of two commands overlap (R385: equal offsets of different namespaces count). -/
def MCmd.meets (a b : MCmd) : Bool :=
  a.moves && b.moves && decide (a.lba < b.lba + b.nblk) && decide (b.lba < a.lba + a.nblk)

/-- A command is held back by the earlier unfinished ones of its queue (R385). -/
def tgtHeld (before : List MCmd) (m : MCmd) : Bool := (m.ord && !before.isEmpty) || before.any fun b => b.ord || b.meets m

/-- Burst bytes outstanding on a connection (R379). -/
def Dev.burstsOut (d : Dev) (key : Nat) : Nat :=
  (d.md.cmds.map fun m => match m.orig, m.burst with
    | .tgt k _ _, some (_, n) => if k = key then n else 0
    | _, _ => 0).foldl (· + ·) 0

/-- The burst buffer a YT9400 grants (R379). -/
def burstBuf : Nat := 16777216

/-- A command changed in its place. -/
def Dev.setMcmd (d : Dev) (m : MCmd) : Dev := d.modMd fun s => { s with cmds := s.cmds.map fun c => if c.id = m.id then m else c }

/-- A command that is not held back goes on: a WRITE asks for its next burst, or begins once its data is in; others begin. -/
def Dev.tgtGo (d : Dev) (key q ctag : Nat) (m : MCmd) : Dev :=
  if m.opc = 2 then
    let all := m.nblk * blkBytes
    if m.data.length < all then
      let n := min 262144 (all - m.data.length)
      if m.burst.isSome ∨ burstBuf < d.burstsOut key + n then d
      else (d.setMcmd { m with burst := some (m.data.length, n), rx := 0 }).mdSend key (mPkt 2 q ctag m.data.length (leBytes 4 n))
    else d.mdRun key m 0 m.data
  else d.mdRun key m m.buf []

/-- Commands of a queue that can go on, in order. -/
def Dev.tgtPump (d : Dev) (key q : Nat) : Dev :=
  let l := d.md.cmds.filter fun m => m.isOf key q
  (l.zipIdx).foldl (fun (e : Dev) (p : MCmd × Nat) =>
    match p.1.orig with
    | .tgt _ _ ctag => if p.1.begun || tgtHeld (l.take p.2) p.1 then e else e.tgtGo key q ctag p.1
    | _ => e) d

/-- Every queue of every connection, after a command ended. -/
def Dev.tgtPumpAll (d : Dev) : Dev :=
  d.md.conns.foldl (fun e c => (List.range c.queues).foldl (fun e q => e.tgtPump c.key q) e) d

/-- A target command is refused, or ends, with a STATUS and no data. -/
def Dev.tgtFail (d : Dev) (key q ctag status cid : Nat) : Dev := (d.mdTell status (key % 0x1000) cid).tgtResp key q ctag status 0

/-- CMD (R379, R381): a command beyond the granted depth completes with E_MD_QFULL. -/
def Dev.tgtCmd (d : Dev) (key q ctag : Nat) (u : List Byte) : Dev :=
  match d.conn key with
  | none => d
  | some c =>
    let f := rdLe u
    let d := if key < 8 ∧ d.pkPower key ≠ 0 then d.fs F.mpStat_pstate 0 (uPack key) else d
    if c.queues ≤ q ∨ (d.md.cmds.any fun m => m.isTag key q ctag) then d
    else if c.depth ≤ (d.md.cmds.filter fun m => m.isOf key q).length then d.tgtFail key q ctag 0x0C03 (f 2 2)
    else
      match (if 2 ≤ f 1 1 ∨ f 24 8 ≠ 0 then 0x0C01 else d.mdRefuse key (f 0 1) (f 4 4) (f 8 8) (f 16 4) (f 20 4)) with
      | 0 =>
        let m : MCmd := ⟨d.md.nextCmd, .tgt key q ctag, f 0 1, (f 1 1).testBit 0, f 2 2, f 4 4, f 8 8, f 16 4, 0, f 20 4, false, 0, 0, [], none, 0⟩
        (d.modMd fun s => { s with nextCmd := s.nextCmd + 1, cmds := s.cmds ++ [m] }).tgtPump key q
      | st => d.tgtFail key q ctag st (f 2 2)

/-- A command of a connection dropped with E_MD_XFER (R379). -/
def Dev.tgtXfer (d : Dev) (key q ctag : Nat) (m : MCmd) : Dev :=
  ((d.modMd fun s => { s with cmds := s.cmds.filter fun c => decide (c.id ≠ m.id) }).tgtFail key q ctag 0x0C02 m.cid).tgtPumpAll

/-- DATA_OUT (R379). -/
def Dev.tgtDataOut (d : Dev) (key q ctag off : Nat) (bs : List Byte) : Dev :=
  match d.md.cmds.find? fun m => m.isTag key q ctag with
  | none => d
  | some m =>
    match m.burst with
    | none => d.tgtXfer key q ctag m
    | some (b, n) =>
      if off < b ∨ b + n < off + bs.length then d.tgtXfer key q ctag m
      else
        let d := d.pkBytes key bs.length
        let m := { m with data := overlay m.data off bs, rx := m.rx + bs.length }
        if m.rx < n then d.setMcmd m
        else (d.setMcmd { m with burst := none, rx := 0 }).tgtPump key q

/-- A burst not fully arrived after 100 ms (R379). -/
def Dev.tgtTimeout (d : Dev) (key q ctag : Nat) : Dev :=
  match d.md.cmds.find? fun m => m.isTag key q ctag with
  | none => d
  | some m => if m.burst.isSome then d.tgtXfer key q ctag m else d

/-- QRESET (R387, R388): refused in single configuration; else unfinished commands are discarded, pack commands they issued run to
their end, and QRESET_DONE tells their number. -/
def Dev.tgtReset (d : Dev) (key q : Nat) : Dev :=
  match d.conn key with
  | none => d
  | some _ =>
    if !d.fb F.mdCfg_ext uMedia then (d.raise (mdEv 0x0C05 1 (key % 0x1000))).mdSend key (mPkt 7 q 0 0 (leBytes 4 0xFFFFFFFF))
    else
      let n := (d.md.cmds.filter fun m => m.isOf key q).length
      let d := d.modMd fun s => { s with cmds :=
        (s.cmds.filter fun m => !m.isOf key q || m.begun).map fun m => if m.isOf key q then { m with orig := .dead } else m }
      d.mdSend key (mPkt 7 q 0 0 (leBytes 4 n))

/-- Target queues and host pairs that exist together (R387). -/
def Dev.mdQueues (d : Dev) : Nat := d.md.qps.length + (d.md.conns.map (·.queues)).foldl (· + ·) 0

/-- CONNECT (R378, R387): queues as requested where they remain; the commands per queue, which the spec does not give, are free. -/
def Dev.tgtConnect (d : Dev) (key serial queues : Nat) : Dev :=
  let ready := if key < 8 then decide (d.pkRole key = 2) && decide (d.lstate (12 + key) = 4) else d.fb F.mdCfg_ext uMedia
  if !ready || decide (queues = 0) || decide (8 < queues) then d
  else
    let d := d.dropConn key
    let n := if d.fb F.mdCfg_ext uMedia then queues else min queues (64 - d.mdQueues)
    let depth := 1 + d.freeVal % 65535
    let d := d.useFree.modMd fun s => { s with conns := s.conns ++ [⟨key, serial, n, depth⟩] }
    let d := d.fs F.mdCfg_conns ((d.md.conns.map (·.queues)).foldl (· + ·) 0) uMedia
    let d := if key < 8 then d.setPk key pkReady else d
    let d := if key < 8 then (d.modPport key fun p => { p with job := 0 }).jobDecided (d.pport key).job 0 else d
    d.mdSend key (mPkt 9 0 0 0 (leBytes 1 n ++ leBytes 1 0 ++ leBytes 2 depth ++ leBytes 4 burstBuf))

/-- PM (R378, R390): the state requested is entered and acknowledged. -/
def Dev.tgtPm (d : Dev) (key st : Nat) : Dev :=
  match d.conn key with
  | none => d
  | some _ =>
    if 3 < st then d
    else (if key < 8 then d.fs F.mpStat_pstate st (uPack key) else d).mdSend key (mPkt 0x0B 0 0 0 (leBytes 1 st))

/-- A packet of an initiator handled by the target (R531 hands chain packets here): PTYPE, queue, tag, PFIELD1, profile bytes. -/
def Dev.tgtPacket (d : Dev) (key pt q ctag p1 : Nat) (bs : List Byte) : Dev :=
  match pt with
  | 1 => d.tgtCmd key q ctag bs
  | 3 => d.tgtDataOut key q ctag p1 bs
  | 6 => d.tgtReset key q
  | 8 => d.tgtConnect key (rdLe bs 0 8) (rdLe bs 8 1)
  | 0x0A => d.tgtPm key (rdLe bs 0 1)
  | _ => d

def execCmd (n : Fin 8) (q : Fin 8) (ctag : Nat) (cmd : List Byte) (s : State) : Host.Outcome State Fault Refusal :=
  s.onDev fun d => d.tgtCmd n q ctag cmd
def execDataOut (n : Fin 8) (q : Fin 8) (ctag off : Nat) (bytes : List Byte) (s : State) : Host.Outcome State Fault Refusal :=
  s.onDev fun d => d.tgtDataOut n q ctag off bytes
def execXferTimeout (n : Fin 8) (q : Fin 8) (ctag : Nat) (s : State) : Host.Outcome State Fault Refusal :=
  s.onDev fun d => d.tgtTimeout n q ctag
def execQreset (n : Fin 8) (q : Fin 8) (s : State) : Host.Outcome State Fault Refusal := s.onDev fun d => d.tgtReset n q
def execConnect (n : Fin 8) (serial queues : Nat) (s : State) : Host.Outcome State Fault Refusal :=
  s.onDev fun d => d.tgtConnect n serial queues
def execPm (n : Fin 8) (state : Fin 4) (s : State) : Host.Outcome State Fault Refusal := s.onDev fun d => d.tgtPm n state

/-! ### The initiator side -/

/-- The issued command of port n with a queue and tag. -/
def Dev.pkFind (d : Dev) (n q ctag : Nat) : Option PCmd :=
  d.md.pcmds.find? fun c => decide (c.port = n) && c.issued && decide (c.q = q) && decide (c.ctag = ctag)

/-- XFER_RDY (R379): the burst is answered with DATA_OUT packets in ascending offset. -/
def Dev.iniXferRdy (d : Dev) (n q ctag off len : Nat) : Dev :=
  match d.pkFind n q ctag with
  | none => d
  | some c =>
    let bs := sliceB c.data.enc off len
    ((List.range (ceilDiv len 8192)).foldl (fun e i =>
      e.mdSend n (mPkt 3 q ctag (off + 8192 * i) ((bs.drop (8192 * i)).take 8192))) d).pkBytes n len

/-- DATA_IN (R379): into the host's buffer, or kept for the command's sender. -/
def Dev.iniDataIn (d : Dev) (n q ctag off : Nat) (bs : List Byte) : Dev :=
  match d.pkFind n q ctag with
  | none => d
  | some c =>
    let d := d.pkBytes n bs.length
    match d.md.cmds.find? fun m => decide (m.id = c.parent) with
    | none => d
    | some m =>
      match m.orig with
      | .host _ _ => d.hostW m.owner (m.buf + c.off + off) bs
      | .dead => d
      | _ => d.setMcmd { m with data := overlay m.data (c.off + off) bs }

/-- A former lead that finds itself fenced (R520): TWIN_ACTIVE falls, its streams, its outputs and its writes stop, it is ISOLATED. -/
def Dev.isolate (d : Dev) : Dev :=
  let d := (d.fs F.twStat_role roleIsolated uTwin).fs F.twStat_active 0 uTwin
  let d := { d with pins := { d.pins with twinActive := false }, tw := { d.tw with attached := false } }
  let d := ((List.range 8).filter d.strRun).foldl (fun e s => (e.modStr s fun t => { t with frames := [] }).strStopNow s) d
  let d := (List.range 4).foldl (fun (e : Dev) n =>
    ((e.fs F.opStat_state 0 uScan n).fs F.opStat_lanes 0 uScan n).fs F.opStat_rate 0 uScan n) (d.fs F.scCtl_outEn 0 uScan)
  d.raise { code := 0x1208, sev := 3, unit := uTwin, d0 := (d.rd .twPeerLo uTwin).toNat }

/-- RESP (R377): STATUS and RESULT of a pack command. -/
def Dev.iniResp (d : Dev) (n q ctag status : Nat) : Dev :=
  match d.pkFind n q ctag with
  | none => d
  | some c =>
    let d := d.modPport n fun p => { p with attempts := 0 }
    let d := if status = 0 then d else d.fadd F.mpCnt_mediaErr 1 (uPack n)
    let met := decide (status = 0x0C09) && c.writes
    let d := if status = 0x0C09 then (d.raise (mdEv 0x0C09 2 n c.lba)).setPk n pkFenced else d
    let d := if met && decide (d.role = roleLead) then d.isolate else d
    ((d.pcmdEnd c status).pumpAll).tgtPumpAll

def execXferRdy (n : Fin 8) (q : Fin 8) (ctag off len : Nat) (s : State) : Host.Outcome State Fault Refusal :=
  s.onDev fun d => d.iniXferRdy n q ctag off len
def execDataIn (n : Fin 8) (q : Fin 8) (ctag off : Nat) (bytes : List Byte) (s : State) : Host.Outcome State Fault Refusal :=
  s.onDev fun d => d.iniDataIn n q ctag off bytes
def execResp (n : Fin 8) (q : Fin 8) (ctag status : Nat) (s : State) : Host.Outcome State Fault Refusal :=
  s.onDev fun d => d.iniResp n q ctag status

/-- QRESET_DONE: the outcome is kept; the device itself sends no QRESET to a pack (R377, R387). -/
def execQresetDone (n : Fin 8) (q : Fin 8) (count : Nat) (s : State) : Host.Outcome State Fault Refusal :=
  s.onDev fun d => d.modPport n fun p => { p with reset := some (q.val, count) }

/-- Clips of the volume that a port's pack is a member of. -/
def Dev.inVol (d : Dev) (n : Nat) : Bool := match d.md.vol with
  | some v => v.ports.contains n
  | none => false

/-- A pack of the volume has failed (R398): every recording clip closes at its last whole record, the volume serves reads only. -/
def Dev.volFails (d : Dev) (n : Nat) : Dev :=
  if d.inVol n then
    d.modMd fun m => { m with
      vol := m.vol.map fun v => { v with readOnly := true }
      recs := m.recs.map fun r => { r with phase := max r.phase 1, flags := r.flags ||| 2 ^ 29 } }
  else d

/-- The pack is FAILED (R377): the link goes down and every command outstanding completes with E_MD_PACK_FAIL. -/
def Dev.packFails (d : Dev) (n : Nat) : Dev :=
  let job := (d.pport n).job
  let d := d.raise (mdEv 0x0C07 3 n)
  let d := ((d.leaveUp (12 + n) 0xFFFFFFFF).setLinkSt (12 + n) {}).setLstate (12 + n) (if d.lstate (12 + n) = 0 then 0 else 1)
  let d := (d.setPk n pkFailed).modPport n fun p => { p with queues := 0, attempts := 0, job := 0 }
  let d := d.volFails n
  ((d.pkEndAll n 0x0C07).jobDecided job 0x0C07).pumpAll.tgtPumpAll

def execPackTimeout (n : Fin 8) (s : State) : Host.Outcome State Fault Refusal := s.onDev fun d =>
  if d.md.pcmds.any fun c => decide (c.port = n.val) && c.issued then (d.fadd F.mpCnt_timeouts 1 (uPack n)).packFails n else d

/-- CONNECT sent (R378): eight queues asked for. -/
def Dev.pkConnectNow (d : Dev) (n : Nat) : Dev := (d.setPk n pkConnect).mdSend n (mPkt 8 0 0 0 (leBytes 8 Config.serial ++ leBytes 1 8))

/-- MEDIA_RECONNECT: the link is UP (R375, R380). Commands still unanswered after the third attempt fail with the pack. -/
def Dev.pkReconnect (d : Dev) (n : Nat) : Dev :=
  if d.pkRole n ≠ 1 ∨ d.lstate (12 + n) ≠ 4 ∨ !(d.pkState n = pkDown ∨ d.pkPower n ≠ 0) then d
  else
    let again := d.md.pcmds.any fun c => decide (c.port = n) && decide (c.ctag ≠ 0)
    let k := (d.pport n).attempts
    if again && decide (3 ≤ k) then (d.raise (mdEv 0x0C08 2 n)).packFails n
    else (d.modPport n fun p => { p with attempts := if again then k + 1 else 0 }).pkConnectNow n

def execMediaReconnect (n : Fin 8) (s : State) : Host.Outcome State Fault Refusal := s.onDev fun d => d.pkReconnect n

/-- What R375 asks of a pack's IDENTIFY page. -/
def packFit (p : List Byte) : Bool :=
  let f := rdLe p
  decide (f 0 4 = 0x44494D42) && decide (f 4 2 = 1) && decide (f 6 1 % 8 = 7) && decide (1024 ≤ f 0x18 4) && decide (f 0x24 4 ≤ 20) &&
  decide (f 0x28 4 ≤ 2000) && decide (f 0x2C 4 ≤ 150000)

/-- A lead fences a pack that connects before its other commands there go out (R376). -/
def Dev.fenceFirst (d : Dev) (n : Nat) : Dev :=
  let d := d.fencePort n
  let first := fun (c : PCmd) => decide (c.port = n) && decide (c.opc = 6)
  d.modMd fun m => { m with pcmds := m.pcmds.filter first ++ m.pcmds.filter fun c => !first c }

/-- CONNECT_ACK (R375, R380): the grant is taken and IDENTIFY read (`page`); an unfit pack is UNFIT, else outstanding commands go out
again in their order. -/
def Dev.connectAck (d : Dev) (n queues depth burst : Nat) (page : List Byte) : Dev :=
  if d.pkRole n ≠ 1 ∨ d.pkState n ≠ pkConnect then d
  else
    let d := d.modPport n fun p => { p with queues := queues, depth := depth, burst := burst, ident := fitB page blkBytes }
    let d := d.mdSend n (mPkt 1 0 0 0 (cmdUnit 4 0 0 0 0 0))
    let job := (d.pport n).job
    if !packFit page then
      let d := ((d.raise (mdEv 0x0C06 2 n)).setPk n pkUnfit).modPport n fun p => { p with job := 0 }
      (d.pkEndAll n 0x0C07).jobDecided job 0x0C06
    else
      let re := (d.md.pcmds.filter fun c => decide (c.port = n) && decide (c.ctag ≠ 0)).length
      let d := if d.role = roleLead then d.fenceFirst n else d
      let d := ((d.setPk n pkReady).fs F.mpStat_pstate 0 (uPack n)).fadd F.mpCnt_retries re (uPack n)
      ((d.modPport n fun p => { p with job := 0 }).jobDecided job 0).pump n

def execConnectAck (n : Fin 8) (queues depth burst : Nat) (page : List Byte) (s : State) : Host.Outcome State Fault Refusal :=
  s.onDev fun d => d.connectAck n queues depth burst page

/-! ### Power states (R390) -/

/-- The port must stay in M0: a clip of its volume records, or a ring is armed. -/
def Dev.pkBusy (d : Dev) (n : Nat) : Bool :=
  (d.md.pcmds.any fun c => decide (c.port = n)) || (d.inVol n && !(d.md.recs.isEmpty && d.md.rings.isEmpty))

/-- The idle timer of state M1 to M3 is enabled. -/
def Dev.pkIdle (d : Dev) (n st : Nat) : Bool :=
  decide (d.fg (if st = 1 then F.mpIdle_idle1 else if st = 2 then F.mpIdle_idle2 else F.mpIdle_idle3) (uPack n) ≠ 0)

/-- IDLE_TIMER_EXPIRY: the port sends PM for a state beyond its present one. -/
def execIdleTimerExpiry (n : Fin 8) (state : Fin 4) (s : State) : Host.Outcome State Fault Refusal := s.onDev fun d =>
  if d.pkRole n = 1 ∧ d.pkState n = pkReady ∧ !d.pkBusy n ∧ d.pkPower n < state.val ∧ d.pkIdle n state then
    d.mdSend n (mPkt 0x0A 0 0 0 (leBytes 1 state.val))
  else d

/-- PM_ACK (R390): the state is entered. In M2 the lanes are idle and in M3 the quad is OFF, so the connection is made anew at the
exit; `late` tells that an exit overran its latency. -/
def Dev.pmAck (d : Dev) (n st : Nat) (late : Bool) : Dev :=
  let d := if late then d.raise (mdEv 0x0C14 2 n) else d
  if d.pkRole n ≠ 1 ∨ (d.pkState n ≠ pkReady ∧ d.pkState n ≠ pkFenced) then d
  else
    let d := d.fs F.mpStat_pstate st (uPack n)
    let d := if 2 ≤ st ∧ d.lstate (12 + n) = 4 then ((d.setLinkSt (12 + n) {}).setLstate (12 + n) (if st = 2 then 1 else 0)).modPport n
        fun p => { p with queues := 0 }
      else d
    if d.md.pcmds.any fun c => decide (c.port = n) then (if st = 0 then d.pump n else d.pkWake n) else d

def execPmAck (n : Fin 8) (state : Fin 4) (late : Bool) (s : State) : Host.Outcome State Fault Refusal :=
  s.onDev fun d => d.pmAck n state late

/-- A 32-bit read of MP_CNT of port n clears it (R403). -/
def execMpCntRead (m : Nat) (n : Fin 8) (s : State) : Host.Outcome State Fault Refusal :=
  s.access m fun d => d.readClear m .mpCnt (uPack n) 0 [F.mpCnt_retries, F.mpCnt_timeouts, F.mpCnt_mediaErr]

end Sys2Proof.Machine
end

