-- ==== Sys2Proof/Machine/Recording.lean ====
section
/-! DEFINITION. Chapter 13, recording: RECBUF (R396, R397), records (R395), AUs as they are assembled at recoat point E (R391, R417, R418),
runs and clip entries (R392, R394), stop and close (R398), CLIPSYNC (R513), burst copies and drains (R400, R401). -/
namespace Sys2Proof.Machine

/-- Stream bytes a second of a declared rate in MB/s. -/
def rateBytes (rate : Nat) : Nat := rate * 1000000

/-- Runs that hold n stream bytes. -/
def runsFor (n : Nat) : Nat := max 1 (ceilDiv n (256 * auData))

/-! ### Writes to the volume (R391 to R394) -/

/-- A logical AU written; its command's identifier. The write waits for command `after` (0 none). -/
def Dev.auCmd (d : Dev) (v : Vol) (orig : MOrig) (au after : Nat) (data : MData) : Dev × Nat :=
  let m := max 1 v.ports.length
  let port := v.ports.getD (au % m) 0
  let id := d.md.nextCmd
  (d.mdBegin ⟨0, orig, 2, false, 0, 0, au * 256, 256, 0, 0, false, 0, 0, [], none, 0⟩
    [⟨port, 0, 2, au / m * 256, 256, 0, 0, data, after, false, 0, 0⟩], id)

/-- An AU of volume metadata written with its next GEN (R391). -/
def Dev.metaWrite (d : Dev) (orig : MOrig) (au after : Nat) (mk : Nat → Vol → MData) : Dev × Nat :=
  match d.md.vol with
  | none => (d, after)
  | some v =>
    let g := (tget v.gens au).getD 0 + 1
    let v := { v with gens := tset v.gens au g }
    (d.modMd fun m => { m with vol := some v }).auCmd v orig au after (mk g v)

/-- The AU of the clip table that holds an entry, written (R394). -/
def Dev.writeEntry (d : Dev) (orig : MOrig) (clip after : Nat) : Dev × Nat :=
  match d.md.vol with
  | none => (d, after)
  | some v => d.metaWrite orig (v.hdr.members + clip / 4080) after fun g v => .clips (clip / 4080) g v.hdr.id v.clips

/-- Run-table AUs that hold some runs, written one after the other (R396). -/
def Dev.writeRuns (d : Dev) (orig : MOrig) (runs : List Nat) (after : Nat) : Dev × Nat :=
  ((runs.map (· / 261120)).eraseDups).foldl (fun (e : Dev × Nat) j =>
    match e.1.md.vol with
    | none => e
    | some v => e.1.metaWrite orig (v.hdr.rtAu + j) e.2 fun g v => .runs j g v.hdr.id v.runs) (d, after)

/-- Free runs, from a free starting point: which ones firmware takes is open (log entry 32). -/
def Dev.freeRuns (d : Dev) (v : Vol) (n : Nat) : List Nat :=
  let l := (List.range v.hdr.runs).filter fun r => (tget v.runs r).isNone
  let k := d.freeVal % max 1 l.length
  (l.drop k ++ l.take k).take n

/-- Runs linked to one another as a chain that ends the clip. -/
def linkRuns (t : Tab Nat) : List Nat → Tab Nat
  | [] => t
  | [r] => tset t r runLast
  | r :: x :: rs => linkRuns (tset t r x) (x :: rs)

def Vol.chain (v : Vol) (first : Nat) : List Nat := runChain v.runs (v.runs.length + 1) first

/-- The entry of a clip changed. -/
def Dev.modClip (d : Dev) (clip : Nat) (f : Clip → Clip) : Dev :=
  d.modMd fun m => { m with vol := m.vol.map fun v => { v with clips := tmod v.clips clip f } }

def Dev.clipEntry (d : Dev) (clip : Nat) : Option Clip := d.md.vol.bind fun v => tget v.clips clip

/-- n more runs for a clip (R396); none where no free run remains. -/
def Dev.extendRuns (d : Dev) (clip n : Nat) : Option (Dev × Nat) :=
  match d.md.vol, d.clipEntry clip with
  | some v, some c =>
    match d.freeRuns v n with
    | [] => none
    | r :: rs =>
      let old := (v.chain c.first).getLast?
      let t := linkRuns v.runs (r :: rs)
      let t := match old with
        | some l => tset t l r
        | none => t
      let d := d.useFree.modMd fun m => { m with vol := some { v with runs := t } }
      some (d.writeRuns (.tab 0) ((old.map fun l => [l]).getD [] ++ r :: rs) 0)
  | _, _ => none

/-! ### RECBUF (R396, R397) -/

/-- Bytes of RECBUF in use: parts taken, and AUs on their way. -/
def Rec.inUse (r : Rec) : Nat := (r.used.map (·.size)).foldl (· + ·) 0 + 1048576 * r.out.length

/-- A part of RECBUF; its number. -/
def Rec.take (r : Rec) (n : Nat) : Option (Nat × Nat × Rec) :=
  let n := ceilDiv n 64 * 64
  if r.size < r.inUse + n then none
  else
    match (gapsIn (r.base + r.size) r.base r.used).find? fun g => decide (g.1 + n ≤ g.2) with
    | none => none
    | some g => some (r.nextBuf, g.1, { r with used := insArea r.used ⟨g.1, n, r.nextBuf⟩, nextBuf := r.nextBuf + 1 })

def Rec.freeBuf (r : Rec) (b : Nat) : Rec :=
  { r with used := r.used.filter fun a => decide (a.tag ≠ b), fed := tdel r.fed b }

/-- The queue and buffer size of a codec or audio track; none for others. -/
def Dev.trackQ (d : Dev) (t : Track) : Option (Nat × Nat) :=
  if t.kind = 1 then
    (d.psSrc (d.psStr t.obj).cfg).map fun s => (d.fg F.cst_bufq uCodec t.obj, chunkMax s (d.psStr t.obj).slices (d.psStr t.obj).chunkRows)
  else if t.kind = 3 then some (d.audF F.auBlk_qid t.obj, d.audBytes t.obj)
  else none

/-- The service supplies buffers to a track's queue while RECBUF has room: eight at a time (DESIGN CHOICE, log entry 33). -/
def Dev.feedTrack (d : Dev) (clip i : Nat) (t : Track) : Nat → Dev
  | 0 => d
  | k + 1 =>
    match d.trackQ t, d.md.recs.find? fun r => decide (r.clip = clip) with
    | some (q, n), some r =>
      if 8 ≤ (r.fed.filter fun p => decide (p.2 = i)).length ∨ (d.q q).room = 0 ∨ (d.q q).rstate = 0 then d
      else
        match r.take n with
        | none => d
        | some (b, a, r') =>
          let e : Entry := { Entry.zero with
            opcode := if t.kind = 1 then 0x61 else 0x63, typ := 1, notify := true, epoch := (d.q q).epoch, unit := (d.q q).unit,
            replyQid := r.replyQ, master := 0x40, seq := b % 0x10000, body := leBytes 8 a ++ leBytes 8 (ceilDiv n 64 * 64) ++ leBytes 16 0 }
          ((d.modRec clip fun _ => { r' with fed := tset r'.fed b i }).enqueue q e).feedTrack clip i t k
    | _, _ => d

def Dev.feedRec (d : Dev) (clip : Nat) : Dev :=
  match d.md.recs.find? fun r => decide (r.clip = clip) with
  | none => d
  | some r =>
    if r.started ∧ r.phase < 2 ∧ r.ring = none then (r.tracks.zipIdx).foldl (fun e p => e.feedTrack clip p.2 p.1 8) d else d

/-! ### What records hold (R395) -/

/-- The line checks of rows [y, y + n) of camera c's slot at `a`: offset in the packed rows, length, CRC-64. -/
def Dev.rawChecks (d : Dev) (c a y n : Nat) : List (Nat × Nat × Nat) :=
  let dep := d.camDepth c
  let rb := d.camF F.camSize_width c * dep / 8
  (List.range n).flatMap fun i =>
    ((d.memberSrcs c).filter fun x => decide (d.srcF F.srcPos_y x ≤ y + i) && decide (y + i < d.srcF F.srcPos_y x + d.srcF F.srcGeom_height x)).map
      fun x =>
        let line := d.memberP c (d.srcF F.srcCfg_member x) + (y + i - d.srcF F.srcPos_y x)
        (i * rb + d.srcF F.srcPos_x x * dep / 8, d.srcF F.srcGeom_width x * dep / 8, rdLe (d.hbmR (a + d.camLinesOff c + 32 * line + 8) 8) 0 8)

/-- Packed rows without row padding. -/
def Dev.rowsOf (d : Dev) (c a y n : Nat) : List Byte :=
  (List.range n).flatMap fun i => d.hbmR (a + (y + i) * d.camF F.camStride_stride c) (d.camF F.camSize_width c * d.camDepth c / 8)

/-- The records of one frame for a track of kind 2, 4 or 5, as TYPE, payload and line checks. -/
def Dev.frameRecs (d : Dev) (kind c n : Nat) : List (Nat × List Byte × List (Nat × Nat × Nat)) :=
  let a := d.slotAddr c n
  let h := d.camF F.camSize_height c
  if kind = 2 then
    (List.range (ceilDiv h 64)).map fun k =>
      let rows := min 64 (h - 64 * k)
      (3, d.rowsOf c a (64 * k) rows, d.rawChecks c a (64 * k) rows)
  else if kind = 4 then [(5, d.hbmR (a + d.camLinesOff c) (32 * d.memberP c (d.camF F.camCfg_members c)), [])]
  else if kind = 5 then
    let ml := rdLe (d.hbmR (a + d.camRecOff c) 256) 32 4
    [(6, d.hbmR (a + d.camRecOff c) (256 + ml), [])]
  else []

/-- A record that firmware itself makes. -/
def Rec.note (r : Rec) (typ track time frame : Nat) (bs : List Byte) : Rec :=
  { r with items := r.items ++ [({ typ := typ, track := track, time := time, frame := frame, inl := bs } : RecItem)] }

/-- A gap: a LOSS record, the LOSS flag and E_MD_REC_BEHIND at most once per second and clip (R397). -/
def Dev.recLoss (d : Dev) (clip track first count reason : Nat) : Dev :=
  let now := d.stamp
  let d := d.modRec clip fun r =>
    { r.note 7 track now 0xFFFFFFFF (leBytes 4 first ++ leBytes 4 count ++ leBytes 4 track ++ leBytes 4 reason) with flags := r.flags ||| 2 ^ 31 }
  d.raiseOnce clip 1000000000 (mdEv 0x0C0B 3 clip first)

/-- A frame or block with a START_TIME belongs to the clip (R396, R398). -/
def Rec.wants (r : Rec) (start : Nat) : Bool :=
  r.started && decide (r.startAt ≤ start) && (match r.stopAt with
    | some t => decide (start < t)
    | none => true)

/-- The clip's first video track. -/
def Rec.video (r : Rec) : Option Nat := r.tracks.findIdx? fun t => decide (t.kind = 1) || decide (t.kind = 2)

/-- A recorded frame of a track counted: FRAMES on the first video track, FLAGS, the track's last frame. -/
def Rec.counted (r : Rec) (i frame flags : Nat) : Rec :=
  { r with frames := if r.video = some i then r.frames + 1 else r.frames, flags := r.flags ||| flags % 2 ^ 17,
           tracks := r.tracks.modify i fun t => { t with last := some frame } }

/-- Records put into RECBUF for track i; none where they do not fit together. -/
def Dev.stash (d : Dev) (r : Rec) (i time frame : Nat) : List (Nat × List Byte × List (Nat × Nat × Nat)) → Option (Dev × Rec)
  | [] => some (d, r)
  | (typ, bs, chk) :: rest =>
    match r.take bs.length with
    | none => none
    | some (b, a, r) =>
      let it : RecItem := { typ := typ, track := i, time := time, frame := frame, addr := a, len := bs.length, lines := chk, buf := b }
      (d.hbmW a bs).stash { r with items := r.items ++ [it] } i time frame rest

/-- A closed frame taken into RECBUF by every track that stands for its camera. -/
def Dev.stashFrame (d : Dev) (r : Rec) (rep : FrameRep) : Option (Dev × Rec) :=
  (r.tracks.zipIdx).foldl (fun (s : Option (Dev × Rec)) p =>
    match s with
    | none => none
    | some (e, r) =>
      let t := p.1
      if (t.kind = 2 ∨ t.kind = 4 ∨ t.kind = 5) ∧ t.obj = rep.cam then
        (e.stash r p.2 rep.start rep.frame (e.frameRecs t.kind rep.cam rep.frame)).map fun x => (x.1, x.2.counted p.2 rep.frame rep.flags)
      else some (e, r)) (some (d, r))

/-- Every line of a frame has been committed. -/
def Dev.frameReady (d : Dev) (f : FrameRep) : Bool := d.ing.lines.all fun j => decide (j.cam ≠ f.cam) || decide (j.frame ≠ f.frame)

/-- Closed frames of raw, line and frame-record tracks come in, oldest first, while RECBUF has room; one whose slot was overwritten is a
gap (R397). n bounds them. -/
def Dev.intakeRaw (d : Dev) (clip : Nat) : Nat → Dev
  | 0 => d
  | n + 1 =>
    match d.md.recs.find? fun r => decide (r.clip = clip) with
    | none => d
    | some r =>
      match r.reps with
      | [] => d
      | f :: fs =>
        let drop := fun (e : Dev) => e.modRec clip fun r => { r with reps := fs }
        if !r.wants f.start then (drop d).intakeRaw clip n
        else if !d.rawValid f.cam f.frame then
          let mine := (r.tracks.zipIdx).filter fun p => (decide (p.1.kind = 2) || decide (p.1.kind = 4) || decide (p.1.kind = 5)) && decide (p.1.obj = f.cam)
          ((mine.foldl (fun e p => e.recLoss clip p.2 f.frame 1 3) (drop d))).intakeRaw clip n
        else if !d.frameReady f then d
        else
          match d.stashFrame { r with reps := fs } f with
          | none => d
          | some (e, r') => (e.modRec clip fun _ => r').intakeRaw clip n

/-- A codec unit's completion becomes a record (R365, R395): a frame header tells whether its frame belongs to the clip, and a loss
before it. -/
def Dev.intakePs (d : Dev) (clip i : Nat) (r : Rec) (a : Area) (c : Entry) : Dev :=
  let f := rdLe c.body
  let t := r.tracks.getD i ⟨0, 0, [], [], none⟩
  let drop := fun (e : Dev) => e.modRec clip fun r => r.freeBuf a.tag
  let put := fun (e : Dev) (typ start : Nat) => e.modRec clip fun r =>
    { r with items := r.items ++ [({ typ := typ, track := i, time := start, frame := f 16 4, addr := a.base, len := f 8 4, buf := a.tag } : RecItem)],
             fed := tdel r.fed a.tag }
  if f 4 1 = 0 then
    let h := d.hbmR a.base 128
    let start := rdLe h 0x20 8
    let ok := r.wants start
    let d := d.modRec clip fun r => { r with tracks := r.tracks.modify i fun t => { t with frames := (f 0 4, f 16 4, start, ok) :: t.frames.take 15 } }
    if !ok then drop d
    else
      let lost := (rdLe h 0x1E 1).testBit 1
      let first := (t.last.map (· + 1)).getD (f 16 4)
      let d := if lost then d.recLoss clip i first (max 1 (f 16 4 - first)) 2 else d
      (put d 1 start).modRec clip fun r => r.counted i (f 16 4) (rdLe h 0x28 4)
  else
    match t.frames.find? fun x => decide (x.1 = f 0 4) with
    | some (_, _, start, true) => put d 2 start
    | _ => drop d

/-- An audio block's completion becomes a record (R477, R478); blocks lost before it are a gap. -/
def Dev.intakeAu (d : Dev) (clip i : Nat) (r : Rec) (a : Area) (c : Entry) : Dev :=
  let t := rdLe c.body 8 8
  let len := 64 + rdLe (d.hbmR a.base 32) 20 2 * rdLe (d.hbmR a.base 32) 5 1 * 4
  let lost := rdLe (d.hbmR a.base 32) 28 4
  if !r.wants t then d.modRec clip fun r => r.freeBuf a.tag
  else
    let d := if lost = 0 then d else d.recLoss clip i (rdLe c.body 0 4 - lost) lost 1
    d.modRec clip fun r => { r with
      items := r.items ++ [({ typ := 4, track := i, time := t, frame := 0xFFFFFFFF, addr := a.base, len := len, buf := a.tag } : RecItem)],
      fed := tdel r.fed a.tag }

/-- Completions of a clip's codec and audio buffers come in. -/
def Dev.intakeDone (d : Dev) (clip : Nat) : Dev :=
  match d.md.recs.find? fun r => decide (r.clip = clip) with
  | none => d
  | some r =>
    if r.replyQ = 0 then d
    else
      let q := d.q r.replyQ
      let d := d.setQ r.replyQ { q with ents := [], head := q.tail }
      q.ents.foldl (fun e c =>
        match e.md.recs.find? fun r => decide (r.clip = clip) with
        | none => e
        | some r =>
          match r.used.find? fun a => decide (a.tag % 0x10000 = c.seq) with
          | none => e
          | some a =>
            match tget r.fed a.tag with
            | none => e
            | some i =>
              if c.typ ≠ 2 ∨ c.status ≠ 0 then e.modRec clip fun r => r.freeBuf a.tag
              else if c.opcode = 0x61 then e.intakePs clip i r a c
              else e.intakeAu clip i r a c) d

/-! ### AUs (R391, R417, R418) -/

/-- The payload as it stands in RECBUF, or as firmware holds it. -/
def Dev.itemBytes (d : Dev) (it : RecItem) : List Byte := if it.len = 0 then it.inl else d.hbmR it.addr it.len

/-- The inner checks of a record (R417): a chunk's HCRC and PCRC, the CRC-64 of each member line of a raw-row record. -/
def innerOk (it : RecItem) (bs : List Byte) : Bool :=
  if it.typ = 2 then decide (rdLe bs 0x3C 4 = crc32c (bs.take 0x3C)) && decide (crc32c (bs.drop 64) = rdLe bs 0x20 4)
  else if it.typ = 3 then it.lines.all fun l => decide (crc64 (sliceB bs l.1 l.2.1) = l.2.2)
  else true

/-- What a reading of a record's payload gave, where it differs from memory: RSEQ, whether it was the second reading, the bytes. -/
abbrev Reads := List (Nat × Bool × List Byte)

/-- One record enters the AU being assembled (R417, R418). -/
def Dev.takeItem (d : Dev) (clip : Nat) (reads : Reads) (r : Rec) (it : RecItem) : Dev × Rec :=
  let seen := fun (second : Bool) => (((reads.find? fun x => decide (x.1 = r.rseq) && (x.2.1 == second)).map (·.2.2))).getD (d.itemBytes it)
  let good := innerOk it (seen false)
  let bs := if good then seen false else seen true
  let d := if good then d else d.mismatch 5 3 uMedia clip r.rseq 0
  let b := recBytes it.typ it.track it.time it.frame r.rseq bs
  let sha := shaOn r.sha b
  let r := if it.buf = 0 then r else r.freeBuf it.buf
  (d, { r with part := r.part ++ b, total := r.total + b.length, sha := sha, flushed := false, rseq := r.rseq + 1,
               ends := ⟨r.total + b.length, sha, r.rseq, it.time, it.frame⟩ :: r.ends })

/-- Records enter until the AU is full. -/
def Dev.takeItems (d : Dev) (clip : Nat) (reads : Reads) (r : Rec) : List RecItem → Dev × Rec
  | [] => (d, { r with items := [] })
  | it :: its =>
    if auData ≤ r.part.length then (d, { r with items := it :: its })
    else
      let x := d.takeItem clip reads r it
      x.1.takeItems clip reads x.2 its

/-- The WRITE of AU number r.au, holding `used` bytes, after `sha`: its run is linked first where the clip has none left (R396). The
device is unchanged where no free run remains, and E_MD_FULL stops the clip. -/
def Dev.issueAu (d : Dev) (r : Rec) (used : List Byte) (sha : List Nat) : Option (Dev × Rec) :=
  match d.md.vol, d.clipEntry r.clip with
  | some v, some c =>
    let short := decide ((v.chain c.first).length ≤ r.au / 256)
    match (if short then d.extendRuns r.clip (runsFor (rateBytes r.rate)) else some (d, r.after)) with
    | none => none
    | some (d, after) =>
      let v := d.md.vol.getD v
      let run := (v.chain c.first).getD (r.au / 256) 0
      let g := r.gen + 1
      let e := (d.auCmd v (.au r.clip r.au) (v.hdr.dataAu + 256 * run + r.au % 256) after (.bytes (auBytes v.hdr.id r.clip r.au g used))).1
      some (e, { r with gen := g, after := after, out := r.out ++ [(r.au, r.au * auData + used.length, sha)],
                        issued := r.au * auData + used.length })
  | _, _ => none

/-- A clip that must end: its phase advances and it says why. -/
def Dev.recFull (d : Dev) (clip : Nat) : Dev :=
  (d.raise (mdEv 0x0C0D 2 clip)).modRec clip fun r => { r with phase := max r.phase 1, stopAt := some (r.stopAt.getD d.stamp) }

/-- A full AU leaves the assembly, where one is full and RECBUF holds another (R397). -/
def Dev.cutAu (d : Dev) (r : Rec) : Dev :=
  if r.part.length < auData ∨ (r.size < r.inUse + 1048576 ∧ r.ring = none) then d.modRec r.clip fun _ => r
  else
    let b := r.part.take auData
    let sha := shaOn r.auSha b
    match d.issueAu r b sha with
    | none => (d.modRec r.clip fun _ => r).recFull r.clip
    | some (e, r') => e.modRec r.clip fun x => { r' with
        part := r.part.drop auData, au := r.au + 1, gen := 0, auSha := sha, ended := x.ended, phase := max r.phase x.phase, flushed := false }

/-- The partly filled last AU written, with USED below capacity (R397). -/
def Dev.flushAu (d : Dev) (r : Rec) : Dev :=
  if r.part = [] ∨ r.flushed ∨ auData ≤ r.part.length then d
  else
    match d.issueAu r r.part (shaOn r.auSha r.part) with
    | none => d.recFull r.clip
    | some (e, r') => e.modRec r.clip fun x => { r' with flushed := true, ended := x.ended, phase := max r.phase x.phase }

/-! ### Stop and close (R398) -/

def Dev.ring (d : Dev) (k : Nat) : Option Ring := tget d.md.rings k
def Dev.clipRec (d : Dev) (clip : Nat) : Option Rec := d.md.recs.find? fun r => decide (r.clip = clip)

/-- Frames that started before a time are still to come from track t. -/
def Dev.trackBusy (d : Dev) (r : Rec) (t : Track) (stop : Nat) : Bool :=
  let camOpen := fun (c : Nat) => (d.cam c).opn && decide ((d.cam c).start < stop)
  if t.kind = 1 then
    let st := d.psStr t.obj
    let c := if st.kind = 0 then st.idx else d.strF F.strCfg_camera st.idx
    st.run && (camOpen c || (d.ps.reps.any fun f => decide (f.cam = c) && decide (f.start < stop)) ||
      (st.frames.any fun f => decide (f.start < stop)) || (st.kind = 1 && d.pipe.frames.any fun f => decide (f.rep.cam = c) && decide (f.rep.start < stop)))
  else if t.kind = 3 then false
  else camOpen t.obj || r.reps.any fun f => decide (f.cam = t.obj) && decide (f.start < stop)

/-- The clip's codec streams stop, and its audio buffers are no longer supplied. -/
def Dev.stopStreams (d : Dev) (r : Rec) : Dev :=
  (r.tracks.filter fun t => decide (t.kind = 1)).foldl (fun e t =>
    if (e.psStr t.obj).run && !(e.psStr t.obj).stopping then (e.modPs t.obj fun x => { x with stopping := true }).psSettle t.obj else e) d

/-- AU writes of the clip that have not ended. -/
def Dev.auOut (d : Dev) (clip : Nat) : Bool := d.md.cmds.any fun m => match m.orig with
  | .au c _ => decide (c = clip)
  | _ => false

/-- The clip's entry written as CLOSED, its job decided with that write, its buffers released. A clip that a pack failure stopped ends
at its last record whose AUs have all completed. -/
def Dev.closeClip (d : Dev) (r : Rec) : Dev :=
  let cut := if r.flags.testBit 29 then (r.ends.find? fun e => decide (e.off ≤ r.doneTo)) else r.ends.head?
  let len := (cut.map (·.off)).getD 0
  let sha := (cut.map (·.sha)).getD sha0
  let d := d.modClip r.clip fun c => { c with
    state := 2, length := len, stop := r.stopAt.getD d.stamp, frames := r.frames, flags := r.flags, sha := shaEnd sha [] len,
    aus := ceilDiv len auData, triggers := ((r.ring.bind d.ring).map (·.triggers)).getD 0 }
  let d := d.modMd fun m => { m with recs := m.recs.filter fun x => decide (x.clip ≠ r.clip) }
  let d := if r.replyQ = 0 then d else d.destroyQ r.replyQ
  let d := d.freeArea (tagOf 15 r.clip)
  ((d.disarmClip r.clip).writeEntry (.tab r.job) r.clip r.after).1

/-- CLIPS of MD_CFG: recordings and rings (R404). -/
def Dev.syncClips (d : Dev) : Dev :=
  d.fs F.mdCfg_clips ((d.md.recs.filter fun x => x.ring.isNone).length + d.md.rings.length) uMedia

/-- What a stopping clip can do next: stop its streams, write its final AU, close (R398). -/
def Dev.recSettle (d : Dev) (clip : Nat) : Dev :=
  match d.clipRec clip with
  | none => d
  | some r =>
    if r.phase = 0 then d
    else
      let failed := r.flags.testBit 29
      let stop := r.stopAt.getD d.stamp
      let busy := r.ring.isNone && !failed && r.tracks.any fun t => d.trackBusy r t stop
      if busy then d
      else
        let d := d.stopStreams r
        let run := r.tracks.any fun t => decide (t.kind = 1) && (d.psStr t.obj).run
        if !failed && (run || decide ((d.q r.replyQ).ents ≠ []) || decide (r.items ≠ []) || decide (auData ≤ r.part.length)) then d
        else
          let d := if r.phase = 1 ∧ !failed then (d.flushAu r).modRec clip fun r => { r with phase := 2 } else d
          match d.clipRec clip with
          | none => d
          | some r => if d.auOut clip || !(r.ended.isEmpty) then d else (d.closeClip r).syncClips

/-- A recording begins to stop at a stop time (a stamp). -/
def Dev.recStop (d : Dev) (clip stop : Nat) : Dev :=
  (d.modRec clip fun r => { r with phase := max r.phase 1, stopAt := some stop }).recSettle clip

/-! ### The three steps of a recording -/

/-- Whether the device writes packs now (R376, R507, R520, R521). -/
def Dev.mayWrite (d : Dev) : Bool :=
  decide (d.role ≠ roleShadow) && decide (d.role ≠ roleIsolated) && decide (d.role ≠ 3) && !d.hl.fatal &&
    !(d.tw.handing && decide (stampNs d.tw.handAt ≤ d.devNs))

/-- POINT_E_ASSEMBLY of a clip (R417, R418): frames and completions come in, records are assembled, a full AU is written. `reads` tells
readings that differ from what RECBUF holds. On a shadow records wait in RECBUF (R518). -/
def Dev.pointE (d : Dev) (clip : Nat) (reads : Reads) : Dev :=
  let d := (d.intakeDone clip).intakeRaw clip 4096
  let d := if d.mayWrite then
      match d.clipRec clip with
      | none => d
      | some r => if 2 ≤ r.phase ∨ !r.started then d else
        let x := d.takeItems clip reads r r.items
        x.1.cutAu x.2
    else d
  (d.feedRec clip).recSettle clip

def execPointEAssembly (clip : Nat) (reads : List (Nat × Bool × List Byte)) (s : State) : Host.Outcome State Fault Refusal :=
  s.onDev fun d => d.pointE clip reads

/-- FLUSH_TIMER (R397): the partial last AU of every recording clip is written. -/
def execFlushTimer (s : State) : Host.Outcome State Fault Refusal := s.onDev fun d =>
  if d.mayWrite then d.md.recs.foldl (fun e r => if r.phase < 2 then e.flushAu r else e) d else d

/-- CLIPSYNC of an AU written (R513): AUSEQ, next RSEQ, START_TIME of the last complete frame, bytes, SHA-256 state. -/
def Dev.clipSync (d : Dev) (r : Rec) (au bytes : Nat) (sha : List Nat) : Dev :=
  if d.role = roleLead ∧ d.tw.attached then
    let whole := r.ends.filter fun e => decide (e.off ≤ bytes)
    let next := (whole.head?.map fun e => e.rseq + 1).getD 0
    let start := ((whole.find? fun e => decide (e.frame ≠ 0xFFFFFFFF)).map (·.time)).getD 0
    d.twSend 5 0 r.clip (leBytes 4 au ++ leBytes 4 next ++ leBytes 8 start ++ leBytes 8 bytes ++ shaBytes sha)
  else d

/-- AU_WRITE_DONE (R397, R513): the write of an AU has ended. -/
def Dev.auDone (d : Dev) (clip au : Nat) : Dev :=
  match d.clipRec clip with
  | none => d
  | some r =>
    match r.ended.find? fun e => decide (e.1 = au) with
    | none => d
    | some (_, st) =>
      let ended := r.ended.erase (au, st)
      if st ≠ 0 then
        let d := (d.modRec clip fun r => { r with ended := ended, flags := r.flags ||| 2 ^ 29, phase := max r.phase 1 })
        d.recSettle clip
      else
        match r.out.find? fun o => decide (o.1 = au) with
        | none => (d.modRec clip fun r => { r with ended := ended }).recSettle clip
        | some (_, bytes, sha) =>
          let out := r.out.eraseP fun o => decide (o.1 = au)
          let low := out.foldl (fun (a : Nat) o => min a (o.1 * auData)) r.issued
          let done := max r.doneTo low
          let keep := r.ends.filter fun e => decide (done < e.off)
          let last := (r.ends.filter fun e => decide (e.off ≤ done)).take 1
          let d := (d.modRec clip fun r => { r with ended := ended, out := out, doneTo := done }).clipSync r au bytes sha
          ((d.modRec clip fun r => { r with ends := keep ++ last }).feedRec clip).recSettle clip

def execAuWriteDone (clip au : Nat) (s : State) : Host.Outcome State Fault Refusal := s.onDev fun d => d.auDone clip au

/-! ### A clip opened (R396, R401) -/

/-- A free clip entry, from a free starting point (log entry 32). -/
def Dev.freeClip (d : Dev) (v : Vol) : Option Nat :=
  let k := d.freeVal % 65536
  ((List.range 65536).map fun i => (k + i) % 65536).find? fun i => (tget v.clips i).isNone

/-- A clip entry with its runs, written as RECORDING: its index and the last metadata write. Its UUID is random. -/
def Dev.openClip (d : Dev) (kind start nruns : Nat) (tracks : List (List Byte)) (name : List Byte) : Option (Dev × Nat × Nat) :=
  match d.md.vol with
  | none => none
  | some v =>
    let runs := d.freeRuns v nruns
    match d.freeClip v, runs with
    | some i, first :: _ =>
      if runs.length < nruns then none
      else
        let c : Clip := ⟨1, kind, tracks.length, first, 0, start, 0, 0, 0, leBytes 32 0, 0, 0, fitB name 64, leBytes 16 (Config.entropy d.free)⟩
        let d := d.useFree.modMd fun m => { m with
          vol := some { v with clips := tset v.clips i c, heads := tset v.heads i tracks.flatten, runs := linkRuns v.runs runs } }
        let x := d.writeRuns (.tab 0) runs 0
        let y := x.1.writeEntry (.tab 0) i x.2
        some (y.1, i, y.2)
    | _, _ => none

/-- Record 0 of a clip (R395). -/
def headItem (time : Nat) (tracks : List (List Byte)) : RecItem := { typ := 0, track := 0, time := time, frame := 0xFFFFFFFF, inl := tracks.flatten }

/-- A track from its 64-byte descriptor. -/
def trackOf (b : List Byte) : Track := { kind := rdLe b 0 1, obj := rdLe b 1 1, desc := fitB b 64 }

/-! ### Bursts (R400, R401) -/

def Dev.modRing (d : Dev) (k : Nat) (f : Ring → Ring) : Dev := d.modMd fun m => { m with rings := tmod m.rings k f }

/-- Bytes of the records of one frame of a ring (R400): raw rows, line records, frame record with the largest meta area. -/
def Dev.burstBytes (d : Dev) (c : Nat) : Nat :=
  let rb := d.camF F.camSize_width c * d.camDepth c / 8
  let h := d.camF F.camSize_height c
  ((List.range (ceilDiv h 64)).map fun k => recSize (min 64 (h - 64 * k) * rb)).foldl (· + ·) 0 +
  recSize (32 * d.memberP c (d.camF F.camCfg_members c)) + recSize (256 + d.camF F.camCfg_metaKb c * 1024)

/-- A slot in whole pages. -/
def Dev.burstSlot (d : Dev) (c : Nat) : Nat := ceilDiv (d.burstBytes c) 4096 * 4096

/-- The records of a frame placed in a slot, each payload behind room for its head. -/
def Dev.slotRecs (d : Dev) (a time frame : Nat) : List (Nat × Nat × List Byte × List (Nat × Nat × Nat)) → Dev × List RecItem
  | [] => (d, [])
  | (typ, track, bs, chk) :: rest =>
    let it : RecItem := { typ := typ, track := track, time := time, frame := frame, addr := a + 32, len := bs.length, lines := chk }
    let x := (d.hbmW (a + 32) bs).slotRecs (a + recSize bs.length) time frame rest
    (x.1, it :: x.2)

/-- The trigger frame of a time (R401): the latest frame whose START_TIME does not follow it; the next one where there is none. -/
def Dev.trigFrame (d : Dev) (c t : Nat) : Nat :=
  ((((tget d.ing.opened c).getD []).find? fun p => decide (p.2 ≤ t)).map (·.1)).getD (d.cam c).no

/-- The records that a ring's clip holds: CLIP_HEAD, each kept frame's records, MARKs before their frames. -/
def Ring.items (g : Ring) (head : RecItem) (kept : List (Nat × Nat × Nat × List RecItem)) : List RecItem :=
  match g.trig with
  | none => [head]
  | some (tf, t) =>
    let mark := fun (k time frame : Nat) => ({ typ := 8, track := 0, time := time, frame := frame, inl := leBytes 4 k ++ leBytes 12 0 } : RecItem)
    let x := kept.foldl (fun (s : List RecItem × List Nat) f =>
      let due := s.2.filter fun r => decide (r < f.2.1)
      (s.1 ++ due.map (fun r => mark 2 r tf) ++ (if f.1 = tf then [mark 1 t tf] else []) ++ f.2.2.2, s.2.filter fun r => !decide (r < f.2.1)))
      ([head], g.repeats)
    x.1 ++ x.2.map fun r => mark 2 r tf

/-- Descriptors of a burst clip's tracks: raw, line records, frame records of the camera. -/
def burstTracks (c : Nat) : List (List Byte) := [2, 4, 5].map fun k => leBytes 1 k ++ leBytes 1 c ++ leBytes 62 0

/-- A frozen ring drains to a new clip of KIND burst (R401); it waits where no volume, entry or runs are free. -/
def Dev.startDrain (d : Dev) (k : Nat) : Dev :=
  match d.ring k with
  | none => d
  | some g =>
    if !g.frozen ∨ g.drain.isSome ∨ !d.mayWrite then d
    else
      match g.trig with
      | none => d
      | some (tf, t) =>
        let kept := g.copied.filter fun f => decide (tf ≤ f.1 + g.pre) && decide (f.1 < tf + g.post)
        let shortPre := decide ((kept.filter fun f => decide (f.1 < tf)).length < g.pre)
        let its := g.items (headItem t (burstTracks g.cam)) kept
        let bytes := (its.map fun i => recSize (if i.len = 0 then i.inl.length else i.len)).foldl (· + ·) 0
        let start := (kept.head?.map fun f => f.2.1).getD t
        match d.openClip 1 start (runsFor bytes) (burstTracks g.cam) [] with
        | none => d.raiseOnce k 1000000000 (mdEv 0x0C0D 2 k)
        | some (e, i, after) =>
          let flags := kept.foldl (fun (a : Nat) f => a ||| (f.2.2.2.filter fun x => decide (x.typ = 6)).foldl (fun b x => b ||| rdLe (d.hbmR x.addr 32) 24 4 % 2 ^ 17) 0) 0
          let r : Rec := { clip := i, ring := some k, tracks := (burstTracks g.cam).map trackOf, items := its, sha := sha0, auSha := sha0, after := after,
                           startAt := start, stopAt := some ((kept.getLast?.map fun f => f.2.1).getD t), phase := 1,
                           frames := kept.length, flags := flags ||| (if shortPre then 2 ^ 30 else 0) }
          (e.modMd fun m => { m with recs := m.recs ++ [r] }).modRing k fun g => { g with drain := some i }

/-- A ring freezes once T + POST − 1 has been copied (R401). -/
def Dev.ringCheck (d : Dev) (k : Nat) : Dev :=
  match d.ring k with
  | none => d
  | some g =>
    if g.frozen then d.startDrain k
    else
      match g.trig with
      | none => d
      | some (tf, _) =>
        if g.copied.any fun f => decide (tf + g.post ≤ f.1 + 1) then
          ((d.modRing k fun g => { g with frozen := true, reps := [] }).raise (mdEv 0x0C0F 1 k tf)).startDrain k
        else d

/-- BURST_FRAME_COPY: the ring's oldest closed frame is copied into the next slot, the oldest copy leaving a full ring (R400). -/
def Dev.burstCopy (d : Dev) (k : Nat) : Dev :=
  match d.ring k with
  | none => d
  | some g =>
    match g.reps with
    | [] => d.ringCheck k
    | f :: fs =>
      if g.frozen then d.ringCheck k
      else if !d.rawValid f.cam f.frame then (d.modRing k fun g => { g with reps := fs }).ringCheck k
      else if !d.frameReady f then d
      else
        let recs := ([2, 4, 5].zipIdx).flatMap fun p => (d.frameRecs p.1 f.cam f.frame).map fun x => (x.1, p.2, x.2.1, x.2.2)
        let x := d.slotRecs (g.base + g.next * g.slot) f.start f.frame recs
        (x.1.modRing k fun g => { g with
          reps := fs, next := (g.next + 1) % max 1 g.frames,
          copied := (g.copied.drop (g.copied.length + 1 - g.frames)) ++ [(f.frame, f.start, g.next, x.2)] }).ringCheck k

def execBurstFrameCopy (ring : Nat) (s : State) : Host.Outcome State Fault Refusal := s.onDev fun d => d.burstCopy ring

/-- A trigger of a ring at a time in ns (R401). -/
def Dev.burstTrigger (d : Dev) (k ns : Nat) : Dev :=
  match d.ring k with
  | none => d
  | some g =>
    let t := stamp64 ns
    if g.frozen then (d.modRing k fun g => { g with triggers := g.triggers + 1 }).raise (mdEv 0x0C10 2 k)
    else
      match g.trig with
      | some _ => d.modRing k fun g => { g with triggers := g.triggers + 1, repeats := g.repeats ++ [t] }
      | none => (d.modRing k fun g => { g with trig := some (d.trigFrame g.cam t, t) }).ringCheck k

/-- BURST_DRAIN_DONE (R401): the clip is closed; the ring rearms with AUTO, else disarms. -/
def Dev.drainDone (d : Dev) (k : Nat) : Dev :=
  match d.ring k with
  | none => d
  | some g =>
    match g.drain with
    | none => d
    | some clip =>
      if (d.clipRec clip).isSome then d
      else
        if g.auto then d.modRing k fun g => { g with
          reps := [], copied := [], next := 0, trig := none, repeats := [], triggers := 0, frozen := false, drain := none }
        else ((d.modMd fun m => { m with rings := tdel m.rings k }).freeArea (tagOf 16 k)).syncClips

def execBurstDrainDone (ring : Nat) (s : State) : Host.Outcome State Fault Refusal := s.onDev fun d => d.drainDone ring

end Sys2Proof.Machine
end

