-- ==== Sys2Proof/Machine/Media.lean ====
section
/-! DEFINITION. Chapter 13, the MEDIA service (R405): ports, queue pairs, namespaces, volumes, clips, bursts, offload. -/
namespace Sys2Proof.Machine

def vMedia (r : Req) (verb : Nat) (priv : Bool) (body : Dev → VRes Dev) (s : State) : Host.Outcome State Fault Refusal :=
  s.onDev fun d => d.verb r 0x08 verb priv body

/-- Low and high word of a 64-bit value. -/
def lo32 (v : Nat) : Nat := v % 2 ^ 32
def hi32 (v : Nat) : Nat := v / 2 ^ 32 % 2 ^ 32
/-- Ports of a bitmap in ascending order. -/
def portsIn (m : Nat) : List Nat := (List.range 8).filter m.testBit

def execMediaInfo (r : Req) (s : State) : Host.Outcome State Fault Refusal := vMedia r 0 false (fun d =>
  .ok d [1, (d.rd .mdCfg uMedia).toNat, bitmap 8 fun n => decide (d.pkState n = pkReady),
         (d.md.vol.map fun v => v.ports.foldl (fun a n => a + 2 ^ n) 0).getD 0]) s

/-! ### Ports (R374) -/

/-- A port that may not change its role: commands, a connection, a volume or a namespace stand on it. -/
def Dev.pkInUse (d : Dev) (n : Nat) : Bool :=
  (d.md.pcmds.any fun c => decide (c.port = n)) || (d.md.conns.any fun c => decide (c.key = n)) || d.inVol n ||
  d.md.spaces.any fun p => p.2.members.contains n

/-- PORT_SET (R374): the role, MP_IDLE and PACK_TIMEOUT (0: the default 2 s); the job succeeds at READY. -/
def Dev.mdPortSet (d : Dev) (r : Req) : VRes Dev :=
  let n := r.object
  if 7 < n then .err 0x0404
  else if 2 < r.a0 then .err 0x0404 (offArg 0)
  else if !d.linkOn (12 + n) ∨ d.pkInUse n then .err 0x0408
  else
    let up := decide (d.lstate (12 + n) = 4)
    let e := (d.fs F.mpStat_role r.a0 (uPack n)).wr .mpIdle (uPack n) 0 (BitVec.ofNat 32 r.a1)
    let e := (e.fs F.mpStat_pstate 0 (uPack n)).modPport n fun p => { p with
      timeout := if r.a2 = 0 then 2000 else r.a2, queues := 0, attempts := 0, ident := [], job := if r.a0 = 0 then 0 else d.oz.nextJob }
    if r.a0 = 0 then .job (e.setPk n pkOff) (some 0)
    else if r.a0 = 1 then .job (if up then e.pkConnectNow n else e.setPk n pkDown)
    else .job (e.setPk n (if up then pkConnect else pkDown))

def execMediaPortSet (r : Req) (s : State) : Host.Outcome State Fault Refusal := vMedia r 1 true (fun d => d.mdPortSet r) s

def execMediaPackInfo (r : Req) (s : State) : Host.Outcome State Fault Refusal := vMedia r 2 false (fun d =>
  if 7 < r.object then .err 0x0404
  else if d.pkRole r.object ≠ 1 ∨ (d.pport r.object).ident = [] then .err 0x0408
  else .ok d [] (d.pport r.object).ident) s

def execMediaStats (r : Req) (s : State) : Host.Outcome State Fault Refusal := vMedia r 0x16 false (fun d =>
  let u := uPack r.object
  if 7 < r.object then .err 0x0404
  else
    let e := [F.mpCnt_retries, F.mpCnt_timeouts, F.mpCnt_mediaErr].foldl (fun (e : Dev) f => e.fs f 0 u) d
    .ok (e.set64 .mpBytesLo .mpBytesHi 0 u) [(d.rd .mpStat u).toNat, (d.rd .mpCnt u).toNat, (d.rd .mpBytesLo u).toNat, (d.rd .mpBytesHi u).toNat]) s

/-! ### Configuration and queue pairs (R383, R387) -/

def execMediaConfigSet (r : Req) (s : State) : Host.Outcome State Fault Refusal := vMedia r 3 true (fun d =>
  if 1 < r.a0 then .err 0x0404 (offArg 0)
  else if d.md.qps ≠ [] ∨ d.md.conns ≠ [] then .err 0x0408
  else .ok (d.fs F.mdCfg_ext r.a0 uMedia)) s

/-- QP_CREATE; the block holds the ring addresses at 0 and 8, the depths at 16 and 17, the class at 18, the vector at 20 (log entry 12). -/
def Dev.mdQpCreate (d : Dev) (r : Req) : VRes Dev :=
  let b := d.argB r
  let sq := rdLe b 16 1
  let cq := rdLe b 17 1
  let cls := rdLe b 18 1
  let vec := rdLe b 20 2
  if r.argLen < 32 then .err 0x040D
  else if !isFn r.master then .err 0x0404
  else if rdLe b 0 8 % 4096 ≠ 0 then .err 0x0404 (offBlk 0)
  else if rdLe b 8 8 % 4096 ≠ 0 then .err 0x0404 (offBlk 8)
  else if sq < 2 ∨ 12 < sq then .err 0x0404 (offBlk 16)
  else if cq < sq ∨ 12 < cq then .err 0x0404 (offBlk 17)
  else if cls ≠ 1 ∧ cls ≠ 3 then .err 0x0404 (offBlk 18)
  else if vectorsOf r.master ≤ vec then .err 0x0404 (offBlk 20)
  else
    match (List.range 64).find? fun n => (tget d.md.qps n).isNone with
    | none => .err 0x0409
    | some n =>
      if !d.fb F.mdCfg_ext uMedia && decide (64 ≤ d.mdQueues) then .err 0x0409
      else
        let q := d.oz.nextQid
        let ep := d.oz.nextEpoch % 0x10000
        let s : Queue := { Queue.disabled with
          owner := r.master, cls := cls, mode := 0, rstate := 1, depthLog2 := sq, ringHost := true, noabort := !d.fb F.mdCfg_ext uMedia,
          inflLog2 := 12, epoch := ep, unit := uMedia, errQid := q + 1, ringBase := rdLe b 0 8 }
        let x : Queue := { Queue.disabled with
          owner := 0x40, cls := cls, rstate := 1, depthLog2 := 12, epoch := 1, unit := uMedia, errQid := q + 1, ringBase := Config.ringPlace (q + 1) }
        let p : QPair := { owner := r.master, sq := q, errQ := q + 1, cqBase := rdLe b 8 8, cqLog2 := cq, vector := vec }
        let e := ((d.setQ q s).setQ (q + 1) x).modMd fun m => { m with qps := tset m.qps n p }
        let e := { e with oz := { e.oz with nextQid := q + 2, nextEpoch := d.oz.nextEpoch + 1 } }
        .ok ((e.fs F.mdCfg_qps e.md.qps.length uMedia).fs F.mqCqh_head 0 uMedia n) [q, ep, n]

def execMediaQpCreate (r : Req) (s : State) : Host.Outcome State Fault Refusal := vMedia r 4 true (fun d => d.mdQpCreate r) s

def execMediaQpDelete (r : Req) (s : State) : Host.Outcome State Fault Refusal := vMedia r 5 true (fun d =>
  if (tget d.md.qps r.object).isNone then .err 0x0404
  else
    let e := (d.modQp r.object fun p => { p with closeJob := d.oz.nextJob }).qpSettle r.object
    .job e (if (tget e.md.qps r.object).isNone then some 0 else none)) s

/-! ### Namespaces (R389) -/

/-- Blocks of a pack by its IDENTIFY page. -/
def Dev.pkBlocks (d : Dev) (n : Nat) : Nat := rdLe (d.pport n).ident 0x10 8
def Dev.pkSerial (d : Dev) (n : Nat) : Nat := rdLe (d.pport n).ident 0x08 8
def Dev.pkUp (d : Dev) (n : Nat) : Bool := decide (d.pkRole n = 1) && decide (d.pkState n = pkReady)

def Dev.mdNsCreate (d : Dev) (r : Req) : VRes Dev :=
  let ps := portsIn r.a1
  let put := fun (s : NSpace) => VRes.ok (d.modMd fun m => { m with spaces := tset m.spaces r.object s }) [lo32 s.blocks, hi32 s.blocks]
  if r.object = 0 ∨ 16 < r.object then .err 0x0404
  else if 1 < r.a0 then .err 0x0404 (offArg 0)
  else if (tget d.md.spaces r.object).isSome then .err 0x0408
  else if r.a0 = 1 then
    match d.md.vol with
    | none => .err 0x0408
    | some v => put ⟨true, v.ports, v.hdr.pau * v.ports.length * 256⟩
  else if ps = [] ∨ 255 < r.a1 then .err 0x0404 (offArg 1)
  else if ps.any fun n => !d.pkUp n || d.inVol n then .err 0x0408
  else
    let aus := (ps.map fun n => d.pkBlocks n / 256).foldl min (d.pkBlocks (ps.getD 0 0) / 256)
    put ⟨false, ps, aus * ps.length * 256⟩

def execMediaNsCreate (r : Req) (s : State) : Host.Outcome State Fault Refusal := vMedia r 6 true (fun d => d.mdNsCreate r) s

def execMediaNsDelete (r : Req) (s : State) : Host.Outcome State Fault Refusal := vMedia r 7 true (fun d =>
  if (tget d.md.spaces r.object).isNone then .err 0x0404
  else if d.md.cmds.any fun m => decide (m.nsid = r.object) then .err 0x0408
  else .ok (d.modMd fun m => { m with spaces := tdel m.spaces r.object })) s

/-! ### Volumes (R392, R393, R399) -/

/-- Whether writes that decide a job are still to end. -/
def Dev.tabOut (d : Dev) (job : Nat) : Bool := d.md.cmds.any fun m => decide (m.orig = .tab job)

/-- A header for the packs of a bitmap, made at format. -/
def Dev.newHdr (d : Dev) (ps : List Nat) (label : List Byte) : VolHdr :=
  let m := ps.length
  let pau := (ps.map fun n => d.pkBlocks n / 256).foldl min (d.pkBlocks (ps.getD 0 0) / 256)
  let z := volSizes (pau * m) m
  ⟨m, leBytes 16 (Config.entropy d.free), pau, m + 17, z.1, z.2.1, z.2.2, 1, d.stamp, ps.map d.pkSerial, fitB label 64⟩

/-- VOLUME_FORMAT (R392, R393): headers, clip table and run table written; the job ends with them. -/
def Dev.mdFormat (d : Dev) (r : Req) : VRes Dev :=
  let ps := portsIn r.a0
  if ps = [] ∨ 255 < r.a0 then .err 0x0404 (offArg 0)
  else if r.argLen < 64 then .err 0x040D
  else if (ps.any fun n => !d.pkUp n || d.inVol n || d.md.spaces.any fun (p : Nat × NSpace) => p.2.members.contains n) ∨ d.md.vol.isSome then .err 0x0408
  else
    let h := d.newHdr ps (d.argB r)
    let m := ps.length
    let w := fun (au : Nat) (x : MData) => (⟨ps.getD (au % m) 0, 0, 2, au / m * 256, 256, 0, 0, x, 0, false, 0, 0⟩ : PCmd)
    let cs := ((List.range m).map fun i => w i (.header i 1 h)) ++ ((List.range 17).map fun i => w (m + i) (.clips i 1 h.id [])) ++
      (List.range h.rtCount).map fun i => w (h.rtAu + i) (.runs i 1 h.id [])
    let e := d.useFree.mdBegin ⟨0, .tab d.oz.nextJob, 2, false, 0, 0, 0, 0, 0, 0, false, 0, 0, [], none, 0⟩ cs
    .job e (if e.tabOut d.oz.nextJob then none else some 0x0C07)

def execMediaVolumeFormat (r : Req) (s : State) : Host.Outcome State Fault Refusal := vMedia r 8 true (fun d => d.mdFormat r) s

/-- What packs hold, as a mount reads it: port, then AU of the pack and its 1 MiB. -/
abbrev PackData := List (Nat × List (Nat × List Byte))
def PackData.au (x : PackData) (port au : Nat) : List Byte := ((tget ((tget x port).getD []) au)).getD []

/-- The header that a mount accepts, with the member ports in member order (R393). -/
def Dev.mountHdr (d : Dev) (ps : List Nat) (x : PackData) : Option (VolHdr × List Nat) :=
  let copies := ps.map fun n => x.au n 0
  let best := (copies.filterMap VolHdr.dec).foldl (fun (a : Option VolHdr) h =>
    match a with
    | none => some h
    | some b => if b.gen < h.gen then some h else some b) none
  match best with
  | none => none
  | some h =>
    let order := (List.range h.members).filterMap fun i => ps.find? fun n => decide (d.pkSerial n = h.serials.getD i 0)
    if (copies.all fun b => decide (sliceB b 8 16 = h.id)) ∧ h.members = ps.length ∧ order.length = h.members ∧ order.eraseDups.length = h.members then
      some (h, order)
    else none

/-- Bytes of a logical AU. -/
def VolHdr.read (h : VolHdr) (order : List Nat) (x : PackData) (au : Nat) : List Byte := x.au (order.getD (au % h.members) 0) (au / h.members)

/-- Clip entries that are not free and whose ECRC verifies, by index; an AU the mount did not read holds none. -/
def mountClips (h : VolHdr) (order : List Nat) (x : PackData) : Tab Clip :=
  (List.range 17).flatMap fun j =>
    let b := h.read order x (h.members + j)
    if b = [] then []
    else (List.range (clipSlots j)).filterMap fun k =>
      match Clip.dec (sliceB b (256 * k) 256) with
      | some c => if c.state = 0 then none else some (j * 4080 + k, c)
      | none => none

/-- Run-table entries that are not free, by run. -/
def mountRuns (h : VolHdr) (order : List Nat) (x : PackData) : Tab Nat :=
  (List.range h.rtCount).flatMap fun j =>
    let b := h.read order x (h.rtAu + j)
    if b = [] then []
    else (List.range (min 261120 (h.runs - j * 261120))).filterMap fun k =>
      let v := rdLe b (4 * k) 4
      if v = runFree then none else some (j * 261120 + k, v)

/-- GEN of the metadata AUs read. -/
def mountGens (h : VolHdr) (order : List Nat) (x : PackData) : Tab Nat :=
  (List.range (h.members + 17 + h.rtCount)).filterMap fun j => (auCheck (h.read order x j)).map fun c => (j, rdLe c 28 4)

/-- Stream bytes of a clip as its AUs are accepted in AUSEQ order (R399 steps 1 and 2). -/
def recoverStream (h : VolHdr) (order : List Nat) (x : PackData) (clip : Nat) : List (Nat × Nat) → List Byte
  | [] => []
  | (k, au) :: rest =>
    match auAccept clip k (h.read order x au) with
    | none => []
    | some b => if b.length < auData then b else b ++ recoverStream h order x clip rest

/-- The AUs of a chain: AUSEQ and logical AU. -/
def chainAus (h : VolHdr) (chain : List Nat) : List (Nat × Nat) :=
  (chain.zipIdx).flatMap fun p => (List.range 256).map fun i => (p.2 * 256 + i, h.dataAu + 256 * p.1 + i)

/-- A clip found in RECORDING recovered (R399). -/
def Dev.recoverClip (d : Dev) (x : PackData) (i : Nat) (after : Nat) (job : Nat) : Dev × Nat :=
  match d.md.vol, d.clipEntry i with
  | some v, some c =>
    let chain := v.chain c.first
    let bs := recoverStream v.hdr v.ports x i (chainAus v.hdr chain)
    let recs := recsOf (bs.length / 64 + 1) 0 bs
    let len := ((recs.getLast?).map fun p => p.1 + p.2.length).getD 0
    let stop := ((recs.getLast?).map fun p => rdLe p.2 8 8).getD c.start
    let aus := ceilDiv len auData
    let keep := chain.take (max 1 (ceilDiv aus 256))
    let gone := chain.drop keep.length
    let t := tset v.runs (keep.getLast?.getD c.first) runLast
    let v := { v with runs := gone.foldl tdel t, heads := tset v.heads i (((recs.head?).map fun (p : Nat × List Byte) => sliceB p.2 32 (rdLe p.2 4 4)).getD []) }
    let c := { c with state := 3, length := len, stop := stop, sha := sha256 (bs.take len), aus := aus }
    let d := d.modMd fun m => { m with vol := some { v with clips := tset v.clips i c } }
    let d := d.raise (mdEv 0x0C0E 2 i)
    let y := d.writeRuns (.tab 0) ((keep.getLast?.map fun l => [l]).getD [] ++ gone) after
    y.1.writeEntry (.tab job) i y.2
  | _, _ => (d, after)

/-- VOLUME_MOUNT (R393, R399); `packs` is what the packs hold. DETAIL tells the clips recovered. -/
def Dev.mdMount (d : Dev) (r : Req) (packs : PackData) : VRes Dev :=
  let ps := portsIn r.a0
  let fail := VRes.job (d.raise (mdEv 0x0C11 2 r.a0)) (some 0x0C11)
  if ps = [] ∨ 255 < r.a0 then .err 0x0404 (offArg 0)
  else if (ps.any fun n => !d.pkUp n || d.md.spaces.any fun p => p.2.members.contains n) ∨ d.md.vol.isSome then fail
  else
    match d.mountHdr ps packs with
    | none => fail
    | some (h, order) =>
      let v : Vol := ⟨h, order, mountClips h order packs, [], mountRuns h order packs, mountGens h order packs, false⟩
      let e := d.modMd fun m => { m with vol := some v }
      let open_ := (v.clips.filter fun p => decide (p.2.state = 1)).map (·.1)
      let y := (open_.zipIdx).foldl (fun (s : Dev × Nat) p =>
        s.1.recoverClip packs p.1 s.2 (if p.2 + 1 = open_.length then d.oz.nextJob else 0)) (e, 0)
      .job y.1 (if y.1.tabOut d.oz.nextJob then none else some 0) open_.length

def execMediaVolumeMount (r : Req) (packs : List (Nat × List (Nat × List Byte))) (s : State) : Host.Outcome State Fault Refusal :=
  vMedia r 9 true (fun d => d.mdMount r packs) s

def execMediaVolumeUnmount (r : Req) (s : State) : Host.Outcome State Fault Refusal := vMedia r 0xA true (fun d =>
  if d.md.vol.isNone ∨ d.md.recs ≠ [] ∨ d.md.rings ≠ [] then .err 0x0408
  else .job (d.modMd fun m => { m with vol := none, spaces := m.spaces.filter fun p => !p.2.vol }) (some 0)) s

/-! ### Recording (R396, R398) -/

/-- What R396 sets against the declared rate, in MB/s: the members' summed WR_MBS, or M × 12.44 GB/s. -/
def Dev.volRate (d : Dev) (v : Vol) : Nat :=
  min ((v.ports.map fun n => rdLe (d.pport n).ident 0x1C 4).foldl (· + ·) 0) (v.ports.length * 12440)

/-- The first descriptor that cannot be a track: a KIND or object out of range, an audio port not owned internally, a codec block that is
refused, a camera that is not enabled. -/
def Dev.trackBad (d : Dev) (t : Track) : Bool :=
  if t.kind = 1 then decide (31 < t.obj) || d.psBad (sliceB t.desc 4 32)
  else if t.kind = 3 then decide (3 < t.obj) || !(d.aud t.obj).internal || !(d.aud t.obj).set
  else if t.kind = 2 ∨ t.kind = 4 ∨ t.kind = 5 then decide (15 < t.obj) || decide (d.camF F.camCfg_en t.obj = 0)
  else true

/-- The codec stream of a track set up as its block says, the service owning its queue (R396 step 2). -/
def Dev.trackSet (d : Dev) (r : Req) (t : Track) : Option Dev :=
  if t.kind ≠ 1 then some d
  else
    match d.codecStreamSet { r with object := t.obj, master := 0x40, range0 := 0, arg := sliceB t.desc 4 32, argLen := 32 } with
    | .ok e _ _ _ => some e
    | _ => none

/-- The codec streams of a clip start, and buffers are supplied. -/
def Dev.startTracks (d : Dev) (r : Req) (tracks : List Track) : Option Dev :=
  tracks.foldl (fun (s : Option Dev) t =>
    match s with
    | none => none
    | some e =>
      if t.kind ≠ 1 then some e
      else
        match e.codecStreamStart { r with object := t.obj } with
        | .ok e _ _ _ => some e
        | _ => none) (some d)

/-- A request that firmware makes of its own services. -/
def ozReq : Req := ⟨0, 0, 0x40, 0, 0, 0, 0, 0x40, 1, 0, 0, false, 0, 0, 0, 0, 0, []⟩

/-- The start action of a clip fires (R396, R496 kind 3). -/
def Dev.recFire (d : Dev) (clip : Nat) : Dev :=
  match d.clipRec clip with
  | none => d
  | some r =>
    if r.started then d
    else
      let d := d.modRec clip fun r => { r with started := true }
      ((d.startTracks ozReq r.tracks).getD d).feedRec clip

/-- Every member is brought to M0 (R390). -/
def Dev.wakeVol (d : Dev) (v : Vol) : Dev := v.ports.foldl Dev.pkWake d

/-- RECORD_START (R396): name at 0, then 64 bytes a track. -/
def Dev.mdRecordStart (d : Dev) (r : Req) : VRes Dev :=
  let b := d.argB r
  let n := (r.argLen - 64) / 64
  let descs := (List.range n).map fun i => sliceB b (64 + 64 * i) 64
  let tracks := descs.map trackOf
  match d.md.vol with
  | none => .err 0x0408
  | some v =>
    if v.readOnly ∨ 4 ≤ (d.md.recs.filter fun x => x.ring.isNone).length then .err 0x0408
    else if r.argLen < 128 ∨ 64 + 16 * 64 < r.argLen then .err 0x040D
    else if r.a2 = 0 then .err 0x0404 (offArg 2)
    else
      match tracks.findIdx? d.trackBad with
      | some i => .err 0x0404 (offBlk (64 + 64 * i))
      | none =>
        if d.volRate v * 255 * 100 < r.a2 * 256 * 102 then .err 0x0C0C
        else if tracks.any fun t => decide (t.kind = 1) && (d.psStr t.obj).run then .err 0x0408
        else
          match tracks.foldl (fun (s : Option Dev) t => s.bind fun e => e.trackSet r t) (some d) with
          | none => .err 0x0408
          | some e =>
            let req := stampNs (r.a0 + r.a1 * 2 ^ 32)
            let later := decide (d.devNs < req)
            let at_ := if later then r.a0 + r.a1 * 2 ^ 32 else d.stamp
            match e.openClip 0 at_ (runsFor (10 * rateBytes r.a2)) descs (fitB b 64) with
            | none => .err 0x0C0D
            | some (e, i, after) =>
              match e.alloc rgMedia (2 * rateBytes r.a2) (tagOf 15 i) with
              | none => .err 0x0409
              | some (base, e) =>
                let q := e.oz.nextQid
                let rq : Queue := { Queue.disabled with
                  owner := 0x40, cls := 1, rstate := 1, depthLog2 := 10, epoch := 1, unit := uMedia, ringBase := Config.ringPlace q, errQid := q }
                let e := { e with oz := { e.oz with nextQid := q + 1 } }.setQ q rq
                let x : Rec := { clip := i, tracks := tracks, base := base, size := 2 * rateBytes r.a2, rate := r.a2, replyQ := q, started := !later,
                                 startAt := at_, items := [headItem at_ descs], sha := sha0, auSha := sha0, after := after }
                let e := ((e.modMd fun m => { m with recs := m.recs ++ [x] }).syncClips).wakeVol v
                if later then
                  match e.arm (mediaAct 3 req i) with
                  | none => .err 0x0409
                  | some (_, e) => .ok e [i]
                else
                  match e.startTracks r tracks with
                  | none => .err 0x0408
                  | some e => .ok (e.feedRec i) [i]

def execMediaRecordStart (r : Req) (s : State) : Host.Outcome State Fault Refusal := vMedia r 0xB true (fun d => d.mdRecordStart r) s

/-- RECORD_STOP (R398), at once or armed as an action of kind 4. -/
def Dev.mdRecordStop (d : Dev) (r : Req) : VRes Dev :=
  match d.clipRec r.object with
  | none => .err 0x0408
  | some x =>
    if x.ring.isSome ∨ x.phase ≠ 0 ∨ x.job ≠ 0 then .err 0x0408
    else
      let req := stampNs (r.a0 + r.a1 * 2 ^ 32)
      let e := d.modRec r.object fun y => { y with job := d.oz.nextJob }
      if d.devNs < req then
        match (e.modRec r.object fun y => { y with stopAt := some (r.a0 + r.a1 * 2 ^ 32) }).arm (mediaAct 4 req r.object) with
        | none => .err 0x0409
        | some (_, e) => .job e
      else
        let e := e.recStop r.object d.stamp
        .job e (if (e.clipRec r.object).isSome || e.tabOut d.oz.nextJob then none else some 0x0C07)

def execMediaRecordStop (r : Req) (s : State) : Host.Outcome State Fault Refusal := vMedia r 0xC true (fun d => d.mdRecordStop r) s

/-- MARK: a record of kind 3 (R395); its RSEQ follows the records that wait. -/
def execMediaMark (r : Req) (s : State) : Host.Outcome State Fault Refusal := vMedia r 0x15 true (fun d =>
  match d.clipRec r.object with
  | none => .err 0x0408
  | some x =>
    if x.phase ≠ 0 then .err 0x0408
    else
      .ok (d.modRec r.object fun y => y.note 8 0 d.stamp 0xFFFFFFFF (leBytes 4 3 ++ leBytes 4 r.a0 ++ leBytes 4 r.a1 ++ leBytes 4 r.a2))
        [x.rseq + x.items.length]) s

/-! ### Clips (R402, R405) -/

def Dev.volClips (d : Dev) : Tab Clip := (d.md.vol.map (·.clips)).getD []

def execMediaClipList (r : Req) (s : State) : Host.Outcome State Fault Refusal := vMedia r 0xD false (fun d =>
  if r.replyMax < 8 then .err 0x040D
  else .ok d [] (((d.volClips.filter fun p => decide (r.a0 ≤ p.1)).take (r.replyMax / 8)).flatMap fun p =>
    leBytes 4 p.1 ++ leBytes 1 p.2.state ++ leBytes 1 p.2.kind ++ leBytes 2 p.2.tracks)) s

/-- CLIP_INFO: the entry, then the CLIP_HEAD payload; `head` is the payload as read from the clip's first AU where the device does not
hold it. -/
def execMediaClipInfo (r : Req) (head : List Byte) (s : State) : Host.Outcome State Fault Refusal := vMedia r 0xE false (fun d =>
  match d.clipEntry r.object with
  | none => .err 0x0404
  | some c =>
    if r.replyMax < 1280 then .err 0x040D
    else .ok d [] (c.enc ++ (((d.md.vol.bind fun v => tget v.heads r.object)).getD head).take 1024)) s

def execMediaClipMap (r : Req) (s : State) : Host.Outcome State Fault Refusal := vMedia r 0xF false (fun d =>
  match d.md.vol, d.clipEntry r.object with
  | some v, some c => .ok d [] ((v.chain c.first).flatMap (leBytes 4))
  | _, _ => .err 0x0404) s

/-- CLIP_DELETE: the runs are freed, then the entry. -/
def Dev.mdClipDelete (d : Dev) (r : Req) : VRes Dev :=
  match d.md.vol, d.clipEntry r.object with
  | some v, some c =>
    if (d.clipRec r.object).isSome ∨ c.state = 1 ∨ v.readOnly then .err 0x0408
    else
      let chain := v.chain c.first
      let e := d.modMd fun m => { m with vol := some { v with
        clips := tdel v.clips r.object, heads := tdel v.heads r.object, runs := chain.foldl tdel v.runs } }
      let x := e.writeRuns (.tab 0) chain 0
      let e := (x.1.writeEntry (.tab d.oz.nextJob) r.object x.2).1
      .job e (if e.tabOut d.oz.nextJob then none else some 0x0C07)
  | _, _ => .err 0x0404

def execMediaClipDelete (r : Req) (s : State) : Host.Outcome State Fault Refusal := vMedia r 0x10 true (fun d => d.mdClipDelete r) s

/-! ### Bursts (R400, R401) -/

/-- BURST_ARM: the frame rate is that of the camera's allocation (R305). -/
def Dev.mdBurstArm (d : Dev) (r : Req) : VRes Dev :=
  let c := r.object
  if 15 < c ∨ d.camF F.camCfg_en c = 0 then .err 0x0404
  else if r.a0 = 0 then .err 0x0404 (offArg 0)
  else if r.a0 < r.a1 + r.a2 then .err 0x0404 (offArg 1)
  else if r.a3 % 2 + r.a3 / 16 % 16 * 16 ≠ r.a3 then .err 0x0404 (offArg 3)
  else if !Config.copyFits (d.burstBytes c) (d.allocOf c).rate then .err 0x0C0C
  else if 4 ≤ d.md.rings.length then .err 0x0409
  else
    let k := d.md.nextRing
    match d.alloc rgMedia (r.a0 * d.burstSlot c) (tagOf 16 k) with
    | none => .err 0x0409
    | some (base, e) =>
      let g : Ring := { cam := c, frames := r.a0, pre := r.a1, post := r.a2, auto := decide (r.a3 % 2 = 1), mask := r.a3 / 16, base := base,
                        slot := d.burstSlot c }
      .ok ((e.modMd fun m => { m with rings := tset m.rings k g, nextRing := k + 1 }).syncClips) [k]

def execMediaBurstArm (r : Req) (s : State) : Host.Outcome State Fault Refusal := vMedia r 0x11 true (fun d => d.mdBurstArm r) s

/-- BURST_TRIGGER; a trigger in the drain is refused, counted and raised (R401). -/
def execMediaBurstTrigger (r : Req) (s : State) : Host.Outcome State Fault Refusal := vMedia r 0x12 true (fun d =>
  match d.ring r.object with
  | none => .err 0x0404
  | some g =>
    if g.frozen then .turned (d.modRing r.object fun g => { g with triggers := g.triggers + 1 }) 0x0C10
    else .ok (d.burstTrigger r.object d.devNs) [lo32 d.stamp, hi32 d.stamp]) s

def execMediaBurstDisarm (r : Req) (s : State) : Host.Outcome State Fault Refusal := vMedia r 0x13 true (fun d =>
  match d.ring r.object with
  | none => .err 0x0404
  | some g =>
    if g.frozen then .err 0x0408
    else .ok (((d.modMd fun m => { m with rings := tdel m.rings r.object }).freeArea (tagOf 16 r.object)).syncClips)) s

/-! ### Offload (R402) -/

/-- The stream bytes of AUs as they verify, up to the first mismatch, and whether all agree. -/
def offloadStream (clip len : Nat) : Nat → List (List Byte) → List Byte × Bool
  | _, [] => ([], true)
  | k, au :: rest =>
    if len ≤ k * auData then ([], true)
    else if auWhole au && decide (rdLe (sliceB au auData blkBytes) 8 4 = clip) && decide (rdLe (sliceB au auData blkBytes) 12 4 = k) then
      let x := offloadStream clip len (k + 1) rest
      (au.take auData ++ x.1, x.2)
    else ([], false)

/-- OFFLOAD; `aus` is what the clip's AUs read as. -/
def Dev.mdOffload (d : Dev) (r : Req) (aus : List (List Byte)) : VRes Dev :=
  match d.md.vol, d.clipEntry r.object with
  | some _, some c =>
    if 7 < r.a0 then .err 0x0404 (offArg 0)
    else if r.a1 = 0 ∨ 16 < r.a1 then .err 0x0404 (offArg 1)
    else if (d.clipRec r.object).isSome ∨ c.state = 1 ∨ !d.pkUp r.a0 ∨ d.inVol r.a0 then .err 0x0408
    else
      let x := offloadStream r.object c.length 0 (aus ++ List.replicate (c.aus - aus.length) [])
      let bs := x.1.take c.length
      let good := x.2 && decide (sha256 bs = c.sha)
      let lba := r.a2 + r.a3 * 2 ^ 32
      let e := if good then d else d.raise (mdEv 0x0C12 3 r.object)
      let cs := (List.range (ceilDiv bs.length (512 * blkBytes))).map fun i =>
        let p := sliceB bs (i * 512 * blkBytes) (min (512 * blkBytes) (ceilDiv (bs.length - i * 512 * blkBytes) blkBytes * blkBytes))
        (⟨r.a0, 0, 2, lba + 512 * i, p.length / blkBytes, r.a1, 0, .bytes p, 0, false, 0, 0⟩ : PCmd)
      let job := if good then d.oz.nextJob else 0
      let e := e.mdBegin ⟨0, .tab job, 2, false, 0, 0, 0, 0, 0, 0, false, 0, 0, [], none, 0⟩ cs
      .job e (if !good then some 0x0C12 else if e.tabOut d.oz.nextJob then none else some 0)
  | _, _ => .err 0x0404

def execMediaOffload (r : Req) (aus : List (List Byte)) (s : State) : Host.Outcome State Fault Refusal :=
  vMedia r 0x14 true (fun d => d.mdOffload r aus) s

end Sys2Proof.Machine
end

