-- ==== Sys2Proof/Machine/Session.lean ====
section
/-! DEFINITION. Chapter 13, the SESSION service (R406), with standby and resume (R440, R441). -/
namespace Sys2Proof.Machine

def vSession (r : Req) (verb : Nat) (priv : Bool) (body : Dev → VRes Dev) (s : State) : Host.Outcome State Fault Refusal :=
  s.onDev fun d => d.verb r 0x02 verb priv body

/-- Something runs: a camera, an output or codec stream, a clip, a ring, an audio port. -/
def Dev.liveNow (d : Dev) : Bool :=
  (List.range 16).any d.camRun || (List.range 8).any d.strRun || ((List.range 32).any fun n => (d.psStr n).run) || !d.md.recs.isEmpty ||
  !d.md.rings.isEmpty || (List.range 4).any d.audLive

/-- 0 IDLE, 1 LIVE, 2 STANDBY. -/
def Dev.sessState (d : Dev) : Nat := if d.standby then 2 else if d.liveNow then 1 else 0

def execSessionInfo (r : Req) (s : State) : Host.Outcome State Fault Refusal := vSession r 0 false (fun d => .ok d [1, d.sessState]) s

/-! ### Records -/

/-- Registers that hold the configuration of the services (log entry 31). -/
def sessionRegs : List Reg :=
  [.srcCfg, .srcGeom, .srcPos, .camCfg, .camSize, .camFill, .camTimeout, .camStride, .camSlot, .strCfg, .strDecim, .strRowb, .strCrop0, .strCrop1,
   .strSize, .algCfg, .cptCfg, .cptSlot, .scCtl, .scTimVb, .scPclk, .scBg, .scTimH, .scTimV, .scTimHs, .scTimVs, .lyCtl, .lyPos, .lySize, .auCfg,
   .auMask, .auBlkf]

def isSessionKey (k : Nat) : Bool := sessionRegs.any fun r => decide (r.ctorIdx = k / 0x100000)

/-- The stored word of a session register with nothing running. -/
def sessionWord (k : Nat) (w : Word) : Word :=
  let i := k / 0x100000
  if i = Reg.camCfg.ctorIdx then setF (setF w F.camCfg_en.hi F.camCfg_en.lo 0) F.camCfg_run.hi F.camCfg_run.lo 0
  else if i = Reg.strCfg.ctorIdx then setF w F.strCfg_run.hi F.strCfg_run.lo 0
  else if i = Reg.auCfg.ctorIdx then setF w F.auCfg_state.hi F.auCfg_state.lo 0
  else w

/-- The session as it stands, with the bytes of its record: opaque, of free length within 1 MiB, CRC-32C at the end. -/
def Dev.snapshot (d : Dev) (n : Nat) : SessRec :=
  let body := leBytes (n - 4) d.freeVal
  ⟨body ++ leBytes 4 (crc32c body), (d.regs.filter fun p => isSessionKey p.1).map fun p => (p.1, sessionWord p.1 p.2), d.pipe.cams,
   d.ps.strs.map fun p => (p.1, p.2.cfg)⟩

/-- SAVE: the record goes to the reply block. -/
def Dev.sessSave (d : Dev) (r : Req) : VRes Dev :=
  let n := 8 + d.freeVal % 0xFFFF8
  if r.replyMax < n then .err 0x040D
  else
    let x := d.snapshot n
    let d := d.useFree.modMd fun m => { m with saved := x :: m.saved.filter fun y => decide (y.bytes ≠ x.bytes) }
    .job (if rgSpace r.range1 = 0 then d.hbmW (rgAddr r.range1) x.bytes else d.hostW r.master (rgAddr r.range1) x.bytes) (some 0)

def execSessionSave (r : Req) (s : State) : Host.Outcome State Fault Refusal := vSession r 1 true (fun d => d.sessSave r) s

/-- A record's CRC-32C. -/
def sessCrc (b : List Byte) : Bool := decide (8 ≤ b.length) && decide (rdLe b (b.length - 4) 4 = crc32c (b.take (b.length - 4)))

/-- The configuration that a record stands for put in place. -/
def Dev.restore (d : Dev) (regs : Tab Word) (cams : Tab PipeCam) (codec : Tab (List Byte)) : Dev :=
  let kept := d.regs.filter fun p => !isSessionKey p.1
  let d := { d with regs := (regs.filter fun (p : Nat × Word) => isSessionKey p.1).foldl (fun (t : Tab Word) (p : Nat × Word) => tset t p.1 (sessionWord p.1 p.2)) kept }
  let d := { d with pipe := { d.pipe with cams := cams } }
  codec.foldl (fun (e : Dev) (p : Nat × List Byte) => e.modPs p.1 fun s => { s with cfg := p.2, cfgGen := s.cfgGen + 1 }) d

/-- LOAD: a record this device saved restores what it saved; of another, `regs` tells the registers it sets (log entry 31). -/
def Dev.sessLoad (d : Dev) (r : Req) (regs : List (Nat × Word)) : VRes Dev :=
  let b := d.argB r
  let fail := VRes.job (d.raise (mdEv 0x0C15 2 0)) (some 0x0C15)
  if d.sessState ≠ 0 then .err 0x0408
  else if !sessCrc b then fail
  else
    match d.md.saved.find? fun x => decide (x.bytes = b) with
    | some x => .job (d.restore x.regs x.cams x.codec) (some 0)
    | none => if Config.sessionLoads b then .job (d.restore regs d.pipe.cams []) (some 0) else fail

def execSessionLoad (r : Req) (regs : List (Nat × Word)) (s : State) : Host.Outcome State Fault Refusal :=
  vSession r 2 true (fun d => d.sessLoad r regs) s

/-! ### Standby and resume (R406, R440, R441) -/

/-- STANDBY step 1: cameras stop at frame close, output and codec streams stop. What ran is kept for RESUME. -/
def Dev.sessStandby (d : Dev) : VRes Dev :=
  if !d.md.recs.isEmpty ∨ !d.md.rings.isEmpty ∨ d.standby then .err 0x0408
  else
    let cams := (List.range 16).filter d.camRun
    let strs := (List.range 8).filter d.strRun
    let ps := (List.range 32).filter fun n => (d.psStr n).run
    let d := d.modMd fun m => { m with resume := some (cams, strs, ps) }
    let d := cams.foldl Dev.camStop d
    let d := (strs.foldl (fun (e : Dev) s => e.modStr s fun t => { t with stopping := true }) d).settleStops
    .job (ps.foldl (fun (e : Dev) n => (e.modPs n fun x => { x with stopping := true }).psSettle n) d)

def execSessionStandby (r : Req) (s : State) : Host.Outcome State Fault Refusal := vSession r 3 true (fun d => d.sessStandby) s

/-- What STANDBY step 1 stops has stopped. -/
def Dev.standbyReady (d : Dev) : Bool :=
  !((List.range 16).any d.camRun || (List.range 8).any d.strRun || (List.range 32).any fun n => (d.psStr n).run)

/-- The fraction kept (R440): 1 a quarter, 2 a half, 3 all. -/
def Dev.keepCode (d : Dev) : Nat :=
  if d.ingestBase ≤ hbmBytes / 4 then 1 else if d.ingestBase ≤ hbmBytes / 2 then 2 else 3

/-- HBM contents from the INGEST base upwards lost, or rewritten as zero (R441). -/
def Dev.zeroLost (d : Dev) : Dev :=
  let b := d.ingestBase
  { d with hbm := { d.hbm with
      mem := d.hbm.mem.filter fun p => decide (p.1 < b)
      sbe := d.hbm.sbe.filter fun w => decide (w * 32 < b)
      ue := d.hbm.ue.filter fun w => decide (w * 32 < b) } }

/-- STANDBY steps 2 and 3: tiles and engines sleep, packs go to M3, HBM keeps its fraction in self-refresh. -/
def Dev.enterStandby (d : Dev) : Dev :=
  let us := allTiles ++ (List.range 18).map uEngine
  let d := us.foldl (fun (e : Dev) u =>
    let e := if e.own u = stActive ∨ e.own u = stDraining then e.setUst u stReady 0x9 else e
    if e.own u = stReady then e.cmd1 3 u else e) d
  let d := ((List.range 8).filter d.pkUp).foldl (fun (e : Dev) n => e.mdSend n (mPkt 0x0A 0 0 0 (leBytes 1 3))) d
  let d := ((d.fs F.hbmState_keep d.keepCode uHbm).fs F.hbmState_standby 1 uHbm).zeroLost
  (List.range 2).foldl (fun (e : Dev) s => e.fs F.hsStat_selfRef 1 (uStack s)) { d with hbm := { d.hbm with woken := [] } }

/-- RESUME (R406, R441): self-refresh ends, the lost memory is zero, packs are woken, tiles and engines wake, what ran restarts, cameras
at their next FRAME_START. -/
def Dev.sessResume (d : Dev) (r : Req) : VRes Dev :=
  if !d.standby then .err 0x0408
  else
    let d := ((d.fs F.hbmState_standby 0 uHbm).zeroLost)
    let d := (List.range 2).foldl (fun (e : Dev) s => e.fs F.hsStat_selfRef 0 (uStack s)) { d with hbm := { d.hbm with woken := [] } }
    let d := ((List.range 8).filter fun n => decide (d.pkRole n = 1)).foldl Dev.pkWake d
    let us := allTiles ++ (List.range 18).map uEngine
    let d := us.foldl (fun (e : Dev) u => if e.own u = stSleep then e.cmd1 1 u else e) d
    let was := d.md.resume.getD ([], [], [])
    let d := d.modMd fun m => { m with resume := none }
    let d := was.1.foldl Dev.camStart d
    let d := was.2.1.foldl (fun (e : Dev) n => match e.outStreamStart { r with object := n } with
      | .ok e _ _ _ => e
      | _ => e) d
    .job (was.2.2.foldl (fun (e : Dev) n => match e.codecStreamStart { r with object := n } with
      | .ok e _ _ _ => e
      | _ => e) d)

def execSessionResume (r : Req) (s : State) : Host.Outcome State Fault Refusal := vSession r 4 true (fun d => d.sessResume r) s

end Sys2Proof.Machine
end

