-- ==== Sys2Proof/Machine/Time.lean ====
section
/-! DEFINITION. Chapter 18, the time unit: domain writes (R482, R483), SNAP, switches and steps of device time (R484 to R487), Ethernet
frames (R489 to R491), timed actions (R496 to R498), trigger inputs (R499), registers (R500) and the TIME service (R501). -/
namespace Sys2Proof.Machine

def tmEv (code sev obj : Nat) (d1 : Nat := 0) : Ev := { code := code, sev := sev, unit := uTime, d0 := obj, d1 := d1 }

/-- A refused write, entry or argument. -/
def Dev.tmCfg (d : Dev) (m obj : Nat) : Dev := d.raise { tmEv 0x1101 1 obj with master := m }

/-! ### Timed actions (R496 to R498) -/

/-- The level of a TRIG_OUT pin. -/
def Dev.trigLevel (d : Dev) (p : Nat) : Bool := d.tm.trigOut.testBit p

/-- A pin driven; the level a running pulse would restore is forgotten (R497). -/
def Dev.drivePin (d : Dev) (p : Nat) (hi : Bool) : Dev := d.modTm fun t => { t with
  trigOut := if hi then t.trigOut ||| 2 ^ p else t.trigOut - (t.trigOut &&& 2 ^ p), pulses := tdel t.pulses p }

/-- A TRIG_OUT action: 0 low, 1 high, 2 toggle, 3 pulse high, 4 pulse low (R496, R497). -/
def Dev.trigOp (d : Dev) (p op : Nat) : Dev :=
  let was := d.trigLevel p
  if op ≤ 1 then d.drivePin p (decide (op = 1))
  else if op = 2 then d.drivePin p (!was)
  else (d.drivePin p (decide (op = 3))).modTm fun t => { t with pulses := tset t.pulses p (bit was) }

/-- What an action does at its stated time in ns. A shadow sends no trigger and drives no pin (R507). -/
def Dev.actEffect (d : Dev) (a : Act) (t : Nat) : Dev :=
  let shadow := decide (d.role = roleShadow)
  match a.kind with
  | 1 => if shadow then d
    else d.sendTrigger (rdLe a.param 0 1) (rdLe a.param 1 1) (decide (rdLe a.param 1 1 = 0xF)) (rdLe a.param 4 4) (stamp64 t)
  | 2 => if shadow then d else d.trigOp (rdLe a.param 0 1) (rdLe a.param 1 1)
  | 3 => d.recFire a.obj
  | 4 => d.recStop a.obj (stamp64 t)
  | _ => d.burstTrigger (rdLe a.param 4 4) t

/-- The slot after a fire: freed after its last one, else armed for the next. `now` is the device time to continue after. -/
def Dev.afterFire (d : Dev) (k : Nat) (a : Act) (now : Nat) : Dev :=
  let a := { a with fires := a.fires + 1 }
  let last := (decide (a.count ≠ 0) && decide (a.count ≤ a.fires)) || (!a.frameRef && decide (a.period = 0))
  if last then d.disarm k
  else
    let next := if a.frameRef then 0 else
      let n := a.time + a.period
      if n ≤ now ∧ a.time < now then a.time + ((now - a.time) / a.period + 1) * a.period else n
    d.modTm fun t => { t with acts := tset t.acts k { a with time := next } }

/-- A slot fires once at its stated time. -/
def Dev.fire (d : Dev) (k : Nat) : Dev :=
  match tget d.tm.acts k with
  | none => d
  | some a =>
    if a.frameRef ∧ a.time = 0 then d
    else
      let e := (d.modTm fun t => { t with stepped := t.stepped.filter (· ≠ k) }).afterFire k a a.time
      (e.fadd F.taCnt_fired 1 uTime).actEffect a a.time

def execTimedActionFire (slot : Fin 64) (s : State) : Host.Outcome State Fault Refusal := s.onDev fun d => d.fire slot.val

/-- A fire stepped over (R498): at once, STEPPED, counted in LATE; a periodic slot continues at its next future multiple. -/
def Dev.fireStepped (d : Dev) (now k : Nat) : Dev :=
  match tget d.tm.acts k with
  | none => d
  | some a =>
    let e := (d.modTm fun t => { t with stepped := k :: t.stepped.filter (· ≠ k) }).afterFire k a now
    ((e.fadd F.taCnt_fired 1 uTime).fadd F.taCnt_late 1 uTime).actEffect a a.time

/-- Every armed fire in (old, new] happens at once, in ascending slot order. -/
def Dev.stepActs (d : Dev) (old new : Nat) : Dev :=
  ((d.tm.acts.filter fun (p : Nat × Act) => decide (old < p.2.time) && decide (p.2.time ≤ new)).map (·.1)).foldl
    (fun (e : Dev) k => e.fireStepped new k) d

def execTrigOutPulseEnd (pin : Fin 4) (s : State) : Host.Outcome State Fault Refusal := s.onDev fun d =>
  match tget d.tm.pulses pin.val with
  | none => d
  | some l => d.drivePin pin.val (decide (l = 1))

/-! ### Domains and device time (R482 to R487) -/

/-- Device time steps to the selected domain (R487): OFS 0, E_TM_STEP, and the actions stepped over. -/
def Dev.tmStep (d : Dev) (old : Nat) : Dev :=
  let d := (d.modTm fun t => { t with ofs := 0, slewed := 0 }).syncTm
  let new := d.devNs
  (d.raise (tmEv 0x1103 2 d.tm.sel (unsgn 32 ((new : Int) - old)))).stepActs old new

/-- A domain set to a new clock (R483): of the selected domain it is absorbed into OFS, or steps device time where that would leave
|OFS| above 1 s (R487). -/
def Dev.setDomain (d : Dev) (dom : Nat) (c : Clock) : Dev :=
  let old := d.devNs
  let e := d.modTm fun t => t.setClock dom c
  if dom ≠ d.tm.sel then e
  else
    let ofs := (old : Int) - c.total
    if ofs.natAbs ≤ 1000000000 then (e.modTm fun t => { t with ofs := ofs }).syncTm else e.tmStep old

/-- D_INC_NS written (R482, R483): INC_FRAC and INC_NS take effect together, from 3.6 to 4.4 ns. -/
def Dev.effDInc (d : Dev) (m dom : Nat) (v : Word) : Dev :=
  let inc := getF v 3 0 * 2 ^ 32 + (d.rd .dIncFrac uTime dom).toNat
  if 15461882266 ≤ inc ∧ inc ≤ 18897856102 then
    (d.putFields .dIncNs uTime dom v).modTm fun t =>
      t.setClock dom { t.clock dom with incNs := inc / 2 ^ 32, incFrac := inc % 2 ^ 32 }
  else d.tmCfg m dom

def execDIncWrite (m : Nat) (dom : Fin 2) (v : Word) (s : State) : Host.Outcome State Fault Refusal :=
  s.access m fun d => d.gated m .dIncNs uTime dom.val v fun d => d.effDInc m dom.val v

/-- D_SET_SHI written; GO sets the domain's time, its fraction zero (R483). -/
def Dev.effDSet (d : Dev) (m dom : Nat) (v : Word) : Dev :=
  let d := d.putFields .dSetShi uTime dom v
  if getF v 31 31 = 0 then d
  else
    let ns := getF (d.rd .dSetNs uTime dom) 29 0
    if 1000000000 ≤ ns then d.tmCfg m dom
    else d.setDomain dom { d.tm.clock dom with sec := getF v 15 0 * 2 ^ 32 + (d.rd .dSetSlo uTime dom).toNat, ns := ns, frac := 0 }

def execDSetGo (m : Nat) (dom : Fin 2) (v : Word) (s : State) : Host.Outcome State Fault Refusal :=
  let w : Word := v ||| BitVec.ofNat 32 (2 ^ 31)
  s.access m fun d => d.gated m .dSetShi uTime dom.val w fun d => d.effDSet m dom.val w

/-- A clock with a signed offset added: borrow and carry cross the second, seconds of 48 bits (R483). -/
def Clock.adj (c : Clock) (n : Int) : Clock :=
  let t := ((c.total : Int) + n) % ((2 ^ 48 * 1000000000 : Nat) : Int)
  { c with sec := t.toNat / 1000000000, ns := t.toNat % 1000000000 }

/-- D_ADJ written; GO adds ADJ once (R483). -/
def Dev.effDAdj (d : Dev) (dom : Nat) (v : Word) : Dev :=
  let d := d.putFields .dAdj uTime dom v
  if getF v 31 31 = 0 then d else d.setDomain dom ((d.tm.clock dom).adj (sgn 30 (getF v 29 0)))

def execDAdjGo (m : Nat) (dom : Fin 2) (v : Word) (s : State) : Host.Outcome State Fault Refusal :=
  let w : Word := v ||| BitVec.ofNat 32 (2 ^ 31)
  s.access m fun d => d.gated m .dAdj uTime dom.val w fun d => d.effDAdj dom.val w

/-- SNAP (R484): D0, D1 and device time latched together. -/
def Dev.snap (d : Dev) : Dev :=
  let one := fun (e : Dev) (dom : Nat) =>
    let c := e.tm.clock dom
    (((e.wr .dSnapSlo uTime dom (BitVec.ofNat 32 c.sec)).fs F.dSnapShi_frac (c.frac / 2 ^ 16) uTime dom).fs F.dSnapShi_secHi (c.sec / 2 ^ 32) uTime
      dom).fs F.dSnapNs_ns c.ns uTime dom
  (one (one d 0) 1).set64 .devSnapLo .devSnapHi d.stamp uTime

/-- A switch of the selected domain (R486, R487): `none` where it is refused. -/
def Dev.tmSwitch (d : Dev) (force : Bool) : Option Dev :=
  let old := d.devNs
  let new := 1 - d.tm.sel
  let ofs := (old : Int) - (d.tm.clock new).total
  if !force && decide (1000000000 < ofs.natAbs) then none
  else
    let e := (d.modTm fun t => { t with sel := new, ofs := if force then 0 else ofs, slewed := 0 }).syncTm
    let e := e.raise (tmEv 0x1102 1 new (unsgn 32 e.tm.ofs))
    some (if force then e.tmStep old else e)

/-- TM_CTL written (R500): a SLEW above 1,000 drops the write; a switch applies before a snapshot of the same tick (R483). -/
def Dev.effTmCtl (d : Dev) (m : Nat) (v : Word) : Dev :=
  if 1000 < getF v 15 0 then d.tmCfg m d.tm.sel
  else
    let d := d.putFields .tmCtl uTime 0 v
    let d := if getF v 30 30 = 1 then (d.tmSwitch (decide (getF v 29 29 = 1))).getD (d.tmCfg m (1 - d.tm.sel)) else d
    if getF v 31 31 = 1 then d.snap else d

def Dev.tmCtlBy (d : Dev) (m : Nat) (v : Word) : Dev := d.gated m .tmCtl uTime 0 v fun d => d.effTmCtl m v

def execTmSnap (m : Nat) (v : Word) (s : State) : Host.Outcome State Fault Refusal :=
  s.access m fun d => d.tmCtlBy m (setF v 31 31 1)
def execTmSwitch (m : Nat) (v : Word) (s : State) : Host.Outcome State Fault Refusal :=
  s.access m fun d => d.tmCtlBy m (setF v 30 29 2)
def execTmSwitchForce (m : Nat) (v : Word) (s : State) : Host.Outcome State Fault Refusal :=
  s.access m fun d => d.tmCtlBy m (setF v 30 29 3)

/-! ### Frame timing configuration (R492, R500) -/

def ftOff : Nat := 0
def ftLocked : Nat := 1
def ftHoldover : Nat := 2
def ftRelocking : Nat := 3

/-- NUM, and the period in 1/NUM ns: 10⁹ × DEN. -/
def Dev.ftNum (d : Dev) : Nat := d.fg F.ftRate_num uTime
def Dev.ftPeriod (d : Dev) : Nat := 1000000000 * d.fg F.ftRate_den uTime

/-- Values of FT_CTL, FT_RATE and FT_PHASE that R492 and R500 refuse. -/
def ftBad (ctl rate phase : Word) : Bool :=
  decide (getF ctl 14 0 = 0) || decide (16384 < getF ctl 14 0) || decide (getF rate 31 16 = 0) || decide (getF rate 15 0 = 0) ||
  decide (1000000000 * getF rate 15 0 ≤ phase.toNat * getF rate 31 16)

/-- The latest time t ≤ now, in 1/NUM ns, with (t − PHASE) mod period = 0 (R492). -/
def Dev.ftAligned (d : Dev) : Nat :=
  let p := max 1 d.ftPeriod
  let now := d.devNs * d.ftNum
  let ph := (d.rd .ftPhase uTime).toNat * d.ftNum
  if now < ph then ph else now - (now - ph) % p

/-- Every open camera frame reports HOLDOVER (R236, R494). -/
def Dev.openHoldover (d : Dev) : Dev :=
  (List.range 16).foldl (fun (e : Dev) c => if (e.cam c).opn then e.frameFlag c flHoldover else e) d

/-- The generator starts (EN rose, or FRAME_SET): LOCKED on TIME, HOLDOVER on REF_IN (R492, R495); or stops. -/
def Dev.ftStart (d : Dev) : Dev :=
  let st := if d.fb F.ftCtl_en uTime then (if d.fb F.ftCtl_src uTime then ftHoldover else ftLocked) else ftOff
  let d := ((d.fs F.ftStat_state st uTime).fs F.ftStat_good 0 uTime).fs F.ftStat_err 0 uTime
  let d := if st = ftOff then d else d.fs F.ftFrame_frame 0 uTime
  let d := d.modTm fun t => { t with gen := { edge := d.ftAligned } }
  if st = ftHoldover then d.openHoldover else d

/-- FT_CTL, FT_RATE or FT_PHASE written (R500): with EN = 1 only EN := 0 is taken. -/
def Dev.effFt (d : Dev) (m : Nat) (r : Reg) (v : Word) : Dev :=
  let at_ := fun (q : Reg) => if decide (q = r) then v else d.rd q uTime
  if d.fb F.ftCtl_en uTime ∧ ¬(r = .ftCtl ∧ getF v 31 31 = 0) then d.tmCfg m 0
  else if ftBad (at_ .ftCtl) (at_ .ftRate) (at_ .ftPhase) then d.tmCfg m 0
  else
    let was := d.fb F.ftCtl_en uTime
    let d := d.putFields r uTime 0 v
    if was = d.fb F.ftCtl_en uTime then d else d.ftStart

/-- TI_CTL written: EDGE 0b00 is dropped (R500). -/
def Dev.effTiCtl (d : Dev) (m n : Nat) (v : Word) : Dev :=
  if getF v 30 29 = 0 then d.tmCfg m n else d.putFields .tiCtl uTime n v

/-! ### Ethernet frames (R489 to R491) -/

def Dev.eth (d : Dev) (p : Nat) : Option EthPort := tget d.tm.eths p
def Dev.modEth (d : Dev) (p : Nat) (f : EthPort → EthPort) : Dev := d.modTm fun t => { t with eths := tmod t.eths p f }

/-- The port whose receive or launch queue is qid; `true` for a receive queue. -/
def Dev.ethOfQ (d : Dev) (qid : Nat) : Option (Nat × Bool) :=
  (d.tm.eths.find? fun (p : Nat × EthPort) => decide (p.2.rx = qid) || p.2.launch.contains qid).map fun (p : Nat × EthPort) =>
    (p.1, decide (p.2.rx = qid))

/-- The oldest operation of a queue. -/
def Dev.headOp (d : Dev) (qid : Nat) : Option Op :=
  ((d.opsOf qid).filter (!·.dying)).foldl (fun (a : Option Op) o =>
    match a with
    | none => some o
    | some b => if o.num < b.num then some o else some b) none

/-- SPACE of a buffer is one its owner has: HBM, or host memory of a function. -/
def spaceBad (e : Entry) (space : Nat) : Bool := decide (1 < space) || (decide (space = 1) && !isFn e.master)

/-- A receive buffer that breaks R489; a launch entry that breaks R490. -/
def erxBad (e : Entry) : Bool :=
  decide (e.opcode ≠ 0x65) || !e.notify || decide (rdLe e.body 0 8 % 64 ≠ 0) || spaceBad e (rdLe e.body 16 1)
def launchBad (e : Entry) : Bool :=
  let n := rdLe e.body 8 2
  decide (e.opcode ≠ 0x64) || !e.notify || decide (n < 60) || decide (9212 < n) || decide (3 < rdLe e.body 10 1) || spaceBad e (rdLe e.body 11 1) ||
  decide (1000000000 ≤ rdLe e.body 16 8 % 2 ^ 30 ∧ (rdLe e.body 10 1) % 2 = 1)

/-- An entry that the time unit refuses completes with E_TM_CFG. -/
def Dev.tmEntryBad (d : Dev) (o : Op) (obj : Nat) : Dev := (d.tmCfg o.entry.master obj).endOp o.tag 0x1101 []

/-- The head of a launch queue notes when it became head (R491). -/
def Dev.noteHead (d : Dev) (p qid : Nat) : Dev := d.modEth p fun x => { x with headAt := tset x.headAt qid d.devNs }

/-- The trigger input whose capture queue is qid (R499). -/
def Dev.trigOfQ (d : Dev) (qid : Nat) : Option Nat :=
  (d.tm.trigs.find? fun (p : Nat × TrigIn) => decide (p.2.qid = qid) && decide (qid ≠ 0)).map (·.1)

/-- An entry of a receive, launch or capture queue as it is dispatched (R489, R490, R499). -/
def Dev.timeDispatched (d : Dev) (o : Op) : Dev :=
  match d.ethOfQ o.qid with
  | some (p, true) => if erxBad o.entry then d.tmEntryBad o p else d
  | some (p, false) =>
    if launchBad o.entry then d.tmEntryBad o p
    else if (d.headOp o.qid).map (·.tag) = some o.tag then d.noteHead p o.qid
    else d
  | none =>
    match d.trigOfQ o.qid with
    | some k => if o.entry.opcode ≠ 0x66 ∨ o.entry.notify = false then d.tmEntryBad o k else d
    | none => d

/-- The three stamps of a moment, device time first or last. -/
def Dev.stamps (d : Dev) : List Byte := leBytes 8 (d.domStamp 0) ++ leBytes 8 (d.domStamp 1)

/-- ETH_FRAME_RX: a frame with a good FCS, its bytes without the FCS (R489). -/
def Dev.ethRx (d : Dev) (p : Nat) (bytes : List Byte) : Dev :=
  match d.eth p with
  | none => d
  | some x =>
    match if x.closing then none else d.headOp x.rx with
    | none => d.fadd F.ethCnt_nobuf 1 uTime p
    | some o =>
      let size := rdLe o.entry.body 8 8
      let bs := bytes.take size
      if !d.cbufOk o bs.length then (d.cbufBreach o).fadd F.ethCnt_nobuf 1 uTime p
      else
        let d := d.unitW (rdLe o.entry.body 16 1) o.entry.master (cbufBase o.entry) bs
        d.endOp o.tag 0 (leBytes 2 bs.length ++ leBytes 1 p ++ leBytes 1 (bit (decide (size < bytes.length))) ++ d.stamps ++ leBytes 8 d.stamp)

def execEthFrameRx (port : Fin 8) (bytes : List Byte) (s : State) : Host.Outcome State Fault Refusal := s.onDev fun d => d.ethRx port.val bytes

/-- A launch head: its queue, operation, due time, whether timed, and whether late. -/
structure LHead where
  qid : Nat
  op : Op
  due : Nat
  timed : Bool
  late : Bool

/-- The heads of a port's launch queues: untimed ones are due when they became heads (R491). -/
def Dev.launchHeads (d : Dev) (x : EthPort) : List LHead :=
  x.launch.filterMap fun q => (d.headOp q).map fun o =>
    let at_ := (tget x.headAt q).getD 0
    let timed := decide (rdLe o.entry.body 10 1 % 2 = 1)
    let t := stampNs (rdLe o.entry.body 16 8)
    ⟨q, o, if timed then t else at_, timed, timed && decide (t < at_)⟩

/-- The earliest due head, the lower QID at equal times. -/
def firstHead : List LHead → Option LHead
  | [] => none
  | h :: hs => some (hs.foldl (fun (a b : LHead) => if b.due < a.due ∨ (b.due = a.due ∧ b.qid < a.qid) then b else a) h)

/-- Time of a frame on the wire in ns: preamble, bytes and FCS at 25 Gbit/s. -/
def wireNs (len : Nat) : Nat := ceilDiv ((len + 12) * 8) 25

/-- A frame would still be in transmission at the launch time of another queue's timed head (R491). -/
def guarded (now : Nat) (h : LHead) (all : List LHead) : Bool :=
  all.any fun x => decide (x.qid ≠ h.qid) && x.timed && !x.late && decide (now < x.due) && decide (x.due < now + wireNs (rdLe h.op.entry.body 8 2))

/-- A launch ends: its completion, and the next entry of its queue becomes the head. -/
def Dev.launchEnd (d : Dev) (p : Nat) (h : LHead) (status : Nat) (late : Bool) : Dev :=
  (d.endOp h.op.tag status (leBytes 8 d.stamp ++ d.stamps ++ leBytes 1 (bit late))).noteHead p h.qid

/-- ETH_LAUNCH: the port starts the earliest due frame, or handles it as late. `host` holds the frame where it lies in host memory. -/
def Dev.ethLaunch (d : Dev) (p : Nat) (host : List Byte) : Dev :=
  match d.eth p with
  | none => d
  | some x =>
    let hs := d.launchHeads x
    match firstHead hs with
    | none => d
    | some h =>
      let e := h.op.entry
      let n := rdLe e.body 8 2
      let a := rdLe e.body 0 8
      let sendLate := decide (rdLe e.body 10 1 / 2 % 2 = 1)
      let inHbm := decide (rdLe e.body 11 1 = 0)
      let late := if h.late then (d.fadd F.ethCnt_late 1 uTime p).raiseOnce p 10000000 (tmEv 0x1106 2 p) else d
      if h.late && !sendLate then late.launchEnd p h 0x1106 true
      else if !h.late && decide (d.devNs < h.due) then d
      else if guarded d.devNs h hs then d
      else if inHbm && !d.callerMay e.master a n false then ((d.dmaOutside e.master a).endOp h.op.tag 0x0310 []).noteHead p h.qid
      else
        let d := late
        let bs := if inHbm then d.hbmR a n else fitB host n
        let d := d.modTm fun t => { t with sent := (p, bs) :: t.sent }
        let d := if h.timed then d.fadd F.ethCnt_timed 1 uTime p else d
        d.launchEnd p h (if h.late then 0x1106 else 0) h.late

def execEthLaunch (port : Fin 8) (host : List Byte) (s : State) : Host.Outcome State Fault Refusal := s.onDev fun d => d.ethLaunch port.val host

/-- A queue of an Ethernet port: owned by the caller, class C2, unit `time` (log entry 37). -/
def ethQueue (owner depthLog2 epoch errQid q : Nat) : Queue :=
  { Queue.disabled with
    owner := owner, cls := 2, rstate := 1, depthLog2 := depthLog2, inflLog2 := depthLog2, epoch := epoch, unit := uTime, errQid := errQid,
    ringBase := Config.ringPlace q }

def Dev.tmEthBind (d : Dev) (r : Req) : VRes Dev :=
  let p := r.object
  if 7 < p then .err 0x0404
  else if r.a0 < 2 ∨ 10 < r.a0 then .err 0x0404 (offArg 0)
  else if r.a1 = 0 ∨ 4 < r.a1 then .err 0x0404 (offArg 1)
  else if (d.ethLane p).isNone ∨ (d.eth p).isSome then .err 0x0408
  else
    let q := d.oz.nextQid
    let ep := d.tm.nextEpoch
    let e := { d with oz := { d.oz with nextQid := q + 1 + r.a1 } }
    let e := (List.range (1 + r.a1)).foldl (fun (e : Dev) i => e.setQ (q + i) (ethQueue r.master r.a0 ep (d.replyQ r) (q + i))) e
    let e := e.modTm fun t => { t with
      nextEpoch := (ep + 1) % 0x10000
      eths := tset t.eths p { owner := r.master, epoch := ep, rx := q, launch := (List.range r.a1).map (q + 1 + ·) } }
    .ok e [q, q + 1, ep]

/-- No launch entry of a port waits or is in flight. -/
def Dev.ethIdle (d : Dev) (p : Nat) : Bool :=
  match d.eth p with
  | none => true
  | some x => x.launch.all fun q => (d.opsOf q).isEmpty && (d.q q).ents.isEmpty

/-- The binding ends (R501): receive buffers not used return, and the queues go. -/
def Dev.ethEnd (d : Dev) (p : Nat) : Dev :=
  match d.eth p with
  | none => d
  | some x =>
    let d := (d.opsOf x.rx).foldl (fun (e : Dev) o => (e.closeTag o).returnRole x.rx o.entry o.tag ((x.epoch + 1) % 0x10000) uQf) d
    let d := (x.rx :: x.launch).foldl Dev.destroyQ d
    d.modTm fun t => { t with eths := tdel t.eths p }

def Dev.tmEthUnbind (d : Dev) (r : Req) : VRes Dev :=
  match d.eth r.object with
  | none => .err 0x0408
  | some x => if x.closing then .err 0x0408 else .job (d.modEth r.object fun x => { x with closing := true, job := d.oz.nextJob })

/-! ### Trigger inputs (R499) -/

def Dev.trig (d : Dev) (n : Nat) : TrigIn := (tget d.tm.trigs n).getD {}

/-- TRIG_IN_EDGE: an edge that has passed the glitch filter; now is when it is accepted. -/
def Dev.trigEdge (d : Dev) (n : Nat) (rising : Bool) : Dev :=
  let d := d.fs F.tiCnt_level (bit rising) uTime n
  if !d.fb F.tiCtl_en uTime n || !(d.fg F.tiCtl_edge uTime n).testBit (if rising then 0 else 1) then d
  else
    let t := d.devNs - 4 * d.fg F.tiCtl_filter uTime n
    let x := d.trig n
    let dead := match x.last with
      | some l => decide (l ≤ t) && decide (t < l + 1000 * d.fg F.tiCtl_dead uTime n)
      | none => false
    if dead then d.fadd F.tiCnt_ignored 1 uTime n
    else
      let seq := x.seq + 1
      let d := d.modTm fun tm => { tm with trigs := tset tm.trigs n { x with seq := seq, last := some t } }
      let d := match (if x.qid = 0 then none else d.headOp x.qid) with
        | none => d.fadd F.tiCnt_dropped 1 uTime n
        | some o =>
          let back := d.devNs - t
          let dom := fun (k : Nat) => leBytes 8 (stamp64 ((d.tm.clock k).total - back))
          d.endOp o.tag 0 (leBytes 1 n ++ leBytes 1 (if rising then 1 else 2) ++ leBytes 2 seq ++ leBytes 8 (stamp64 t) ++ dom 0 ++ dom 1)
      ((d.md.rings.filter fun (p : Nat × Ring) => p.2.mask.testBit n).map (·.1)).foldl (fun (e : Dev) k => e.burstTrigger k t) d

def execTrigInEdge (input : Fin 4) (rising : Bool) (s : State) : Host.Outcome State Fault Refusal := s.onDev fun d => d.trigEdge input.val rising

/-! ### Counters (R500) -/

def ftCntFlds : List Fld := [F.ftCnt_ignored, F.ftCnt_losses, F.ftCnt_relocks]
def tiCntFlds : List Fld := [F.tiCnt_dropped, F.tiCnt_ignored]
def taCntFlds : List Fld := [F.taCnt_fired, F.taCnt_late]
def ethCntFlds : List Fld := [F.ethCnt_late, F.ethCnt_nobuf, F.ethCnt_timed]

/-- TIME_COUNTER_READ: `which` 0 FT_CNT, 1 TI_CNT, 2 TA_CNT, 3 ETH_CNT; `k` the input or port. -/
def execTimeCounterRead (m : Nat) (which : Fin 4) (k : Fin 8) (s : State) : Host.Outcome State Fault Refusal :=
  s.access m fun d => match which.val with
    | 0 => d.readClear m .ftCnt uTime 0 ftCntFlds
    | 1 => d.readClear m .tiCnt uTime (k.val % 4) tiCntFlds
    | 2 => d.readClear m .taCnt uTime 0 taCntFlds
    | _ => d.readClear m .ethCnt uTime k.val ethCntFlds

/-! ### The TIME service (R501) -/

def vTime (r : Req) (verb : Nat) (priv : Bool) (body : Dev → VRes Dev) (s : State) : Host.Outcome State Fault Refusal :=
  s.onDev fun d => d.verb r 0x0B verb priv body

def execTimeInfo (r : Req) (s : State) : Host.Outcome State Fault Refusal := vTime r 0 false (fun d =>
  .ok d [1, d.tm.sel, (d.rd .ftStat uTime).toNat, d.tm.acts.length]) s

def execTimeNow (r : Req) (s : State) : Host.Outcome State Fault Refusal := vTime r 1 false (fun d =>
  .ok d [d.stamp % 2 ^ 32, d.stamp / 2 ^ 32, unsgn 32 d.tm.ofs, d.fg F.tmCtl_slew uTime]) s

def execTimeSelect (r : Req) (s : State) : Host.Outcome State Fault Refusal := vTime r 2 true (fun d =>
  if 1 < r.a0 then .err 0x0404 (offArg 0)
  else if 1 < r.a1 then .err 0x0404 (offArg 1)
  else if r.a0 = d.tm.sel then .ok d [unsgn 32 d.tm.ofs]
  else match d.tmSwitch (decide (r.a1 = 1)) with
    | none => .err 0x1101
    | some e => .ok e [unsgn 32 e.tm.ofs]) s

/-- FRAME_SET: the three values at once, restarting the generator (R495). -/
def Dev.tmFrameSet (d : Dev) (r : Req) : VRes Dev :=
  let w := fun (n : Nat) => (BitVec.ofNat 32 (d.argW r n) : Word)
  if r.argLen < 16 then .err 0x040D
  else if ftBad (w 0) (w 1) (w 2) then .err 0x1101 (offBlk 0)
  else
    let e := ((d.putFields .ftCtl uTime 0 (w 0)).putFields .ftRate uTime 0 (w 1)).putFields .ftPhase uTime 0 (w 2)
    .ok e.ftStart [(e.ftStart.rd .ftStat uTime).toNat]

def execTimeFrameSet (r : Req) (s : State) : Host.Outcome State Fault Refusal := vTime r 3 true (fun d => d.tmFrameSet r) s
def execTimeEthBind (r : Req) (s : State) : Host.Outcome State Fault Refusal := vTime r 4 true (fun d => d.tmEthBind r) s
def execTimeEthUnbind (r : Req) (s : State) : Host.Outcome State Fault Refusal := vTime r 5 true (fun d => d.tmEthUnbind r) s

/-- The action of a 32-byte block (R496); `none` where a field is out of its range. -/
def Dev.actOf (d : Dev) (owner : Nat) (b : List Byte) : Option Act :=
  let kind := rdLe b 0 1
  let fl := rdLe b 1 1
  let ref := fl.testBit 1
  let p := sliceB b 20 12
  let off := rdLe b 4 4
  let div := rdLe b 8 4
  let ok := match kind with
    | 1 => decide (rdLe p 0 1 < 8) && decide (rdLe p 1 1 < 16)
    | 2 => decide (rdLe p 0 1 < 4) && decide (rdLe p 1 1 ≤ 4) && decide (rdLe p 4 4 % 4 = 0) && (decide (rdLe p 1 1 < 3) || decide (0 < rdLe p 4 4))
    | 5 => (d.ring (rdLe p 4 4)).isSome
    | _ => false
  let tOk := if ref then decide (off * d.ftNum < d.ftPeriod) && decide (0 < div) && decide (div < 65536)
    else decide (rdLe b 4 8 % 2 ^ 30 < 1000000000)
  if ok && tOk && decide (fl < 4) then
    some { kind := kind, late := fl.testBit 0, frameRef := ref, count := rdLe b 2 2, time := if ref then 0 else stampNs (rdLe b 4 8),
           period := if ref then 0 else rdLe b 12 8, offset := off, div := div, param := p, owner := owner }
  else none

/-- The first fire of a FRAME_REF action that nothing has delayed: the next edge whose count DIV divides, plus OFFSET. -/
def Dev.firstRef (d : Dev) (a : Act) : Nat :=
  let n := (d.rd .ftFrame uTime).toNat
  let left := a.div - n % max 1 a.div
  ceilDiv (d.tm.gen.edge + left * d.ftPeriod) (max 1 d.ftNum) + a.offset

def Dev.tmActionArm (d : Dev) (r : Req) : VRes Dev :=
  if r.argLen < 32 then .err 0x040D
  else match d.actOf r.master (d.argB r) with
    | none => .err 0x0404 (offBlk 0)
    | some a =>
      let past := !a.frameRef && decide (a.time < d.devNs)
      let first := stamp64 (if a.frameRef then d.firstRef a else a.time)
      if past && !a.late then .err 0x1107
      else match d.arm a with
        | none => .err 0x0409
        | some (k, e) =>
          let e := if past then (e.fadd F.taCnt_late 1 uTime).fire k else e
          .ok e [k, first % 2 ^ 32, first / 2 ^ 32]

def execTimeActionArm (r : Req) (s : State) : Host.Outcome State Fault Refusal := vTime r 6 true (fun d => d.tmActionArm r) s

def execTimeActionCancel (r : Req) (s : State) : Host.Outcome State Fault Refusal := vTime r 7 true (fun d =>
  match tget d.tm.acts r.object with
  | none => .err 0x0404
  | some a => if a.owner = r.master then .ok (d.disarm r.object) [a.fires] else .err 0x0404) s

def Dev.tmTrigInSet (d : Dev) (r : Req) : VRes Dev :=
  let v : Word := BitVec.ofNat 32 r.a0
  if 3 < r.object then .err 0x0404
  else if getF v 30 29 = 0 ∨ getF v 28 16 ≠ 0 then .err 0x0404 (offArg 0)
  else if r.a1 ≠ 0 ∧ (d.q r.a1).rstate = 0 then .err 0x0404 (offArg 1)
  else .ok ((d.putFields .tiCtl uTime r.object v).modTm fun t => { t with trigs := tset t.trigs r.object { d.trig r.object with qid := r.a1 } })

def execTimeTrigInSet (r : Req) (s : State) : Host.Outcome State Fault Refusal := vTime r 8 true (fun d => d.tmTrigInSet r) s

def execTimeStats (r : Req) (s : State) : Host.Outcome State Fault Refusal := vTime r 9 false (fun d =>
  let e := (ftCntFlds ++ tiCntFlds ++ taCntFlds ++ ethCntFlds).foldl (fun (e : Dev) f => e.fs f 0 uTime) d
  .ok e [(d.rd .ftCnt uTime).toNat, (d.rd .taCnt uTime).toNat, (d.rd .tiCnt uTime).toNat, (d.rd .ethCnt uTime).toNat]) s

end Sys2Proof.Machine
end

