-- ==== Sys2Proof/Machine/Scan.lean ====
section
/-! DEFINITION. Chapter 16, scan-out: the composited picture (R446, R447), outputs and sinks (R448 to R450), timing (R451 to R456), fetching
and checks (R457, R458), the base layer (R459), flips and leases (R460 to R462), the SCAN service (R465). Rows of the picture are
composed as the frame goes on; where a write lands in a frame is free (R455). -/
namespace Sys2Proof.Machine

def scEv (code sev obj frame : Nat) (d2 : Nat := 0) : Ev := { code := code, sev := sev, unit := uScan, d0 := obj, d1 := frame, d2 := d2 }

def Dev.modSc (d : Dev) (f : ScanSt → ScanSt) : Dev := { d with sc := f d.sc }
def Dev.scFrameNo (d : Dev) : Nat := d.fg F.scFrame_frame uScan
def Dev.layer (d : Dev) (k : Nat) : ScanLayer := (tget d.sc.layers k).getD {}
def Dev.modLayer (d : Dev) (k : Nat) (f : ScanLayer → ScanLayer) : Dev := d.modSc fun s => { s with layers := tset s.layers k (f (d.layer k)) }
def Dev.sink (d : Dev) (n : Nat) : Sink := (tget d.sc.sinks n).getD {}
def Dev.modSink (d : Dev) (n : Nat) (f : Sink → Sink) : Dev := d.modSc fun s => { s with sinks := tset s.sinks n (f (d.sink n)) }
def Dev.scCfgErr (d : Dev) (m obj : Nat) : Dev := d.raise { scEv 0x0F01 1 obj d.scFrameNo with master := m }

/-! ### Timing (R451, R449) -/

/-- Fields of a timing's six words: SC_TIM_H, HS, V, VS, VB, SC_PCLK. -/
structure ScTim where
  w : List Nat
def ScTim.f (t : ScTim) (i hi lo : Nat) : Nat := bitsN (t.w.getD i 0) hi lo
def ScTim.hTotal (t : ScTim) : Nat := t.f 0 31 16
def ScTim.hActive (t : ScTim) : Nat := t.f 0 15 0
def ScTim.vbMin (t : ScTim) : Nat := t.f 2 31 16
def ScTim.vActive (t : ScTim) : Nat := t.f 2 15 0
def ScTim.vbMax (t : ScTim) : Nat := t.f 4 15 0
def ScTim.pclk (t : ScTim) : Nat := t.f 5 19 0
def ScTim.m1001 (t : ScTim) : Bool := decide (t.f 5 31 31 = 1)

/-- The timing in force, and the one its registers hold. -/
def Dev.scTim (d : Dev) : ScTim := ⟨d.sc.tim⟩
def scTimRegs : List Reg := [.scTimH, .scTimHs, .scTimV, .scTimVs, .scTimVb, .scPclk]
def Dev.scShadow (d : Dev) : ScTim := ⟨scTimRegs.map fun r => (d.rd r uScan).toNat⟩

/-- A timing outside the limits of R451; sync lies within blanking. -/
def ScTim.bad (t : ScTim) : Bool :=
  decide (t.hActive % 8 ≠ 0) || decide (t.hActive < 640) || decide (4096 < t.hActive) || decide (t.hTotal < t.hActive + 80) ||
  decide (t.vActive < 480) || decide (2160 < t.vActive) || decide (t.vbMin = 0) || decide (t.vbMax < t.vbMin) ||
  decide (t.pclk < 25000) || decide (600000 < t.pclk) || decide (t.hTotal - t.hActive < t.f 1 27 16 + t.f 1 11 0) ||
  decide (t.vbMin < t.f 3 27 16 + t.f 3 11 0)

/-- An SDI output carries the timing (R449): the rasters, totals and frame rates of 12G-SDI (the totals stand in SMPTE ST 2036-1 and
ST 2048-1: PRESUMED, log entry 38). -/
def ScTim.sdi (t : ScTim) : Bool :=
  (decide (t.hActive = 3840) || decide (t.hActive = 4096)) && decide (t.vActive = 2160) && decide (t.vbMin = 90) &&
  (decide (t.pclk = 297000) || decide (t.pclk = 594000)) &&
  (decide (t.hTotal = 4400) || decide (t.hTotal = 5500) || (decide (t.hTotal = 5280) && !t.m1001))

/-- Enabled outputs: 0 DP0, 1 DP1, 2 SDI0, 3 SDI1. -/
def Dev.outOn (d : Dev) (n : Nat) : Bool := (d.fg F.scCtl_outEn uScan).testBit n
def Dev.anySdi (d : Dev) : Bool := d.outOn 2 || d.outOn 3

/-- MSA_TIMING_PAR_IGNORED of a sink: DPCD 0x00007 bit 6 (PRESUMED, log entry 38). -/
def Sink.ignored (s : Sink) : Bool := (rdLe s.dpcd 7 1).testBit 6

def Dev.hpd (d : Dev) (n : Nat) : Bool := d.fb F.opStat_hpd uScan n

/-- The effective maximum of blanking (R453). -/
def Dev.vbWant (d : Dev) : Nat :=
  if d.anySdi || ([0, 1].any fun n => d.outOn n && d.hpd n && !(d.sink n).ignored) then d.scTim.vbMin else d.scTim.vbMax

/-! ### The picture (R446, R447) -/

/-- Three 12-bit codes as one pixel, and its components. -/
def pix (r g b : Nat) : Nat := r * 2 ^ 24 + g * 2 ^ 12 + b
def clamp12 (i : Int) : Nat := if i < 0 then 0 else if 4095 < i then 4095 else i.toNat

/-- num / den rounded to nearest, in 0 to 4,095. -/
def code12 (num : Int) (den : Nat) : Nat := clamp12 ((2 * num + den) / (2 * den : Int))

/-- A 12-bit code of the base stream's range as full range. -/
def full12 (full : Bool) (c : Nat) : Nat := if full then c else code12 (((c : Int) - 256) * 4095) 3504

/-- R′G′B′ of 10-bit Y′CbCr (R447, R293). -/
def rgbOfYcc (full wide : Bool) (y cb cr : Nat) : Nat :=
  let kr : Int := if wide then 2627 else 2126
  let kb : Int := if wide then 593 else 722
  let kg := 10000 - kr - kb
  let dy : Int := if full then 1023 else 876
  let dc : Int := if full then 1023 else 896
  let yn : Int := if full then y else (y : Int) - 64
  let b : Int := (cb : Int) - 512
  let r : Int := (cr : Int) - 512
  let den := (dy * dc * 10000 * kg).toNat
  let yt := yn * dc * 10000 * kg
  let one := fun (x : Int) => code12 (4095 * (yt + x)) den
  pix (one (2 * (10000 - kr) * r * dy * kg)) (one (-(2 * (kr * (10000 - kr) * r + kb * (10000 - kb) * b) * dy))) (one (2 * (10000 - kb) * b * dy * kg))

/-- The pixel of the base layer at column x of a row's bytes. -/
def basePix (fmt : Nat) (full wide : Bool) (row : List Byte) (x : Nat) : Nat :=
  if fmt = 1 then
    let c := fun (i : Nat) => full12 full (rdLe row (6 * x + 2 * i) 2 % 4096)
    pix (c 0) (c 1) (c 2)
  else
    let v := rdLe row (5 * (x / 2)) 5
    rgbOfYcc full wide (if x % 2 = 0 then bitsN v 19 10 else bitsN v 39 30) (bitsN v 9 0) (bitsN v 29 20)

/-- A premultiplied ARGB word blended over a pixel under GALPHA g: out = g × src / 255 + (1 − α g / 65,025) × dst, to nearest. -/
def blend (g argb dst : Nat) : Nat :=
  let a := bitsN argb 31 24
  let one := fun (s t : Nat) => code12 ((g * s * 4095 + (65025 - a * g) * t : Nat) : Int) 65025
  pix (one (bitsN argb 23 16) (bitsN dst 35 24)) (one (bitsN argb 15 8) (bitsN dst 23 12)) (one (bitsN argb 7 0) (bitsN dst 11 0))

/-- A layer shows its buffer now. -/
def Dev.layerOn (d : Dev) (k : Nat) : Bool := d.fb F.lyCtl_en uScan k && !d.fb F.lyCtl_off uScan k && (d.layer k).cur.isSome

/-- Pixels of the background: 10-bit full-range codes. -/
def Dev.bgPix (d : Dev) : Nat :=
  let w := (d.rd .scBg uScan).toNat
  let c := fun (hi lo : Nat) => code12 ((bitsN w hi lo * 4095 : Nat) : Int) 1023
  pix (c 29 20) (c 19 10) (c 9 0)

/-- The base stream's transform: range, matrix and ENC. -/
def Dev.baseOt (d : Dev) : Ot :=
  match d.sc.base with
  | none => ⟨[], [], []⟩
  | some b => (d.pcam (d.strF F.strCfg_camera b.stream)).committed.ot (d.strF F.strCfg_ot b.stream)

/-- Bytes of row y of a layer's buffer. -/
def Dev.layRow (d : Dev) (k : Nat) (b : ScanBuf) (y : Nat) : List Byte :=
  d.hbmR (b.base + y * b.pitch) (if k = 0 then b.pitch else if k = 3 then b.w / 4 else 4 * b.w)

/-- A layer's pixel at (x, y) of the active area over dst; `row` holds the bytes of its buffer's row. -/
def Dev.layPix (d : Dev) (k : Nat) (b : ScanBuf) (row : List Byte) (x dst : Nat) : Nat :=
  let x0 := d.fg F.lyPos_x uScan k
  if x < x0 ∨ x0 + b.w ≤ x then dst
  else
    let g := d.fg F.lyCtl_galpha uScan k
    match k with
    | 0 => basePix (d.strF F.strCfg_format ((d.sc.base.map (·.stream)).getD 0)) d.baseOt.full d.baseOt.ycc2020 row (x - x0)
    | 3 =>
      let v := bitsN (rdLe row ((x - x0) / 4) 1) (2 * ((x - x0) % 4) + 1) (2 * ((x - x0) % 4))
      if v = 0 then dst else blend g (d.rd .scPal uScan (v - 1)).toNat dst
    | _ => blend g (rdLe row (4 * (x - x0)) 4) dst

/-- One row of the picture, layer over layer. -/
def Dev.scRow (d : Dev) (y : Nat) : List Nat :=
  let bg := List.replicate d.scTim.hActive d.bgPix
  (List.range 4).foldl (fun (px : List Nat) k =>
    if d.layerOn k then
      match (d.layer k).cur with
      | none => px
      | some b =>
        let y0 := d.fg F.lyPos_y uScan k
        if y < y0 ∨ y0 + b.h ≤ y then px
        else
          let row := d.layRow k b (y - y0)
          px.mapIdx fun x p => d.layPix k b row x p
    else px) bg

/-- The row check of a base row against its ring slot (R458, R416): counted, told once per frame. -/
def Dev.scCheck (d : Dev) (y : Nat) : Dev :=
  match d.sc.base, (d.layer 0).cur with
  | some bb, some b =>
    let y0 := d.fg F.lyPos_y uScan 0
    if !d.layerOn 0 || decide (y < y0) || decide (y0 + b.h ≤ y) then d
    else
      let k := d.strCfg bb.stream
      let slot := d.ringSlot bb.stream b.cam (d.strF F.strDecim_decim bb.stream)
      let want := rdLe (d.hbmR (slot + 16 + 4 * (y - y0)) 4) 0 4
      if crc32c (d.hbmR (b.base + (y - y0) * b.pitch) (planeRowLen k (d.camDepth k.cam) 0)) = want then d
      else
        let d := d.fadd F.lyCnt_rowchk 1 uScan 0
        if d.sc.rowTold then d
        else (d.modSc fun s => { s with rowTold := true }).mismatch 7 2 uScan bb.stream b.cam (y - y0)
  | _, _ => d

/-- The fetch rights of a leased buffer, checked again (R462). -/
def Dev.leaseCheck (d : Dev) (k : Nat) : Dev :=
  match (d.layer k).cur with
  | none => d
  | some b =>
    if !d.layerOn k || d.callerMay b.owner b.base (b.h * b.pitch) false then d
    else
      let d := ((d.fs F.lyCtl_off 1 uScan k).fs F.lyCtl_cause 2 uScan k).fadd F.lyCnt_lease 1 uScan k
      let d := d.modLayer k fun l => { l with cur := l.cur.map fun x => { x with flags := x.flags ||| 2 } }
      d.raiseOnce k 10000000 (scEv 0x0F03 2 k d.scFrameNo)

/-- Layers that the row fetches note the frame on their buffers. -/
def Dev.scTouch (d : Dev) : Dev :=
  (List.range 4).foldl (fun (e : Dev) k =>
    if e.layerOn k then e.modLayer k fun l => { l with cur := l.cur.map fun b => { b with first := some (b.first.getD e.scFrameNo), last := e.scFrameNo } }
    else e) d

/-- Rows composed up to y with the registers and the fetch rights as they stand. -/
def Dev.drawTo (d : Dev) (y : Nat) : Dev :=
  let n := d.sc.rows.length
  let ys := (List.range (min y d.scTim.vActive - n)).map (n + ·)
  if ys.isEmpty then d
  else
    let e := (ys.foldl Dev.scCheck ((List.range 4).foldl Dev.leaseCheck d)).scTouch
    let e := e.modSc fun s => { s with rows := s.rows ++ ys.map d.scRow }
    e.fs F.scStat_line e.sc.rows.length uScan

/-- A write that takes effect from a line of the frame in progress on (R455): which line is free. -/
def Dev.drawSome (d : Dev) : Dev :=
  let left := d.scTim.vActive - d.sc.rows.length
  d.useFree.drawTo (d.sc.rows.length + d.freeVal % (left + 1))

/-! ### Leases (R461, R462) -/

/-- The body of a flip's completion. -/
def ScanBuf.body (b : ScanBuf) (free : Nat) : List Byte :=
  leBytes 4 (b.first.getD free) ++ leBytes 4 (if b.first.isSome then b.last else free) ++ leBytes 1 b.flags ++ leBytes 23 0

/-- A base buffer goes back to its stream's queue. -/
def Dev.baseFeed (d : Dev) (j : Nat) : Dev :=
  match d.sc.base with
  | none => d
  | some b =>
    let q := d.strF F.strBufq_qid b.stream
    let e : Entry := { Entry.zero with
      opcode := 0x60, typ := 1, notify := true, epoch := (d.str b.stream).epoch, unit := uPipe, replyQid := b.replyQ, master := 0x40, seq := j,
      body := leBytes 8 (b.area + j * (ceilDiv b.size 64 * 64)) ++ leBytes 8 b.size ++ leBytes 16 0 }
    if (d.q q).room = 0 then d else d.enqueue q e

/-- A buffer that layer k held is given back. -/
def Dev.retire (d : Dev) (k : Nat) (b : ScanBuf) : Dev :=
  if k = 0 then d.baseFeed b.tag else d.useFree.endOp b.tag 0 (b.body d.freeVal)

/-- Buffers of layer k whose last fetch lies two frames back retire (R461). -/
def Dev.retireDue (d : Dev) (k : Nat) : Dev :=
  let n := d.scFrameNo
  let past := fun (b : ScanBuf) => b.first.isNone || decide (2 ≤ (n + 2 ^ 32 - b.last) % 2 ^ 32)
  let due := (d.layer k).old.filter past
  let d := d.modLayer k fun l => { l with old := l.old.filter fun b => !past b }
  let d := due.foldl (fun (e : Dev) b => e.retire k b) d
  let l := d.layer k
  if l.closing ∧ l.cur.isNone ∧ l.old.isEmpty then d.jobDecided l.job 0 else d

/-- LY_SIZE, LY_BUF and LY_OWNER show the current buffer. -/
def Dev.syncLayer (d : Dev) (k : Nat) : Dev :=
  match (d.layer k).cur with
  | none => (((d.wr .lySize uScan k 0).set64 .lyBufLo .lyBufHi 0 uScan k)).fs F.lyOwner_master 0 uScan k
  | some b => ((((d.fs F.lySize_w b.w uScan k).fs F.lySize_h b.h uScan k).set64 .lyBufLo .lyBufHi b.base uScan k)).fs F.lyOwner_master b.owner uScan k

/-- A layer takes a new buffer; the one before waits to retire. -/
def Dev.take (d : Dev) (k : Nat) (b : Option ScanBuf) : Dev :=
  (d.modLayer k fun l => { l with cur := b, old := l.old ++ l.cur.toList }).syncLayer k

/-! ### Frame starts (R452, R453, R459) -/

/-- Completions of base buffers come in: a frame is ready unless it repeats (R332). -/
def Dev.baseIntake (d : Dev) : Dev :=
  match d.sc.base with
  | none => d
  | some b =>
    let q := d.q b.replyQ
    let d := d.setQ b.replyQ { q with ents := [], head := q.tail }
    q.ents.foldl (fun (e : Dev) c =>
      if c.typ ≠ 2 ∨ c.status ≠ 0 then e
      else if (rdLe c.body 20 2).testBit 1 then e.baseFeed c.seq
      else e.modSc fun s => { s with ready := s.ready ++ [(c.seq, rdLe c.body 0 4)] }) d

/-- The newest ready base frame is shown; older ones go back at once and count in DROPPED. -/
def Dev.baseTake (d : Dev) : Dev :=
  match d.sc.base, d.sc.ready.getLast? with
  | some b, some (j, frame) =>
    let d := (d.sc.ready.dropLast).foldl (fun (e : Dev) p => (e.baseFeed p.1).fadd F.scCnt_dropped 1 uScan) d
    let d := d.modSc fun s => { s with ready := [] }
    d.take 0 (some { tag := j, base := b.area + j * (ceilDiv b.size 64 * 64), pitch := (d.rd .strRowb uPipe b.stream).toNat,
                     w := d.strF F.strSize_outW b.stream, h := d.strF F.strSize_outH b.stream, owner := b.owner, cam := frame })
  | _, _ => d

/-- Operations of a layer's flip queue that no buffer holds, oldest first. -/
def Dev.flips (d : Dev) (k : Nat) : List Op :=
  let l := d.layer k
  let held := (l.cur.toList ++ l.old).map (·.tag)
  ((d.opsOf (d.fg F.lyCtl_queue uScan k)).filter fun o => !held.contains o.tag && !o.dying).mergeSort fun a b => decide (a.num ≤ b.num)

/-- A flip passed over completes at once with SKIPPED. -/
def Dev.skipFlip (d : Dev) (o : Op) : Dev := d.useFree.endOp o.tag 0 ((⟨o.tag, 0, 0, 0, 0, 0, none, 0, 1, 0⟩ : ScanBuf).body d.freeVal)

/-- The layer takes the newest dispatched flip (R460). -/
def Dev.flipTake (d : Dev) (k : Nat) : Dev :=
  if d.fg F.lyCtl_queue uScan k = 0 ∨ (d.layer k).closing then d
  else
    let l := d.flips k
    match l.getLast? with
    | none => d
    | some o =>
      let b := o.entry.body
      (l.dropLast.foldl Dev.skipFlip d).take k (some
        { tag := o.tag, base := rdLe b 0 8, pitch := rdLe b 8 4, w := rdLe b 12 2, h := rdLe b 14 2, owner := o.entry.master })

/-- A frame starts: the one before is complete, its writes of VB_EFF, DP_FMT and RANGE take effect, layers come on again, the base and
the layers take their new buffers, and leases due retire. -/
def Dev.scStart (d : Dev) (whole : Bool) : Dev :=
  let d := if whole then d.drawTo d.scTim.vActive else d
  let n := (d.scFrameNo + 1) % 2 ^ 32
  let d := (d.modSc fun s => { s with picture := s.rows, rows := [], rowTold := false, dpFmt := d.fg F.scCtl_dpFmt uScan, range := d.fg F.scCtl_range uScan }).fs
    F.scFrame_frame n uScan
  let d := (d.fs F.scStat_phase 0 uScan).fs F.scStat_line 0 uScan
  let vb := d.vbWant
  let d := if d.fg F.scTimVb_vbEff uScan = vb then d else (d.fs F.scTimVb_vbEff vb uScan).raise (scEv 0x0F06 1 0 n vb)
  let d := (List.range 4).foldl (fun (e : Dev) k => (e.fs F.lyCtl_off 0 uScan k).fs F.lyCtl_cause 0 uScan k) d
  let d := [1, 2, 3].foldl Dev.flipTake d.baseTake
  let d := d.modSc fun s => { s with enc := d.baseOt.enc }
  (List.range 4).foldl (fun (e : Dev) k => (e.retireDue k).leaseCheck k) d

/-- SCAN_FRAME_START (R452): VB_MIN has passed; with a base bound a frame not yet shown must be ready. -/
def Dev.scFrame (d : Dev) : Dev :=
  let d := d.baseIntake
  if d.sc.base.isSome && d.sc.ready.isEmpty then (d.drawTo d.scTim.vActive).fs F.scStat_phase 2 uScan else d.scStart true

def execScanFrameStart (s : State) : Host.Outcome State Fault Refusal := s.onDev Dev.scFrame

/-- VB_MAX_EXPIRY (R452): the last base frame is repeated and REPEAT counts it. -/
def Dev.scExpire (d : Dev) : Dev :=
  let d := d.baseIntake
  if d.sc.base.isSome && d.sc.ready.isEmpty then (d.fadd F.scCnt_repeat 1 uScan).scStart true else d.scStart true

def execVbMaxExpiry (s : State) : Host.Outcome State Fault Refusal := s.onDev Dev.scExpire

/-- LAYER_UNDERRUN (R457): the layer's row `line` is not in the crossing. -/
def Dev.scUnderrun (d : Dev) (k line : Nat) : Dev :=
  let d := d.drawTo line
  if !d.layerOn k then d
  else
    let d := ((d.fs F.lyCtl_off 1 uScan k).fs F.lyCtl_cause 1 uScan k).fadd F.lyCnt_underrun 1 uScan k
    let d := d.modLayer k fun l => { l with cur := l.cur.map fun x => { x with flags := x.flags ||| 4 } }
    d.raiseOnce k 10000000 (scEv 0x0F02 2 k d.scFrameNo)

def execLayerUnderrun (layer : Fin 4) (line : Nat) (s : State) : Host.Outcome State Fault Refusal := s.onDev fun d => d.scUnderrun layer.val line

/-! ### Outputs (R448 to R450) -/

def opOff : Nat := 0
def opNoSink : Nat := 1
def opTraining : Nat := 2
def opActive : Nat := 3
def opFail : Nat := 4

/-- The lowest rate, then lane count, whose payload carries the timing and DP_FMT (R450): Mbit/s per lane, 8b/10b; the most there is
where none does. -/
def Dev.dpLink (d : Dev) : Nat × Nat :=
  let bpp := [24, 30, 36, 20].getD d.sc.dpFmt 36
  let need := d.scTim.pclk * bpp * (if d.scTim.m1001 then 1000 else 1001)
  let all := ([1620, 2700, 5400, 8100].zipIdx).flatMap fun (p : Nat × Nat) => [1, 2, 4].map fun l => (p.2, l, l * p.1 * 800 * 1001)
  ((all.find? fun (x : Nat × Nat × Nat) => decide (need ≤ x.2.2)).map fun (x : Nat × Nat × Nat) => (x.1, x.2.1)).getD (3, 4)

/-- An enabled output with a sink trains. -/
def Dev.dpTrain (d : Dev) (n : Nat) : Dev :=
  let (rate, lanes) := d.dpLink
  (((d.fs F.opStat_state opTraining uScan n).fs F.opStat_rate rate uScan n).fs F.opStat_lanes lanes uScan n).modSink n fun s => { s with tries := 0 }

/-- HPD's level has changed. -/
def Dev.hpdSet (d : Dev) (n : Nat) (b : Bool) : Dev := (d.fs F.opStat_hpd (bit b) uScan n).raise (scEv 0x0F05 1 n d.scFrameNo (bit b))

/-- HPD_CHANGE: 0 HPD falls; 1 HPD rises, and the sink's EDID and DPCD are read; 2 a pulse of 0.5 to 1 ms, `lost` where a lane has lost
lock. -/
def Dev.hpdChange (d : Dev) (n kind : Nat) (lost : Bool) (edid dpcd : List Byte) : Dev :=
  match kind with
  | 0 => d.hpdSet n false
  | 1 =>
    let d := (d.hpdSet n true).modSink n fun s => { s with edid := fitB edid 256, dpcd := fitB dpcd 256 }
    if d.outOn n then d.dpTrain n else d
  | _ =>
    let d := (d.hpdSet n false).hpdSet n true
    if lost && d.outOn n then (d.dpTrain n).fadd F.opStat_retrains 1 uScan n else d

def execHpdChange (out : Fin 2) (kind : Fin 3) (lost : Bool) (edid dpcd : List Byte) (s : State) : Host.Outcome State Fault Refusal :=
  s.onDev fun d => d.hpdChange out.val kind.val lost edid dpcd

def execHpdLowTimeout (out : Fin 2) (s : State) : Host.Outcome State Fault Refusal := s.onDev fun d =>
  if d.hpd out.val || !d.outOn out.val then d
  else ((d.fs F.opStat_state opNoSink uScan out.val).fs F.opStat_lanes 0 uScan out.val).modSink out.val fun _ => {}

/-- DP_LINK_TRAINING_DONE: a training ends; the third failure in a row sets FAIL (R450). -/
def Dev.dpDone (d : Dev) (n : Nat) (ok : Bool) : Dev :=
  if d.fg F.opStat_state uScan n ≠ opTraining then d
  else if ok then (d.fs F.opStat_state opActive uScan n).modSink n fun s => { s with tries := 0 }
  else
    let d := d.modSink n fun s => { s with tries := s.tries + 1 }
    if (d.sink n).tries < 3 then d else (d.fs F.opStat_state opFail uScan n).raise (scEv 0x0F04 2 n d.scFrameNo)

def execDpLinkTrainingDone (out : Fin 2) (ok : Bool) (s : State) : Host.Outcome State Fault Refusal := s.onDev fun d => d.dpDone out.val ok

def execDpTrainRetry (out : Fin 2) (s : State) : Host.Outcome State Fault Refusal := s.onDev fun d =>
  if d.fg F.opStat_state uScan out.val = opFail ∧ d.outOn out.val then d.dpTrain out.val else d

/-! ### Timing changes (R456) -/

/-- The registers' timing put in force at once; `none` where R451 refuses it. -/
def Dev.scApply (d : Dev) : Option Dev :=
  let t := d.scShadow
  if t.bad || (d.anySdi && !t.sdi) then none
  else
    let d := d.drawSome
    let d := (d.modSc fun s => { s with tim := t.w }).fs F.scTimGo_refused 0 uScan
    let d := ((d.fadd F.scCnt_short 1 uScan).baseIntake).scStart false
    some (d.raise (scEv 0x0F07 1 0 d.scFrameNo))

/-- SC_TIM_GO written. -/
def Dev.effScGo (d : Dev) (m : Nat) (v : Word) : Dev :=
  if getF v 31 31 = 0 then d.putFields .scTimGo uScan 0 v
  else match d.scApply with
    | some e => e
    | none => (d.fs F.scTimGo_refused 1 uScan).scCfgErr m 0

def execScTimGo (m : Nat) (v : Word) (s : State) : Host.Outcome State Fault Refusal :=
  let w := setF v 31 31 1
  s.access m fun d => d.gated m .scTimGo uScan 0 w fun d => d.effScGo m w

/-- A register of the picture written (R455): LY_POS with X off a multiple of 8 is refused. -/
def Dev.effScPic (d : Dev) (m k : Nat) (r : Reg) (v : Word) : Dev :=
  if r = .lyPos ∧ getF v 31 16 % 8 ≠ 0 then d.scCfgErr m k else (d.drawSome.putFields r uScan k v)

/-! ### Flips (R460) -/

/-- A flip that breaks R460's table. -/
def Dev.flipBad (d : Dev) (k : Nat) (e : Entry) : Bool :=
  let b := e.body
  let pitch := rdLe b 8 4
  let w := rdLe b 12 2
  let h := rdLe b 14 2
  decide (e.opcode ≠ 0x62) || !e.notify || decide (rdLe b 0 8 % 64 ≠ 0) || decide (pitch % 64 ≠ 0) ||
  decide (8 * pitch < (if k = 3 then 2 else 32) * w) || decide (w < 8) || decide (d.scTim.hActive < w) || decide (h = 0) ||
  decide (d.scTim.vActive < h) || (decide (k = 3) && decide (w % 8 ≠ 0)) || decide (rdLe b 16 16 ≠ 0)

/-- The layer whose flip queue is qid. -/
def Dev.layerOfQ (d : Dev) (qid : Nat) : Option Nat := [1, 2, 3].find? fun k => decide (d.fg F.lyCtl_queue uScan k = qid) && decide (qid ≠ 0)

/-- A flip as it is dispatched: refused with E_SC_CFG, or a DMA_OUTSIDE violation of its submitter. -/
def Dev.flipDispatched (d : Dev) (o : Op) : Dev :=
  match d.layerOfQ o.qid with
  | none => d
  | some k =>
    let e := o.entry
    if d.flipBad k e then (d.scCfgErr e.master k).endOp o.tag 0x0F01 []
    else if d.callerMay e.master (rdLe e.body 0 8) (rdLe e.body 8 4 * rdLe e.body 14 2) false then d
    else (d.dmaOutside e.master (rdLe e.body 0 8)).endOp o.tag 0x0310 []

/-- FLIP_ENTRY: the next entry of a layer's flip queue is dispatched and checked. -/
def Dev.flipEntry (d : Dev) (k : Nat) : Dev :=
  let q := d.fg F.lyCtl_queue uScan k
  if q = 0 ∨ !d.eligible q (d.q q) then d
  else
    let e := d.dispatchFrom q
    match e.qf.ops.getLast? with
    | none => e
    | some o => if d.qf.ops.length < e.qf.ops.length then e.flipDispatched o else e

def execFlipEntry (layer : Fin 4) (s : State) : Host.Outcome State Fault Refusal := s.onDev fun d => d.flipEntry layer.val

/-! ### Counters (R463, R464) -/

def scCntFlds : List Fld := [F.scCnt_repeat, F.scCnt_dropped, F.scCnt_short]
def lyCntFlds : List Fld := [F.lyCnt_underrun, F.lyCnt_lease, F.lyCnt_rowchk]

/-- SCAN_COUNTER_READ: 0 SC_CNT, 1 LY_CNT of layer k, 2 OP_STAT of output k. -/
def execScanCounterRead (m : Nat) (which : Fin 3) (k : Fin 4) (s : State) : Host.Outcome State Fault Refusal :=
  s.access m fun d => match which.val with
    | 0 => d.readClear m .scCnt uScan 0 scCntFlds
    | 1 => d.readClear m .lyCnt uScan k.val lyCntFlds
    | _ => d.readClear m .opStat uScan k.val [F.opStat_retrains]

/-! ### The SCAN service (R465) -/

def vScan (r : Req) (verb : Nat) (priv : Bool) (body : Dev → VRes Dev) (s : State) : Host.Outcome State Fault Refusal :=
  s.onDev fun d => d.verb r 0x09 verb priv body

def execScanInfo (r : Req) (s : State) : Host.Outcome State Fault Refusal := vScan r 0 false (fun d =>
  .ok d [1, (d.rd .scCtl uScan).toNat, d.scFrameNo, d.fg F.scTimVb_vbEff uScan]) s

def Dev.scTimingSet (d : Dev) (r : Req) : VRes Dev :=
  if r.argLen < 32 then .err 0x040D
  else
    let e := (scTimRegs.zipIdx).foldl (fun (e : Dev) (p : Reg × Nat) => e.putFields p.1 uScan 0 (BitVec.ofNat 32 (d.argW r p.2))) d
    match e.scApply with
    | some e => .ok e [e.scFrameNo]
    | none => .turned (d.fs F.scTimGo_refused 1 uScan) 0x0F01

def execScanTimingSet (r : Req) (s : State) : Host.Outcome State Fault Refusal := vScan r 1 true (fun d => d.scTimingSet r) s

/-- OUTPUT_SET: an SDI output is ACTIVE at once, a DisplayPort output trains, or has NO_SINK. -/
def Dev.scOutputSet (d : Dev) (r : Req) : VRes Dev :=
  let n := r.object
  if 3 < n then .err 0x0404
  else if 1 < r.a0 then .err 0x0404 (offArg 0)
  else if r.a0 = 1 ∧ 2 ≤ n ∧ !d.scTim.sdi then .err 0x0F01
  else
    let en := d.fg F.scCtl_outEn uScan
    if r.a0 = 0 then
      let d := d.fs F.scCtl_outEn (en - (en &&& 2 ^ n)) uScan
      .job (((d.fs F.opStat_state opOff uScan n).fs F.opStat_lanes 0 uScan n).fs F.opStat_rate 0 uScan n) (some 0)
    else
      let d := d.fs F.scCtl_outEn (en ||| 2 ^ n) uScan
      if 2 ≤ n then .job (((d.fs F.opStat_state opActive uScan n).fs F.opStat_lanes 1 uScan n).fs F.opStat_rate 5 uScan n) (some 0)
      else if d.hpd n then .job (if d.fg F.opStat_state uScan n = opActive then d else d.dpTrain n)
      else .job (d.fs F.opStat_state opNoSink uScan n)

def execScanOutputSet (r : Req) (s : State) : Host.Outcome State Fault Refusal := vScan r 2 true (fun d => d.scOutputSet r) s

/-- BASE_BIND (R459): the buffers go to the stream's queue and the stream starts. -/
def Dev.scBaseBind (d : Dev) (r : Req) : VRes Dev :=
  let s := r.a0
  let n := r.a1
  let area := r.a2 + r.a3 * 2 ^ 32
  let size := d.bufBytes s
  let fmt := d.strF F.strCfg_format s
  let live := match d.sc.base with
    | some b => d.strRun b.stream
    | none => false
  if 7 < s then .err 0x0404 (offArg 0)
  else if n < 3 ∨ 8 < n then .err 0x0404 (offArg 1)
  else if area % 64 ≠ 0 ∨ !d.inUser r.master area (n * (ceilDiv size 64 * 64)) then .err 0x0404 (offArg 2)
  else if live || d.strRun s || !(d.str s).internal || decide (size = 0) then .err 0x0408
  else if ¬(fmt = 1 ∨ fmt = 2) ∨ d.scTim.hActive < d.strF F.strSize_outW s ∨ d.scTim.vActive < d.strF F.strSize_outH s then .err 0x0F01
  else
    let q := d.oz.nextQid
    let rq : Queue := { Queue.disabled with
      owner := 0x40, cls := 2, rstate := 1, depthLog2 := 4, epoch := 1, unit := uScan, ringBase := Config.ringPlace q, errQid := q }
    let e := { d with oz := { d.oz with nextQid := q + 1 } }.setQ q rq
    let e := e.modSc fun x => { x with base := some ⟨s, n, area, size, r.master, q⟩, ready := [] }
    let e := (e.take 0 none).modLayer 0 fun l => { l with old := [], bound := true, owner := r.master }
    let e := e.fs F.lyCtl_queue (e.strF F.strBufq_qid s) uScan 0
    match e.outStreamStart { r with object := s } with
    | .ok e _ _ _ => .ok ((List.range n).foldl Dev.baseFeed e)
    | _ => .err 0x0408

def execScanBaseBind (r : Req) (s : State) : Host.Outcome State Fault Refusal := vScan r 3 true (fun d => d.scBaseBind r) s

/-- LAYER_BIND (R460): the flip queue with a new role epoch. -/
def Dev.scLayerBind (d : Dev) (r : Req) : VRes Dev :=
  let k := r.object
  if k = 0 ∨ 3 < k then .err 0x0404
  else if r.a0 < 2 ∨ 6 < r.a0 then .err 0x0404 (offArg 0)
  else if (d.layer k).bound then .err 0x0408
  else
    let q := d.oz.nextQid
    let ep := ((d.layer k).epoch + 1) % 0x10000
    let fq : Queue := { Queue.disabled with
      owner := r.master, cls := 2, rstate := 1, depthLog2 := r.a0, inflLog2 := 6, epoch := ep, unit := uScan, ringBase := Config.ringPlace q,
      errQid := d.replyQ r }
    let e := { d with oz := { d.oz with nextQid := q + 1 } }.setQ q fq
    let e := (e.modLayer k fun _ => { owner := r.master, epoch := ep, bound := true }).fs F.lyCtl_queue q uScan k
    .ok e [q, ep]

def execScanLayerBind (r : Req) (s : State) : Host.Outcome State Fault Refusal := vScan r 4 false (fun d => d.scLayerBind r) s

/-- The caller owns a layer or is privileged. -/
def Dev.ownsLayer (d : Dev) (m k : Nat) : Bool := d.priv m || ((d.layer k).bound && decide ((d.layer k).owner = m))

/-- LAYER_UNBIND: flips not taken complete with SKIPPED; the job ends when every lease has retired. -/
def Dev.scLayerUnbind (d : Dev) (r : Req) : VRes Dev :=
  let k := r.object
  if k = 0 ∨ 3 < k then .err 0x0404
  else if !(d.layer k).bound || (d.layer k).closing then .err 0x0408
  else if !d.ownsLayer r.master k then .err 0x0405
  else
    let e := (d.flips k).foldl Dev.skipFlip d.drawSome
    let e := e.take k none
    let e := e.modLayer k fun l => { l with closing := true, job := d.oz.nextJob }
    .job e (if (e.layer k).old.isEmpty then some 0 else none)

def execScanLayerUnbind (r : Req) (s : State) : Host.Outcome State Fault Refusal := vScan r 5 false (fun d => d.scLayerUnbind r) s

/-- The unbind has ended: entries still in the queue return, and the queue goes. -/
def Dev.layerGone (d : Dev) (k : Nat) : Dev :=
  let q := d.fg F.lyCtl_queue uScan k
  let d := (d.q q).ents.foldl (fun (e : Dev) x => e.returnRole q x 0 (((d.layer k).epoch + 1) % 0x10000) uQf) d
  ((d.destroyQ q).modLayer k fun l => { epoch := l.epoch }).fs F.lyCtl_queue 0 uScan k

def execScanLayerSet (r : Req) (s : State) : Host.Outcome State Fault Refusal := vScan r 6 false (fun d =>
  let k := r.object
  if 3 < k then .err 0x0404
  else if 1 < r.a0 then .err 0x0404 (offArg 0)
  else if bitsN r.a1 31 16 % 8 ≠ 0 then .err 0x0404 (offArg 1)
  else if 255 < r.a2 then .err 0x0404 (offArg 2)
  else if !d.ownsLayer r.master k then .err 0x0405
  else .ok (((d.drawSome.fs F.lyCtl_en r.a0 uScan k).wr .lyPos uScan k (BitVec.ofNat 32 r.a1)).fs F.lyCtl_galpha r.a2 uScan k)) s

def execScanPaletteSet (r : Req) (s : State) : Host.Outcome State Fault Refusal := vScan r 7 false (fun d =>
  if !d.ownsLayer r.master 3 then .err 0x0405
  else .ok (([r.a0, r.a1, r.a2].zipIdx).foldl (fun (e : Dev) (p : Nat × Nat) => e.wr .scPal uScan p.2 (BitVec.ofNat 32 p.1)) d.drawSome)) s

def execScanSinkInfo (r : Req) (s : State) : Host.Outcome State Fault Refusal := vScan r 8 false (fun d =>
  let n := r.object
  if 1 < n then .err 0x0404
  else if r.replyMax < 512 then .err 0x040D
  else if !d.hpd n || decide (d.fg F.opStat_state uScan n = opNoSink) then .err 0x0408
  else .ok d [] (fitB (d.sink n).edid 256 ++ fitB (d.sink n).dpcd 256)) s

def execScanStats (r : Req) (s : State) : Host.Outcome State Fault Refusal := vScan r 9 false (fun d =>
  let e := scCntFlds.foldl (fun (e : Dev) f => e.fs f 0 uScan) d
  let e := [0, 1, 2].foldl (fun (e : Dev) k => lyCntFlds.foldl (fun (e : Dev) f => e.fs f 0 uScan k) e) e
  .ok e ((d.rd .scCnt uScan).toNat :: [0, 1, 2].map fun k => (d.rd .lyCnt uScan k).toNat)) s

end Sys2Proof.Machine
end

