-- ==== Sys2Proof/Machine/Twin.lean ====
section
/-! DEFINITION. Chapter 19, the pair: roles and epoch (R503 to R509), ingest modes and the mirror (R510 to R512), Bastu-T packets (R513,
R514), heartbeat and loss (R515, R516), takeover and handover (R517 to R521), attaching and detaching (R522 to R524), TW_CNT (R532) and
the TWIN service (R534). -/
namespace Sys2Proof.Config

/-- What a transfer stream or a STATE delta stands for: the spec lists its parts in order and lays out none of their bytes (R508, R523;
log entry 39). -/
opaque twinLoad : List Byte → Machine.TwinLoad

end Sys2Proof.Config
namespace Sys2Proof.Machine

def Dev.modTw (d : Dev) (f : TwinSt → TwinSt) : Dev := { d with tw := f d.tw }
def Dev.peerSerial (d : Dev) : Nat := d.get64 .twPeerLo .twPeerHi uTwin
/-- An event of the pair: DETAIL0 the partner's serial (R536). -/
def Dev.twEv (d : Dev) (code sev : Nat) (d1 : Nat := 0) : Dev :=
  d.raise { code := code, sev := sev, unit := uTwin, d0 := d.peerSerial % 2 ^ 32, d1 := d1 }
def roleSolo : Nat := 0
def roleAttaching : Nat := 3
def Dev.setTwRole (d : Dev) (n : Nat) : Dev := d.fs F.twStat_role n uTwin
/-- TWIN_ACTIVE driven (R507, R532 ACTIVE). -/
def Dev.setActive (d : Dev) (b : Bool) : Dev :=
  { d.fs F.twStat_active (bit b) uTwin with pins := { d.pins with twinActive := b } }
def Dev.setHot (d : Dev) (b : Bool) : Dev := d.fs F.twStat_hot (bit b) uTwin
def Dev.isHot (d : Dev) : Bool := d.fb F.twStat_hot uTwin
def Dev.pairEpoch (d : Dev) : Nat := d.fg F.twStat_pairEpoch uTwin
def Dev.nextPair (d : Dev) : Dev := d.fs F.twStat_pairEpoch ((d.pairEpoch + 1) % 65536) uTwin
def Dev.twUp (d : Dev) : Bool := decide (d.lstate 8 = 4)
/-- A CTRL packet (R513). -/
def Dev.twCtrl (d : Dev) (op start reason : Nat) : Dev := d.twSend 6 0 op (leBytes 8 start ++ leBytes 4 reason)

/-- What a received packet other than HEARTBEAT and CTRL passes before it counts: the pair epoch (R505), its CRC-32C. -/
def Dev.twRx (d : Dev) (epoch : Nat) (crcOk : Bool) (f : Dev → Dev) : Dev :=
  if epoch % 65536 ≠ d.pairEpoch then d.fadd F.twCnt_stale 1 uTwin else if crcOk then f d else d

/-- The takeover reference camera (R517): the in-line camera where it runs, else the lowest running one. -/
def Dev.refCam (d : Dev) : Option Nat :=
  let run := (List.range 16).filter d.camRun
  match run.find? fun c => decide (d.camF F.camCfg_inline c = 1) with
  | some c => some c
  | none => run.head?

/-- START_TIME of the last closed frame of a camera as a stamp, 0 where there is none (R513 REF_START). -/
def Dev.lastClosed (d : Dev) (c : Nat) : Nat :=
  ((((tget d.ing.opened c).getD []).find? fun p => decide (p.1 + 1 = (d.cam c).no)).map (·.2)).getD 0

def Dev.refStart (d : Dev) : Nat := (d.refCam.map d.lastClosed).getD 0

/-- Two START_TIMEs name the same frame of camera c (R508). -/
def Dev.sameFrame (d : Dev) (c a b : Nat) : Bool :=
  decide (((stampNs a : Int) - stampNs b).natAbs ≤ d.camF F.camFill_skewUs c * 1000)

/-! ### What attaches and what ends an attach (R522) -/

/-- The device takes ATTACHING and asks its partner. -/
def Dev.attachNow (d : Dev) : Dev :=
  (((d.setTwRole roleAttaching).setHot false).modTw fun t => { t with
    waiting := false, rx := [], loaded := false, matched := 0, lastRef := 0, lost := false, mseqRx := none }).twCtrl 5 0 0

/-- A clip that the lead records, set up on the shadow: its records wait in RECBUF (R518, R522 step 3). -/
def Dev.followClip (d : Dev) (x : Nat × Nat × Nat × List (List Byte)) : Option Dev :=
  let (clip, start, rate, descs) := x
  if (d.clipRec clip).isSome then some d
  else
    match d.alloc rgMedia (2 * rateBytes rate) (tagOf 15 clip) with
    | none => none
    | some (base, e) =>
      let q := e.oz.nextQid
      let rq : Queue := { Queue.disabled with
        owner := 0x40, cls := 1, rstate := 1, depthLog2 := 10, epoch := 1, unit := uMedia, ringBase := Config.ringPlace q, errQid := q }
      let e := { e with oz := { e.oz with nextQid := q + 1 } }.setQ q rq
      let r : Rec := { clip := clip, tracks := descs.map trackOf, base := base, size := 2 * rateBytes rate, rate := rate, replyQ := q,
                       startAt := start, items := [headItem start descs], sha := sha0, auSha := sha0 }
      some (((e.modMd fun m => { m with recs := m.recs ++ [r] }).syncClips).feedRec clip)

/-- A word of a session register, the bits that tell what runs kept as they are. -/
def mergeWord (k : Nat) (own new : Word) : Word := sessionWord k new ||| (own ^^^ sessionWord k own)

/-- RUN of an instance of a register that the load tells. -/
def TwinLoad.runs (x : TwinLoad) (f : Fld) (u k : Nat) : Option Bool :=
  (tget x.regs (f.reg.key u k)).map fun w => decide (getF w f.hi f.lo = 1)

/-- Cameras, output streams and codec streams started and stopped as the load tells (R522 step 3). -/
def Dev.followRuns (d : Dev) (x : TwinLoad) : Dev :=
  let d := (List.range 16).foldl (fun (e : Dev) c => match x.runs F.camCfg_run uIngest c with
    | some true => if e.camRun c then e else e.camStart c
    | some false => e.camStop c
    | none => e) d
  let d := (List.range 8).foldl (fun (e : Dev) n => match x.runs F.strCfg_run uPipe n with
    | some true => if e.strRun n then e else match e.outStreamStart { ozReq with object := n } with
      | .ok y _ _ _ => y
      | _ => e
    | some false => if e.strRun n then (e.modStr n fun t => { t with stopping := true }).settleStops else e
    | none => e) d
  x.psRun.foldl (fun (e : Dev) (p : Nat × Bool) =>
    let run := (e.psStr p.1).run
    if p.2 && !run then match e.codecStreamStart { ozReq with object := p.1 } with
      | .ok y _ _ _ => y
      | _ => e
    else if run && !p.2 then (e.modPs p.1 fun x => { x with stopping := true }).psSettle p.1 else e) d

/-- The parts of a load that configure (R508, R523). -/
def Dev.followCfg (d : Dev) (x : TwinLoad) : Dev :=
  let words := (x.regs.filter fun (p : Nat × Word) => isSessionKey p.1).foldl
    (fun (t : Tab Word) (p : Nat × Word) => tset t p.1 (mergeWord p.1 ((tget t p.1).getD 0) p.2)) d.regs
  let cams := x.cams.foldl (fun (t : Tab PipeCam) (p : Nat × PipeCam) => tset t p.1 p.2) d.pipe.cams
  let d := { d with regs := words, pipe := { d.pipe with cams := cams } }
  let d := x.codec.foldl (fun (e : Dev) (p : Nat × List Byte) => e.modPs p.1 fun s => { s with cfg := p.2, cfgGen := s.cfgGen + 1 }) d
  let d := if x.vol.isSome then d.modMd fun m => { m with vol := x.vol } else d
  let d := x.rings.foldl (fun (e : Dev) (r : Req) => match e.mdBurstArm r with
    | .ok y _ _ _ => y
    | _ => e) d
  let d := x.acts.foldl (fun (e : Dev) (b : List Byte) => match (e.actOf 0x40 b).bind e.arm with
    | some y => y.2
    | none => e) d
  let boots := x.boots.foldl (fun (b : Tab (Nat × Nat × Nat × Nat)) p => tset b p.1 p.2) d.tw.boots
  let clips := x.marks.foldl (fun (c : Tab ClipMark) p => tset c p.1 p.2) d.tw.clips
  d.modTw fun t => { t with boots := boots, clips := clips }

/-- A load applied; none where a section is rejected: a clip whose RECBUF does not fit. -/
def Dev.follow (d : Dev) (x : TwinLoad) : Option Dev :=
  match x.clips.foldl (fun (s : Option Dev) c => s.bind fun e => e.followClip c) (some ((d.followCfg x).followRuns x)) with
  | none => none
  | some e => some (x.stops.foldl (fun (e : Dev) (p : Nat × Nat) => e.recStop p.1 p.2) e)

/-- STATE (R508, R522): a segment of the transfer stream of an ATTACHING device, acknowledged, the shorter one its last; a delta of a
shadow. -/
def Dev.twState (d : Dev) (seg off : Nat) (bs : List Byte) : Dev :=
  if d.role = roleAttaching then
    let rx := if off = d.tw.rx.length then d.tw.rx ++ bs else d.tw.rx
    let d := (d.modTw fun t => { t with rx := rx }).twSend 4 seg rx.length []
    if 65504 ≤ bs.length then d
    else if !sessCrc rx then d.attachFails
    else
      match d.follow (Config.twinLoad rx) with
      | none => d.attachFails
      | some e => (e.setTwRole roleShadow).modTw fun t => { t with loaded := true, rx := [], gen := t.peerGen }
  else if d.role = roleShadow then
    match d.follow (Config.twinLoad bs) with
    | none => d
    | some e => e.modTw fun t => { t with gen := t.gen + 1 }
  else d

def execState (epoch : Nat) (crcOk : Bool) (seg off : Nat) (bytes : List Byte) (s : State) : Host.Outcome State Fault Refusal :=
  s.onDev fun d => d.twRx epoch crcOk fun d => d.twState seg off bytes

def execStateAck (epoch : Nat) (crcOk : Bool) (bytes : Nat) (s : State) : Host.Outcome State Fault Refusal :=
  s.onDev fun d => d.twRx epoch crcOk fun d => d.modTw fun t => { t with acked := bytes }

/-- ATTACH_REQ at a lead (R522 step 1): refused on another firmware major release, or while an update, a handover or another attach
runs; else the base is frozen at the reference camera's next frame start. -/
def Dev.attachReq (d : Dev) (major : Nat) : Dev :=
  if d.role ≠ roleLead then d.twCtrl 6 0 0x0408
  else if major ≠ d.fg F.ozFwver_major uOzder then (d.twEv 0x1202 2 major).twCtrl 6 0 0x1202
  else if d.boot.session.isSome || d.tw.handing || d.tw.attaching then d.twCtrl 6 0 0x0408
  else d.modTw fun t => { t with attaching := true, freezing := true, attached := false, peerHot := false }

def execAttachReq (crcOk : Bool) (major : Nat) (s : State) : Host.Outcome State Fault Refusal :=
  s.onDev fun d => if crcOk then d.attachReq major else d

/-- ATTACH_BASE_FREEZE (R522 step 2): the base is frozen and sent, every segment but the last of 65,504 bytes. Its bytes but for the
CRC-32C trailer are open (log entry 39). -/
def Dev.freezeBase (d : Dev) : Dev :=
  if !d.tw.freezing then d
  else
    let body := leBytes (4 + d.freeVal % 2 ^ 24) d.useFree.freeVal
    let base := body ++ leBytes 4 (crc32c body)
    let d := d.useFree.useFree.modTw fun t => { t with freezing := false, attached := true, base := base, acked := 0 }
    (List.range (base.length / 65504 + 1)).foldl (fun (e : Dev) i => e.twSend 3 i (65504 * i) ((base.drop (65504 * i)).take 65504)) d

def execAttachBaseFreeze (s : State) : Host.Outcome State Fault Refusal := s.onDev Dev.freezeBase

/-- ATTACH_REFUSE: the device returns to SOLO; the job's outcome is E_TWIN_FW or E_TWIN_STATE (R522, R534). -/
def Dev.attachRefused (d : Dev) (reason : Nat) : Dev :=
  if d.role ≠ roleAttaching then d
  else
    let job := d.tw.attachJob
    (((d.setTwRole roleSolo).modTw fun t => { t with attachJob := 0, rx := [] })).jobDecided job (if reason = 0x1202 then 0x1202 else 0x1209)

def execAttachRefuse (crcOk : Bool) (reason : Nat) (s : State) : Host.Outcome State Fault Refusal :=
  s.onDev fun d => if crcOk then d.attachRefused reason else d

/-- HOT at a lead: the attach has ended. -/
def execHot (crcOk : Bool) (s : State) : Host.Outcome State Fault Refusal := s.onDev fun d =>
  if crcOk && decide (d.role = roleLead) then d.modTw fun t => { t with peerHot := true, attaching := false } else d

/-- The shadow is in step (R522 step 4): HOT, told to the lead, its ATTACH job done. -/
def Dev.becomeHot (d : Dev) : Dev :=
  let job := d.tw.attachJob
  (((d.setHot true).modTw fun t => { t with attachJob := 0 }).twCtrl 7 0 0).twEv 0x1206 1 |>.jobDecided job 0

/-- Frames of camera c up to number n are developed and coded. -/
def Dev.workedTo (d : Dev) (c n : Nat) : Bool :=
  d.pipe.frames.all (fun f => decide (f.rep.cam ≠ c) || decide (n < f.rep.frame)) &&
  d.ps.reps.all (fun f => decide (f.cam ≠ c) || decide (n < f.frame))

/-- An attached shadow compares the lead's last closed frame with its own: HOT after two in a row, at once where no camera runs. -/
def Dev.hotCheck (d : Dev) (ref : Nat) : Dev :=
  if d.role ≠ roleShadow || d.isHot || !d.tw.loaded then d
  else
    match d.refCam with
    | none => d.becomeHot
    | some c =>
      if ref = 0 ∨ ref = d.tw.lastRef then d
      else
        match ((tget d.ing.opened c).getD []).find? fun p => decide (p.1 < (d.cam c).no) && d.sameFrame c p.2 ref with
        | none => if stampNs ref < stampNs (d.lastClosed c) then d.modTw fun t => { t with matched := 0, lastRef := ref } else d
        | some (n, _) =>
          if !d.workedTo c n then d
          else
            let d := d.modTw fun t => { t with matched := t.matched + 1, lastRef := ref }
            if 2 ≤ d.tw.matched then d.becomeHot else d

/-! ### Heartbeat (R515, R516, R506, R509) -/

/-- The partner is lost (R516): a HOT shadow waits for its boundary, another takes SOLO, a lead serves alone. `cause`: 1 no valid
heartbeat, 2 FAIL, 3 TWIN_PRESENT. -/
def Dev.partnerLost (d : Dev) (cause : Nat) : Dev :=
  let peer := d.tw.peerRole.getD 0
  let gone := d.modTw fun t => { t with peerRole := none, peerHot := false }
  if d.role = roleLead then
    if peer ≠ roleShadow ∧ peer ≠ roleAttaching then gone
    else
      let job := d.tw.handJob
      (((gone.modTw fun t => { t with attached := false, attaching := false, freezing := false, handing := false, handJob := 0 }).twEv 0x1203 3).twEv
        0x1207 2).jobDecided job 0x1203
  else if d.role = roleShadow then
    if d.tw.lost then gone
    else
      let d := gone.twEv 0x1203 3
      if d.isHot then d.modTw fun t => { t with lost := true, takeCause := cause, handing := false }
      else ((d.setTwRole roleSolo).modTw fun t => { t with loaded := false }).twEv 0x1209 2
  else if d.role = roleAttaching then (gone.twEv 0x1203 3).attachFails
  else gone

/-- The partner's ALIVE fed to CVU7 (R515, R422): 16-bit counters, AL_TIMEOUT 50; whether it is accepted. -/
def Dev.feedAlive (d : Dev) (v : Nat) : Dev × Bool :=
  let u := uCvu 7
  let first := !d.integ.seen.contains 7
  let d := if first then (((d.fs F.cvuCtl_en 1 u).fs F.cvuCtl_alEn 1 u).fs F.cvuCtl_alW 1 u).fs F.cvuCtl_alTimeout 50 u else d
  let p := d.fg F.cvuAlive_value u
  let d := { d with integ := { d.integ with seen := if first then 7 :: d.integ.seen else d.integ.seen,
                                            stale := d.integ.stale.filter (· ≠ 7) } }
  let d := (d.fs F.cvuAlive_value (v % 65536) u).fadd F.cvuStat_jobs 1 u
  if first ∨ v % 65536 = (p + 1) % 65536 then (d, true)
  else if v % 65536 = p then ((d.fadd F.cvuAlive_repeats 1 u).cvuEv 0x0D03 2 7 0 0, false)
  else ((d.fadd F.cvuAlive_skips 1 u).cvuEv 0x0D04 2 7 0 ((v + 2 * 65536 - p - 1) % 65536), false)

/-- A 50 µs period without a valid heartbeat (R532 MISSED, R69). -/
def Dev.missBeats (d : Dev) (n : Nat) : Dev :=
  let d := { d with bank := { d.bank with missed := d.bank.missed + n } }.fadd F.twCnt_missed n uTwin
  if 4 ≤ d.bank.missed then d.setPeerValid false else d

/-- SKEW and DELAY (R532); ten heartbeats in a row above 1 µs raise E_TWIN_TIME (R509). -/
def Dev.skewFrom (d : Dev) (b : Beat) : Dev :=
  let diff : Int := (stampNs b.sendTime : Int) + b.delay - d.devNs
  let sat : Int := if diff < -32767 then -32767 else if 32767 < diff then 32767 else diff
  let d := (d.fs F.twSkew_delay (min b.delay 0xFFFF) uTwin).fs F.twSkew_skew (unsgn 16 sat) uTwin
  if diff.natAbs ≤ 1000 then d.modTw fun t => { t with skewRow := 0 }
  else
    let d := d.modTw fun t => { t with skewRow := t.skewRow + 1 }
    if d.tw.skewRow = 10 then (d.twEv 0x120B 2).modTw fun t => { t with skewRow := 0 } else d

/-- A device becomes lead of a pair that had none (R506). -/
def Dev.becomeLead (d : Dev) : Dev :=
  let d := ((d.setTwRole roleLead).setActive true).modTw fun t => { t with waiting := false }
  ((List.range 8).filter d.pkUp).foldl Dev.fencePort d

/-- What a device that waits for its partner's first heartbeat does (R506). -/
def Dev.firstBeat (d : Dev) (b : Beat) : Dev :=
  if !d.tw.waiting ∨ d.role ≠ roleSolo then d
  else if b.role = roleLead then d.attachNow
  else if b.role ≠ roleSolo then d
  else if (d.get64 .devSerialLo .devSerialHi uBoot) < b.serial then d.becomeLead
  else d.attachNow

/-- A valid heartbeat (R515): it counts for the bank (R69), for the partner's state and for the role. -/
def Dev.validBeat (d : Dev) (b : Beat) : Dev :=
  let d := { d with bank := { d.bank with missed := 0 } }
  let d := d.fs F.twHb_aliveRx (b.alive % 65536) uTwin
  let d := (d.fs F.bankPeer_peerEff (b.eff % 4096) uBank).fs F.bankPeer_peerUsed (b.used % 4096) uBank
  let d := (d.set64 .twPeerLo .twPeerHi b.serial uTwin).syncEff.setPeerValid true
  let d := (d.modTw fun t => { t with peerRole := some b.role, peerHot := b.hot, peerGen := b.gen }).skewFrom b
  let d := if d.role = roleAttaching ∧ b.role = roleLead then d.fs F.twStat_pairEpoch b.epoch uTwin else d
  if b.fail then d.partnerLost 2 else (d.firstBeat b).hotCheck b.refStart

def Dev.beat (d : Dev) (b : Beat) : Dev :=
  let x := d.feedAlive b.alive
  if b.crcOk && x.2 then x.1.validBeat b else x.1.missBeats 1

def execHeartbeat (b : Beat) (s : State) : Host.Outcome State Fault Refusal := s.onDev fun d => d.beat b

/-- HEARTBEAT_TIMEOUT: 200 µs since the last valid heartbeat. -/
def execHeartbeatTimeout (s : State) : Host.Outcome State Fault Refusal := s.onDev fun d =>
  (d.missBeats (4 - min 4 d.bank.missed)).partnerLost 1

def execTwinPresentChange (level : Bool) (s : State) : Host.Outcome State Fault Refusal := s.onDev fun d =>
  let fell := d.pins.twinPresent && !level
  let d := { d.fs F.twStat_present (bit level) uTwin with pins := { d.pins with twinPresent := level } }
  if fell then d.partnerLost 3 else d

/-- TWIN_LINK_WAIT_TIMEOUT (R506). -/
def execTwinLinkWaitTimeout (s : State) : Host.Outcome State Fault Refusal := s.onDev fun d =>
  if d.tw.waiting && !d.twUp then ((d.setTwRole roleSolo).modTw fun t => { t with waiting := false }).twEv 0x1201 1 else d

/-! ### Handover, the old lead's side (R521) -/

/-- Records of frames before the handover frame enter the AUs of a clip, and its last AU is flushed. -/
def Dev.handClip (d : Dev) (clip : Nat) : Dev :=
  match d.clipRec clip with
  | none => d
  | some r =>
    if !r.started ∨ 2 ≤ r.phase then d
    else
      let due := fun (i : RecItem) => decide (i.time < d.tw.handAt)
      let later := r.items.filter fun i => !due i
      let x := d.takeItems clip [] r (r.items.filter due)
      let d := (x.1.cutAu x.2).modRec clip fun y => { y with items := y.items ++ later }
      match d.clipRec clip with
      | none => d
      | some r => if r.items.any due then d else d.flushAu r

/-- A clip has nothing left to write before the handover frame. -/
def Rec.handed (r : Rec) (at_ : Nat) : Bool :=
  !r.started || (r.items.all (fun i => decide (at_ ≤ i.time)) && r.out.isEmpty && r.ended.isEmpty && (r.part.isEmpty || r.flushed))

/-- From the handover frame on: no new pack write; once those outstanding have completed, TWIN_ACTIVE falls, the device is shadow and
sends HANDOVER_GO. -/
def Dev.handStep (d : Dev) : Dev :=
  if d.tw.handing && decide (d.role = roleLead) && decide (stampNs d.tw.handAt ≤ d.devNs) then
    let d := (d.md.recs.map (·.clip)).foldl Dev.handClip d
    let writing := d.md.pcmds.any PCmd.writes
    if writing || !d.md.recs.all (fun r => r.handed d.tw.handAt) then d
    else
      let d := (((d.setActive false).setTwRole roleShadow).setHot false).modTw fun t => { t with
        handing := false, attached := false, peerHot := false, loaded := true, matched := 0 }
      d.twCtrl 2 d.tw.handAt 0
  else d

/-- One HEARTBEAT on a link that is UP (R513, R515), ALIVE counting up. -/
def Dev.beatOut (d : Dev) : Dev :=
  if !d.twUp then d else
    let a := (d.fg F.twHb_aliveTx uTwin + 1) % 65536
    let flags := bit d.isHot + 2 * bit d.hl.fatal + 4 * bit d.tw.handing
    let d := d.fs F.twHb_aliveTx a uTwin
    d.twSend 1 0 a (leBytes 1 d.role ++ leBytes 1 flags ++ leBytes 1 (d.fg F.twStat_mode uTwin) ++ leBytes 1 0 ++
      leBytes 2 (d.fg F.bankEff_eff uBank) ++ leBytes 2 (d.usedC0 d.vscale + d.usedOther d.vscale) ++ leBytes 8 d.stamp ++ leBytes 4 d.tw.gen ++
      leBytes 8 d.refStart)

/-- HEARTBEAT_SEND (R515, R516): one packet; a lead that fails drops TWIN_ACTIVE. -/
def Dev.sendBeat (d : Dev) : Dev :=
  ((if d.hl.fatal && decide (d.role = roleLead) then d.setActive false else d).beatOut).handStep

def execHeartbeatSend (s : State) : Host.Outcome State Fault Refusal := s.onDev Dev.sendBeat

/-! ### Taking the lead (R517, R518) -/

/-- Packs of a mounted volume and of every RAW namespace (R517). -/
def Dev.fencedPorts (d : Dev) : List Nat :=
  (((d.md.vol.map (·.ports)).getD []) ++ (d.md.spaces.filter fun p => !p.2.vol).flatMap (·.2.members)).eraseDups

/-- A boot mailbox of the old lead's functions opened again on this device with the next epoch; E_MB_REOPEN to its event queue (R158). -/
def Dev.takeBoot (d : Dev) (f : Nat) (x : Nat × Nat × Nat × Nat) : Dev :=
  let (page, vr, ve, ep) := x
  let d := match d.bootMbox f with
    | some b => d.dropMbox b
    | none => d
  let d := ((d.set64 .mbBootLo .mbBootHi page uOzder f).fs F.mbBootCtl_vecReply vr uOzder f).fs F.mbBootCtl_vecEvent ve uOzder f
  let e := (ep + 1) % 65536
  let d := d.openBoot f e
  let y := d.logNew { code := 0x040E, sev := 2, unit := uOzder, d0 := e }
  y.1.postEvent (0x100 + 4 * f + 2) y.2

/-- SHA-256 state after n bytes of a stream, from a mark's state where it lies before them. -/
def ClipMark.stateAt (m : ClipMark) (bs : List Byte) (n : Nat) : List Nat :=
  if m.bytes ≤ n then shaOn m.sha ((bs.take n).drop m.bytes) else shaOn sha0 (bs.take n)

/-- The skew within which two times of a track name the same frame, ns (R508). -/
def Dev.trackSkew (d : Dev) (t : Track) : Nat :=
  let c := if t.kind = 1 then
      let st := d.psStr t.obj
      if st.kind = 0 then st.idx else d.strF F.strCfg_camera st.idx
    else t.obj
  if t.kind = 3 then 0 else d.camF F.camFill_skewUs c * 1000

/-- An own record stands for a record of the stream: same type and track, times within the skew. -/
def Dev.sameRec (d : Dev) (r : Rec) (it : RecItem) (b : List Byte) : Bool :=
  decide (rdLe b 0 1 = it.typ) && decide (rdLe b 1 1 = it.track) &&
  decide (((stampNs (rdLe b 8 8) : Int) - stampNs it.time).natAbs ≤ d.trackSkew (r.tracks.getD it.track ⟨0, 0, [], [], none⟩))

/-- Own records that the kept stream does not hold: those after the last one of their type and track, and of that frame those beyond the
ones the stream has. -/
def Dev.after518 (d : Dev) (r : Rec) (kept : List (List Byte)) (its : List RecItem) : List RecItem :=
  (its.zipIdx).filterMap fun p =>
    let it := p.1
    let mine := kept.filter fun b => decide (rdLe b 0 1 = it.typ) && decide (rdLe b 1 1 = it.track)
    match mine.getLast? with
    | none => some it
    | some b =>
      if d.sameRec r it b then
        let have_ := (mine.filter fun b => d.sameRec r it b).length
        let before := ((its.take p.2).filter fun i => decide (i.typ = it.typ) && decide (i.track = it.track) && d.sameRec r i b).length
        if before < have_ then none else some it
      else if it.time ≤ rdLe b 8 8 then none else some it

/-- CLIP_TAIL_RESOLVE (R518): the stream on the packs read from the last CLIPSYNC, ended at its last complete record whose frame this
device also holds, and continued with its own records. -/
def Dev.resolveTail (d : Dev) (x : PackData) (clip : Nat) : Dev :=
  match d.md.vol, d.clipEntry clip, d.clipRec clip with
  | some v, some c, some r =>
    let m := (tget d.tw.clips clip).getD ⟨0, 0, 0, 0, sha0⟩
    let aus := chainAus v.hdr (v.chain c.first)
    let bs := recoverStream v.hdr v.ports x clip aus
    let recs := recsOf (bs.length / 64 + 1) 0 bs
    let held := fun (p : Nat × List Byte) => decide (rdLe p.2 8 8 ≤ m.start) || r.items.any fun it => d.sameRec r it p.2
    let n := ((recs.zipIdx).foldl (fun (a : Nat) p => if held p.1 then p.2 + 1 else a) 0)
    let kept := recs.take n
    let off := ((kept.getLast?).map fun p => p.1 + p.2.length).getD 0
    let au := off / auData
    let gen := match aus.find? fun p => decide (p.1 = au) with
      | some (_, a) => ((auCheck (v.hdr.read v.ports x a)).map fun k => rdLe k 28 4).getD 0
      | none => 0
    let ends := ((kept.getLast?).map fun p => [(⟨off, m.stateAt bs off, rdLe p.2 20 4, rdLe p.2 8 8, rdLe p.2 16 4⟩ : RecEnd)]).getD []
    d.modRec clip fun r => { r with
      part := (bs.take off).drop (au * auData), au := au, gen := gen, total := off, rseq := n, sha := m.stateAt bs off,
      auSha := m.stateAt bs (au * auData), ends := ends, out := [], ended := [], issued := off, doneTo := off, flushed := false, after := 0,
      items := d.after518 r (kept.map (·.2)) r.items }
  | _, _, _ => d

/-- The volume's tables as the packs hold them now: the old lead wrote them last. -/
def Dev.rereadVol (d : Dev) (x : PackData) : Dev :=
  match d.md.vol with
  | none => d
  | some v =>
    match d.mountHdr v.ports x with
    | none => d
    | some (h, order) =>
      d.modMd fun m => { m with vol := some ⟨h, order, mountClips h order x, v.heads, mountRuns h order x, mountGens h order x, v.readOnly⟩ }

/-- The steps of R517 from the FENCE row. `x` is what the packs hold. -/
def Dev.leadOn (d : Dev) (x : PackData) : Dev :=
  let d := d.fencedPorts.foldl Dev.fencePort d
  let d := d.tw.boots.foldl (fun (e : Dev) p => e.takeBoot p.1 p.2) d
  let d := d.rereadVol x
  (d.md.recs.map (·.clip)).foldl (fun (e : Dev) c => e.resolveTail x c) d

/-- The role passes to this device: epoch, LEAD, TWIN_ACTIVE; the back-channels send (R517, R521). -/
def Dev.takeRole (d : Dev) : Dev :=
  (List.range 8).foldl Dev.bcPump ((((d.nextPair.setTwRole roleLead).setHot false).setActive true).modTw fun t => { t with
    lost := false, handing := false, loaded := false, takeAt := d.stamp })

/-- TAKEOVER at its boundary (R517). -/
def execTakeover (packs : List (Nat × List (Nat × List Byte))) (s : State) : Host.Outcome State Fault Refusal := s.onDev fun d =>
  if d.tw.lost && decide (d.role = roleShadow) && d.isHot then
    let d := d.takeRole.modTw fun t => { t with attached := false }
    (d.twEv 0x1204 3 d.pairEpoch).leadOn packs
  else d

def execHandoverReq (crcOk : Bool) (start : Nat) (s : State) : Host.Outcome State Fault Refusal := s.onDev fun d =>
  if crcOk && decide (d.role = roleShadow) && d.isHot then d.modTw fun t => { t with handing := true, handAt := start } else d

/-- HANDOVER_GO at the shadow (R521). -/
def Dev.handoverGo (d : Dev) (x : PackData) : Dev :=
  if d.role ≠ roleShadow ∨ !d.tw.handing then d
  else
    let d := d.takeRole.modTw fun t => { t with takeCause := 4, attached := true }
    (((d.leadOn x).twCtrl 3 0 0).twEv 0x1205 1)

def execHandoverGo (crcOk : Bool) (packs : List (Nat × List (Nat × List Byte))) (s : State) : Host.Outcome State Fault Refusal :=
  s.onDev fun d => if crcOk then d.handoverGo packs else d

/-- HANDOVER_DONE at the old lead: HOT, the pair epoch of the packet, the job done (R521). -/
def Dev.handoverDone (d : Dev) (epoch : Nat) : Dev :=
  if d.role ≠ roleShadow then d
  else
    let job := d.tw.handJob
    ((((d.setHot true).fs F.twStat_pairEpoch (epoch % 65536) uTwin).modTw fun t => { t with handJob := 0 }).twEv 0x1205 1).jobDecided job 0

def execHandoverDone (epoch : Nat) (crcOk : Bool) (s : State) : Host.Outcome State Fault Refusal :=
  s.onDev fun d => if crcOk then d.handoverDone epoch else d

/-- DETACH at the lead (R524). -/
def execDetach (crcOk : Bool) (s : State) : Host.Outcome State Fault Refusal := s.onDev fun d =>
  if crcOk && decide (d.role = roleLead) then
    (d.modTw fun t => { t with attached := false, attaching := false, peerHot := false, peerRole := some 0 }).twEv 0x1207 2
  else d

/-! ### CLIPSYNC, the mailbox and the mirror (R512 to R514) -/

/-- CLIPSYNC: the mark is kept; records of frames that it covers leave RECBUF. -/
def Dev.clipMark (d : Dev) (clip : Nat) (m : ClipMark) : Dev :=
  let d := d.modTw fun t => { t with clips := tset t.clips clip m }
  d.modRec clip fun r =>
    let gone := r.items.filter fun i => decide (i.time ≤ m.start)
    let r := gone.foldl (fun (r : Rec) i => if i.buf = 0 then r else r.freeBuf i.buf) r
    { r with items := r.items.filter fun i => decide (m.start < i.time) }

def execClipsync (epoch : Nat) (crcOk : Bool) (clip auseq rseq start bytes : Nat) (sha : List Nat) (s : State) :
    Host.Outcome State Fault Refusal :=
  s.onDev fun d => d.twRx epoch crcOk fun d => if d.role = roleShadow then d.clipMark clip ⟨auseq, rseq, start, bytes, sha⟩ else d

def execTwinMsg (epoch : Nat) (crcOk : Bool) (bytes : List Byte) (s : State) : Host.Outcome State Fault Refusal :=
  s.onDev fun d => d.twRx epoch crcOk fun d => d.modTw fun t => { t with msgs := t.msgs ++ [fitB bytes 64] }

/-- One inner packet at the shadow's deframer. -/
def Dev.innerPkt (d : Dev) (link : Nat) : Inner → Dev
  | .frameStart src ok f w h dp t => d.startPkt ⟨link, src⟩ ok ⟨f % 4096, w, h, dp, t⟩
  | .line src ok room f l c last px => d.linePkt ⟨link, src⟩ ok room ⟨f % 4096, l, c, last⟩ px
  | .frameEnd src ok f => d.upPacket ⟨link, src⟩ ok fun d => d.frameEnd ⟨link, src⟩ (f % 4096)
  | .metadata src ok typ bs => d.upPacket ⟨link, src⟩ ok fun d => d.metaIn ⟨link, src⟩ typ bs
  | .other => d

/-- An inner packet taken under the stamp it carries, in place of the device's own (R512). -/
def Dev.innerIn (d : Dev) (link : Nat) (p : Nat × Inner) : Dev :=
  let ofs := d.tm.ofs
  let d := { d with tm := { d.tm with ofs := (stampNs p.1 : Int) - d.tm.selected.total } }
  let d := d.innerPkt link p.2
  { d with tm := { d.tm with ofs := ofs } }

/-- MIRROR at the shadow (R512, R419): epoch, trailer, sequence, then its inner packets. -/
def Dev.mirrorIn (d : Dev) (epoch : Nat) (crcOk : Bool) (mseq link : Nat) (inner : List (Nat × Inner)) : Dev :=
  if epoch % 65536 ≠ d.pairEpoch then d.fadd F.twCnt_stale 1 uTwin
  else if !crcOk then
    ((d.fadd F.twCnt_crcBad 1 uTwin).fadd (mismFld 6) 1 uInteg).raiseOnce 6 1000000
      { code := 0x0D01, sev := 2, unit := uTwin, d0 := 6 * 2 ^ 24 + link }
  else if d.role ≠ roleShadow then d
  else
    let gap := match d.tw.mseqRx with
      | none => 0
      | some e => (mseq + 65536 - e) % 65536
    let d := if gap = 0 then d else (d.fadd F.twCnt_lost gap uTwin).raiseOnce 0 1000000
      { code := 0x120A, sev := 2, unit := uTwin, d0 := d.peerSerial % 2 ^ 32 }
    let d := (d.modTw fun t => { t with mseqRx := some ((mseq + 1) % 65536) }).add64 .twMpktsLo .twMpktsHi inner.length uTwin
    inner.foldl (fun (e : Dev) p => e.innerIn link p) d

def execMirror (epoch : Nat) (crcOk : Bool) (mseq : Nat) (link : Fin 8) (inner : List (Nat × Inner)) (s : State) :
    Host.Outcome State Fault Refusal :=
  s.onDev fun d => d.mirrorIn epoch crcOk mseq link inner

/-- The open MIRROR packet closes and is sent (R513): the inner packets, each behind its stamp. -/
def Dev.closeMirror (d : Dev) : Dev :=
  if d.tw.inner.isEmpty then d
  else
    let body := d.tw.inner.flatMap fun p => leBytes 8 p.1 ++ p.2
    (d.twSend 2 d.tw.mseq (d.tw.innerLink + d.tw.inner.length * 256) body).modTw fun t => { t with mseq := (t.mseq + 1) % 65536, inner := [] }

def execMirrorCloseTimeout (s : State) : Host.Outcome State Fault Refusal := s.onDev Dev.closeMirror

/-- An ingest packet that the lead's receiver delivers is mirrored whole under its stamp in forwarded mode (R512). A packet of another
link, or one that would pass 65,528 bytes, closes the open MIRROR packet first. -/
def Dev.mirrorOut (d : Dev) (link : Nat) (bs : List Byte) : Dev :=
  if d.role ≠ roleLead ∨ d.fg F.twStat_mode uTwin ≠ 2 ∨ !d.tw.attached then d
  else
    let size := (d.tw.inner.map fun p => 8 + p.2.length).foldl (· + ·) 20
    let d := if d.tw.innerLink ≠ link ∨ 65528 < size + 8 + bs.length ∨ 255 ≤ d.tw.inner.length then d.closeMirror else d
    (d.modTw fun t => { t with innerLink := link, inner := t.inner ++ [(d.stamp, bs)] }).add64 .twMpktsLo .twMpktsHi 1 uTwin

/-! ### Registers and the TWIN service (R532, R534) -/

def execTwCntRead (m : Nat) (s : State) : Host.Outcome State Fault Refusal :=
  s.access m fun d => d.readClear m .twCnt uTwin 0 [F.twCnt_missed, F.twCnt_stale, F.twCnt_crcBad, F.twCnt_lost]

def vTwin (r : Req) (verb : Nat) (priv : Bool) (body : Dev → VRes Dev) (s : State) : Host.Outcome State Fault Refusal :=
  s.onDev fun d => d.verb r 0x0C verb priv body

def execTwinInfo (r : Req) (s : State) : Host.Outcome State Fault Refusal := vTwin r 0 false (fun d =>
  .ok d [1, (d.rd .twStat uTwin).toNat, (d.rd .twPeerLo uTwin).toNat, (d.rd .twPeerHi uTwin).toNat]) s

/-- MODE_SET (R510, R511); PAIR_MIN follows the mode (R69). -/
def Dev.twModeSet (d : Dev) (r : Req) : VRes Dev :=
  if r.a0 ≠ 1 ∧ r.a0 ≠ 2 then .err 0x0404 (offArg 0)
  else if (List.range 16).any d.camRun then .err 0x0408
  else if r.a0 = 2 ∧ overMirror (d.mappedKbaud 8) then .err 0x1201
  else .ok ((d.fs F.twStat_mode r.a0 uTwin).fs F.bankCtl_pairMin (bit (decide (r.a0 = 1))) uBank).syncEff

def execTwinModeSet (r : Req) (s : State) : Host.Outcome State Fault Refusal := vTwin r 1 true (fun d => d.twModeSet r) s

/-- ATTACH (R522, R520, R506): from SOLO or ISOLATED over a link that is UP. -/
def execTwinAttach (r : Req) (s : State) : Host.Outcome State Fault Refusal := vTwin r 2 true (fun d =>
  if (d.role ≠ roleSolo ∧ d.role ≠ roleIsolated) ∨ !d.twUp then .err 0x0408
  else .job (d.attachNow.modTw fun t => { t with attachJob := d.oz.nextJob })) s

/-- DETACH on a shadow (R524): its cameras and streams stop; the rest follows once they have. -/
def Dev.twDetach (d : Dev) : VRes Dev :=
  if d.role ≠ roleShadow then .err 0x0408
  else
    let strs := (List.range 8).filter d.strRun
    let ps := (List.range 32).filter fun n => (d.psStr n).run
    let d := ((List.range 16).filter d.camRun).foldl Dev.camStop (d.modTw fun t => { t with detachJob := d.oz.nextJob })
    let d := (strs.foldl (fun (e : Dev) s => e.modStr s fun t => { t with stopping := true }) d).settleStops
    .job (ps.foldl (fun (e : Dev) n => (e.modPs n fun x => { x with stopping := true }).psSettle n) d)

def execTwinDetach (r : Req) (s : State) : Host.Outcome State Fault Refusal := vTwin r 3 true (fun d => d.twDetach) s

/-- The end of DETACH: the packet, SOLO. -/
def Dev.detached (d : Dev) : Dev :=
  if d.role ≠ roleShadow then d
  else (((d.twCtrl 4 0 0).setTwRole roleSolo).setHot false).modTw fun t => { t with detachJob := 0, loaded := false }

/-- The first frame of the reference camera that opens no earlier than a device time in ns: its frames follow each other at its declared
rate from the last one opened (log entry 40). -/
def Dev.frameAfter (d : Dev) (t : Nat) : Nat :=
  match d.refCam with
  | none => t
  | some c =>
    let rate := d.camRate c
    match ((tget d.ing.opened c).getD []).head? with
    | none => t
    | some (_, st) =>
      if rate = 0 then t
      else
        let s := stampNs st
        s + ceilDiv (ceilDiv ((t - s) * rate) (10 ^ 12) * 10 ^ 12) rate

/-- HANDOVER on the lead (R521). -/
def Dev.twHandover (d : Dev) (r : Req) : VRes Dev :=
  if d.role ≠ roleLead ∨ !d.tw.peerHot ∨ !d.tw.attached ∨ d.tw.handing ∨ d.tw.attaching ∨ d.tw.peerGen ≠ d.tw.gen % 2 ^ 32 then .err 0x0408
  else
    let at_ := stamp64 (d.frameAfter (max (d.devNs + 2000000) (stampNs (r.a0 + r.a1 * 2 ^ 32))))
    .job ((d.modTw fun t => { t with handing := true, handAt := at_, handJob := d.oz.nextJob }).twCtrl 1 at_ 0)

def execTwinHandover (r : Req) (s : State) : Host.Outcome State Fault Refusal := vTwin r 4 true (fun d => d.twHandover r) s

def execTwinStatus (r : Req) (s : State) : Host.Outcome State Fault Refusal := vTwin r 5 false (fun d =>
  .ok d [] (leBytes 4 (d.rd .twStat uTwin).toNat ++ leBytes 4 (d.rd .twHb uTwin).toNat ++ leBytes 4 (d.rd .twCnt uTwin).toNat ++
    leBytes 4 (d.rd .twSkew uTwin).toNat ++ leBytes 8 d.tw.takeAt ++ leBytes 4 d.tw.takeCause ++ leBytes 36 0)) s

end Sys2Proof.Machine
end

