-- ==== Sys2Proof/Machine/Chain.lean ====
section
/-! DEFINITION. Chapter 19, chains: Bastu-C packets (R525, R526), flooding (R527, R528), frame sync (R529), flooded actions and messages
(R530, R535), media routing (R531), CH_CNT (R533) and the CHAIN service (R535). -/
namespace Sys2Proof.Machine

def chEv (code sev obj : Nat) (d1 d2 : Nat := 0) : Ev := { code := code, sev := sev, unit := uChain, d0 := obj, d1 := d1, d2 := d2 }
def Dev.modCh (d : Dev) (f : ChainSt → ChainSt) : Dev := { d with ch := f d.ch }
def Dev.joinedRig (d : Dev) : Bool := d.fb F.chNode_en uChain
def Dev.chNodeId (d : Dev) : Nat := d.fg F.chNode_node uChain
def Dev.chRig (d : Dev) : Nat := d.fg F.chNode_rig uChain
def Dev.cpState (d : Dev) (k : Nat) : Nat := d.fg F.cpStat_state (uChainPort k)
def cpUp : Nat := 2
def cpRefused : Nat := 3
def allNodes : Nat := 0xFFF
/-- Ports in UP. -/
def Dev.chUp (d : Dev) : List Nat := (List.range 3).filter fun k => decide (d.cpState k = cpUp)

/-- A Bastu-C packet sent on a port (R526). -/
def Dev.chRaw (d : Dev) (k pt origin dest hops seq : Nat) (body : List Byte) : Dev :=
  let p0 := origin % 0x1000 * 2 ^ 20 + dest % 0x1000 * 2 ^ 8 + hops % 256
  let p1 := seq % 0x10000 * 2 ^ 16 + d.chRig
  d.modCh fun c => { c with sent := (k, leBytes 1 pt ++ leBytes 4 p0 ++ leBytes 4 p1 ++ body) :: c.sent }

/-! ### Flooding (R527, R528) -/

/-- Whether (ORIGIN, SEQ) has been seen: the highest SEQ, a 64-entry window below it; what lies below the window counts as seen. -/
def Seen.has (x : Seen) (seq : Nat) : Bool :=
  let back := (x.top + 65536 - seq % 65536) % 65536
  decide (back = 0) || (decide (back < 32768) && (decide (64 < back) || x.win.testBit (back - 1)))

/-- A SEQ noted. -/
def Seen.note (x : Seen) (seq : Nat) : Seen :=
  let seq := seq % 65536
  let fwd := (seq + 65536 - x.top) % 65536
  if fwd = 0 then x
  else if fwd < 32768 then ⟨seq, (if 64 < fwd then 0 else x.win * 2 ^ fwd + 2 ^ (fwd - 1)) % 2 ^ 64⟩
  else ⟨x.top, x.win ||| 2 ^ (65536 - fwd - 1)⟩

def Dev.chSeen (d : Dev) (origin seq : Nat) : Bool := match tget d.ch.seen origin with
  | none => false
  | some x => x.has seq
def Dev.chNote (d : Dev) (origin seq : Nat) : Dev := d.modCh fun c => { c with
  seen := tset c.seen origin (match tget c.seen origin with
    | none => ⟨seq % 65536, 0⟩
    | some x => x.note seq) }

/-- A packet originated: HOPS 1 on every UP port, one SEQ, noted as seen. -/
def Dev.originate (d : Dev) (pt dest : Nat) (body : List Byte) : Dev :=
  let seq := d.ch.seq
  let d := d.chUp.foldl (fun (e : Dev) k => e.chRaw k pt e.chNodeId dest 1 seq body) d
  (d.chNote d.chNodeId seq).modCh fun c => { c with seq := (c.seq + 1) % 65536 }

/-- A packet sent on with one hop more on every other UP port, within DEPTH_MAX. -/
def Dev.forward (d : Dev) (pt : Nat) (h : CHead) (body : List Byte) : Dev :=
  let others := d.chUp.filter (· ≠ h.port.val)
  if others = [] then d
  else if h.hops + 1 ≤ d.fg F.chBudget_depthMax uChain then
    others.foldl (fun (e : Dev) k => e.chRaw k pt h.origin h.dest (h.hops + 1) h.seq body) d
  else (d.fadd F.chCnt_depth 1 uChain).raiseOnce 0 1000000000 (chEv 0x1212 2 h.port.val)

/-- This node is a destination. -/
def Dev.isDest (d : Dev) (dest : Nat) : Bool := decide (dest = allNodes) || decide (dest = d.chNodeId)

/-- What a packet passes before it counts: a joined node, an UP port, its CRC-32C, the rig (R525, R199). -/
def Dev.chRx (d : Dev) (h : CHead) (f : Dev → Dev) : Dev :=
  if !d.joinedRig ∨ !h.crcOk ∨ d.cpState h.port.val ≠ cpUp then d
  else if h.rig ≠ d.chRig then d.chCfg h.port.val
  else f d

/-- A SYNC, ACTION or MSG received (R527): duplicates dropped, else forwarded, and delivered where this node is a destination. -/
def Dev.flooded (d : Dev) (pt : Nat) (h : CHead) (body : List Byte) (deliver : Dev → Dev) : Dev :=
  d.chRx h fun d =>
    if d.chSeen h.origin h.seq then d.fadd F.chCnt_dup 1 uChain
    else
      let d := (d.chNote h.origin h.seq).forward pt h body
      if d.isDest h.dest then deliver d else d

/-! ### SYNC (R529) -/

/-- The distance of a time in ns from the nearest own frame edge, in 1/NUM ns. -/
def Dev.edgeOff (d : Dev) (t : Nat) : Nat :=
  let p := max 1 d.ftPeriod
  let r := (((t * d.ftNum : Nat) : Int) - d.tm.gen.edge) % (p : Int)
  min r.toNat (p - r.toNat)

def Dev.syncIn (d : Dev) (frame edge : Nat) (obj : Nat) : Dev :=
  let d := if d.fg F.ftStat_state uTime ≠ ftOff ∧ 1000 * d.ftNum < d.edgeOff (stampNs edge) then
      d.raiseOnce 0 1000000000 (chEv 0x1214 2 obj) else d
  d.modCh fun c => { c with rigFrame := frame }

def syncBody (frame edge send : Nat) : List Byte := leBytes 8 frame ++ leBytes 8 edge ++ leBytes 8 send

def execSync (h : CHead) (frame edge send : Nat) (s : State) : Host.Outcome State Fault Refusal :=
  s.onDev fun d => d.flooded 1 h (syncBody frame edge send) fun d => d.syncIn frame edge h.port.val

/-- The root's SYNC at a frame edge: its first own edge at least BUDGET ahead, with that edge's FT_FRAME as the rig frame number. -/
def Dev.rootSync (d : Dev) : Dev :=
  if !d.joinedRig ∨ !d.fb F.chNode_root uChain then d
  else
    let p := max 1 d.ftPeriod
    let due := (d.devNs + 1000 * d.fg F.chBudget_budget uChain) * d.ftNum
    let k := if due ≤ d.tm.gen.edge + p then 1 else ceilDiv (due - d.tm.gen.edge) p
    let edge := stamp64 (ceilDiv (d.tm.gen.edge + k * p) (max 1 d.ftNum))
    let n := (d.rd .ftFrame uTime).toNat + k
    (d.originate 1 allNodes (syncBody n edge d.stamp)).modCh fun c => { c with rigFrame := n }

/-! ### ACTION (R530) -/

/-- A block armed in one of this node's slots; late, it follows LATE_FIRE. -/
def Dev.actionIn (d : Dev) (block : List Byte) (obj : Nat) : Dev :=
  match d.actOf (0x101 + obj) block with
  | none => d.chCfg obj
  | some a =>
    let late := !a.frameRef && decide (a.time < d.devNs)
    let d := if late then (d.fadd F.chCnt_late 1 uChain).raise (chEv 0x1213 2 obj) else d
    if late && !a.late then d
    else
      match d.arm a with
      | none => d.raise (chEv 0x1213 2 obj 0x0409)
      | some (k, e) => if late then (e.fadd F.taCnt_late 1 uTime).fire k else e

def execAction (h : CHead) (block : List Byte) (s : State) : Host.Outcome State Fault Refusal :=
  s.onDev fun d => d.flooded 2 h (fitB block 32) fun d => d.actionIn (fitB block 32) h.port.val

/-! ### MSG (R527, R535) -/

/-- A message delivered: E_CH_MSG with ORIGIN and SEQ and the payload, which the entry's BODY begins with. -/
def Dev.msgIn (d : Dev) (origin seq : Nat) (entry : List Byte) : Dev :=
  let b := (Entry.dec entry).body
  (d.modCh fun c => { c with msgs := c.msgs ++ [entry] }).raise (chEv 0x1215 1 (origin * 2 ^ 16 + seq) (rdLe b 0 4) (rdLe b 4 4))

def execChainMsg (h : CHead) (entry : List Byte) (s : State) : Host.Outcome State Fault Refusal :=
  s.onDev fun d => d.flooded 3 h (fitB entry 64) fun d => d.msgIn h.origin h.seq (fitB entry 64)

/-! ### MEDIA (R531) -/

/-- A Bastu-M packet on its way: taken at its destination as on a TARGET port, else sent on the route. -/
def Dev.mediaHop (d : Dev) (h : CHead) (pt q ctag p1 : Nat) (bs : List Byte) : Dev :=
  d.chRx h fun d =>
    if !d.fb F.mdCfg_ext uMedia then d
    else if h.dest = d.chNodeId then d.tgtPacket (0x1000 + h.origin) pt q ctag p1 bs
    else
      match d.route h.dest with
      | none => d.chCfg h.dest
      | some k => if d.cpState k = cpUp then d.chRaw k 4 h.origin h.dest (h.hops + 1) h.seq (mPkt pt q ctag p1 bs) else d

def execMedia (h : CHead) (pt : Nat) (q : Fin 8) (ctag p1 : Nat) (bytes : List Byte) (s : State) : Host.Outcome State Fault Refusal :=
  s.onDev fun d => d.mediaHop h pt q ctag p1 bytes

/-! ### PROBE and TOPO (R525, R526) -/

/-- What a one-hop packet passes: a joined node, a port UP or REFUSED, its CRC-32C. -/
def Dev.hopRx (d : Dev) (h : CHead) (f : Dev → Dev) : Dev :=
  if d.joinedRig ∧ h.crcOk ∧ cpUp ≤ d.cpState h.port.val then f d else d

/-- A request is answered; a reply gives the one-way delay, reply time less send time on the common time (log entry 41). -/
def Dev.probeIn (d : Dev) (h : CHead) (send reply : Nat) : Dev :=
  if reply = 0 then d.chSend h.port.val 5 allNodes (leBytes 8 send ++ leBytes 8 d.stamp)
  else d.fs F.cpStat_delay (min 0xFFFF (stampNs reply - stampNs send)) (uChainPort h.port.val)

def execProbe (h : CHead) (send reply : Nat) (s : State) : Host.Outcome State Fault Refusal :=
  s.onDev fun d => d.hopRx h fun d => d.probeIn h send reply

/-- This node's TOPO on a port. -/
def Dev.sendTopo (d : Dev) (k : Nat) : Dev :=
  d.chSend k 6 allNodes (leBytes 8 (d.get64 .devSerialLo .devSerialHi uBoot) ++ leBytes 1 (d.fg F.chNode_root uChain) ++
    leBytes 1 (bitmap 3 fun j => decide (d.cpState j = cpUp)) ++ leBytes 6 0)

/-- PROBE_SEND: a PROBE on each port, and with it a TOPO, for which the spec gives no interval (log entry 41). -/
def Dev.probes (d : Dev) : Dev :=
  if !d.joinedRig then d
  else ((List.range 3).filter fun k => decide (cpUp ≤ d.cpState k)).foldl
    (fun (e : Dev) k => (e.chSend k 5 allNodes (leBytes 8 e.stamp ++ leBytes 8 0)).sendTopo k) d

def execProbeSend (s : State) : Host.Outcome State Fault Refusal := s.onDev Dev.probes

/-- A port's STATE set; E_CH_LINK as it leaves or enters UP (R536). -/
def Dev.setCp (d : Dev) (k st : Nat) : Dev :=
  let edge := decide (d.cpState k = cpUp) != decide (st = cpUp)
  let d := d.fs F.cpStat_state st (uChainPort k)
  if edge then d.raise { code := 0x1211, sev := 2, unit := uChainPort k, d0 := k } else d

/-- TOPO of a neighbour: its node and serial; another rig, or this node's ID with another serial, makes the port REFUSED (R525). -/
def Dev.topoIn (d : Dev) (h : CHead) (serial : Nat) : Dev :=
  let k := h.port.val
  let d := (d.fs F.cpStat_neighbour h.origin (uChainPort k)).modCh fun c => { c with serials := tset c.serials k serial }
  if h.rig ≠ d.chRig ∨ (h.origin = d.chNodeId ∧ serial ≠ d.get64 .devSerialLo .devSerialHi uBoot) then (d.setCp k cpRefused).chCfg k
  else d.setCp k cpUp

def execTopo (h : CHead) (serial : Nat) (s : State) : Host.Outcome State Fault Refusal :=
  s.onDev fun d => d.hopRx h fun d => d.topoIn h serial

/-! ### Registers and the CHAIN service (R533, R535) -/

def execChCntRead (m : Nat) (s : State) : Host.Outcome State Fault Refusal :=
  s.access m fun d => d.readClear m .chCnt uChain 0 [F.chCnt_dup, F.chCnt_depth, F.chCnt_late]

def vChain (r : Req) (verb : Nat) (priv : Bool) (body : Dev → VRes Dev) (s : State) : Host.Outcome State Fault Refusal :=
  s.onDev fun d => d.verb r 0x0D verb priv body

def execChainInfo (r : Req) (s : State) : Host.Outcome State Fault Refusal := vChain r 0 false (fun d =>
  .ok d [1, (d.rd .chNode uChain).toNat, (d.rd .chBudget uChain).toNat, bitmap 3 fun k => decide (d.cpState k = cpUp)]) s

/-- JOIN (R525, R528): the ports named take DOWN or UP; a port that is no CHAIN link ends the job with E_CH_CFG. -/
def Dev.chJoin (d : Dev) (r : Req) : VRes Dev :=
  if r.a0 = 0 ∨ 4094 < r.a0 then .err 0x0404 (offArg 0)
  else if 65535 < r.a1 then .err 0x0404 (offArg 1)
  else if r.a2 % 2 + r.a2 / 256 % 8 * 256 ≠ r.a2 then .err 0x0404 (offArg 2)
  else if r.a3 < 10 ∨ 255 < r.a3 then .err 0x0404 (offArg 3)
  else if d.joinedRig then .err 0x0408
  else
    let ports := (List.range 3).filter fun k => r.a2.testBit (8 + k)
    let d := (((d.fs F.chNode_en 1 uChain).fs F.chNode_root (r.a2 % 2) uChain).fs F.chNode_node r.a0 uChain).fs F.chNode_rig r.a1 uChain
    let d := (d.fs F.chBudget_budget r.a3 uChain).fs F.chBudget_depthMax ((r.a3 - 5) * 2 / 3) uChain
    let d := ports.foldl (fun (e : Dev) k => e.setCp k (if e.lstate (9 + k) = 4 then cpUp else 1)) d
    let d := d.chUp.foldl Dev.sendTopo d
    let bad := ports.filter fun k => !d.linkOn (9 + k)
    .job (bad.foldl Dev.chCfg d) (if bad = [] then none else some 0x1210)

def execChainJoin (r : Req) (s : State) : Host.Outcome State Fault Refusal := vChain r 1 true (fun d => d.chJoin r) s

/-- LEAVE: no longer a node; its ports are OFF and connections over the chain end. -/
def Dev.chLeave (d : Dev) : VRes Dev :=
  if !d.joinedRig then .err 0x0408
  else
    let d := (List.range 3).foldl (fun (e : Dev) k => e.setCp k 0) d
    let d := ((d.md.conns.filter fun c => decide (0x1000 ≤ c.key)).map (·.key)).eraseDups.foldl Dev.dropConn d
    .ok ((((d.fs F.chNode_en 0 uChain).fs F.chNode_root 0 uChain).fs F.chNode_node 0 uChain).fs F.chNode_rig 0 uChain)

def execChainLeave (r : Req) (s : State) : Host.Outcome State Fault Refusal := vChain r 2 true (fun d => d.chLeave) s

def execChainRouteSet (r : Req) (s : State) : Host.Outcome State Fault Refusal := vChain r 3 true (fun d =>
  let n := r.a0
  if n = 0 ∨ 4094 < n then .err 0x0404 (offArg 0)
  else if 3 < r.a1 then .err 0x0404 (offArg 1)
  else .ok (d.wr .chRoute uChain (n / 16) (setF (d.rd .chRoute uChain (n / 16)) (2 * (n % 16) + 1) (2 * (n % 16)) r.a1))) s

/-- A destination an ACTION or a message may name. -/
def destBad (n : Nat) : Bool := decide (n = 0) || decide (allNodes < n)

/-- ACTION (R530): originated, and armed here too where this node is a destination. -/
def Dev.chAction (d : Dev) (r : Req) : VRes Dev :=
  let block := fitB (d.argB r) 32
  if destBad r.a0 then .err 0x0404 (offArg 0)
  else if r.argLen < 32 then .err 0x040D
  else if !d.joinedRig ∨ d.role = roleShadow then .err 0x0408
  else
    match d.actOf r.master block with
    | none => .err 0x0404 (offBlk 0)
    | some a =>
      let first := if a.frameRef then d.firstRef a else a.time
      if first < d.devNs + 1000 * d.fg F.chBudget_budget uChain then .err 0x1210
      else
        let e := d.originate 2 r.a0 block
        let e := if d.isDest r.a0 then (match e.arm a with
          | some (_, y) => y
          | none => e.raise (chEv 0x1213 2 d.chNodeId 0x0409)) else e
        .ok e [stamp64 first % 2 ^ 32, stamp64 first / 2 ^ 32]

def execChainAction (r : Req) (s : State) : Host.Outcome State Fault Refusal := vChain r 4 true (fun d => d.chAction r) s

/-- SEND (R535): an EVENT entry whose BODY begins with the payload; RES0 its SEQ. -/
def Dev.chSendMsg (d : Dev) (r : Req) : VRes Dev :=
  if destBad r.a0 then .err 0x0404 (offArg 0)
  else if !d.joinedRig then .err 0x0408
  else
    let entry := ({ Entry.zero with typ := 3, body := leBytes 4 r.a1 ++ leBytes 4 r.a2 } : Entry).enc
    let seq := d.ch.seq
    let e := d.originate 3 r.a0 entry
    .ok (if d.isDest r.a0 then e.msgIn d.chNodeId seq entry else e) [seq]

def execChainSend (r : Req) (s : State) : Host.Outcome State Fault Refusal := vChain r 5 true (fun d => d.chSendMsg r) s

def execChainTopo (r : Req) (s : State) : Host.Outcome State Fault Refusal := vChain r 6 false (fun d =>
  .ok d [] ((List.range 3).flatMap fun k =>
    leBytes 2 (d.cpState k) ++ leBytes 2 (d.fg F.cpStat_neighbour (uChainPort k)) ++ leBytes 8 ((tget d.ch.serials k).getD 0) ++
      leBytes 4 (d.fg F.cpStat_delay (uChainPort k)))) s

end Sys2Proof.Machine
end

