-- ==== Sys2Proof/Machine/FrameTiming.lean ====
section
/-! DEFINITION. Chapter 18, the frame timing generator as it runs (R492 to R495): frame edges, REF_IN edges and windows, with the
FRAME_REF actions (R496) and the root's SYNC (R529) that follow from an edge. -/
namespace Sys2Proof.Machine

/-- FRAME_REF slots whose DIV divides the count fire OFFSET after the edge (R496). -/
def Dev.armRefs (d : Dev) (ns : Nat) : Dev :=
  let n := (d.rd .ftFrame uTime).toNat
  d.modTm fun t => { t with acts := t.acts.map fun (p : Nat × Act) =>
    if p.2.frameRef ∧ n % max 1 p.2.div = 0 then (p.1, { p.2 with time := ns + p.2.offset }) else p }

/-- A frame edge at a time in 1/NUM ns: counted, actions armed, SYNC sent by the root. -/
def Dev.edgeAt (d : Dev) (e : Nat) : Dev :=
  let d := d.modTm fun t => { t with gen := { t.gen with edge := e } }
  let d := d.fs F.ftFrame_frame ((d.rd .ftFrame uTime).toNat + 1) uTime
  (d.armRefs (ceilDiv e (max 1 d.ftNum))).rootSync

/-- The move of a relocking edge towards the REF_IN edges, which follow the last one seen at the period: by the shorter way, at most one
line period (R495). -/
def Dev.relockMove (d : Dev) (next : Nat) : Int :=
  let p := max 1 d.ftPeriod
  let ref := (d.tm.gen.ref.getD 0) * d.ftNum
  let ahead := (((ref : Int) - next) % (p : Int)).toNat
  let way : Int := if 2 * ahead ≤ p then ahead else (ahead : Int) - p
  let line : Int := p / max 1 (d.fg F.ftCtl_lines uTime)
  if way < -line then -line else if line < way then line else way

/-- A relocking edge lies within one tick of a REF_IN edge. -/
def Dev.onRef (d : Dev) (e : Nat) : Bool :=
  let p := max 1 d.ftPeriod
  let r := ((((d.tm.gen.ref.getD 0) * d.ftNum : Nat) : Int) - e) % (p : Int)
  decide (min r.toNat (p - r.toNat) ≤ 4 * d.ftNum)

/-- FRAME_EDGE: the generator makes an edge from device time (R492, R494, R495). LOCKED on REF_IN its edges come from REF_IN or a window's
close. -/
def Dev.frameEdge (d : Dev) : Dev :=
  let st := d.fg F.ftStat_state uTime
  let next := d.tm.gen.edge + max 1 d.ftPeriod
  if st = ftOff then d
  else if st = ftLocked then if d.fb F.ftCtl_src uTime then d else d.edgeAt (max next d.ftAligned)
  else if st = ftHoldover then d.edgeAt next
  else
    let e := if d.tm.gen.begun then next else ((next : Int) + d.relockMove next).toNat
    let d := d.modTm fun t => { t with gen := { t.gen with begun := false } }
    let d := if d.onRef e then d.modTm fun t => { t with gen := { t.gen with noneRow := 0, outRow := 0, seen := false } } else d
    (if d.onRef e then d.fs F.ftStat_state ftLocked uTime else d).edgeAt e

def execFrameEdge (s : State) : Host.Outcome State Fault Refusal := s.onDev Dev.frameEdge

/-- An interval or distance within ±1% of the period (R493, R495). -/
def Dev.inWindow (d : Dev) (off : Int) : Bool := decide (off.natAbs * 100 ≤ d.ftPeriod)

/-- A REF_IN edge measured in HOLDOVER: 16 good periods in a row enter RELOCKING (R495). -/
def Dev.measureRef (d : Dev) (now : Nat) : Dev :=
  let good := match d.tm.gen.ref with
    | none => false
    | some r => d.inWindow ((((now - r) * d.ftNum : Nat) : Int) - d.ftPeriod)
  let n := if good then d.fg F.ftStat_good uTime + 1 else 0
  let d := d.fs F.ftStat_good (min n 255) uTime
  if n < 16 then d
  else
    let d := (d.fs F.ftStat_state ftRelocking uTime).modTm fun x => { x with gen := { x.gen with begun := true } }
    (d.fadd F.ftCnt_relocks 1 uTime).raise (tmEv 0x1105 1 0)

/-- A REF_IN edge of the chosen polarity, now (R493, R495). -/
def Dev.refEdge (d : Dev) : Dev :=
  let st := d.fg F.ftStat_state uTime
  let now := d.devNs
  if st = ftOff ∨ !d.fb F.ftCtl_src uTime then d
  else
    let e := if st = ftLocked then
        let t := now * d.ftNum
        let off : Int := (t : Int) - (d.tm.gen.edge + d.ftPeriod : Nat)
        if d.inWindow off then
          let d := d.fs F.ftStat_err (unsgn 16 (off.tdiv (64 * max 1 d.ftNum))) uTime
          (d.modTm fun x => { x with gen := { x.gen with noneRow := 0, outRow := 0, seen := false } }).edgeAt t
        else (d.fadd F.ftCnt_ignored 1 uTime).modTm fun x => { x with gen := { x.gen with seen := true } }
      else if st = ftHoldover then d.measureRef now
      else d
    e.modTm fun x => { x with gen := { x.gen with ref := some now } }

def execRefInEdge (s : State) : Host.Outcome State Fault Refusal := s.onDev Dev.refEdge

/-- The generator loses REF_IN (R494): open camera frames report HOLDOVER. -/
def Dev.loseRef (d : Dev) : Dev :=
  let d := ((d.fs F.ftStat_state ftHoldover uTime).fs F.ftStat_good 0 uTime).modTm fun x => { x with
    gen := { x.gen with ref := none, noneRow := 0, outRow := 0 } }
  ((d.fadd F.ftCnt_losses 1 uTime).raise (tmEv 0x1104 2 0)).openHoldover

/-- REF_WINDOW_CLOSE: a window without an edge in it; the edge is made at the expected time, a loss after 3 periods without any edge or 8
without one in the window (R493). -/
def Dev.windowClose (d : Dev) : Dev :=
  if d.fg F.ftStat_state uTime ≠ ftLocked ∨ !d.fb F.ftCtl_src uTime then d
  else
    let g := d.tm.gen
    let none_ := if g.seen then 0 else g.noneRow + 1
    let out := g.outRow + 1
    let d := (d.modTm fun x => { x with gen := { x.gen with noneRow := none_, outRow := out, seen := false } }).edgeAt (g.edge + max 1 d.ftPeriod)
    if 3 ≤ none_ ∨ 8 ≤ out then d.loseRef else d

def execRefWindowClose (s : State) : Host.Outcome State Fault Refusal := s.onDev Dev.windowClose

end Sys2Proof.Machine
end

