-- ==== Sys2Proof/Machine/Thermal.lean ====
section
/-! DEFINITION. Chapter 20, temperature: samples with the neighbour cross-check (R538 to R541), levels (R67), rates of rise (R542),
thermal shutdown (R543), stack temperatures (R438), and the HEALTH verbs that concern temperature (R544, R563). -/
namespace Sys2Proof.Machine

/-- Neighbours of die sensor n (R537). -/
def tsPrev (n : Nat) : Nat := (n + 23) % 24
def tsNext (n : Nat) : Nat := (n + 1) % 24

/-- Reading n of a sample, 1/8 °C. -/
def rawOf (raw : List Int) (n : Nat) : Int := raw.getD n 0

/-- Agreement with at least one neighbour: within 6 °C (R538). -/
def agrees (raw : List Int) (n : Nat) : Bool :=
  decide ((rawOf raw n - rawOf raw (tsPrev n)).natAbs ≤ 48) || decide ((rawOf raw n - rawOf raw (tsNext n)).natAbs ≤ 48)

def Dev.tsFaulty (d : Dev) (n : Nat) : Bool := (d.fg F.thFault_faulty uTherm).testBit n
def Dev.tsValid (d : Dev) (n : Nat) : Bool := d.fb F.ts_valid uTherm n
/-- The reading in use of TSn, 1/8 °C. -/
def Dev.tsTemp (d : Dev) (n : Nat) : Int := sgn 12 (d.fg F.ts_temp uTherm n)

/-- The larger of a list of readings. -/
def maxOf : List Int → Option Int
  | [] => none
  | x :: xs => some (xs.foldl max x)

/-- The value in use for sensor n (R538): as read when valid; else the higher valid neighbour, else the hottest valid reading;
where no sensor is valid the rule names no value and a free one stands (log entry 1). -/
def inUse (raw : List Int) (valid : Nat → Bool) (free : Int) (n : Nat) : Int :=
  if valid n then rawOf raw n
  else
    match maxOf (([tsPrev n, tsNext n].filter valid).map (rawOf raw)) with
    | some t => t
    | none =>
      match maxOf (((List.range 24).filter valid).map (rawOf raw)) with
      | some t => t
      | none => free

/-- E_HL events with a reading and a rate (R564). -/
def Dev.hlRaise (d : Dev) (code sev n : Nat) (t : Int) (rate : Nat) : Dev :=
  d.raise { code := code, sev := sev, unit := uTherm, d0 := n, d1 := unsgn 32 t, d2 := rate }

/-! ### Levels (R67, R540, R542) -/

/-- Entry temperature of level n, 1/8 °C. -/
def levelEntry (n : Nat) : Int := 800 + 16 * ((n : Int) - 1)

/-- The level a temperature gives from level l; one is left at a time, 2 °C below its entry and 10 ms after the last change. -/
def nextLevel (l : Nat) (t : Int) (settled : Bool) : Nat :=
  let up := ((List.range 5).filter fun n => decide (0 < n) && decide (levelEntry n ≤ t)).foldl max 0
  if l < up then up else if 0 < l ∧ t ≤ levelEntry l - 16 ∧ settled then l - 1 else l

/-- TH_LEVEL with the bonus, held at 2 or above while fewer than 12 sensors are valid. -/
def Dev.thLevel (d : Dev) : Nat :=
  min 4 ((if d.hl.few then max 2 d.hl.level else d.hl.level) + bit (d.fb F.thStat_rise uTherm))

/-- TH_LEVEL follows, each change raising E_CEIL_TH (R67, R70). -/
def Dev.syncLevel (d : Dev) : Dev :=
  let n := d.thLevel
  if n = d.fg F.bankStatus_thLevel uBank then d
  else
    let d := { d.fs F.bankStatus_thLevel n uBank with hl := { d.hl with levelAt := d.hl.clk } }
    d.raise { code := 0x0114, sev := if n ≤ 1 then 1 else 2, unit := uBank }

/-! ### Shutdown (R543) -/

/-- A VDD_CORE domain powered off in hardware: its units go OFF, holding no pips (R18, R543). -/
def Dev.domainOff (d : Dev) (n : Nat) : Dev :=
  let us := unitsInDomain n
  let d := us.foldl (fun e u => if e.own u = stOff then e else ((e.withdraw u).setUst u stOff 0).fs F.ucbState_tst 0 u) d
  let d := { d with bank := { d.bank with
      grants := d.bank.grants.filter fun p => !us.contains p.1, settling := d.bank.settling.filter fun p => !us.contains p.1,
      credits := d.bank.credits.filter fun p => !us.contains p.1, good := d.bank.good.filter (· ≠ n) } }
  us.foldl Dev.loseUnit ((us.foldl (fun e u => e.fs F.ucbPip_grant 0 u) d).fs F.bankDom_on 0 uBank n)

/-- Thermal shutdown (R543): the bank stops, THERM_TRIP_N falls, E_HL_SHUTDOWN is recorded as KIND 0x01, the heartbeat carries
FAIL, a lead drops TWIN_ACTIVE, self-tests are INCOMPLETE, every domain powers off and Ozder is held in reset. -/
def Dev.thermShutdown (d : Dev) (cause n : Nat) (t : Int) (rate : Nat) : Dev :=
  if d.hl.shutdown then d
  else
    let e : Ev := { code := 0x1306, sev := 4, unit := uTherm, d0 := n, d1 := unsgn 32 t, d2 := rate }
    let r := d.recOf e
    let d := (d.raise e).nvPut 1 r (leBytes 1 cause ++ leBytes 1 n ++ leBytes 2 rate)
    let d := { d with bank := { d.bank with granting := false },
                      pins := { d.pins with thermTripN := false, twinActive := false },
                      hl := { d.hl with shutdown := true, fatal := true,
                                        runs := d.hl.runs.map fun (x : TestRun) => { x with good := false } },
                      oz := { d.oz with failed := true } }
    (List.range 64).foldl Dev.domainOff ((d.fs F.twStat_active 0 uTwin).beatOut)

/-! ### A sample -/

/-- Schedule period in ns: slow 5 ms, fast 50 µs (R541). -/
def Dev.thPeriod (d : Dev) : Nat := if d.fb F.thStat_fast uTherm then 50000 else 5000000

/-- The schedule changes (R541), for the reading t of sensor n. -/
def Dev.setFast (d : Dev) (on : Bool) (n : Nat) (t : Int) : Dev :=
  if d.fb F.thStat_fast uTherm = on then d
  else (d.fs F.thStat_fast (bit on) uTherm).hlRaise 0x1302 1 n t (bit on)

/-- Sensor n's register after a sample. -/
def Dev.putTs (d : Dev) (n : Nat) (raw use : Int) (valid faulty : Bool) : Dev :=
  d.wr .ts uTherm n (BitVec.ofNat 32
    (bit valid * 2 ^ 31 + bit faulty * 2 ^ 30 + bit (!valid) * 2 ^ 29 + unsgn 12 raw * 2 ^ 16 + unsgn 12 use))

/-- The history of sensor n. -/
def Dev.sensor (d : Dev) (n : Nat) : Sensor := (tget d.hl.sensors n).getD {}
def Dev.setSensor (d : Dev) (n : Nat) (x : Sensor) : Dev := { d with hl := { d.hl with sensors := tset d.hl.sensors n x } }

/-- R539 on one sensor of a scheduled sample: eight disagreements in a row declare it FAULTY. -/
def Dev.countDisagree (raw : List Int) (d : Dev) (n : Nat) : Dev :=
  let x := d.sensor n
  let c := if agrees raw n then 0 else x.disagree + 1
  let d := d.setSensor n { x with disagree := c }
  if 8 ≤ c ∧ !d.tsFaulty n then
    (d.fs F.thFault_faulty (d.fg F.thFault_faulty uTherm + 2 ^ n) uTherm).hlRaise 0x1303 2 n (rawOf raw n) 0
  else d

/-- The hottest die sensor among those that pass, ties to the lower number. -/
def Dev.hottest (d : Dev) (p : Nat → Bool) : Option Nat :=
  match (List.range 24).filter p with
  | [] => none
  | x :: xs => some (xs.foldl (fun b n => if d.tsTemp b < d.tsTemp n then n else b) x)

/-- The reading that governs every limit: the hottest valid one (R540). -/
def Dev.governing (d : Dev) : Option Nat := d.hottest d.tsValid

/-- A reading joined to sensor n's history of scheduled readings. -/
def Dev.pushHist (d : Dev) (n : Nat) : Dev :=
  let x := d.sensor n
  d.setSensor n { x with hist := ((d.hl.clk, d.tsTemp n) :: x.hist).take 4 }

/-- Rate of rise of sensor n over its last four scheduled samples: change and time (R542). -/
def Dev.rate (d : Dev) (n : Nat) : Option (Int × Nat) :=
  match (d.sensor n).hist with
  | [a, _, _, b] => some (a.2 - b.2, a.1 - b.1)
  | _ => none

/-- A rate above k/100 °C per ms. -/
def rateAbove (r : Option (Int × Nat)) (k : Nat) : Bool := match r with
  | some (dt, ns) => decide ((k : Int) * ns < dt * 12500000)
  | none => false

/-- A rate in 0.01 °C/ms, rounded to nearest. -/
def rate100 (r : Option (Int × Nat)) : Int := match r with
  | some (dt, ns) => if ns = 0 then 0 else (2 * dt * 12500000 + ns) / (2 * ns)
  | none => 0

/-- The highest rate among valid sensors. -/
def Dev.topRate (d : Dev) : Option Nat :=
  match (List.range 24).filter fun n => d.tsValid n && (d.rate n).isSome with
  | [] => none
  | x :: xs => some (xs.foldl (fun b n => if rate100 (d.rate b) < rate100 (d.rate n) then n else b) x)

/-- Rates after a scheduled sample (R542): TH_RATE, the bonus, the move to the fast schedule. -/
def Dev.rates (d : Dev) : Dev :=
  match d.topRate with
  | none => d.fs F.thRate_rate 0 uTherm
  | some n =>
    let k := rate100 (d.rate n)
    let d := d.fs F.thRate_rate (unsgn 16 k) uTherm
    if rateAbove (d.rate n) 200 then
      let d := if d.fb F.thStat_rise uTherm then d
        else (d.fs F.thStat_rise 1 uTherm).hlRaise 0x1305 2 n (d.tsTemp n) k.toNat
      d.setFast true n (d.tsTemp n)
    else d

/-- A severe rate (R542): above 10 °C/ms on the hottest valid sensor at 95 °C or more, a valid neighbour above 5 °C/ms. -/
def Dev.severe (d : Dev) : Option Nat :=
  d.governing.filter fun n =>
    rateAbove (d.rate n) 1000 && decide (760 ≤ d.tsTemp n) &&
      [tsPrev n, tsNext n].any fun m => d.tsValid m && rateAbove (d.rate m) 500

/-- WARN, range and restart conditions of the hottest valid reading (R541, R544). -/
def Dev.warnCheck (d : Dev) (n : Nat) : Dev :=
  let t := d.tsTemp n
  let w : Int := (d.fg F.thCtl_warn uTherm : Int) * 8
  let r := (rate100 (d.rate n)).toNat
  let d :=
    if !d.hl.warned && decide (w ≤ t) then { d with hl := { d.hl with warned := true } }.hlRaise 0x1301 2 n t r
    else if d.hl.warned && decide (t ≤ w - 16) then { d with hl := { d.hl with warned := false } }
    else d
  let out := decide (840 < t) || decide (t < (if Config.codeX then -320 else -160))
  let d :=
    if out && !d.hl.rangeTold then ({ d with hl := { d.hl with rangeTold := true } }.hlRaise 0x1310 2 n t r).c0Risk 3 uTherm
    else if out then d else { d with hl := { d.hl with rangeTold := false } }
  { d with hl := { d.hl with coolSince :=
      if t < 760 then (match d.hl.coolSince with
        | some x => some x
        | none => some d.hl.clk) else none } }

/-- The sensor that TH_STAT names: the hottest valid one, else the hottest as replaced. -/
def Dev.topSensor (d : Dev) : Nat := match d.governing with
  | some n => n
  | none => (d.hottest fun _ => true).getD 0

/-- The die limit of 115 °C (R543). -/
def Dev.dieLimit (d : Dev) (n : Nat) : Dev :=
  if 920 ≤ d.tsTemp n then d.thermShutdown 1 n (d.tsTemp n) (rate100 (d.rate n)).toNat else d

/-- Levels and limits after a sample (R67, R540, R541, R543). -/
def Dev.limits (d : Dev) : Dev :=
  let cnt := ((List.range 24).filter d.tsValid).length
  let few := decide (cnt < 12)
  let top := d.topSensor
  let d := if few && !d.hl.few then d.hlRaise 0x1304 3 top (d.tsTemp top) (rate100 (d.rate top)).toNat else d
  let d := { d with hl := { d.hl with few := few } }
  let d := d.fs F.thStat_valid cnt uTherm
  let d := (d.fs F.thStat_hottest top uTherm).fs F.thStat_temp (d.fg F.ts_temp uTherm top) uTherm
  let d := match d.governing with
    | none => d
    | some n =>
      let t := d.tsTemp n
      let settled := decide (d.hl.levelAt + 10000000 ≤ d.hl.clk)
      let d := { d with hl := { d.hl with level := nextLevel d.hl.level t settled } }
      let d := d.warnCheck n
      if 760 ≤ t then d.setFast true n t else d
  let d := d.syncLevel
  let d := asyncGroups.foldl (fun e g => e.bandSample g (e.tsTemp (Config.nearestSensor g).val)) d
  d.dieLimit top

/-- One sample of the 24 die sensors (R538 to R543); `sched` tells a scheduled one from one on demand. -/
def Dev.thermSample (d : Dev) (raw : List Int) (sched : Bool) : Dev :=
  let d := if sched then { d with hl := { d.hl with clk := d.hl.clk + d.thPeriod } } else d
  let d := if sched then (List.range 24).foldl (Dev.countDisagree raw) d else d
  let valid := fun n => agrees raw n && !d.tsFaulty n
  let none24 := !(List.range 24).any valid
  let free := sgn 12 d.freeVal
  let d := (List.range 24).foldl (fun e n => e.putTs n (rawOf raw n) (inUse raw valid free n) (valid n) (d.tsFaulty n)) d
  let d := if none24 then d.useFree else d
  let d := if sched then ((List.range 24).foldl Dev.pushHist d).rates else d
  let d := d.limits
  if sched then
    match d.severe with
    | some n => d.thermShutdown 3 n (d.tsTemp n) (rate100 (d.rate n)).toNat
    | none => d
  else d

def execThermSample (raw : List Int) (fails : Nat) (s : State) : Host.Outcome State Fault Refusal :=
  s.onNvm fails fun d => d.thermSample raw true

/-- TH_CTL written (R541, R561): a WARN outside 60 to 110 drops the write with E_HL_CFG; SAMPLE takes one on-demand sample. -/
def Dev.effThCtl (d : Dev) (m : Nat) (v : Word) (raw : List Int) : Dev :=
  if getF v 15 8 < 60 ∨ 110 < getF v 15 8 then d.raise { code := 0x1311, sev := 1, unit := uTherm, master := m }
  else
    let d := d.putFields .thCtl uTherm 0 v
    if getF v 31 31 = 1 then d.thermSample raw false else d

def execThSampleWrite (m : Nat) (v : Word) (raw : List Int) (s : State) : Host.Outcome State Fault Refusal :=
  let w : Word := v ||| BitVec.ofNat 32 (2 ^ 31)
  if issued m then s.onNvm 0 fun d => d.gated m .thCtl uTherm 0 w fun d => d.effThCtl m w raw
  else .fault (.neverIssued m)

/-- The fast schedule ends (R541): the hottest die reading below 93 °C, both stacks below 78 °C, no bonus. -/
def execFastScheduleExit (s : State) : Host.Outcome State Fault Refusal := s.onDev fun d =>
  if sgn 12 (d.fg F.thStat_temp uTherm) < 744 ∧ d.tsTemp 24 < 624 ∧ d.tsTemp 25 < 624 ∧ !d.fb F.thStat_rise uTherm then
    d.setFast false (d.fg F.thStat_hottest uTherm) (sgn 12 (d.fg F.thStat_temp uTherm))
  else d

/-- The rate-of-rise bonus ends (R542, R67). -/
def execRiseBonusEnd (s : State) : Host.Outcome State Fault Refusal := s.onDev fun d =>
  (d.fs F.thStat_rise 0 uTherm).syncLevel

/-! ### Stack temperatures (R438) -/

/-- Entry temperature of refresh rate code n, °C: reached at 85 for 2×, above 95 for 4×. -/
def refreshUp (t : Int) : Nat := if 95 < t then 2 else if 85 ≤ t then 1 else 0

/-- The refresh code after a reading: up at once, down one step 2 °C below its entry. -/
def nextRefresh (c : Nat) (t : Int) : Nat :=
  if c < refreshUp t then refreshUp t
  else if 0 < c ∧ t ≤ (if c = 2 then 93 else 83) then c - 1 else c

/-- A stack's temperature read (R438): refresh rate, E_HBM_HOT, and the reading as TS24 or TS25; 115 °C shuts down (R543). -/
def Dev.stackTemp (d : Dev) (k : Nat) (t : Int) : Dev :=
  let u := uStack k
  let c := d.fg F.hsStat_refMult u
  let n := nextRefresh c t
  let d := (d.fs F.hsStat_temp (unsgn 8 t) u).fs F.hsStat_refMult n u
  let d := if n = c then d else d.raise { code := 0x0E05, sev := 1, unit := u, d0 := k, d2 := 2 ^ n }
  let d := if 105 < t then d.raise { code := 0x0E06, sev := 3, unit := u, d0 := k } else d
  let d := d.wr .ts uTherm (24 + k) (BitVec.ofNat 32 (2 ^ 31 + unsgn 12 (t * 8) * 2 ^ 16 + unsgn 12 (t * 8)))
  let d := if 80 ≤ t then d.setFast true (24 + k) (t * 8) else d
  if 115 ≤ t then d.thermShutdown 2 (24 + k) (t * 8) 0 else d

def execHbmTempRead (stack : Fin 2) (t : Int) (fails : Nat) (s : State) : Host.Outcome State Fault Refusal :=
  s.onNvm fails fun d => d.stackTemp stack.val t

/-! ### HEALTH verbs that concern temperature (R544, R563) -/

def vHealth (r : Req) (verb : Nat) (priv : Bool) (body : Dev → VRes Dev) (s : State) : Host.Outcome State Fault Refusal :=
  s.onNvm 0 fun d => d.verb r 0x0E verb priv body

/-- HEALTH.TEMP (R563): `raw` is what an on-demand sample reads where ARG0 bit 0 asks for one. -/
def Dev.healthTemp (d : Dev) (r : Req) (raw : List Int) : VRes Dev :=
  if r.replyMax < 112 then .err 0x040D
  else
    let d := if r.a0 % 2 = 1 then d.thermSample raw false else d
    .ok d [] (((List.range 26).map fun n => leBytes 4 (d.rd .ts uTherm n).toNat).flatten ++
      leBytes 4 (d.rd .thRate uTherm).toNat ++ leBytes 4 (d.rd .thFault uTherm).toNat)

def execHealthTemp (r : Req) (raw : List Int) (s : State) : Host.Outcome State Fault Refusal :=
  vHealth r 1 false (fun d => d.healthTemp r raw) s

/-- HEALTH.THERM_ACK (R544): accepted while the hottest valid reading has stayed below 95 °C for 1 s. -/
def Dev.thermAck (d : Dev) : VRes Dev :=
  match d.hl.unacked, d.hl.coolSince with
  | some n, some t =>
    if d.hl.clk < t + 1000000000 then .err 0x0408
    else
      let e : Ev := { code := 0x1307, sev := 1, unit := uTherm }
      let r := d.recOf e
      let d := (d.raise e).nvPut 7 r (leBytes 4 n)
      .ok ({ d with hl := { d.hl with unacked := none } }.fs F.thStat_pendingAck 0 uTherm) [n]
  | _, _ => .err 0x0408

def execHealthThermAck (r : Req) (s : State) : Host.Outcome State Fault Refusal := vHealth r 2 true (fun d => d.thermAck) s

/-- HEALTH.SENSOR_CLEAR (R539, R563). -/
def Dev.sensorClear (d : Dev) (r : Req) : VRes Dev :=
  if 2 ^ 24 ≤ r.a0 then .err 0x0404 (offArg 0)
  else
    let ns := (List.range 24).filter fun n => r.a0.testBit n
    let d := ns.foldl (fun e n => (e.setSensor n { e.sensor n with disagree := 0 }).wr .ts uTherm n
      (setF (e.rd .ts uTherm n) 30 30 0)) d
    let d := d.fs F.thFault_faulty (d.fg F.thFault_faulty uTherm - (d.fg F.thFault_faulty uTherm &&& r.a0)) uTherm
    .ok d [d.fg F.thFault_faulty uTherm]

def execHealthSensorClear (r : Req) (s : State) : Host.Outcome State Fault Refusal :=
  vHealth r 3 true (fun d => d.sensorClear r) s

end Sys2Proof.Machine
end

