-- ==== Sys2Proof/Machine/Health.lean ====
section
/-! DEFINITION. Chapter 20, self-test (R548 to R551), the roll (R552 to R554), the handling of error records (R556 to R560), and the
HEALTH verbs that concern them (R563). -/
namespace Sys2Proof.Machine

def Dev.histOf (d : Dev) (u : Nat) : TestHist := (tget d.hl.hist u).getD {}
def Dev.setHist (d : Dev) (u : Nat) (h : TestHist) : Dev := { d with hl := { d.hl with hist := tset d.hl.hist u h } }

/-- Firmware runs: loaded (R163), not halted (R128) and not held in reset (R543). -/
def Dev.firmware (d : Dev) : Bool := decide (4 ≤ d.stage) && decide (d.stage ≠ 0xF) && !d.oz.failed

/-! ### The end of a run (R549 to R551) -/

/-- A spare of the unit's kind stands READY (R564). -/
def Dev.spareOfKind (d : Dev) (u : Nat) : Bool := match kindOf u with
  | some .tile => (d.readyIn (· == .spare)).isSome
  | some .engine => !(readySpares d).isEmpty
  | _ => false

/-- Health's events of a tested unit (R564). -/
def hlEv (code sev u : Nat) (d1 : Nat := 0) : Ev := { code := code, sev := sev, unit := u, d0 := u, d1 := d1 }

/-- A run's outcome: 1 pass, 2 FAIL, 3 INCOMPLETE (R549). -/
def runOutcome (good sigOk countOk : Bool) : Nat := if !good then 3 else if !countOk then 3 else if sigOk then 1 else 2

/-- The charge a unit holds after its run: the working charge where it passed (R62, R66). -/
def Dev.afterTest (d : Dev) (u v : Nat) (pass : Bool) : Dev :=
  let base := if pass then d.pipLevel v (d.fg F.ucbPip_actLevel v) else 0
  if v = u then d.comeDown v base
  else if pass then { d with bank := { d.bank with grants := tset d.bank.grants v (⟨base, decide (d.workCls v = 0)⟩ : Grant) } }
  else { d with bank := { d.bank with grants := tdel d.bank.grants v } }

/-- A unit whose run passed (R18, R20, R550): it reloads and takes its place. -/
def Dev.testPassed (d : Dev) (v patterns : Nat) : Dev :=
  let h := d.histOf v
  let after := decide (h.last = 2) || decide (h.last = 3)
  let d := d.setHist v { h with last := 1, runs := h.runs + 1, patterns := patterns, passAt := d.devNs, failsRow := 0, incompletes := 0, retest := false }
  let d := (d.loadCtx v).setUst v stQuarantine (if d.own v = stReady then 0x4 else 0xF)
  if after then d.raise (hlEv 0x130A 1 v) else d

/-- A unit whose run did not pass (R549, R551): UNUSABLE, with a retest due unless the second FAIL or the third INCOMPLETE excludes it
and is written to the event NVM. -/
def Dev.testBad (d : Dev) (v outcome patterns : Nat) : Dev :=
  let h := d.histOf v
  let f := if outcome = 2 then h.failsRow + 1 else h.failsRow
  let i := if outcome = 3 then h.incompletes + 1 else h.incompletes
  let out := decide (2 ≤ f) || decide (3 ≤ i)
  let h : TestHist := { h with
    last := outcome, runs := h.runs + 1, fails := if outcome = 2 then h.fails + 1 else h.fails,
    patterns := patterns, failsRow := f, incompletes := i, retest := !out, excluded := h.excluded || out }
  let d := (d.setHist v h).toUnusable v 0xE
  let e := if outcome = 2 then hlEv 0x1308 (if d.spareOfKind v then 2 else 3) v else hlEv 0x1309 2 v
  let r := d.recOf e
  let d := d.raise e
  if out then d.nvPut 6 r (leBytes 4 v ++ leBytes 4 patterns) else d

/-- One unit of a run of u (R549): `res` tells whether its signature and its count matched, and the patterns applied; a unit the run
says nothing of did not complete. -/
def Dev.unitTested (res : List (Nat × Bool × Bool × Nat)) (good : Bool) (u : Nat) (d : Dev) (v : Nat) : Dev :=
  let r := ((res.find? fun (p : Nat × Bool × Bool × Nat) => decide (p.1 = v)).map (·.2)).getD (false, false, 0)
  let powered := good && d.fb F.ucbState_tst v && d.pins.pwrGood
  let o := runOutcome powered r.1 r.2.1
  let d := d.fs F.ucbState_tst 0 v
  let d := if o = 1 then d.testPassed v r.2.2 else d.testBad v o r.2.2
  d.afterTest u v (decide (o = 1))

/-- The outcome of a job that waits for unit u's run (R563). -/
def Dev.testCode (d : Dev) (u : Nat) : Nat :=
  let o := ((testUnits u).map fun v => (d.histOf v).last)
  if o.contains 2 then 0x1308 else if o.contains 3 then 0x1309 else 0

/-- The roll's target has been tested: the roll ends, a passing engine is a spare again (R552, R554). -/
def Dev.rollEnded (d : Dev) : Dev :=
  let job := d.hl.rollJob
  ({ d with hl := { d.hl with roll := none, rollJob := 0 } }).jobDecided job 0

/-- A tested engine takes the spare role where it passed; a tile without a role that passed joins the spares, and one that went
UNUSABLE in a role is replaced (R303, R304, R314, R355, R552). -/
def Dev.workerTested (d : Dev) (u : Nat) : Dev :=
  let passed := decide ((d.histOf u).last = 1)
  match kindOf u with
  | some .engine =>
    let e := memberNo u
    if (d.eng e).role = 1 then d else d.setEng e { d.eng e with role := if passed then 2 else 0 }
  | some .tile =>
    match d.roleOf u with
    | none => if passed then d.setRole u .spare else d
    | some (.inl c _) => if d.own u = stUnusable then d.replaceInline u c else d
    | some (.part _) => if d.own u = stUnusable then d.replacePart u else d
    | some .compat => if d.own u = stUnusable then d.replacePart u else d
    | some _ => d
  | _ => d

/-- The units of a run judged, and the run taken off the list. -/
def Dev.judgeRun (d : Dev) (u : Nat) (res : List (Nat × Bool × Bool × Nat)) (run : TestRun) : Dev :=
  let d := (testUnits u).foldl (Dev.unitTested res run.good u) d
  let d := { d with hl := { d.hl with runs := d.hl.runs.filter fun (r : TestRun) => decide (r.unit ≠ u) } }
  let d := d.jobDecided run.job (d.testCode u)
  let d := if run.roll then d.rollEnded else d
  if 9 ≤ d.stage then (((testUnits u).foldl Dev.workerTested d).syncEngines).syncPool else d

/-- A unit carries a self-test (R548): tiles are tested alone or with their group. -/
def testable (u : Nat) : Bool := selfTested u || decide (kindOf u = some .tile)

/-- Units whose failure costs their function: every UNUSABLE unit of a kind without spares, and the tiles and engines beyond the
spares (R550). -/
def Dev.degradedUnits (d : Dev) : List Nat :=
  let bad := (allUnits.filter selfTested ++ allTiles).filter fun u => decide (d.own u = stUnusable)
  let kind := fun (k : Kind) => bad.filter fun u => decide (kindOf u = some k)
  (bad.filter fun u => match kindOf u with
    | some .deframer | some .pack | some .cvu | some .twin | some .chainPort | some .compositor => true
    | _ => false) ++ (kind .tile).drop 8 ++ (kind .engine).drop 2

/-- Firmware wakes the switched units that carry no self-test (R26; log entry 43). -/
def Dev.bringUp (d : Dev) : Dev :=
  (allUnits.filter fun u => hasLogic u && !isAon u && !testable u && decide (d.own u = stOff)).foldl
    (fun e u => (e.loadCtx u).cmd1 1 u) d

/-- The last run of the power-up waves completes them (R163, R550). -/
def Dev.wavesCheck (d : Dev) : Dev :=
  if d.stage = 6 ∧ d.hl.runs = [] then
    let d := d.setStage 7
    let d := match d.degradedUnits with
      | [] => d
      | u :: _ => d.raise (hlEv 0x130B 3 u)
    d.bringUp
  else d

/-- A unit's run that has been granted, where firmware can judge it. -/
def Dev.runOf (d : Dev) (u : Nat) : Option TestRun :=
  if (d.bank.reqs.any fun (r : BankReq) => decide (r.unit = u) && r.kind == .test) || d.hl.shutdown then none
  else d.hl.runs.find? fun (r : TestRun) => decide (r.unit = u)

/-- A self-test run of unit u ends (R549 to R551). -/
def Dev.selftestDone (d : Dev) (u : Nat) (res : List (Nat × Bool × Bool × Nat)) : Dev :=
  match d.runOf u with
  | none => d
  | some run => (d.judgeRun u res run).wavesCheck

def execSelftestDone (u : Nat) (res : List (Nat × Bool × Bool × Nat)) (fails : Nat) (s : State) :
    Host.Outcome State Fault Refusal := s.onNvm fails fun d => d.selftestDone u res

/-- The retest 1 s after a FAIL or an INCOMPLETE (R551). -/
def execSelftestRetest (u : Nat) (s : State) : Host.Outcome State Fault Refusal := s.onDev fun d =>
  let h := d.histOf u
  if h.retest && !h.excluded && decide (d.own u = stUnusable) && d.firmware then
    (d.setHist u { h with retest := false }).askTest u 0 false
  else d

/-! ### The roll (R552, R553) -/

/-- Units the roll tests: tiles that work and engines in the active role, READY or ACTIVE. -/
def Dev.rollUnits (d : Dev) : List Nat :=
  let works := fun (u : Nat) => decide (d.own u = stReady) || decide (d.own u = stActive)
  (((List.range 18).map uEngine).filter fun u => decide ((d.eng (memberNo u)).role = 1) && works u) ++
    (allTiles.filter fun u => d.inRole (· != .spare) u && works u)

/-- The unit with the oldest last pass; ties go to the lower index. -/
def Dev.rollTarget (d : Dev) : Option Nat :=
  let older := fun (a b : Nat) => decide ((d.histOf b).passAt < (d.histOf a).passAt) ||
    (decide ((d.histOf b).passAt = (d.histOf a).passAt) && decide (b < a))
  match d.rollUnits.filter fun u => !(d.histOf u).excluded with
  | [] => none
  | x :: xs => some (xs.foldl (fun (a : Nat) b => if older a b then b else a) x)

/-- READY spares of a unit's kind, in ascending index. -/
def Dev.rollSpares (d : Dev) (u : Nat) : List Nat :=
  if kindOf u = some .engine then (readySpares d).map uEngine
  else allTiles.filter fun v => d.inRole (· == .spare) v && decide (d.own v = stReady) && !d.fb F.ucbState_tst v

/-- The die roll: entropy is drawn until it falls below the largest multiple of n that 16 bits hold; `fuel` bounds the draws
(log entry 42). -/
def dieRoll (n : Nat) : Nat → Nat → Nat × Nat
  | 0, k => (Config.entropy k % max 1 n, k + 1)
  | f + 1, k =>
    let x := Config.entropy k % 65536
    if x < 65536 - 65536 % max 1 n then (x % max 1 n, k + 1) else dieRoll n f (k + 1)

/-- A PIPE.COMMIT runs. -/
def Dev.anyCommit (d : Dev) : Bool := d.pipe.cams.any fun (p : Nat × PipeCam) => p.2.loadAt.isSome || decide (p.2.job ≠ 0)

/-- The conditions of R553 that do not depend on the target; a roll under way skips another. -/
def Dev.rollBlocked (d : Dev) : Bool :=
  decide (2 ≤ d.fg F.bankStatus_thLevel uBank) || d.lowRes || d.anyCommit || d.tw.handing || d.tw.attaching ||
  (decide (1 ≤ d.tw.takeCause ∧ d.tw.takeCause ≤ 3) && decide (d.devNs < stampNs d.tw.takeAt + 2000000000)) || d.hl.roll.isSome

/-- The rotation of target u onto spare b (R311, R312, R362). -/
def Dev.rollOnto (d : Dev) (u b : Nat) : Dev :=
  let d := { d with hl := { d.hl with roll := some (u, b) } }
  if kindOf u = some .engine then
    let e := memberNo u
    let d := d.setEng e { d.eng e with testDue := true }
    if d.slicesOn e = [] then ((d.setEng (memberNo b) { d.eng (memberNo b) with role := 1 }).testFreed e).syncEngines
    else (d.slicesOn e).foldl (fun (x : Dev) (p : Nat × Nat) =>
      x.modPart p.1 p.2 fun q => { q with moveTo := some (memberNo b, 0) }) d
  else if d.inRole (fun r => match r with | .inl _ _ => true | _ => false) u then
    let d := d.prepare u b
    { d with pipe := { d.pipe with rots := d.pipe.rots ++ [(⟨u, b, 0⟩ : Rotation)] } }
  else (d.prepare u b).swapRole u b 0

/-- A roll falls due (R552), or is skipped (R553). -/
def Dev.rollStep (d : Dev) : Dev :=
  match if d.rollBlocked then none else d.rollTarget with
  | none => d.rollSkip
  | some u =>
    match d.rollSpares u with
    | [] => d.rollSkip
    | sp =>
      let x := dieRoll sp.length 64 d.hl.entropyAt
      ({ d with hl := { d.hl with entropyAt := x.2 } }).rollOnto u (sp.getD x.1 0)

def execRollTick (s : State) : Host.Outcome State Fault Refusal := s.onDev fun d =>
  if d.hl.rollPeriod = 0 ∨ !d.serving then d else d.rollStep

/-! ### Error records (R556 to R560) -/

/-- The highest severity with a waiting record (R557). -/
def Dev.topSev (d : Dev) : Option Nat := [4, 3, 2, 1].find? fun n => !(d.oz.eq n).isEmpty

/-- Firmware's reaction to a parity record (R86): a unit with C0 work is first rotated onto a READY spare if one exists. -/
def Dev.parityStep (d : Dev) (u : Nat) : Dev :=
  let inl := match d.roleOf u with
    | some (.inl _ _) => true
    | _ => false
  if inl && d.fab.marks.contains u && ((d.readyIn (· == .reserve)).isSome || (d.readyIn (· == .spare)).isSome) then
    match d.roleOf u with
    | some (.inl c _) => (d.replaceInline u c).parityReaction u
    | _ => d.parityReaction u
  else d.parityReaction u

/-- The reaction issued for a record as it is handled (R557); reactions of other codes are part of the step that raises them. -/
def Dev.react (d : Dev) (r : EvRec) : Dev :=
  if r.code = 0x0220 then d.parityStep r.unit
  else if r.code = 0x0221 then d.rewriteGlobal r.d0
  else d

/-- A unit fault of severity S4 (R18): the unit takes UNUSABLE, its waiting requests fall away and its charge comes down to none (R17);
in a self-test it keeps what the test holds (log entry 78). -/
def Dev.unitFault (d : Dev) (u : Nat) : Dev :=
  if hasRole u && decide (d.own u ≠ stUnusable) then
    if d.hl.runs.any fun (x : TestRun) => decide (x.unit = u) then d.toUnusable u 0xE
    else ((d.withdraw u).toUnusable u 0xE).comeDown u 0
  else d

/-- An S4 record (R560): a KIND 0x05 record, FAIL in the heartbeat and FATAL in HEALTH.INFO; a unit that it names is faulty (R18). -/
def Dev.s4 (d : Dev) (r : EvRec) : Dev :=
  if r.sev = 4 then { d.nvPut 5 r [] with hl := { d.hl with fatal := true } }.unitFault r.unit else d

/-- A record taken from its queue: the count of discards behind an E_HL_EQ_LOST starts again (R559). -/
def Dev.takeRec (d : Dev) (sev : Nat) (r : EvRec) (rest : List EvRec) : Dev :=
  let o := d.oz.setEq sev rest
  { d with oz := if isEqLost r then { o with disc := tdel o.disc sev } else o }

/-- The oldest record of the highest severity is taken and handled (R557): logged, copied, its reaction issued; its unit is recovering
until the reaction has ended (R558). -/
def Dev.handleEvent (d : Dev) : Dev :=
  match if d.firmware then d.topSev else none with
  | none => d
  | some sev =>
    match d.oz.eq sev with
    | [] => d
    | r :: rest =>
      let u := r.unit
      let rec2 := decide (u ≠ 0) && (decide (r.sev = 2) || decide (r.sev = 3))
      let d := (d.takeRec sev r rest).logRec r
      let d := if rec2 && !d.oz.recovering.contains u then { d with oz := { d.oz with recovering := u :: d.oz.recovering } } else d
      let d := (d.s4 r).react r
      let st := d.own u
      if rec2 && !(decide (st = stWaking) || decide (st = stQuarantine) || decide (st = stDraining)) then d.recovered u else d

def execEventHandling (fails : Nat) (s : State) : Host.Outcome State Fault Refusal := s.onNvm fails Dev.handleEvent

/-! ### HEALTH verbs (R563) -/

def execHealthInfo (r : Req) (s : State) : Host.Outcome State Fault Refusal :=
  vHealth r 0 false (fun d => .ok d [1, (d.rd .thStat uTherm).toNat,
    (allUnits.filter fun u => decide (d.ust u = stUnusable)).length,
    bit d.hl.fatal * 2 ^ 31 + bit (decide (d.hl.rollPeriod ≠ 0)) * 2 ^ 30 + d.hl.rollPeriod]) s

/-- A unit holds a role: its work is assigned, whether or not it is ACTIVE. -/
def Dev.holdsRole (d : Dev) (u : Nat) : Bool := match kindOf u with
  | some .tile => d.inRole (· != .spare) u
  | some .tileGroup => (tilesOf (memberNo u)).any fun v => d.inRole (· != .spare) v
  | some .engine => decide ((d.eng (memberNo u)).role = 1)
  | some .pack => decide (d.fg F.mpStat_role u ≠ 0)
  | some .twin => decide (d.fg F.twStat_role uTwin ≠ 0)
  | some .chainPort => decide (d.fg F.cpStat_state u ≠ 0)
  | _ => false

/-- HEALTH.SELFTEST (R563): it lifts the exclusion of R551. -/
def Dev.healthSelftest (d : Dev) (r : Req) : VRes Dev :=
  let u := r.object
  let st := d.own u
  if !testable u then .err 0x0404
  else if (d.hl.runs.any fun (x : TestRun) => decide (x.unit = u)) || (d.ust u = stHeld) ||
      !(decide (st = stUnusable) || (decide (st = stReady) && !d.holdsRole u)) then .err 0x0408
  else
    let h := d.histOf u
    .job ((d.setHist u { h with excluded := false, retest := false, failsRow := 0, incompletes := 0 }).askTest u d.oz.nextJob false)

def execHealthSelftest (r : Req) (s : State) : Host.Outcome State Fault Refusal :=
  vHealth r 4 true (fun d => d.healthSelftest r) s

def execHealthTestInfo (r : Req) (s : State) : Host.Outcome State Fault Refusal :=
  vHealth r 5 false (fun d =>
    let h := d.histOf r.object
    if (kindOf r.object).isNone then .err 0x0404
    else .ok d [h.last, h.patterns, h.passAt / 1000000000 % 2 ^ 32, h.runs % 65536 * 65536 + h.fails % 65536]) s

def execHealthRollSet (r : Req) (s : State) : Host.Outcome State Fault Refusal :=
  vHealth r 6 true (fun d =>
    if r.a0 ≠ 0 ∧ (r.a0 < 60 ∨ 86400 < r.a0) then .err 0x0404 (offArg 0)
    else .ok { d with hl := { d.hl with rollPeriod := r.a0 } } [r.a0]) s

def execHealthRollNow (r : Req) (s : State) : Host.Outcome State Fault Refusal :=
  vHealth r 7 true (fun d =>
    if d.hl.roll.isSome then .job d.rollSkip (some 0x130D)
    else
      let e := { d with hl := { d.hl with rollJob := d.oz.nextJob } }.rollStep
      .job e (if e.hl.roll.isSome then none else some 0x130D)) s

/-- 4 B of UNIT_LIST: STATE 31:28, REASON 27:24, index 11:0. -/
def Dev.unitWord (d : Dev) (u : Nat) : Nat := d.ust u * 2 ^ 28 + d.fg F.ucbState_reason u * 2 ^ 24 + u

def execHealthUnitList (r : Req) (s : State) : Host.Outcome State Fault Refusal :=
  vHealth r 8 false (fun d =>
    .ok d [] ((allUnits.filter fun u => decide (d.ust u = stUnusable) || decide (d.ust u = stHeld)).map fun u =>
      leBytes 4 (d.unitWord u)).flatten) s

def execHealthEqStats (r : Req) (s : State) : Host.Outcome State Fault Refusal :=
  vHealth r 9 false (fun d =>
    .ok { d with oz := { d.oz with discStats := [] } } ([1, 2, 3, 4].map fun n =>
      (d.oz.eq n).length % 65536 * 65536 + min 65535 ((tget d.oz.discStats n).getD 0))) s

end Sys2Proof.Machine
end

