-- ==== Sys2Proof/Machine/Service.lean ====
section
/-! DEFINITION. Service-ready (R163, R191, R506, R544), the receiver of Bastu packets (R197 to R199), and a group below its pace floor
(R35), and the fabric's dispatch with what its targets do as an entry
reaches them (R109, R327, R364, R460, R478, R489, R490, R499). -/
namespace Sys2Proof.Machine

/-! ### Service-ready (R163) -/

/-- NSEQ of a thermal shutdown record that no later acknowledgement names (R544). -/
def Nv.shutdownOpen (nv : Nv) : Option Nat :=
  let good := (nv.recs.map (·.2)).filter (·.good)
  let acked := fun (n : Nat) => good.any fun (r : NvRec) => decide (r.kind = 7) && decide (n < r.nseq) && decide (rdLe r.info 0 4 = n)
  ((good.filter fun (r : NvRec) => decide (r.kind = 1) && !acked r.nseq).map (·.nseq)).foldl
    (fun (a : Option Nat) n => some (max n (a.getD 0))) none

/-- The row-check area, 64 MiB of the develop region (R415). -/
def Dev.placeRowChecks (d : Dev) : Dev := match d.alloc rgDevelop 0x4000000 (tagOf 14 0xFFFF) with
  | some (base, e) => e.set64 .rcGringLo .rcGringHi base uInteg
  | none => d

/-- A boot mailbox whose GO came before service-ready (R133). -/
def Dev.openWaiting (d : Dev) (f : Nat) : Dev :=
  if d.bootBad f then { d.fs F.mbBootCtl_error 1 uOzder f with oz := { d.oz with bootWait := d.oz.bootWait.filter (· ≠ f) } }
  else d.openBoot f (d.nextBootEpoch f)

/-- What a device does about its partner at service-ready (R506, R544). -/
def Dev.twinAtReady (d : Dev) : Dev :=
  let d := d.fs F.twStat_role roleSolo uTwin
  if d.pins.twinPresent && !d.fb F.thStat_pendingAck uTherm then
    { d with tw := { d.tw with waiting := true, readyAt := d.devNs } }
  else d

/-- Service-ready (R163): `quads` are the boot-listed quads with the words firmware writes (R191). -/
def serviceReady (quads : List (Fin 24 × Word)) (nv : Nv) (d : Dev) : Dev :=
  if d.stage ≠ 7 ∨ !d.firmware then d
  else
    let d := match nv.shutdownOpen with
      | some n => { d.fs F.thStat_pendingAck 1 uTherm with hl := { d.hl with unacked := some n } }
      | none => d
    let d := quads.foldl (fun e p => e.effQuadCfg 0x40 p.1.val p.2) d
    let d := d.placeRowChecks.initRoles.initEngines.twinAtReady
    let d := ((d.setStage 9).fs F.ozStatus_svcReady 1 uOzder).fs F.ozStatus_ifver 1 uOzder
    let d := d.fs F.ozStatus_booting 0 uOzder
    d.oz.bootWait.foldl Dev.openWaiting d

def execServiceReady (quads : List (Fin 24 × Word)) (s : State) : Host.Outcome State Fault Refusal :=
  s.onBoth fun nv d => (nv, serviceReady quads nv d)

/-! ### The receiver of a Bastu link (R197 to R199) -/

/-- The profile a link carries (R198, R207). -/
def linkProfile (n : Nat) : Nat := if n < 8 then 0 else if n = 8 then 1 else if n < 12 then 2 else 3

/-- The longest packet of a profile in 8-byte units (R217, R378, R513, R526). -/
def maxLen8 (profile : Nat) : Nat := if profile = 0 then 2051 else if profile = 1 then 8191 else if profile = 2 then 1030 else 1027

/-- The header check of R199 on the bytes of a packet as they arrived, which a later START or LINK block may have cut short. -/
def headerOk (n : Nat) (bs : List Byte) : Bool :=
  let w := rdLe bs 0 4
  let len8 := w % 2 ^ 13
  decide (16 ≤ bs.length) && decide (crc16 (bs.take 12) = rdLe bs 12 2) && decide (w / 2 ^ 20 % 16 = 1) &&
    decide (w / 2 ^ 30 = linkProfile n) && decide (3 ≤ len8) && decide (len8 ≤ maxLen8 (linkProfile n)) &&
    decide (8 * len8 ≤ bs.length)

/-- Up packet types of Bastu-S (R217). -/
def upTypes : List Nat := [1, 2, 3, 4, 8]

/-- A packet discarded by the receiver (R199, R204). -/
def Dev.headerErr (d : Dev) (n : Nat) : Dev :=
  let d := d.fadd F.lnkStat_hdrErr 1 uLanes n
  let l := d.lastMs ((tget d.ln.hdrAt n).getD [])
  let d := { d with ln := { d.ln with hdrAt := tset d.ln.hdrAt n l } }
  d.raiseOnce n 1000000 { code := 0x0607, sev := 1, unit := uLanes, d0 := n, d1 := 0xFFFFFFFF, d2 := l.length }

/-- What the receiver itself does with a packet that it delivers: an ingest packet is mirrored (R512), and one of no up type is
discarded by the deframer (R223). The profile's unit takes every other packet by that packet's own command (log entry 44). -/
def Dev.delivered (d : Dev) (n : Nat) (bs : List Byte) : Dev :=
  if n < 8 then
    let d := d.mirrorOut n bs
    let u := uDeframer n
    if upTypes.contains (rdLe bs 3 1 % 64) || !d.fb F.dfCtl_en u || !d.accepts u then d else d.ptErr n true
  else d

def Dev.packetRx (d : Dev) (n : Nat) (bs : List Byte) : Dev :=
  if d.lstate n ≠ 4 then d
  else if headerOk n bs then d.delivered n (bs.take (8 * (rdLe bs 0 4 % 2 ^ 13)))
  else d.headerErr n

def execBastuPacketRx (link : Fin 20) (bytes : List Byte) (s : State) : Host.Outcome State Fault Refusal :=
  s.onDev fun d => d.packetRx link.val bytes

/-! ### A group below its floor (R35) -/

/-- In-line tiles under a group, with their cameras. -/
def Dev.inlineUnder (d : Dev) (g : Nat) : List (Nat × Nat) := allTiles.filterMap fun u =>
  if u = g ∨ (subtree g).contains u then
    match d.roleOf u with
    | some (.inl c _) => some (u, c)
    | _ => none
  else none

/-- Work moved off a group below its floor: in-line tiles rotate onto a READY spare (R35), engines give their slices to one (R362). -/
def Dev.rotateAway (d : Dev) (g : Nat) : Dev :=
  let spare := fun (e : Dev) => (e.readyIn (· == .reserve)).isSome || (e.readyIn (· == .spare)).isSome
  let d := if d.clsOf g = 0 then
      (d.inlineUnder g).foldl (fun (e : Dev) p => if spare e then e.replaceInline p.1 p.2 else e) d
    else d
  ((List.range 18).filter fun e => decide (uEngine e = g) || ((subtree g).contains (uEngine e) && d.belowFloor (uEngine e))).foldl
    (fun (e : Dev) n => e.evacuate n) d

/-- PACE_LOW_TIMEOUT: group g has been below its floor for 1 ms. -/
def Dev.paceLow (d : Dev) (g : Nat) : Dev :=
  if !isAsync g || d.bank.paceLow.contains g || !d.belowFloor g then d
  else
    let d := { d with bank := { d.bank with paceLow := g :: d.bank.paceLow } }
    let d := d.raise { code := 0x0105, sev := d.sevC0 g, unit := g }
    let d := if d.clsOf g = 0 then d.c0Risk 5 g else d
    d.rotateAway g

def execPaceLowTimeout (g : Nat) (s : State) : Host.Outcome State Fault Refusal := s.onDev fun d => d.paceLow g

/-! ### Dispatch (R109) -/

/-- What the target does with an entry as it is dispatched: buffer, flip, launch and capture queues check it (each looks at its own
queues only). -/
def Dev.arrived (d : Dev) (o : Op) : Dev :=
  ((((d.bufDispatched o).cbufDispatched o).abufDispatched o).timeDispatched o).flipDispatched o

/-- One dispatch, and the target's check of an operation that it opened; what returned to a host pair is told there (R391). -/
def Dev.queueDispatch (d : Dev) : Dev :=
  let e := d.dispatch
  let e := match e.qf.ops.getLast? with
    | some o => if d.qf.ops.length < e.qf.ops.length then e.arrived o else e
    | none => e
  e.mdErrors

def execQueueDispatch (s : State) : Host.Outcome State Fault Refusal := s.onDev Dev.queueDispatch

end Sys2Proof.Machine
end

