-- ==== Sys2Proof/Machine/Jobs.lean ====
section
/-! DEFINITION. The ends of long verbs (R138, R148, R157): what each verb still waits for, its outcome, its last effect, and the final
record. -/
namespace Sys2Proof.Machine

def Dev.jobOf (d : Dev) (n : Nat) : Option Job := d.oz.jobs.find? fun (j : Job) => decide (j.job = n) && decide (j.state = 0)

/-- Every camera and stream has stopped (R524, R406). -/
def Dev.allStopped (d : Dev) : Bool := d.standbyReady

/-- The outcome of a long verb that no step has decided, by its chapter: 0, an event code, or none while it still runs (log entry 45). -/
def Dev.jobOutcome (d : Dev) (j : Job) : Option Nat :=
  let done := fun (b : Bool) => if b then some 0 else none
  let o := j.req.object
  match j.svc, j.verb with
  | 0x01, 0x0A => some 0
  | 0x02, 0x03 => done d.standbyReady
  | 0x02, 0x04 => some 0
  | 0x03, 0x01 => if d.lstate o = 4 then some 0 else if d.lstate o = 5 ∨ d.lstate o = 0 then some 0x0604 else none
  | 0x03, 0x06 => done !(d.camRun o)
  | 0x06, 0x06 => done !(d.strRun o)
  | 0x09, 0x02 =>
    let st := d.fg F.opStat_state uScan o
    if st = opActive then some 0 else if st = opTraining then none else some 0x0F04
  | 0x0B, 0x05 => done (d.ethIdle o)
  | 0x0C, 0x03 => done d.allStopped
  | 0x0D, 0x01 => some (if (List.range 3).any fun k => decide (d.cpState k = cpRefused) then 0x1210 else 0)
  | 0x0F, 0x01 => some 0
  | 0x0F, 0x02 => some 0
  | 0x10, 0x01 => some 0
  | _, _ => none

/-- What happens as a long verb ends: the report is written (R186), the debug gate opens (R179), standby is entered (R406), bindings go
(R460, R501), the shadow leaves its pair (R524). -/
def Dev.jobEffect (nv : Nv) (d : Dev) (j : Job) (outcome : Nat) : Dev :=
  match j.svc, j.verb with
  | 0x02, 0x03 => d.enterStandby
  | 0x09, 0x05 => d.layerGone j.req.object
  | 0x0B, 0x05 => d.ethEnd j.req.object
  | 0x0C, 0x03 => d.detached
  | 0x10, 0x01 => attReportDone nv d j.req
  | 0x10, 0x04 => if outcome = 0 then d.openDebug else d
  | _, _ => d

/-- The event queue that takes a job's final record: its mailbox's; of a closed mailbox, the caller's boot event queue; none once a reset
has closed that too (R135, R138). -/
def Dev.jobMbox (d : Dev) (j : Job) : Option Mbox := 
  if j.mbox = 0 then none else (d.mbox j.mbox).orElse fun _ => d.bootMbox j.owner

/-- The final record (R148): E_MB_JOB_DONE or E_MB_JOB_FAIL, logged, copied, and once in the job's event queue and in the function's boot
event queue where that has no subscription (R154). -/
def Dev.finalRecord (d : Dev) (j : Job) (outcome : Nat) : Dev :=
  let e : Ev := {
    code := if outcome = 0 then 0x040A else 0x040B, sev := if outcome = 0 then 1 else 2, unit := uOzder, master := j.owner,
    d0 := j.job, d1 := j.seq % 65536 + j.aux % 65536 * 65536, d2 := outcome }
  let x := d.logNew e
  match d.jobMbox j with
  | none => x.1
  | some b =>
    let boot := match d.bootMbox j.owner with
      | some c => if c.req = b.req ∨ c.subs ≠ [] then [] else [c]
      | none => []
    ((b :: boot).filter fun c => !d.copiesTo x.2 c).foldl (fun e c => e.postEvent c.event x.2) x.1

/-- A job's end. -/
def Dev.endJob (nv : Nv) (d : Dev) (j : Job) (outcome : Nat) : Dev :=
  let d := d.jobEffect nv j outcome
  let d := { d with oz := { d.oz with jobs := d.oz.jobs.map fun (x : Job) =>
    if x.job = j.job then { x with state := if outcome = 0 then 1 else 2, outcome := outcome } else x } }
  (d.finalRecord j outcome).sweep

/-- LONG_VERB_COMPLETE: the job ends once its outcome stands; Ozder's end ends its jobs unreported (R128). -/
def Dev.completeJob (nv : Nv) (d : Dev) (n : Nat) : Dev :=
  match if d.oz.failed then none else d.jobOf n with
  | none => d
  | some j =>
    match j.decided.orElse fun _ => d.jobOutcome j with
    | some o => d.endJob nv j o
    | none => d

def execLongVerbComplete (job : Nat) (s : State) : Host.Outcome State Fault Refusal :=
  s.onBoth fun nv d => (nv, Dev.completeJob nv d job)

end Sys2Proof.Machine
end

