-- ==== Sys2Proof/Machine/Writes.lean ====
section
/-! DEFINITION. The general register write (R71, R72, R77, R78, R584) and the bit-alias region (R82, R83): where a write goes,
how it is split, and the effect of every register that software writes. -/
namespace Sys2Proof.Machine

/-! ### The effect of an accepted write, register by register -/

/-- The instance of a register as master m reaches it: the boot mailbox registers exist once for each function (R136). -/
def instFor (r : Reg) (m k : Nat) : Nat :=
  match r with
  | .mbBootCtl | .mbBootQid | .mbBootEpoch | .mbBootLo | .mbBootHi => m
  | _ => k

/-- Registers of the global block, the bank, the queue fabric, Ozder and boot; `none` where the register is of another. -/
def Dev.effCore (d : Dev) (m : Nat) (r : Reg) (u k : Nat) (v : Word) : Option Dev :=
  match r with
  | .bankCeil => some (d.effBankCeil m v)
  | .bankReserve => some (d.effBankReserve m v)
  | .bankVolt => some (d.effBankVolt m v)
  | .lockCtl => some (d.effLockCtl v)
  | .holdSel => some (d.effHoldSel v)
  | .holdRelease => some (d.effHoldRelease v)
  | .parCtl => some (d.effParCtl m v)
  | .privVfLo => some (d.effPrivVf m false v)
  | .privVfHi => some (d.effPrivVf m true v)
  | .qfCmd => some (d.effQfCmd m v)
  | .qfData => some (d.effQfData m k v)
  | .qfWeight => some (d.effQfWeight m v)
  | .mbBootCtl => some (d.effMbBootCtl m v)
  | .mbBootLo => some (d.effMbBootAddr m r v)
  | .mbBootHi => some (d.effMbBootAddr m r v)
  | .bootHostCtl => some (d.effBootHost m r v)
  | .bootHostLo => some (d.effBootHost m r v)
  | .bootHostHi => some (d.effBootHost m r v)
  | .ucbState =>
    let c := getF v 31 28
    some (if 1 ≤ c ∧ c ≤ 5 then d.ucbCmd c u else d)
  | .ucbPip => some (d.setLevel u (getF v 14 12))
  | _ => none

/-- Registers of the lanes, the ingest block, the CVUs and HBM. -/
def Dev.effFront (d : Dev) (m : Nat) (r : Reg) (u k : Nat) (v : Word) (lanes : Nat) : Option Dev :=
  match r with
  | .lnkMap => some (d.effLnkMap m k v)
  | .quadCfg => some (d.effQuadCfg m (memberNo u) v)
  | .lnTx => some (d.effLnTx m (4 * memberNo u + k) v)
  | .lnRx => some (d.effLnRx m (4 * memberNo u + k) v)
  | .lnCtl => some (d.effLnCtl m (4 * memberNo u + k) v)
  | .dfCtl => some (d.effDfCtl m (memberNo u) v)
  | .srcCfg | .srcGeom | .srcPos => some (d.effSrcReg m ⟨memberNo u, k⟩ r v)
  | .camCfg | .camSize | .camFill | .camTimeout | .camStride | .camSlot | .camBaseLo | .camBaseHi => some (d.effCamReg m k r v)
  | .cvuCtl => some (d.effCvuCtl m (memberNo u) v)
  | .hbmScrub => some (d.effHbmScrub v)
  | .hbmWeight => some (d.effHbmWeight v)
  | .rgnCmd => some (d.effRgnCmd m v)
  | .rgnData0 | .rgnData1 | .rgnData2 => some (d.effRgnData m r v)
  | .pcTrCtl => some (d.effPcTr u v lanes)
  | _ => none

/-- Registers of the media service, scan-out, time and the thermal unit. -/
def Dev.effBack (d : Dev) (m : Nat) (r : Reg) (k : Nat) (v : Word) (raw : List Int) : Option Dev :=
  match r with
  | .mqCqh => some (d.effMqCqh m k v)
  | .scTimGo => some (d.effScGo m v)
  | .scBg | .scPal | .lyCtl | .lyPos => some (d.effScPic m k r v)
  | .tmCtl => some (d.effTmCtl m v)
  | .dIncNs => some (d.effDInc m k v)
  | .dSetShi => some (d.effDSet m k v)
  | .dAdj => some (d.effDAdj k v)
  | .ftCtl | .ftRate | .ftPhase => some (d.effFt m r v)
  | .tiCtl => some (d.effTiCtl m k v)
  | .thCtl => some (d.effThCtl m v raw)
  | _ => none

/-- An accepted write's effect (R9, R584): the register's own, or its fields under their types. -/
def Dev.regEffect (d : Dev) (m : Nat) (r : Reg) (u k : Nat) (v : Word) (x : Shown) : Dev :=
  (d.effCore m r u k v).getD ((d.effFront m r u k v x.lanes).getD ((d.effBack m r k v x.raw).getD (d.putFields r u k v)))

/-! ### The MSI-X table (R121; chapter 07's PCIe table) -/

/-- The function, and the byte offset in its MSI-X table, that a BAR0 offset names. -/
def msixAt (m a : Nat) : Option (Nat × Nat) :=
  if isFn m ∧ 0x8000 ≤ a ∧ a < 0x8000 + 16 * vectorsOf m then some (m, a - 0x8000) else none

/-- A vector's mask bit written: an unmasked vector with its pending bit set sends its message. -/
def Dev.setMask (d : Dev) (fn vec : Nat) (mask : Bool) : Dev :=
  let k := fn * 0x1000 + vec
  let v := (tget d.qf.vecs k).getD {}
  if !mask && v.pend then
    { d with qf := { d.qf with vecs := tset d.qf.vecs k { v with masked := false, pend := false }, msgs := k :: d.qf.msgs } }
  else { d with qf := { d.qf with vecs := tset d.qf.vecs k { v with masked := mask } } }

/-- A dword of the MSI-X table written: vector control's bit 0 masks the vector; address and data are not held. -/
def Dev.msixWrite (d : Dev) (fn off : Nat) (v : Word) : Dev :=
  if off % 16 = 12 then d.setMask fn (off / 16) (decide (getF v 0 0 = 1)) else d

/-! ### One 32-bit write -/

/-- A 32-bit aligned write to a register, a table or nothing (R71, R72, R80). -/
def Dev.write32 (d : Dev) (m a : Nat) (v : Word) (x : Shown) : Dev :=
  match msixAt m a with
  | some (fn, off) => d.msixWrite fn off v
  | none =>
    if 0x7F00 ≤ a ∧ a < 0x8000 then d
    else match regAt a with
      | none => d.unmapped m a
      | some (r, u, k) =>
        if r = .mqCqh then d.mqCqhBy m k v
        else d.gated m r u (instFor r m k) v fun d => d.regEffect m r u (instFor r m k) v x

/-- The word that an alias write gives its register: RW fields keep their bits, write-one fields stay at rest, bit b is set
to c (R83). -/
def aliasWord (fs : List FRow) (old : Word) (b : Nat) (c : Bool) : Word :=
  let w := fs.foldl (fun w f =>
    match f.ty with
    | .w1c | .wo => setF w f.hi f.lo 0
    | .woo => setF w f.hi f.lo f.reset
    | _ => w) old
  setF w b b (bit c)

/-- A 32-bit alias write at BAR0 offset a (R82, R83), judged by the field of bit b alone. -/
def Dev.aliasWrite (d : Dev) (m a : Nat) (v : Word) (x : Shown) : Dev :=
  let off := (a - 0x4000000) / 128 * 4
  let b := (a - 0x4000000) % 128 / 4
  match regAt off with
  | none => d.unmapped m a
  | some (r, u, k) =>
    let k := instFor r m k
    match r.row.fields.find? fun f => decide (f.lo ≤ b) && decide (b ≤ f.hi) with
    | none => d
    | some f =>
      if f.ty = .ro then d
      else if f.ty = .wo ∨ f.ty = .woo then d.narrowWrite 5 m a
      else if f.priv && !d.priv m then d.violate m 1 (regOffset r u k)
      else if f.lk && d.isLocked r u then d.lockViol m r u k
      else d.regEffect m r u k (aliasWord r.row.fields (d.rd r u k) b (decide (getF v 0 0 = 1))) x

/-! ### A write of any size (R71, R77, R78, R105) -/

/-- The parts of BAR0 (R71). -/
inductive Space where
  | regs | bits | slots | nowhere
  deriving DecidableEq, Repr

def spaceOf (a : Nat) : Space :=
  if a < 0x1010000 then .regs
  else if 0x4000000 ≤ a ∧ a < 0x5000000 then .bits
  else if 0x8000000 ≤ a ∧ a < 0xC000000 then .slots
  else .nowhere

/-- One dword of a write outside the slots, each on its own (R78): a held master's is refused before every check (R89), one
with byte enables missing is a narrow write (R77). -/
def busWord (m a : Nat) (v : Word) (full : Bool) (x : Shown) (nv : Nv) (d : Dev) : Nv × Dev :=
  if d.isHeld m then (nv, d.refuse m)
  else match spaceOf a with
    | .nowhere => (nv, d.unmapped m a)
    | .slots => (nv, d.dbSize m ((a - 0x8000000) / 64))
    | .bits => nvFlush 0 nv (if full then d.aliasWrite m a v x else d.narrowWrite 1 m a)
    | .regs =>
      if !full then (nv, d.narrowWrite 1 m a)
      else if (regAt a).map (fun p => p.1) = some .bootHostCtl ∧ getF v 31 31 = 1 then bootHostGo m v x.img nv d
      else nvFlush 0 nv (d.write32 m a v x)

/-- The dwords of a write in ascending order (R77, R78). -/
def busWords (m : Nat) (x : Shown) : Nat → List (Word × Bool) → Nv → Dev → Nv × Dev
  | _, [], nv, d => (nv, d)
  | a, w :: ws, nv, d =>
    let p := busWord m a w.1 w.2 x nv d
    busWords m x (a + 4) ws p.1 p.2

/-- A doorbell slot written (R105 to R108). -/
def Dev.slotBus (d : Dev) (m a size : Nat) (ws : List (Word × Bool)) (ring : List Byte) : Dev :=
  let qid := (a - 0x8000000) / 64
  let off := (a - 0x8000000) % 64
  let v := ((ws.head?.map fun (w : Word × Bool) => w.1).getD 0).toNat
  if !ws.all (fun (w : Word × Bool) => w.2) then d.slotWrite m qid false id
  else if size = 64 ∧ ws.length = 16 then d.push m qid off (ws.flatMap fun (w : Word × Bool) => leBytes 4 w.1.toNat)
  else if off = 0xC ∧ size = 4 then
    d.submit m qid fun d => match v % 4 with
      | 1 => d.startQ qid
      | 2 => d.stopQ qid
      | 3 => d.resetQ m qid
      | _ => d
  else d.dbTail m qid off size (v % 2 ^ 17) ring

/-- Whether a size and an offset make an access that R77 allows: 1, 2 or 4 bytes at their own alignment, 8 bytes or whole
dwords up to 512 bytes at dword alignment. -/
def sizeOk (a size : Nat) : Bool :=
  if size = 1 then true else if size = 2 then decide (a % 2 = 0)
  else decide (a % 4 = 0) && decide (size % 4 = 0) && decide (0 < size) && decide (size ≤ 512)

/-- A write of `size` bytes at BAR0 offset a: its dwords, each with whether its byte enables are all set. -/
def busWrite (m a size : Nat) (ws : List (Word × Bool)) (x : Shown) (nv : Nv) (d : Dev) : Nv × Dev :=
  match spaceOf a with
  | .slots => (nv, d.slotBus m a size ws x.ring)
  | .nowhere => busWords m x a ws nv d
  | _ =>
    if !sizeOk a size then (nv, d.unlessHeld m fun d => d.unaligned 3 m a)
    else if size < 4 then (nv, d.unlessHeld m fun d => d.narrowWrite 1 m a)
    else busWords m x a ws nv d

def execRegWrite (m a size : Nat) (ws : List (Word × Bool)) (x : Shown) (s : State) : Host.Outcome State Fault Refusal :=
  if issued m then s.onBoth (busWrite m a size ws x) else .fault (.neverIssued m)

/-- A write into the bit-alias region at offset a of it (R83): only 32-bit writes, split as elsewhere, are accepted. -/
def execBitAliasWrite (m : Nat) (a : Fin 0x1000000) (size : Nat) (ws : List (Word × Bool)) (x : Shown) (s : State) :
    Host.Outcome State Fault Refusal :=
  if issued m then s.onBoth (busWrite m (0x4000000 + a.val) size ws x) else .fault (.neverIssued m)

end Sys2Proof.Machine
end

