-- ==== Sys2Proof/Machine/Dispatch.lean ====
section
/-! DEFINITION. The meaning of every command: one arm for each constructor of Instr, each one call of its meaning. -/
namespace Sys2Proof.Machine

def exec (i : Instr) (s : State) : Host.Outcome State Fault Refusal :=
  match i with
  | .ucbWake m u => Sys2Proof.Machine.execUcbWake m u s
  | .ucbDrain m u => Sys2Proof.Machine.execUcbDrain m u s
  | .ucbSleep m u => Sys2Proof.Machine.execUcbSleep m u s
  | .ucbOff m u => Sys2Proof.Machine.execUcbOff m u s
  | .ucbReload m u => Sys2Proof.Machine.execUcbReload m u s
  | .domainPowerGood n => Sys2Proof.Machine.execDomainPowerGood n s
  | .reloadComplete u good => Sys2Proof.Machine.execReloadComplete u good s
  | .drainComplete u => Sys2Proof.Machine.execDrainComplete u s
  | .domainPowerLost n => Sys2Proof.Machine.execDomainPowerLost n s
  | .paceWindow u n => Sys2Proof.Machine.execPaceWindow u n s
  | .paceLowTimeout g => Sys2Proof.Machine.execPaceLowTimeout g s
  | .paceOkTimeout g => Sys2Proof.Machine.execPaceOkTimeout g s
  | .bandRiseDeferred g => Sys2Proof.Machine.execBandRiseDeferred g s
  | .governorRun => Sys2Proof.Machine.execGovernorRun s
  | .ucbPaceMinRead m u => Sys2Proof.Machine.execUcbPaceMinRead m u s
  | .ucbEventRead m u => Sys2Proof.Machine.execUcbEventRead m u s
  | .actLevelSet m u v => Sys2Proof.Machine.execActLevelSet m u v s
  | .bankDecide => Sys2Proof.Machine.execBankDecide s
  | .pipRelease u => Sys2Proof.Machine.execPipRelease u s
  | .bankCeilWrite m v => Sys2Proof.Machine.execBankCeilWrite m v s
  | .bankReserveWrite m v => Sys2Proof.Machine.execBankReserveWrite m v s
  | .bankVoltReq m v => Sys2Proof.Machine.execBankVoltReq m v s
  | .c0GrantLateTimeout u => Sys2Proof.Machine.execC0GrantLateTimeout u s
  | .grantWaitTimeout u => Sys2Proof.Machine.execGrantWaitTimeout u s
  | .currentMonitorWindow meas => Sys2Proof.Machine.execCurrentMonitorWindow meas s
  | .overdraw n => Sys2Proof.Machine.execOverdraw n s
  | .overdrawOff n => Sys2Proof.Machine.execOverdrawOff n s
  | .forceShedTimeout => Sys2Proof.Machine.execForceShedTimeout s
  | .peerValidLost => Sys2Proof.Machine.execPeerValidLost s
  | .bankOvrRead m => Sys2Proof.Machine.execBankOvrRead m s
  | .bankPeakRead m => Sys2Proof.Machine.execBankPeakRead m s
  | .pwrGoodFall cut => Sys2Proof.Machine.execPwrGoodFall cut s
  | .rstNAssert => Sys2Proof.Machine.execRstNAssert s
  | .rstNRelease sel => Sys2Proof.Machine.execRstNRelease sel s
  | .pmbAlert statusWord vout iout => Sys2Proof.Machine.execPmbAlert statusWord vout iout s
  | .regWrite m a size ws x => Sys2Proof.Machine.execRegWrite m a size ws x s
  | .heldOpsClosed isUnit id => Sys2Proof.Machine.execHeldOpsClosed isUnit id s
  | .bitAliasWrite m a size ws x => Sys2Proof.Machine.execBitAliasWrite m a size ws x s
  | .counter64LowRead m addr => Sys2Proof.Machine.execCounter64LowRead m addr s
  | .lockCtlGo m index => Sys2Proof.Machine.execLockCtlGo m index s
  | .lockCtlGlobal m v => Sys2Proof.Machine.execLockCtlGlobal m v s
  | .privVfWrite m hi v => Sys2Proof.Machine.execPrivVfWrite m hi v s
  | .holdScanRead m => Sys2Proof.Machine.execHoldScanRead m s
  | .holdReleaseWrite m v => Sys2Proof.Machine.execHoldReleaseWrite m v s
  | .accLogRead m => Sys2Proof.Machine.execAccLogRead m s
  | .parLogRead m => Sys2Proof.Machine.execParLogRead m s
  | .scrubVisit bad slots => Sys2Proof.Machine.execScrubVisit bad slots s
  | .perstNAssert => Sys2Proof.Machine.execPerstNAssert s
  | .pcieFlr f => Sys2Proof.Machine.execPcieFlr f s
  | .pcieLinkDown => Sys2Proof.Machine.execPcieLinkDown s
  | .pcieLinkUp width rate => Sys2Proof.Machine.execPcieLinkUp width rate s
  | .pcieAerError status => Sys2Proof.Machine.execPcieAerError status s
  | .bar1Access m a wr n bytes se ue die => Sys2Proof.Machine.execBar1Access m a wr n bytes se ue die s
  | .dbTailWrite m qid off size v ring => Sys2Proof.Machine.execDbTailWrite m qid off size v ring s
  | .dbPush m qid off bytes => Sys2Proof.Machine.execDbPush m qid off bytes s
  | .dbStart m qid => Sys2Proof.Machine.execDbStart m qid s
  | .dbStop m qid => Sys2Proof.Machine.execDbStop m qid s
  | .dbReset m qid => Sys2Proof.Machine.execDbReset m qid s
  | .queueDispatch => Sys2Proof.Machine.execQueueDispatch s
  | .operationEnd tag status body => Sys2Proof.Machine.execOperationEnd tag status body s
  | .replyPostResume qid n => Sys2Proof.Machine.execReplyPostResume qid n s
  | .tagWaitTimeout qid => Sys2Proof.Machine.execTagWaitTimeout qid s
  | .queueResetDone qid done => Sys2Proof.Machine.execQueueResetDone qid done s
  | .holdoffExpiry fn vec => Sys2Proof.Machine.execHoldoffExpiry fn vec s
  | .qfRead m qid => Sys2Proof.Machine.execQfRead m qid s
  | .qfCreate m qid => Sys2Proof.Machine.execQfCreate m qid s
  | .qfDestroy m qid => Sys2Proof.Machine.execQfDestroy m qid s
  | .qfRetarget m qid => Sys2Proof.Machine.execQfRetarget m qid s
  | .qfStart m qid => Sys2Proof.Machine.execQfStart m qid s
  | .qfStop m qid => Sys2Proof.Machine.execQfStop m qid s
  | .qfReset m qid => Sys2Proof.Machine.execQfReset m qid s
  | .qfOpUnused m qid => Sys2Proof.Machine.execQfOpUnused m qid s
  | .qfRoleRead m => Sys2Proof.Machine.execQfRoleRead m s
  | .ozLockstepMismatch pairB => Sys2Proof.Machine.execOzLockstepMismatch pairB s
  | .ozWatchdogExpiry pairB => Sys2Proof.Machine.execOzWatchdogExpiry pairB s
  | .ozPairRejoin pairB => Sys2Proof.Machine.execOzPairRejoin pairB s
  | .ozSramEccError pairB double => Sys2Proof.Machine.execOzSramEccError pairB double s
  | .mbBootGo m v => Sys2Proof.Machine.execMbBootGo m v s
  | .mbBootReopenDone f => Sys2Proof.Machine.execMbBootReopenDone f s
  | .mbUnknownService r svc verb => Sys2Proof.Machine.execMbUnknownService r svc verb s
  | .longVerbComplete job => Sys2Proof.Machine.execLongVerbComplete job s
  | .sysInfo r => Sys2Proof.Machine.execSysInfo r s
  | .sysOpen r => Sys2Proof.Machine.execSysOpen r s
  | .sysClose r => Sys2Proof.Machine.execSysClose r s
  | .sysQueueCreate r => Sys2Proof.Machine.execSysQueueCreate r s
  | .sysQueueDestroy r => Sys2Proof.Machine.execSysQueueDestroy r s
  | .sysPrivSet r => Sys2Proof.Machine.execSysPrivSet r s
  | .sysBankSet r => Sys2Proof.Machine.execSysBankSet r s
  | .sysHoldList r => Sys2Proof.Machine.execSysHoldList r s
  | .sysHoldRelease r => Sys2Proof.Machine.execSysHoldRelease r s
  | .sysUnitQuery r => Sys2Proof.Machine.execSysUnitQuery r s
  | .sysUnitCmd r => Sys2Proof.Machine.execSysUnitCmd r s
  | .sysJobStatus r => Sys2Proof.Machine.execSysJobStatus r s
  | .sysPing r => Sys2Proof.Machine.execSysPing r s
  | .logInfo r => Sys2Proof.Machine.execLogInfo r s
  | .logSubscribe r => Sys2Proof.Machine.execLogSubscribe r s
  | .logUnsubscribe r => Sys2Proof.Machine.execLogUnsubscribe r s
  | .logRead r => Sys2Proof.Machine.execLogRead r s
  | .logNvmRead r => Sys2Proof.Machine.execLogNvmRead r s
  | .logMark r => Sys2Proof.Machine.execLogMark r s
  | .logStats r => Sys2Proof.Machine.execLogStats r s
  | .bootHostGo m v img => Sys2Proof.Machine.execBootHostGo m v img s
  | .hbmTrainDone spares failed sizes div => Sys2Proof.Machine.execHbmTrainDone spares failed sizes div s
  | .hbmSegmentLoad img => Sys2Proof.Machine.execHbmSegmentLoad img s
  | .serviceReady quads => Sys2Proof.Machine.execServiceReady quads s
  | .updateInfo r => Sys2Proof.Machine.execUpdateInfo r s
  | .updateBegin r => Sys2Proof.Machine.execUpdateBegin r s
  | .updateWrite r => Sys2Proof.Machine.execUpdateWrite r s
  | .updateVerify r => Sys2Proof.Machine.execUpdateVerify r s
  | .updateActivate r => Sys2Proof.Machine.execUpdateActivate r s
  | .updateConfirm r => Sys2Proof.Machine.execUpdateConfirm r s
  | .updateAbort r => Sys2Proof.Machine.execUpdateAbort r s
  | .updateRestart r => Sys2Proof.Machine.execUpdateRestart r s
  | .updateRestartReset => Sys2Proof.Machine.execUpdateRestartReset s
  | .updateSvnAdvance r => Sys2Proof.Machine.execUpdateSvnAdvance r s
  | .updateKeyAdd r => Sys2Proof.Machine.execUpdateKeyAdd r s
  | .updateRevoke r => Sys2Proof.Machine.execUpdateRevoke r s
  | .attestInfo r => Sys2Proof.Machine.execAttestInfo r s
  | .attestReport r => Sys2Proof.Machine.execAttestReport r s
  | .attestCert r => Sys2Proof.Machine.execAttestCert r s
  | .attestDebugChallenge r => Sys2Proof.Machine.execAttestDebugChallenge r s
  | .attestDebugUnlock r => Sys2Proof.Machine.execAttestDebugUnlock r s
  | .debugNonceExpiry => Sys2Proof.Machine.execDebugNonceExpiry s
  | .quadCfgWrite m q v => Sys2Proof.Machine.execQuadCfgWrite m q v s
  | .lnkMapWrite m n v => Sys2Proof.Machine.execLnkMapWrite m n v s
  | .lnCtlRetrain m l => Sys2Proof.Machine.execLnCtlRetrain m l s
  | .lnCtlFull m l => Sys2Proof.Machine.execLnCtlFull m l s
  | .linkBlockRx l far tap act seq => Sys2Proof.Machine.execLinkBlockRx l far tap act seq s
  | .alignColumnRx n skew col => Sys2Proof.Machine.execAlignColumnRx n skew col s
  | .blockLockLost l => Sys2Proof.Machine.execBlockLockLost l s
  | .elasticOverflow l => Sys2Proof.Machine.execElasticOverflow l s
  | .remoteFaultRx l => Sys2Proof.Machine.execRemoteFaultRx l s
  | .refLost q => Sys2Proof.Machine.execRefLost q s
  | .refRetrainTimer q => Sys2Proof.Machine.execRefRetrainTimer q s
  | .fastRetrainTimeout n => Sys2Proof.Machine.execFastRetrainTimeout n s
  | .fullTrainTimeout n => Sys2Proof.Machine.execFullTrainTimeout n s
  | .linkFailRetry n => Sys2Proof.Machine.execLinkFailRetry n s
  | .bastuPacketRx link bytes => Sys2Proof.Machine.execBastuPacketRx link bytes s
  | .ethLinkChange n up => Sys2Proof.Machine.execEthLinkChange n up s
  | .lnkStatRead m n => Sys2Proof.Machine.execLnkStatRead m n s
  | .lnCounterRead m l which => Sys2Proof.Machine.execLnCounterRead m l which s
  | .frameStart link src crcOk frame width height depth headTime => Sys2Proof.Machine.execFrameStart link src crcOk frame width height depth headTime s
  | .line link src crcOk room frame lineNo col last px => Sys2Proof.Machine.execLine link src crcOk room frame lineNo col last px s
  | .frameEnd link src crcOk frame => Sys2Proof.Machine.execFrameEnd link src crcOk frame s
  | .metaPkt link src crcOk typ bytes => Sys2Proof.Machine.execMeta link src crcOk typ bytes s
  | .regResp link src crcOk tid status bytes => Sys2Proof.Machine.execRegResp link src crcOk tid status bytes s
  | .bcTimeout link tid => Sys2Proof.Machine.execBcTimeout link tid s
  | .lineCommit seen => Sys2Proof.Machine.execLineCommit seen s
  | .camSkewTimeout c => Sys2Proof.Machine.execCamSkewTimeout c s
  | .camCloseTimeout c => Sys2Proof.Machine.execCamCloseTimeout c s
  | .camFrameTimeout c => Sys2Proof.Machine.execCamFrameTimeout c s
  | .camEnable m c v => Sys2Proof.Machine.execCamEnable m c v s
  | .camDisable m c v => Sys2Proof.Machine.execCamDisable m c v s
  | .dfStatRead m link => Sys2Proof.Machine.execDfStatRead m link s
  | .srcStatRead m link src => Sys2Proof.Machine.execSrcStatRead m link src s
  | .camFlagsRead m c cnt => Sys2Proof.Machine.execCamFlagsRead m c cnt s
  | .ingestInfo r => Sys2Proof.Machine.execIngestInfo r s
  | .ingestLinkSet r => Sys2Proof.Machine.execIngestLinkSet r s
  | .ingestLinkOff r => Sys2Proof.Machine.execIngestLinkOff r s
  | .ingestSourceSet r => Sys2Proof.Machine.execIngestSourceSet r s
  | .ingestCameraSet r => Sys2Proof.Machine.execIngestCameraSet r s
  | .ingestCameraStart r => Sys2Proof.Machine.execIngestCameraStart r s
  | .ingestCameraStop r => Sys2Proof.Machine.execIngestCameraStop r s
  | .ingestFrameInfo r => Sys2Proof.Machine.execIngestFrameInfo r s
  | .ingestHeadWrite r => Sys2Proof.Machine.execIngestHeadWrite r s
  | .ingestHeadRead r => Sys2Proof.Machine.execIngestHeadRead r s
  | .ingestHeadTrigger r => Sys2Proof.Machine.execIngestHeadTrigger r s
  | .ingestStats r => Sys2Proof.Machine.execIngestStats r s
  | .stripeStart n => Sys2Proof.Machine.execStripeStart n s
  | .stripeEnd n => Sys2Proof.Machine.execStripeEnd n s
  | .tileTableUe n colour => Sys2Proof.Machine.execTileTableUe n colour s
  | .pxCounterRead m n which => Sys2Proof.Machine.execPxCounterRead m n which s
  | .pipeInfo r => Sys2Proof.Machine.execPipeInfo r s
  | .pipeSensorSet r => Sys2Proof.Machine.execPipeSensorSet r s
  | .pipeMosaicSet r => Sys2Proof.Machine.execPipeMosaicSet r s
  | .pipeDefectLoad r => Sys2Proof.Machine.execPipeDefectLoad r s
  | .pipeFlatLoad r => Sys2Proof.Machine.execPipeFlatLoad r s
  | .pipeSpectralLoad r => Sys2Proof.Machine.execPipeSpectralLoad r s
  | .pipeMatrixLoad r => Sys2Proof.Machine.execPipeMatrixLoad r s
  | .pipeIrSet r => Sys2Proof.Machine.execPipeIrSet r s
  | .pipeCommit r => Sys2Proof.Machine.execPipeCommit r s
  | .pipeDiscard r => Sys2Proof.Machine.execPipeDiscard r s
  | .pipeTableInfo r => Sys2Proof.Machine.execPipeTableInfo r s
  | .pipeTileStats r => Sys2Proof.Machine.execPipeTileStats r s
  | .autoControlRun c frame => Sys2Proof.Machine.execAutoControlRun c frame s
  | .autoLimitTimeout c => Sys2Proof.Machine.execAutoLimitTimeout c s
  | .lutSlotUe g slot => Sys2Proof.Machine.execLutSlotUe g slot s
  | .clCounterRead m n which => Sys2Proof.Machine.execClCounterRead m n which s
  | .colourInfo r => Sys2Proof.Machine.execColourInfo r s
  | .colourOtSet r => Sys2Proof.Machine.execColourOtSet r s
  | .colourShaperLoad r => Sys2Proof.Machine.execColourShaperLoad r s
  | .colourLutLoad r => Sys2Proof.Machine.execColourLutLoad r s
  | .colourTnrSet r => Sys2Proof.Machine.execColourTnrSet r s
  | .colourStatSet r => Sys2Proof.Machine.execColourStatSet r s
  | .colourFrameSet r => Sys2Proof.Machine.execColourFrameSet r s
  | .colourAutoSet r => Sys2Proof.Machine.execColourAutoSet r s
  | .colourStats r => Sys2Proof.Machine.execColourStats r s
  | .colourQuery r => Sys2Proof.Machine.execColourQuery r s
  | .colourTileStats r => Sys2Proof.Machine.execColourTileStats r s
  | .stripeJobDispatch part => Sys2Proof.Machine.execStripeJobDispatch part s
  | .tileFail n => Sys2Proof.Machine.execTileFail n s
  | .compatSlotWait => Sys2Proof.Machine.execCompatSlotWait s
  | .streamFrameDone str frame hostBad => Sys2Proof.Machine.execStreamFrameDone str frame hostBad s
  | .alignDeadline g ref => Sys2Proof.Machine.execAlignDeadline g ref s
  | .pointCVerdict c frame m lineNo seen => Sys2Proof.Machine.execPointCVerdict c frame m lineNo seen s
  | .outCounterRead m which k => Sys2Proof.Machine.execOutCounterRead m which k s
  | .outInfo r => Sys2Proof.Machine.execOutInfo r s
  | .outCameraAlloc r => Sys2Proof.Machine.execOutCameraAlloc r s
  | .outCameraFree r => Sys2Proof.Machine.execOutCameraFree r s
  | .outPoolSet r => Sys2Proof.Machine.execOutPoolSet r s
  | .outStreamSet r => Sys2Proof.Machine.execOutStreamSet r s
  | .outStreamStart r => Sys2Proof.Machine.execOutStreamStart r s
  | .outStreamStop r => Sys2Proof.Machine.execOutStreamStop r s
  | .outCoefLoad r => Sys2Proof.Machine.execOutCoefLoad r s
  | .outAlignSet r => Sys2Proof.Machine.execOutAlignSet r s
  | .outAlignJoin r => Sys2Proof.Machine.execOutAlignJoin r s
  | .outCompatSet r => Sys2Proof.Machine.execOutCompatSet r s
  | .outRotate r => Sys2Proof.Machine.execOutRotate r s
  | .outStreamInfo r => Sys2Proof.Machine.execOutStreamInfo r s
  | .outStats r => Sys2Proof.Machine.execOutStats r s
  | .chunkCode e fault => Sys2Proof.Machine.execChunkCode e fault s
  | .srcVerdict n frame row good => Sys2Proof.Machine.execSrcVerdict n frame row good s
  | .sliceMove n slice => Sys2Proof.Machine.execSliceMove n slice s
  | .engineFail e chunk ue => Sys2Proof.Machine.execEngineFail e chunk ue s
  | .codecStarvedTimeout n slice => Sys2Proof.Machine.execCodecStarvedTimeout n slice s
  | .psCounterRead m n ecc => Sys2Proof.Machine.execPsCounterRead m n ecc s
  | .codecInfo r => Sys2Proof.Machine.execCodecInfo r s
  | .codecStreamSet r => Sys2Proof.Machine.execCodecStreamSet r s
  | .codecStreamStart r => Sys2Proof.Machine.execCodecStreamStart r s
  | .codecStreamStop r => Sys2Proof.Machine.execCodecStreamStop r s
  | .codecStreamInfo r => Sys2Proof.Machine.execCodecStreamInfo r s
  | .codecDecode r => Sys2Proof.Machine.execCodecDecode r s
  | .codecCtxSave r => Sys2Proof.Machine.execCodecCtxSave r s
  | .codecCtxLoad r => Sys2Proof.Machine.execCodecCtxLoad r s
  | .codecMove r => Sys2Proof.Machine.execCodecMove r s
  | .codecKey r => Sys2Proof.Machine.execCodecKey r s
  | .codecEngineStats r => Sys2Proof.Machine.execCodecEngineStats r s
  | .cmd n q ctag cmdBytes => Sys2Proof.Machine.execCmd n q ctag cmdBytes s
  | .xferRdy n q ctag off len => Sys2Proof.Machine.execXferRdy n q ctag off len s
  | .dataOut n q ctag off bytes => Sys2Proof.Machine.execDataOut n q ctag off bytes s
  | .dataIn n q ctag off bytes => Sys2Proof.Machine.execDataIn n q ctag off bytes s
  | .resp n q ctag status => Sys2Proof.Machine.execResp n q ctag status s
  | .qreset n q => Sys2Proof.Machine.execQreset n q s
  | .qresetDone n q count => Sys2Proof.Machine.execQresetDone n q count s
  | .connect n serial queues => Sys2Proof.Machine.execConnect n serial queues s
  | .connectAck n queues depth burst page => Sys2Proof.Machine.execConnectAck n queues depth burst page s
  | .pm n state => Sys2Proof.Machine.execPm n state s
  | .pmAck n state late => Sys2Proof.Machine.execPmAck n state late s
  | .xferTimeout n q ctag => Sys2Proof.Machine.execXferTimeout n q ctag s
  | .packTimeout n => Sys2Proof.Machine.execPackTimeout n s
  | .mediaReconnect n => Sys2Proof.Machine.execMediaReconnect n s
  | .idleTimerExpiry n state => Sys2Proof.Machine.execIdleTimerExpiry n state s
  | .hostMediaSubmit tag host => Sys2Proof.Machine.execHostMediaSubmit tag host s
  | .mqCqhWrite m n v => Sys2Proof.Machine.execMqCqhWrite m n v s
  | .auWriteDone clip au => Sys2Proof.Machine.execAuWriteDone clip au s
  | .pointEAssembly clip reads => Sys2Proof.Machine.execPointEAssembly clip reads s
  | .flushTimer => Sys2Proof.Machine.execFlushTimer s
  | .burstFrameCopy ring => Sys2Proof.Machine.execBurstFrameCopy ring s
  | .burstDrainDone ring => Sys2Proof.Machine.execBurstDrainDone ring s
  | .mpCntRead m n => Sys2Proof.Machine.execMpCntRead m n s
  | .mediaInfo r => Sys2Proof.Machine.execMediaInfo r s
  | .mediaPortSet r => Sys2Proof.Machine.execMediaPortSet r s
  | .mediaPackInfo r => Sys2Proof.Machine.execMediaPackInfo r s
  | .mediaConfigSet r => Sys2Proof.Machine.execMediaConfigSet r s
  | .mediaQpCreate r => Sys2Proof.Machine.execMediaQpCreate r s
  | .mediaQpDelete r => Sys2Proof.Machine.execMediaQpDelete r s
  | .mediaNsCreate r => Sys2Proof.Machine.execMediaNsCreate r s
  | .mediaNsDelete r => Sys2Proof.Machine.execMediaNsDelete r s
  | .mediaVolumeFormat r => Sys2Proof.Machine.execMediaVolumeFormat r s
  | .mediaVolumeMount r packs => Sys2Proof.Machine.execMediaVolumeMount r packs s
  | .mediaVolumeUnmount r => Sys2Proof.Machine.execMediaVolumeUnmount r s
  | .mediaRecordStart r => Sys2Proof.Machine.execMediaRecordStart r s
  | .mediaRecordStop r => Sys2Proof.Machine.execMediaRecordStop r s
  | .mediaClipList r => Sys2Proof.Machine.execMediaClipList r s
  | .mediaClipInfo r head => Sys2Proof.Machine.execMediaClipInfo r head s
  | .mediaClipMap r => Sys2Proof.Machine.execMediaClipMap r s
  | .mediaClipDelete r => Sys2Proof.Machine.execMediaClipDelete r s
  | .mediaBurstArm r => Sys2Proof.Machine.execMediaBurstArm r s
  | .mediaBurstTrigger r => Sys2Proof.Machine.execMediaBurstTrigger r s
  | .mediaBurstDisarm r => Sys2Proof.Machine.execMediaBurstDisarm r s
  | .mediaOffload r aus => Sys2Proof.Machine.execMediaOffload r aus s
  | .mediaMark r => Sys2Proof.Machine.execMediaMark r s
  | .mediaStats r => Sys2Proof.Machine.execMediaStats r s
  | .sessionInfo r => Sys2Proof.Machine.execSessionInfo r s
  | .sessionSave r => Sys2Proof.Machine.execSessionSave r s
  | .sessionLoad r regs => Sys2Proof.Machine.execSessionLoad r regs s
  | .sessionStandby r => Sys2Proof.Machine.execSessionStandby r s
  | .sessionResume r => Sys2Proof.Machine.execSessionResume r s
  | .cvuCheck n tag host => Sys2Proof.Machine.execCvuCheck n tag host s
  | .cvuAlive n tag => Sys2Proof.Machine.execCvuAlive n tag s
  | .aliveTimeout n => Sys2Proof.Machine.execAliveTimeout n s
  | .cvuCtlWrite m n v => Sys2Proof.Machine.execCvuCtlWrite m n v s
  | .cvuCounterRead m n alive => Sys2Proof.Machine.execCvuCounterRead m n alive s
  | .rcMismRead m second => Sys2Proof.Machine.execRcMismRead m second s
  | .rgnRead m idx => Sys2Proof.Machine.execRgnRead m idx s
  | .rgnWrite m idx => Sys2Proof.Machine.execRgnWrite m idx s
  | .rgnClear m idx => Sys2Proof.Machine.execRgnClear m idx s
  | .rgnOpUnused m idx => Sys2Proof.Machine.execRgnOpUnused m idx s
  | .pcTrGo m n v lanes => Sys2Proof.Machine.execPcTrGo m n v lanes s
  | .hbmScrubStep n se ue => Sys2Proof.Machine.execHbmScrubStep n se ue s
  | .hbmTempRead stack t fails => Sys2Proof.Machine.execHbmTempRead stack t fails s
  | .pcCounterRead m n ecc => Sys2Proof.Machine.execPcCounterRead m n ecc s
  | .scanFrameStart => Sys2Proof.Machine.execScanFrameStart s
  | .vbMaxExpiry => Sys2Proof.Machine.execVbMaxExpiry s
  | .layerUnderrun layer lineNo => Sys2Proof.Machine.execLayerUnderrun layer lineNo s
  | .hpdChange out kind lost edid dpcd => Sys2Proof.Machine.execHpdChange out kind lost edid dpcd s
  | .hpdLowTimeout out => Sys2Proof.Machine.execHpdLowTimeout out s
  | .dpTrainRetry out => Sys2Proof.Machine.execDpTrainRetry out s
  | .scTimGo m v => Sys2Proof.Machine.execScTimGo m v s
  | .flipEntry layer => Sys2Proof.Machine.execFlipEntry layer s
  | .scanCounterRead m which k => Sys2Proof.Machine.execScanCounterRead m which k s
  | .scanInfo r => Sys2Proof.Machine.execScanInfo r s
  | .scanTimingSet r => Sys2Proof.Machine.execScanTimingSet r s
  | .scanOutputSet r => Sys2Proof.Machine.execScanOutputSet r s
  | .scanBaseBind r => Sys2Proof.Machine.execScanBaseBind r s
  | .scanLayerBind r => Sys2Proof.Machine.execScanLayerBind r s
  | .scanLayerUnbind r => Sys2Proof.Machine.execScanLayerUnbind r s
  | .scanLayerSet r => Sys2Proof.Machine.execScanLayerSet r s
  | .scanPaletteSet r => Sys2Proof.Machine.execScanPaletteSet r s
  | .scanSinkInfo r => Sys2Proof.Machine.execScanSinkInfo r s
  | .scanStats r => Sys2Proof.Machine.execScanStats r s
  | .audioBlockDone n time frames cs => Sys2Proof.Machine.execAudioBlockDone n time frames cs s
  | .zcTimeout n mask => Sys2Proof.Machine.execZcTimeout n mask s
  | .mclkLost n => Sys2Proof.Machine.execMclkLost n s
  | .mclkReturn n ppm => Sys2Proof.Machine.execMclkReturn n ppm s
  | .audioRateChange n aes time frames => Sys2Proof.Machine.execAudioRateChange n aes time frames s
  | .fsGlitch n run time frames => Sys2Proof.Machine.execFsGlitch n run time frames s
  | .aesUnlock n => Sys2Proof.Machine.execAesUnlock n s
  | .aesRelock n => Sys2Proof.Machine.execAesRelock n s
  | .nonaudioDetect n => Sys2Proof.Machine.execNonaudioDetect n s
  | .nonaudioClear n => Sys2Proof.Machine.execNonaudioClear n s
  | .auCntRead m n => Sys2Proof.Machine.execAuCntRead m n s
  | .audioInfo r => Sys2Proof.Machine.execAudioInfo r s
  | .audioPortSet r => Sys2Proof.Machine.execAudioPortSet r s
  | .audioStart r => Sys2Proof.Machine.execAudioStart r s
  | .audioStop r => Sys2Proof.Machine.execAudioStop r s
  | .audioMute r => Sys2Proof.Machine.execAudioMute r s
  | .audioStatus r => Sys2Proof.Machine.execAudioStatus r s
  | .audioStats r => Sys2Proof.Machine.execAudioStats r s
  | .dIncWrite m dom v => Sys2Proof.Machine.execDIncWrite m dom v s
  | .dSetGo m dom v => Sys2Proof.Machine.execDSetGo m dom v s
  | .dAdjGo m dom v => Sys2Proof.Machine.execDAdjGo m dom v s
  | .tmSnap m v => Sys2Proof.Machine.execTmSnap m v s
  | .tmSwitch m v => Sys2Proof.Machine.execTmSwitch m v s
  | .tmSwitchForce m v => Sys2Proof.Machine.execTmSwitchForce m v s
  | .ethFrameRx port bytes => Sys2Proof.Machine.execEthFrameRx port bytes s
  | .ethLaunch port host => Sys2Proof.Machine.execEthLaunch port host s
  | .frameEdge => Sys2Proof.Machine.execFrameEdge s
  | .refInEdge => Sys2Proof.Machine.execRefInEdge s
  | .refWindowClose => Sys2Proof.Machine.execRefWindowClose s
  | .timedActionFire slot => Sys2Proof.Machine.execTimedActionFire slot s
  | .trigOutPulseEnd pin => Sys2Proof.Machine.execTrigOutPulseEnd pin s
  | .trigInEdge input rising => Sys2Proof.Machine.execTrigInEdge input rising s
  | .timeCounterRead m which k => Sys2Proof.Machine.execTimeCounterRead m which k s
  | .timeInfo r => Sys2Proof.Machine.execTimeInfo r s
  | .timeNow r => Sys2Proof.Machine.execTimeNow r s
  | .timeSelect r => Sys2Proof.Machine.execTimeSelect r s
  | .timeFrameSet r => Sys2Proof.Machine.execTimeFrameSet r s
  | .timeEthBind r => Sys2Proof.Machine.execTimeEthBind r s
  | .timeEthUnbind r => Sys2Proof.Machine.execTimeEthUnbind r s
  | .timeActionArm r => Sys2Proof.Machine.execTimeActionArm r s
  | .timeActionCancel r => Sys2Proof.Machine.execTimeActionCancel r s
  | .timeTrigInSet r => Sys2Proof.Machine.execTimeTrigInSet r s
  | .timeStats r => Sys2Proof.Machine.execTimeStats r s
  | .heartbeatSend => Sys2Proof.Machine.execHeartbeatSend s
  | .heartbeat b => Sys2Proof.Machine.execHeartbeat b s
  | .heartbeatTimeout => Sys2Proof.Machine.execHeartbeatTimeout s
  | .twinPresentChange level => Sys2Proof.Machine.execTwinPresentChange level s
  | .twinLinkWaitTimeout => Sys2Proof.Machine.execTwinLinkWaitTimeout s
  | .takeover packs => Sys2Proof.Machine.execTakeover packs s
  | .mirror epoch crcOk mseq link inner => Sys2Proof.Machine.execMirror epoch crcOk mseq link inner s
  | .mirrorCloseTimeout => Sys2Proof.Machine.execMirrorCloseTimeout s
  | .state epoch crcOk seg off bytes => Sys2Proof.Machine.execState epoch crcOk seg off bytes s
  | .stateAck epoch crcOk bytes => Sys2Proof.Machine.execStateAck epoch crcOk bytes s
  | .clipsync epoch crcOk clip auseq rseq start bytes sha => Sys2Proof.Machine.execClipsync epoch crcOk clip auseq rseq start bytes sha s
  | .handoverReq crcOk start => Sys2Proof.Machine.execHandoverReq crcOk start s
  | .handoverGo crcOk packs => Sys2Proof.Machine.execHandoverGo crcOk packs s
  | .handoverDone epoch crcOk => Sys2Proof.Machine.execHandoverDone epoch crcOk s
  | .detach crcOk => Sys2Proof.Machine.execDetach crcOk s
  | .attachReq crcOk major => Sys2Proof.Machine.execAttachReq crcOk major s
  | .attachRefuse crcOk reason => Sys2Proof.Machine.execAttachRefuse crcOk reason s
  | .hot crcOk => Sys2Proof.Machine.execHot crcOk s
  | .twinMsg epoch crcOk bytes => Sys2Proof.Machine.execTwinMsg epoch crcOk bytes s
  | .attachBaseFreeze => Sys2Proof.Machine.execAttachBaseFreeze s
  | .twCntRead m => Sys2Proof.Machine.execTwCntRead m s
  | .sync h frame edge send => Sys2Proof.Machine.execSync h frame edge send s
  | .action h block => Sys2Proof.Machine.execAction h block s
  | .chainMsg h entry => Sys2Proof.Machine.execChainMsg h entry s
  | .media h pt q ctag p1 bytes => Sys2Proof.Machine.execMedia h pt q ctag p1 bytes s
  | .probe h send reply => Sys2Proof.Machine.execProbe h send reply s
  | .probeSend => Sys2Proof.Machine.execProbeSend s
  | .topo h serial => Sys2Proof.Machine.execTopo h serial s
  | .chCntRead m => Sys2Proof.Machine.execChCntRead m s
  | .twinInfo r => Sys2Proof.Machine.execTwinInfo r s
  | .twinModeSet r => Sys2Proof.Machine.execTwinModeSet r s
  | .twinAttach r => Sys2Proof.Machine.execTwinAttach r s
  | .twinDetach r => Sys2Proof.Machine.execTwinDetach r s
  | .twinHandover r => Sys2Proof.Machine.execTwinHandover r s
  | .twinStatus r => Sys2Proof.Machine.execTwinStatus r s
  | .chainInfo r => Sys2Proof.Machine.execChainInfo r s
  | .chainJoin r => Sys2Proof.Machine.execChainJoin r s
  | .chainLeave r => Sys2Proof.Machine.execChainLeave r s
  | .chainRouteSet r => Sys2Proof.Machine.execChainRouteSet r s
  | .chainAction r => Sys2Proof.Machine.execChainAction r s
  | .chainSend r => Sys2Proof.Machine.execChainSend r s
  | .chainTopo r => Sys2Proof.Machine.execChainTopo r s
  | .thermSample raw fails => Sys2Proof.Machine.execThermSample raw fails s
  | .thSampleWrite m v raw => Sys2Proof.Machine.execThSampleWrite m v raw s
  | .fastScheduleExit => Sys2Proof.Machine.execFastScheduleExit s
  | .riseBonusEnd => Sys2Proof.Machine.execRiseBonusEnd s
  | .selftestDone u res fails => Sys2Proof.Machine.execSelftestDone u res fails s
  | .selftestRetest u => Sys2Proof.Machine.execSelftestRetest u s
  | .rollTick => Sys2Proof.Machine.execRollTick s
  | .eventHandling fails => Sys2Proof.Machine.execEventHandling fails s
  | .healthInfo r => Sys2Proof.Machine.execHealthInfo r s
  | .healthTemp r raw => Sys2Proof.Machine.execHealthTemp r raw s
  | .healthThermAck r => Sys2Proof.Machine.execHealthThermAck r s
  | .healthSensorClear r => Sys2Proof.Machine.execHealthSensorClear r s
  | .healthSelftest r => Sys2Proof.Machine.execHealthSelftest r s
  | .healthTestInfo r => Sys2Proof.Machine.execHealthTestInfo r s
  | .healthRollSet r => Sys2Proof.Machine.execHealthRollSet r s
  | .healthRollNow r => Sys2Proof.Machine.execHealthRollNow r s
  | .healthUnitList r => Sys2Proof.Machine.execHealthUnitList r s
  | .healthEqStats r => Sys2Proof.Machine.execHealthEqStats r s
  | .ozEccRead m => Sys2Proof.Machine.execOzEccRead m s
  | .standbySelfRefreshReentry stack => Sys2Proof.Machine.execStandbySelfRefreshReentry stack s
  | .refOkReturn q ppm => Sys2Proof.Machine.execRefOkReturn q ppm s
  | .perstNRelease => Sys2Proof.Machine.execPerstNRelease s
  | .dpLinkTrainingDone out ok => Sys2Proof.Machine.execDpLinkTrainingDone out ok s
  | .mbUnknownVerb r svc verb => Sys2Proof.Machine.execMbUnknownVerb r svc verb s
  | .blockLockAcquired l => Sys2Proof.Machine.execBlockLockAcquired l s

end Sys2Proof.Machine
end

