-- ==== Sys2Proof/Safety.lean ====
section
/-! DEFINITION. What claims call safe: a step that answers a next state, the canonical forms of what survives RST_N, and the
one-way order of fuses (R175). -/
namespace Sys2Proof.Machine

/-- A step that neither faults nor is refused. -/
def State.runs (s : State) : Prop := ∃ t, step s = .next t

/-- What survives RST_N in canonical form: flash bytes that are not erased at rising addresses (R161, R166), NVM records at
rising slots below 512 (R545), four key slots for each algorithm (R175). -/
def Nv.wf (nv : Nv) : Bool :=
  mwf 0xFF nv.flashA && mwf 0xFF nv.flashB && tsorted nv.recs && nv.recs.all (fun p => decide (p.1 < 512)) &&
  decide (nv.ed.length = 4) && decide (nv.ml.length = 4)

/-- One key slot after another: a programmed hash and a revocation stay (R175). -/
def FuseSlot.le (a b : FuseSlot) : Prop := (∀ h, a.hash = some h → b.hash = some h) ∧ (a.revoked = true → b.revoked = true)

/-- Fuses only blow: the slots keep what they hold, the SVN never falls, the serial number stands (R175). -/
def Nv.fusesLe (a b : Nv) : Prop :=
  (∀ (n : Nat) (x y : FuseSlot), a.ed[n]? = some x → b.ed[n]? = some y → x.le y) ∧ (∀ (n : Nat) (x y : FuseSlot), a.ml[n]? = some x → b.ml[n]? = some y → x.le y) ∧
  a.ed.length = b.ed.length ∧ a.ml.length = b.ml.length ∧ a.svn ≤ b.svn ∧ a.serial = b.serial

/-- HBM and the host memories in canonical form: listed bytes at rising addresses, none of them 0, which is what an unlisted byte
reads as. -/
def Memory.wf (d : Dev) : Bool := mwf 0 d.hbm.mem && d.host.all fun p => mwf 0 p.2

/-- What a device works on: every chapter's state but what carries a request and its answer (the register store with the holds,
queues, HBM and host memory that entries stand in, Ozder's mailboxes and queues of records). -/
def Dev.works (d : Dev) : BankSt × BootSt × HealthSt × Pins × TimeSt × TwinSt × ChainSt × LnSt × IngSt × IntegSt × PipeSt × PsSt ×
    MediaSt × AudSt × ScanSt :=
  (d.bank, d.boot, d.hl, d.pins, d.tm, d.tw, d.ch, d.ln, d.ing, d.integ, d.pipe, d.ps, d.md, d.au, d.sc)

/-- The parts of a device a frame can name: the fabric (holds, gates, interrupt lines, the last read), the queues' records, HBM,
host memory, and what each chapter's units hold. -/
inductive Part where
  | fab | qf | hbm | host | bank | boot | hl | pins | tm | tw | ch | ln | ing | integ | pipe | ps | md | au | sc
  deriving DecidableEq, Repr

/-- A device without the named parts; the register words, the log and the mailboxes, and the model's own counters are left out of
every comparison (each is some operation's destination: an event is logged and counted on every path). -/
def Dev.without (d : Dev) (pts : List Part) : Dev :=
  { Dev.reset with
    fab := if pts.contains .fab then Dev.reset.fab else d.fab,
    qf := if pts.contains .qf then Dev.reset.qf else d.qf,
    hbm := if pts.contains .hbm then Dev.reset.hbm else d.hbm,
    host := if pts.contains .host then Dev.reset.host else d.host,
    bank := if pts.contains .bank then Dev.reset.bank else d.bank,
    boot := if pts.contains .boot then Dev.reset.boot else d.boot,
    hl := if pts.contains .hl then Dev.reset.hl else d.hl,
    pins := if pts.contains .pins then Dev.reset.pins else d.pins,
    tm := if pts.contains .tm then Dev.reset.tm else d.tm,
    tw := if pts.contains .tw then Dev.reset.tw else d.tw,
    ch := if pts.contains .ch then Dev.reset.ch else d.ch,
    ln := if pts.contains .ln then Dev.reset.ln else d.ln,
    ing := if pts.contains .ing then Dev.reset.ing else d.ing,
    integ := if pts.contains .integ then Dev.reset.integ else d.integ,
    pipe := if pts.contains .pipe then Dev.reset.pipe else d.pipe,
    ps := if pts.contains .ps then Dev.reset.ps else d.ps,
    md := if pts.contains .md then Dev.reset.md else d.md,
    au := if pts.contains .au then Dev.reset.au else d.au,
    sc := if pts.contains .sc then Dev.reset.sc else d.sc }

/-- The command answers a next state; what waits, what survives RST_N, and every part of the device but those named stay. -/
def Completes (c : Instr) (s : State) (pts : List Part) : Prop :=
  ∃ t, exec c s = .next t ∧ t.pending = s.pending ∧ t.nv = s.nv ∧ t.dev.without pts = s.dev.without pts

/-- The command answers a next state; what waits stays, fuses only blow (R175), and every part of the device but those named
stays. -/
def Stores (c : Instr) (s : State) (pts : List Part) : Prop :=
  ∃ t, exec c s = .next t ∧ t.pending = s.pending ∧ s.nv.fusesLe t.nv ∧ t.dev.without pts = s.dev.without pts

/-- Every part a frame can name: the frame of a command that may reach all of the device. -/
def Part.all : List Part :=
  [.fab, .qf, .hbm, .host, .bank, .boot, .hl, .pins, .tm, .tw, .ch, .ln, .ing, .integ, .pipe, .ps, .md, .au, .sc]

/-- Whatever waits and whatever survives RST_N, the command takes device d to e and changes nothing else. -/
def Makes (c : Instr) (d e : Dev) : Prop :=
  ∀ (nv : Nv) (q : List Instr), exec c { nv := nv, dev := d, pending := q } = .next { nv := nv, dev := e, pending := q }

/-- Whatever waits, the command takes the survivors and the device to those given. -/
def MakesBoth (c : Instr) (nv : Nv) (d : Dev) (p : Nv × Dev) : Prop :=
  ∀ q : List Instr, exec c { nv := nv, dev := d, pending := q } = .next { nv := p.1, dev := p.2, pending := q }

/-- The parts that holding a master, posting an entry and signalling its vector reach. -/
def Part.answer : List Part := [.fab, .qf, .hbm, .host]

/-- Those parts and some others. -/
def Part.answerAnd (l : List Part) : List Part := Part.answer ++ l

/-! ### Accesses -/

/-- A write by master m that no check turns away: the master is not held (R88, R89), may write a PRIV register (R584), and meets no
lock (R84) and no third value in a WOO field (R85). -/
def Dev.open (d : Dev) (m : Nat) (r : Reg) (u k : Nat) (v : Word) : Prop :=
  d.isHeld m = false ∧ (r.isPriv = true → d.priv m = true) ∧ (r.isLk = true → d.isLocked r u = false) ∧
  r.row.fields.any (d.wooThird r u k v) = false

/-- The four ends of a write of v to register r of unit u, instance k, by a master R74 issues: refused and counted (R89), a
PRIV_WRITE violation (R87), turned away by a lock (R84), or the effect e; and that of a third value in a WOO field (R85). -/
def Writes (c : Instr) (d : Dev) (m : Nat) (r : Reg) (u k : Nat) (v : Word) (e : Dev) : Prop :=
  issued m = true →
  (d.isHeld m = true → Makes c d (d.refuse m)) ∧
  (d.isHeld m = false → r.isPriv = true → d.priv m = false → Makes c d (d.violate m 1 (regOffset r u k))) ∧
  (d.isHeld m = false → (r.isPriv = true → d.priv m = true) → r.isLk = true → d.isLocked r u = true → Makes c d (d.lockViol m r u k)) ∧
  (d.isHeld m = false → (r.isPriv = true → d.priv m = true) → (r.isLk = true → d.isLocked r u = false) →
    r.row.fields.any (d.wooThird r u k v) = true → Makes c d (d.wooViol m r u k)) ∧
  (d.open m r u k v → Makes c d e)

/-- A read of register r of unit u, instance k, by a master R74 issues: the word comes back as it stood, each named field reads 0
from then on, the register's other bits, every other register and everything else in the device but the fabric's last read stay; a
master that may not read the register gets 0 and clears nothing (R81). -/
def ReadsAndClears (c : Instr) (d : Dev) (m : Nat) (r : Reg) (u k : Nat) (flds : List Fld) : Prop :=
  issued m = true →
  ((r.isPriv && !d.priv m) = true → Makes c d { d with fab := { d.fab with rdata := 0 } }) ∧
  ((r.isPriv && !d.priv m) = false → ∃ e, Makes c d e ∧ e.fab = { d.fab with rdata := d.rd r u k } ∧
    (∀ f ∈ flds, e.fg f u k = 0) ∧
    (∀ hi lo, (∀ f ∈ flds, hi < f.lo ∨ f.hi < lo) → getF (e.rd r u k) hi lo = getF (d.rd r u k) hi lo) ∧
    (∀ r' u' k', r'.key u' k' ≠ r.key u k → e.rd r' u' k' = d.rd r' u' k') ∧ { e with regs := d.regs, fab := d.fab } = d)

/-! ### Requests -/

/-- Firmware takes the request up (R146, steps 1 to 6): its mailbox is open, firmware serves, the header names its sender, the
version is 1 (SYS.INFO takes any), a PRIV verb's caller is privileged, both ranges are in order, and no rule shuts the service
(R504, R512, R540). -/
structure Dev.Accepts (d : Dev) (r : Req) (svc verb : Nat) (priv : Bool) : Prop where
  box : ∃ b, d.mbox r.qid = some b ∧ b.closing = false
  serving : d.serving = true
  sender : r.hdrMaster = r.master
  version : r.ifver = 1 ∨ svc = 1 ∧ verb = 0
  allowed : priv = true → d.priv r.master = true
  ranges : d.rangeBad r.master r.range0 r.argLen false = false ∧ d.rangeBad r.master r.range1 r.replyMax true = false
  shut : d.thermShut svc verb = false ∧ d.shadowShut svc verb = false ∧ d.isolatedShut svc = false

/-- What an accepted request comes to, v being the verb's own answer: success with its results, a job accepted, or the error the
verb names; under CHECK_ONLY a success changes nothing (R146); a reply block too small for the bytes is E_MB_RANGE, a 33rd running
job E_MB_BUSY (R148). -/
def Dev.settled (d : Dev) (r : Req) (svc verb : Nat) : VRes Dev → Dev
  | .err st off detail => d.replyErr r svc verb st off detail
  | .turned e st => (if r.checkOnly then d else e).replyErr r svc verb st 0xFFFF
  | .ok e res bytes detail =>
    if r.checkOnly then d.reply r svc verb 0 0xFFFF 0 0 [] []
    else if r.replyMax < bytes.length then d.replyErr r svc verb 0x040D 0xFFFF
    else (e.replicated svc verb).reply r svc verb 0 0xFFFF 0 detail res bytes
  | .job e decided aux =>
    if r.checkOnly then d.reply r svc verb 0 0xFFFF 0 0 [] []
    else if 32 ≤ d.running r.master then d.replyErr r svc verb 0x0407 0xFFFF
    else ((e.replicated svc verb).openJob r svc verb decided aux).reply r svc verb 0 0xFFFF (e.replicated svc verb).oz.nextJob 0 [] []

/-- A request that firmware takes up is settled by the verb's answer v, and a mailbox that was waiting only for it closes. -/
def Answers (c : Instr) (d : Dev) (r : Req) (svc verb : Nat) (priv : Bool) (v : VRes Dev) : Prop :=
  d.Accepts r svc verb priv → Makes c d (d.settled r svc verb v).sweep

/-- The device alone of an answer that may also change what survives RST_N. -/
def VRes.onDevice : VRes (Nv × Dev) → VRes Dev
  | .err st off detail => .err st off detail
  | .turned p st => .turned p.2 st
  | .ok p res bytes detail => .ok p.2 res bytes detail
  | .job p decided aux => .job p.2 decided aux

/-- What survives RST_N after a request: the verb's own where it takes effect, else as it stood. -/
def Nv.settled (nv : Nv) (d : Dev) (r : Req) : VRes (Nv × Dev) → Nv
  | .err _ _ _ => nv
  | .turned p _ => if r.checkOnly then nv else p.1
  | .ok p _ bytes _ => if r.checkOnly ∨ r.replyMax < bytes.length then nv else p.1
  | .job p _ _ => if r.checkOnly ∨ 32 ≤ d.running r.master then nv else p.1

/-- The same for a request whose verb may change what survives RST_N. -/
def AnswersBoth (c : Instr) (nv : Nv) (d : Dev) (r : Req) (svc verb : Nat) (priv : Bool) (v : VRes (Nv × Dev)) : Prop :=
  d.Accepts r svc verb priv → MakesBoth c nv d (nv.settled d r v, d.settled r svc verb v.onDevice)

/-- The same for a HEALTH verb, whose event NVM records are written at once (R545, R546). -/
def AnswersLogged (c : Instr) (nv : Nv) (d : Dev) (r : Req) (svc verb : Nat) (priv : Bool) (v : VRes Dev) : Prop :=
  d.Accepts r svc verb priv → MakesBoth c nv d (nvFlush 0 nv (d.settled r svc verb v).sweep)

/-- The request a command carries, with the service and verb its row stands for and whether the verb is PRIV (R144, R145); none for a
command that is no request, and for one that names a service or verb no release has. -/
def asRequest : Instr → Option (Req × Nat × Nat × Bool)
  | .sysInfo r => some (r, 0x1, 0x0, false)
  | .sysOpen r => some (r, 0x1, 0x1, false)
  | .sysClose r => some (r, 0x1, 0x2, false)
  | .sysQueueCreate r => some (r, 0x1, 0x3, false)
  | .sysQueueDestroy r => some (r, 0x1, 0x4, false)
  | .sysPrivSet r => some (r, 0x1, 0x5, true)
  | .sysBankSet r => some (r, 0x1, 0x6, true)
  | .sysHoldList r => some (r, 0x1, 0x7, true)
  | .sysHoldRelease r => some (r, 0x1, 0x8, true)
  | .sysUnitQuery r => some (r, 0x1, 0x9, false)
  | .sysUnitCmd r => some (r, 0x1, 0xA, true)
  | .sysJobStatus r => some (r, 0x1, 0xB, false)
  | .sysPing r => some (r, 0x1, 0xC, false)
  | .logInfo r => some (r, 0x11, 0x0, false)
  | .logSubscribe r => some (r, 0x11, 0x1, false)
  | .logUnsubscribe r => some (r, 0x11, 0x2, false)
  | .logRead r => some (r, 0x11, 0x3, false)
  | .logNvmRead r => some (r, 0x11, 0x4, true)
  | .logMark r => some (r, 0x11, 0x5, false)
  | .logStats r => some (r, 0x11, 0x6, false)
  | .updateInfo r => some (r, 0xF, 0x0, false)
  | .updateBegin r => some (r, 0xF, 0x1, true)
  | .updateWrite r => some (r, 0xF, 0x2, true)
  | .updateVerify r => some (r, 0xF, 0x3, true)
  | .updateActivate r => some (r, 0xF, 0x4, true)
  | .updateConfirm r => some (r, 0xF, 0x5, true)
  | .updateAbort r => some (r, 0xF, 0x6, true)
  | .updateRestart r => some (r, 0xF, 0x7, true)
  | .updateSvnAdvance r => some (r, 0xF, 0x8, true)
  | .updateKeyAdd r => some (r, 0xF, 0x9, true)
  | .updateRevoke r => some (r, 0xF, 0xA, true)
  | .attestInfo r => some (r, 0x10, 0x0, false)
  | .attestReport r => some (r, 0x10, 0x1, false)
  | .attestCert r => some (r, 0x10, 0x2, false)
  | .attestDebugChallenge r => some (r, 0x10, 0x3, true)
  | .attestDebugUnlock r => some (r, 0x10, 0x4, true)
  | .ingestInfo r => some (r, 0x3, 0x0, false)
  | .ingestLinkSet r => some (r, 0x3, 0x1, true)
  | .ingestLinkOff r => some (r, 0x3, 0x2, true)
  | .ingestSourceSet r => some (r, 0x3, 0x3, true)
  | .ingestCameraSet r => some (r, 0x3, 0x4, true)
  | .ingestCameraStart r => some (r, 0x3, 0x5, true)
  | .ingestCameraStop r => some (r, 0x3, 0x6, true)
  | .ingestFrameInfo r => some (r, 0x3, 0x7, false)
  | .ingestHeadWrite r => some (r, 0x3, 0x8, true)
  | .ingestHeadRead r => some (r, 0x3, 0x9, true)
  | .ingestHeadTrigger r => some (r, 0x3, 0xA, true)
  | .ingestStats r => some (r, 0x3, 0xB, false)
  | .pipeInfo r => some (r, 0x4, 0x0, false)
  | .pipeSensorSet r => some (r, 0x4, 0x1, true)
  | .pipeMosaicSet r => some (r, 0x4, 0x2, true)
  | .pipeDefectLoad r => some (r, 0x4, 0x3, true)
  | .pipeFlatLoad r => some (r, 0x4, 0x4, true)
  | .pipeSpectralLoad r => some (r, 0x4, 0x5, true)
  | .pipeMatrixLoad r => some (r, 0x4, 0x6, true)
  | .pipeIrSet r => some (r, 0x4, 0x7, true)
  | .pipeCommit r => some (r, 0x4, 0x8, true)
  | .pipeDiscard r => some (r, 0x4, 0x9, true)
  | .pipeTableInfo r => some (r, 0x4, 0xA, false)
  | .pipeTileStats r => some (r, 0x4, 0xB, false)
  | .colourInfo r => some (r, 0x5, 0x0, false)
  | .colourOtSet r => some (r, 0x5, 0x1, true)
  | .colourShaperLoad r => some (r, 0x5, 0x2, true)
  | .colourLutLoad r => some (r, 0x5, 0x3, true)
  | .colourTnrSet r => some (r, 0x5, 0x4, true)
  | .colourStatSet r => some (r, 0x5, 0x5, true)
  | .colourFrameSet r => some (r, 0x5, 0x6, true)
  | .colourAutoSet r => some (r, 0x5, 0x7, true)
  | .colourStats r => some (r, 0x5, 0x8, false)
  | .colourQuery r => some (r, 0x5, 0x9, false)
  | .colourTileStats r => some (r, 0x5, 0xA, false)
  | .outInfo r => some (r, 0x6, 0x0, false)
  | .outCameraAlloc r => some (r, 0x6, 0x1, true)
  | .outCameraFree r => some (r, 0x6, 0x2, true)
  | .outPoolSet r => some (r, 0x6, 0x3, true)
  | .outStreamSet r => some (r, 0x6, 0x4, true)
  | .outStreamStart r => some (r, 0x6, 0x5, true)
  | .outStreamStop r => some (r, 0x6, 0x6, true)
  | .outCoefLoad r => some (r, 0x6, 0x7, true)
  | .outAlignSet r => some (r, 0x6, 0x8, true)
  | .outAlignJoin r => some (r, 0x6, 0x9, true)
  | .outCompatSet r => some (r, 0x6, 0xA, true)
  | .outRotate r => some (r, 0x6, 0xB, true)
  | .outStreamInfo r => some (r, 0x6, 0xC, false)
  | .outStats r => some (r, 0x6, 0xD, false)
  | .codecInfo r => some (r, 0x7, 0x0, false)
  | .codecStreamSet r => some (r, 0x7, 0x1, true)
  | .codecStreamStart r => some (r, 0x7, 0x2, true)
  | .codecStreamStop r => some (r, 0x7, 0x3, true)
  | .codecStreamInfo r => some (r, 0x7, 0x4, false)
  | .codecDecode r => some (r, 0x7, 0x5, true)
  | .codecCtxSave r => some (r, 0x7, 0x6, true)
  | .codecCtxLoad r => some (r, 0x7, 0x7, true)
  | .codecMove r => some (r, 0x7, 0x8, true)
  | .codecKey r => some (r, 0x7, 0x9, true)
  | .codecEngineStats r => some (r, 0x7, 0xA, false)
  | .mediaInfo r => some (r, 0x8, 0x0, false)
  | .mediaPortSet r => some (r, 0x8, 0x1, true)
  | .mediaPackInfo r => some (r, 0x8, 0x2, false)
  | .mediaConfigSet r => some (r, 0x8, 0x3, true)
  | .mediaQpCreate r => some (r, 0x8, 0x4, true)
  | .mediaQpDelete r => some (r, 0x8, 0x5, true)
  | .mediaNsCreate r => some (r, 0x8, 0x6, true)
  | .mediaNsDelete r => some (r, 0x8, 0x7, true)
  | .mediaVolumeFormat r => some (r, 0x8, 0x8, true)
  | .mediaVolumeMount r _ => some (r, 0x8, 0x9, true)
  | .mediaVolumeUnmount r => some (r, 0x8, 0xA, true)
  | .mediaRecordStart r => some (r, 0x8, 0xB, true)
  | .mediaRecordStop r => some (r, 0x8, 0xC, true)
  | .mediaClipList r => some (r, 0x8, 0xD, false)
  | .mediaClipInfo r _ => some (r, 0x8, 0xE, false)
  | .mediaClipMap r => some (r, 0x8, 0xF, false)
  | .mediaClipDelete r => some (r, 0x8, 0x10, true)
  | .mediaBurstArm r => some (r, 0x8, 0x11, true)
  | .mediaBurstTrigger r => some (r, 0x8, 0x12, true)
  | .mediaBurstDisarm r => some (r, 0x8, 0x13, true)
  | .mediaOffload r _ => some (r, 0x8, 0x14, true)
  | .mediaMark r => some (r, 0x8, 0x15, true)
  | .mediaStats r => some (r, 0x8, 0x16, false)
  | .sessionInfo r => some (r, 0x2, 0x0, false)
  | .sessionSave r => some (r, 0x2, 0x1, true)
  | .sessionLoad r _ => some (r, 0x2, 0x2, true)
  | .sessionStandby r => some (r, 0x2, 0x3, true)
  | .sessionResume r => some (r, 0x2, 0x4, true)
  | .scanInfo r => some (r, 0x9, 0x0, false)
  | .scanTimingSet r => some (r, 0x9, 0x1, true)
  | .scanOutputSet r => some (r, 0x9, 0x2, true)
  | .scanBaseBind r => some (r, 0x9, 0x3, true)
  | .scanLayerBind r => some (r, 0x9, 0x4, false)
  | .scanLayerUnbind r => some (r, 0x9, 0x5, false)
  | .scanLayerSet r => some (r, 0x9, 0x6, false)
  | .scanPaletteSet r => some (r, 0x9, 0x7, false)
  | .scanSinkInfo r => some (r, 0x9, 0x8, false)
  | .scanStats r => some (r, 0x9, 0x9, false)
  | .audioInfo r => some (r, 0xA, 0x0, false)
  | .audioPortSet r => some (r, 0xA, 0x1, true)
  | .audioStart r => some (r, 0xA, 0x2, true)
  | .audioStop r => some (r, 0xA, 0x3, true)
  | .audioMute r => some (r, 0xA, 0x4, true)
  | .audioStatus r => some (r, 0xA, 0x5, false)
  | .audioStats r => some (r, 0xA, 0x6, true)
  | .timeInfo r => some (r, 0xB, 0x0, false)
  | .timeNow r => some (r, 0xB, 0x1, false)
  | .timeSelect r => some (r, 0xB, 0x2, true)
  | .timeFrameSet r => some (r, 0xB, 0x3, true)
  | .timeEthBind r => some (r, 0xB, 0x4, true)
  | .timeEthUnbind r => some (r, 0xB, 0x5, true)
  | .timeActionArm r => some (r, 0xB, 0x6, true)
  | .timeActionCancel r => some (r, 0xB, 0x7, true)
  | .timeTrigInSet r => some (r, 0xB, 0x8, true)
  | .timeStats r => some (r, 0xB, 0x9, false)
  | .twinInfo r => some (r, 0xC, 0x0, false)
  | .twinModeSet r => some (r, 0xC, 0x1, true)
  | .twinAttach r => some (r, 0xC, 0x2, true)
  | .twinDetach r => some (r, 0xC, 0x3, true)
  | .twinHandover r => some (r, 0xC, 0x4, true)
  | .twinStatus r => some (r, 0xC, 0x5, false)
  | .chainInfo r => some (r, 0xD, 0x0, false)
  | .chainJoin r => some (r, 0xD, 0x1, true)
  | .chainLeave r => some (r, 0xD, 0x2, true)
  | .chainRouteSet r => some (r, 0xD, 0x3, true)
  | .chainAction r => some (r, 0xD, 0x4, true)
  | .chainSend r => some (r, 0xD, 0x5, true)
  | .chainTopo r => some (r, 0xD, 0x6, false)
  | .healthInfo r => some (r, 0xE, 0x0, false)
  | .healthTemp r _ => some (r, 0xE, 0x1, false)
  | .healthThermAck r => some (r, 0xE, 0x2, true)
  | .healthSensorClear r => some (r, 0xE, 0x3, true)
  | .healthSelftest r => some (r, 0xE, 0x4, true)
  | .healthTestInfo r => some (r, 0xE, 0x5, false)
  | .healthRollSet r => some (r, 0xE, 0x6, true)
  | .healthRollNow r => some (r, 0xE, 0x7, true)
  | .healthUnitList r => some (r, 0xE, 0x8, false)
  | .healthEqStats r => some (r, 0xE, 0x9, false)
  | _ => none

/-- The master that an access command comes from (R74); none for a command that is no access. -/
def busMaster : Instr → Option Nat
  | .ucbWake m _ => some m
  | .ucbDrain m _ => some m
  | .ucbSleep m _ => some m
  | .ucbOff m _ => some m
  | .ucbReload m _ => some m
  | .ucbPaceMinRead m _ => some m
  | .ucbEventRead m _ => some m
  | .actLevelSet m _ _ => some m
  | .bankCeilWrite m _ => some m
  | .bankReserveWrite m _ => some m
  | .bankVoltReq m _ => some m
  | .bankOvrRead m => some m
  | .bankPeakRead m => some m
  | .regWrite m _ _ _ _ => some m
  | .bitAliasWrite m _ _ _ _ => some m
  | .counter64LowRead m _ => some m
  | .lockCtlGo m _ => some m
  | .lockCtlGlobal m _ => some m
  | .privVfWrite m _ _ => some m
  | .holdScanRead m => some m
  | .holdReleaseWrite m _ => some m
  | .accLogRead m => some m
  | .parLogRead m => some m
  | .bar1Access m _ _ _ _ _ _ _ => some m
  | .dbTailWrite m _ _ _ _ _ => some m
  | .dbPush m _ _ _ => some m
  | .dbStart m _ => some m
  | .dbStop m _ => some m
  | .dbReset m _ => some m
  | .qfRead m _ => some m
  | .qfCreate m _ => some m
  | .qfDestroy m _ => some m
  | .qfRetarget m _ => some m
  | .qfStart m _ => some m
  | .qfStop m _ => some m
  | .qfReset m _ => some m
  | .qfOpUnused m _ => some m
  | .qfRoleRead m => some m
  | .mbBootGo m _ => some m
  | .bootHostGo m _ _ => some m
  | .quadCfgWrite m _ _ => some m
  | .lnkMapWrite m _ _ => some m
  | .lnCtlRetrain m _ => some m
  | .lnCtlFull m _ => some m
  | .lnkStatRead m _ => some m
  | .lnCounterRead m _ _ => some m
  | .camEnable m _ _ => some m
  | .camDisable m _ _ => some m
  | .dfStatRead m _ => some m
  | .srcStatRead m _ _ => some m
  | .camFlagsRead m _ _ => some m
  | .pxCounterRead m _ _ => some m
  | .clCounterRead m _ _ => some m
  | .outCounterRead m _ _ => some m
  | .psCounterRead m _ _ => some m
  | .mqCqhWrite m _ _ => some m
  | .mpCntRead m _ => some m
  | .cvuCtlWrite m _ _ => some m
  | .cvuCounterRead m _ _ => some m
  | .rcMismRead m _ => some m
  | .rgnRead m _ => some m
  | .rgnWrite m _ => some m
  | .rgnClear m _ => some m
  | .rgnOpUnused m _ => some m
  | .pcTrGo m _ _ _ => some m
  | .pcCounterRead m _ _ => some m
  | .scTimGo m _ => some m
  | .scanCounterRead m _ _ => some m
  | .auCntRead m _ => some m
  | .dIncWrite m _ _ => some m
  | .dSetGo m _ _ => some m
  | .dAdjGo m _ _ => some m
  | .tmSnap m _ => some m
  | .tmSwitch m _ => some m
  | .tmSwitchForce m _ => some m
  | .timeCounterRead m _ _ => some m
  | .twCntRead m => some m
  | .chCntRead m => some m
  | .thSampleWrite m _ _ => some m
  | .ozEccRead m => some m
  | _ => none

/-- The machine's invariant. -/
def State.inv (s : State) : Prop := s.nv.wf = true

end Sys2Proof.Machine
end

