-- ==== Sys2Proof/Certificates/Slice0/Obligations.lean ====
section
/-! DEFINITION. The statements for the provers. `Makes`, `Answers`, `Writes`, `ReadsAndClears`, `Completes` and `Stores` stand in
Safety.lean. -/

open Sys2Proof Sys2Proof.Machine


/-- A step takes the command at the front of the queue and answers what exec answers for it on the rest. -/
def Obligations.StepRunsFrontCommand : Prop :=
  ∀ (c : Instr) (s : State), step { s with pending := c :: s.pending } = exec c s

/-- On an empty queue a step is one tick of the block's 4 ns clock: both time domains and device time advance, survivors and the queue
stay (the model's choice, log entry 6: the table has no row for a tick). -/
def Obligations.IdleStepTicks : Prop :=
  ∀ s : State, s.pending = [] → step s = .next { s with dev := s.dev.tick } ∧ s.dev.tick.up = s.dev.up + 4 ∧
    s.dev.tick.tm.c0 = s.dev.tm.c0.tick ∧ s.dev.tick.tm.c1 = s.dev.tm.c1.tick

/-- The state after reset meets the invariant. -/
def Obligations.ResetMeetsInvariant : Prop :=
  State.reset.inv

/-- Every step keeps what survives RST_N in canonical form: no erased flash byte listed, NVM records below slot 512 in rising order, four
key slots of each algorithm. -/
def Obligations.StepKeepsCanonicalForms : Prop :=
  ∀ s t : State, s.inv → step s = .next t → t.inv

/-- No step takes a fuse back: a programmed key hash and a revocation stay, the security version never falls, the serial number stands
(R175: no fuse bit ever returns from blown to unblown). -/
def Obligations.StepOnlyBlowsFuses : Prop :=
  ∀ s t : State, step s = .next t → s.nv.fusesLe t.nv

/-- Every command completes in every state, but for an access by a master ID that R74 never issues, which faults by name. -/
def Obligations.CommandsStopOnlyOnUnissuedMasters : Prop :=
  ∀ (c : Instr) (s : State),
    match busMaster c with
    | none => ∃ t, exec c s = .next t ∧ t.pending = s.pending
    | some m => (issued m = true → ∃ t, exec c s = .next t ∧ t.pending = s.pending) ∧
        (issued m = false → exec c s = .fault (.neverIssued m))

/-- What a command does never depends on the commands that wait behind it. -/
def Obligations.CommandsIgnoreTheQueue : Prop :=
  ∀ (c : Instr) (s : State) (q : List Instr),
    exec c { s with pending := q } = match exec c s with
      | .next t => .next { t with pending := q }
      | .fault e => .fault e
      | .refused e => .refused e

/-- SYS and LOG: a request firmware takes up (R146) is settled by its own verb: its results, its job or the error it names, each as the
verb's rule gives it; the reply is posted, and nothing else happens. -/
def Obligations.SystemAndLogRequests : Prop :=
  (∀ (d : Dev) (r : Req), Answers (.sysInfo r) d r 0x1 0x0 false (.ok d (d.sysInfo r.master))) ∧
  (∀ (d : Dev) (r : Req), Answers (.sysOpen r) d r 0x1 0x1 false (d.sysOpen r)) ∧
  (∀ (d : Dev) (r : Req), Answers (.sysClose r) d r 0x1 0x2 false (d.sysClose r)) ∧
  (∀ (d : Dev) (r : Req), Answers (.sysQueueCreate r) d r 0x1 0x3 false (d.sysQueueCreate r)) ∧
  (∀ (d : Dev) (r : Req), Answers (.sysQueueDestroy r) d r 0x1 0x4 false (d.sysQueueDestroy r)) ∧
  (∀ (d : Dev) (r : Req), r.master = 0 → Answers (.sysPrivSet r) d r 0x1 0x5 true (d.sysPrivSet r)) ∧
  (∀ (d : Dev) (r : Req), r.master ≠ 0 → d.Accepts r 0x1 0x5 false → Makes (.sysPrivSet r) d (d.replyErr r 0x1 0x5 0x0405 0xFFFF)) ∧
  (∀ (d : Dev) (r : Req), Answers (.sysBankSet r) d r 0x1 0x6 true (d.sysBankSet r)) ∧
  (∀ (d : Dev) (r : Req),
    Answers (.sysHoldList r) d r 0x1 0x7 true (.ok d [d.fab.holds.length] (d.fab.holds.map Hold.enc).flatten)) ∧
  (∀ (d : Dev) (r : Req), Answers (.sysHoldRelease r) d r 0x1 0x8 true (d.sysHoldRelease r)) ∧
  (∀ (d : Dev) (r : Req), Answers (.sysUnitQuery r) d r 0x1 0x9 false (d.sysUnitQuery r)) ∧
  (∀ (d : Dev) (r : Req), Answers (.sysUnitCmd r) d r 0x1 0xA true (d.sysUnitCmd r)) ∧
  (∀ (d : Dev) (r : Req), Answers (.sysJobStatus r) d r 0x1 0xB false (.ok d (d.jobStatus r.master r.a0))) ∧
  (∀ (d : Dev) (r : Req), Answers (.sysPing r) d r 0x1 0xC false (.ok d [r.a0, r.a1, r.a2, r.a3])) ∧
  (∀ (d : Dev) (r : Req), Answers (.logInfo r) d r 0x11 0x0 false (.ok d [d.logOldest, d.logNewest, d.oz.lost])) ∧
  (∀ (d : Dev) (r : Req), Answers (.logSubscribe r) d r 0x11 0x1 false (d.logSubscribe r)) ∧
  (∀ (d : Dev) (r : Req), Answers (.logUnsubscribe r) d r 0x11 0x2 false (.ok (d.setSubs r.qid []))) ∧
  (∀ (d : Dev) (r : Req), Answers (.logRead r) d r 0x11 0x3 false (d.logRead r)) ∧
  (∀ (d : Dev) (r : Req), Answers (.logMark r) d r 0x11 0x5 false (d.logMark r)) ∧
  (∀ (d : Dev) (r : Req),
    Answers (.logStats r) d r 0x11 0x6 false (.ok d [] (d.oz.stats.map fun p => leBytes 4 p.1 ++ leBytes 4 p.2).flatten))

/-- UPDATE, ATTEST and LOG.NVM_READ: a request firmware takes up (R146) is settled by its own verb: its results, its job or the error it names, each as the
verb's rule gives it; the reply is posted, and nothing else happens. -/
def Obligations.UpdateAndAttestRequests : Prop :=
  (∀ (nv : Nv) (d : Dev) (r : Req), AnswersBoth (.logNvmRead r) nv d r 0x11 0x4 true (logNvmRead nv d r)) ∧
  (∀ (nv : Nv) (d : Dev) (r : Req),
    AnswersBoth (.updateInfo r) nv d r 0xF 0x0 false
      (.ok (nv, d) [1, (d.rd .bootBanks uBoot).toNat, d.imgSvn * 256 + nv.svn, d.inactive])) ∧
  (∀ (nv : Nv) (d : Dev) (r : Req),
    AnswersBoth (.updateBegin r) nv d r 0xF 0x1 true (if d.tw.handing || d.tw.attaching then .err 0x0408 else updBegin r nv d)) ∧
  (∀ (nv : Nv) (d : Dev) (r : Req),
    AnswersBoth (.updateWrite r) nv d r 0xF 0x2 true (if d.tw.handing || d.tw.attaching then .err 0x0408 else updWrite r nv d)) ∧
  (∀ (nv : Nv) (d : Dev) (r : Req),
    AnswersBoth (.updateVerify r) nv d r 0xF 0x3 true
      (if d.tw.handing || d.tw.attaching then .err 0x0408 else updVerify r nv d)) ∧
  (∀ (nv : Nv) (d : Dev) (r : Req),
    AnswersBoth (.updateActivate r) nv d r 0xF 0x4 true
      (if d.tw.handing || d.tw.attaching then .err 0x0408 else updActivate r nv d)) ∧
  (∀ (nv : Nv) (d : Dev) (r : Req),
    AnswersBoth (.updateConfirm r) nv d r 0xF 0x5 true
      (if d.tw.handing || d.tw.attaching then .err 0x0408 else updConfirm nv d)) ∧
  (∀ (nv : Nv) (d : Dev) (r : Req),
    AnswersBoth (.updateAbort r) nv d r 0xF 0x6 true (if d.tw.handing || d.tw.attaching then .err 0x0408 else updAbort r nv d)) ∧
  (∀ (nv : Nv) (d : Dev) (r : Req),
    AnswersBoth (.updateRestart r) nv d r 0xF 0x7 true
      (if d.tw.handing || d.tw.attaching then .err 0x0408 else updRestart r nv d)) ∧
  (∀ (nv : Nv) (d : Dev) (r : Req),
    AnswersBoth (.updateSvnAdvance r) nv d r 0xF 0x8 true
      (if d.tw.handing || d.tw.attaching then .err 0x0408 else updSvn r nv d)) ∧
  (∀ (nv : Nv) (d : Dev) (r : Req),
    AnswersBoth (.updateKeyAdd r) nv d r 0xF 0x9 true
      (if d.tw.handing || d.tw.attaching then .err 0x0408 else updKeyAdd r nv d)) ∧
  (∀ (nv : Nv) (d : Dev) (r : Req),
    AnswersBoth (.updateRevoke r) nv d r 0xF 0xA true
      (if d.tw.handing || d.tw.attaching then .err 0x0408 else updRevoke r nv d)) ∧
  (∀ (nv : Nv) (d : Dev) (r : Req),
    AnswersBoth (.attestInfo r) nv d r 0x10 0x0 false (.ok (nv, d) [1, nv.serial % 2 ^ 32, nv.serial / 2 ^ 32, 3629])) ∧
  (∀ (nv : Nv) (d : Dev) (r : Req), AnswersBoth (.attestReport r) nv d r 0x10 0x1 false (attReport r nv d)) ∧
  (∀ (nv : Nv) (d : Dev) (r : Req),
    AnswersBoth (.attestCert r) nv d r 0x10 0x2 false
      (if 3 < r.a0 then .err 0x0404 (offArg 0) else .ok (nv, d) [] (Config.certificate r.a0))) ∧
  (∀ (nv : Nv) (d : Dev) (r : Req), AnswersBoth (.attestDebugChallenge r) nv d r 0x10 0x3 true (attChallenge r nv d)) ∧
  (∀ (nv : Nv) (d : Dev) (r : Req), AnswersBoth (.attestDebugUnlock r) nv d r 0x10 0x4 true (attUnlock r nv d))

/-- INGEST: a request firmware takes up (R146) is settled by its own verb: its results, its job or the error it names, each as the
verb's rule gives it; the reply is posted, and nothing else happens. -/
def Obligations.IngestRequests : Prop :=
  (∀ (d : Dev) (r : Req), Answers (.ingestInfo r) d r 0x3 0x0 false (
      .ok d [1, bitmap 8 (fun n => decide (d.lstate n = 4)), bitmap 16 d.camRun,
             ((List.range 16).find? fun c => d.camRun c && decide (d.camF F.camCfg_inline c = 1)).getD 0xFF])) ∧
  (∀ (d : Dev) (r : Req), Answers (.ingestLinkSet r) d r 0x3 0x1 true (d.ingLinkSet r)) ∧
  (∀ (d : Dev) (r : Req), Answers (.ingestLinkOff r) d r 0x3 0x2 true (
      if 7 < r.object then .err 0x0404
      else if d.linkBusy r.object then .err 0x0408
      else .ok ((d.effLnkMap r.master r.object (setF (d.rd .lnkMap uLanes r.object) 31 31 0)).dfOn r.object false))) ∧
  (∀ (d : Dev) (r : Req), Answers (.ingestSourceSet r) d r 0x3 0x3 true (d.ingSourceSet r)) ∧
  (∀ (d : Dev) (r : Req), Answers (.ingestCameraSet r) d r 0x3 0x4 true (d.ingCameraSet r)) ∧
  (∀ (d : Dev) (r : Req), Answers (.ingestCameraStart r) d r 0x3 0x5 true (d.ingCameraStart r)) ∧
  (∀ (d : Dev) (r : Req), Answers (.ingestCameraStop r) d r 0x3 0x6 true (
      if 15 < r.object then .err 0x0404
      else if d.camF F.camCfg_en r.object = 0 then .err 0x0408
      else
        let d := d.camStop r.object
        .job ((List.range 8).foldl (fun e l => e.revokeRgn (0x80 + l) (d.camBase r.object)) d))) ∧
  (∀ (d : Dev) (r : Req), Answers (.ingestFrameInfo r) d r 0x3 0x7 false (d.ingFrameInfo r)) ∧
  (∀ (d : Dev) (r : Req), Answers (.ingestHeadWrite r) d r 0x3 0x8 true (d.headXfer r true r.argLen (d.argB r))) ∧
  (∀ (d : Dev) (r : Req),
    Answers (.ingestHeadRead r) d r 0x3 0x9 true
      (if r.replyMax < r.a1 then .err 0x040D else d.headXfer r false r.a1 (leBytes 4 r.a1))) ∧
  (∀ (d : Dev) (r : Req), Answers (.ingestHeadTrigger r) d r 0x3 0xA true (
      let link := r.object / 16
      if 127 < r.object ∨ (r.a1 = 1 ∧ r.object % 16 ≠ 15) then .err 0x0404
      else if 1 < r.a1 then .err 0x0404 (offArg 1)
      else if !d.fb F.dfCtl_bcEn (uDeframer link) then .err 0x0408
      else .ok (d.sendTrigger link (r.object % 16) (decide (r.a1 = 1)) r.a0 d.stamp) [d.stamp % 2 ^ 32, d.stamp / 2 ^ 32])) ∧
  (∀ (d : Dev) (r : Req), Answers (.ingestStats r) d r 0x3 0xB false (d.ingStats r))

/-- PIPE and COLOUR: a request firmware takes up (R146) is settled by its own verb: its results, its job or the error it names, each as the
verb's rule gives it; the reply is posted, and nothing else happens. -/
def Obligations.PipeAndColourRequests : Prop :=
  (∀ (d : Dev) (r : Req), Answers (.pipeInfo r) d r 0x4 0x0 false (
      .ok d [1, tileCount fun u => decide (d.own u = stReady) || decide (d.own u = stActive), tileCount fun u => decide (d.own u = stUnusable),
             tileCount fun u => d.inRole (· == .spare) u])) ∧
  (∀ (d : Dev) (r : Req), Answers (.pipeSensorSet r) d r 0x4 0x1 true (d.onCam r fun c => d.pipeSensorSet r c)) ∧
  (∀ (d : Dev) (r : Req), Answers (.pipeMosaicSet r) d r 0x4 0x2 true (d.onCam r fun c => d.pipeMosaicSet r c)) ∧
  (∀ (d : Dev) (r : Req), Answers (.pipeDefectLoad r) d r 0x4 0x3 true (d.onCam r fun c => d.pipeDefectLoad r c)) ∧
  (∀ (d : Dev) (r : Req), Answers (.pipeFlatLoad r) d r 0x4 0x4 true (d.onCam r fun c => d.pipeFlatLoad r c)) ∧
  (∀ (d : Dev) (r : Req), Answers (.pipeSpectralLoad r) d r 0x4 0x5 true (d.onCam r fun c => d.pipeSpectralLoad r c)) ∧
  (∀ (d : Dev) (r : Req), Answers (.pipeMatrixLoad r) d r 0x4 0x6 true (d.onCam r fun c => d.pipeMatrixLoad r c)) ∧
  (∀ (d : Dev) (r : Req), Answers (.pipeIrSet r) d r 0x4 0x7 true (d.onCam r fun c => d.pipeIrSet r c)) ∧
  (∀ (d : Dev) (r : Req), Answers (.pipeCommit r) d r 0x4 0x8 true (d.onCam r fun c => d.pipeCommit c)) ∧
  (∀ (d : Dev) (r : Req), Answers (.pipeDiscard r) d r 0x4 0x9 true (
      d.onCam r fun c =>
        .ok ((d.setPcam c { d.pcam c with pending := none }).fs F.pipeGen_pending 0 uPipe c))) ∧
  (∀ (d : Dev) (r : Req), Answers (.pipeTableInfo r) d r 0x4 0xA false (d.onCam r fun c => .ok d [] (d.tableInfo c))) ∧
  (∀ (d : Dev) (r : Req), Answers (.pipeTileStats r) d r 0x4 0xB false (
      d.tileStats r [.pxDef, .pxSat, .pxEcc, .pxGen]
        [F.pxDef_corrected, F.pxDef_unfixed, F.pxSat_sat, F.pxEcc_range, F.pxEcc_ce])) ∧
  (∀ (d : Dev) (r : Req), Answers (.colourInfo r) d r 0x5 0x0 false (.ok d [1, 4, 2, 0x1F])) ∧
  (∀ (d : Dev) (r : Req), Answers (.colourOtSet r) d r 0x5 0x1 true (d.onCam r fun c => d.colourOtSet r c)) ∧
  (∀ (d : Dev) (r : Req), Answers (.colourShaperLoad r) d r 0x5 0x2 true (d.onCam r fun c => d.colourShaperLoad r c)) ∧
  (∀ (d : Dev) (r : Req), Answers (.colourLutLoad r) d r 0x5 0x3 true (d.onCam r fun c => d.colourLutLoad r c)) ∧
  (∀ (d : Dev) (r : Req), Answers (.colourTnrSet r) d r 0x5 0x4 true (d.onCam r fun c => d.colourTnrSet r c)) ∧
  (∀ (d : Dev) (r : Req), Answers (.colourStatSet r) d r 0x5 0x5 true (
      d.onCam r fun c =>
        if f32Special r.a0 ∨ ((f32Of r.a0).neg ∧ !(f32Of r.a0).isZero) then .err 0x0404 (offArg 0)
        else if f32Special r.a1 ∨ !((f32Of r.a0).lt (f32Of r.a1)) then .err 0x0404 (offArg 1)
        else
          let t := d.pend c
          .ok (d.setPend c { t with statLo := r.a0, statHi := r.a1 }))) ∧
  (∀ (d : Dev) (r : Req), Answers (.colourFrameSet r) d r 0x5 0x6 true (d.onCam r fun c => d.colourFrameSet r c)) ∧
  (∀ (d : Dev) (r : Req), Answers (.colourAutoSet r) d r 0x5 0x7 true (
      d.onCam r fun c =>
        let lo := Fl.ofScaled 1 16
        let hi := Fl.ofNat 65536
        let t := if r.a1 = 0 then 0x3E3851EC else r.a1
        if 3 < r.a0 then .err 0x0404 (offArg 0)
        else if f32Neg t then .err 0x0404 (offArg 1)
        else if r.a0.testBit 1 ∧ f32Out r.a2 lo hi then .err 0x0404 (offArg 2)
        else if r.a0.testBit 1 ∧ (f32Out r.a3 lo hi ∨ (f32Of r.a3).lt (f32Of r.a2)) then .err 0x0404 (offArg 3)
        else .ok (d.setPcam c { d.pcam c with autoMask := r.a0, target := t, expMin := r.a2, expMax := r.a3 }))) ∧
  (∀ (d : Dev) (r : Req), Answers (.colourStats r) d r 0x5 0x8 false (
      camOnly r fun c =>
        match if r.a0 = 0xFFFFFFFF then d.lastStat c else some r.a0 with
        | none => .err 0x0404 (offArg 0)
        | some n =>
          match d.statOf c n with
          | none => .err 0x0404 (offArg 0)
          | some a =>
            .ok d [] (leBytes 4 a.count ++ leBytes 4 a.sat ++ (a.w.flatMap fun v => leBytes 8 (f64Bits v)) ++ leBytes 8 (f64Bits a.y)))) ∧
  (∀ (d : Dev) (r : Req), Answers (.colourQuery r) d r 0x5 0x9 false (
      camOnly r fun c =>
        let p := d.pcam c
        let ots := fun (t : TabGen) => (List.range 4).flatMap fun k => fitB (t.ot k).desc 64
        let pend := match p.pending with
          | some t => ots t
          | none => []
        .ok d [] (fitB (ots p.committed ++ pend ++ p.curSet.enc 0x3F) 512))) ∧
  (∀ (d : Dev) (r : Req), Answers (.colourTileStats r) d r 0x5 0xA false (
      d.tileStats r [.clParam, .clTnr, .clClip, .clEcc]
        [F.clTnr_resets, F.clTnr_waits, F.clClip_shpClip, F.clClip_lutClip, F.clEcc_ce]))

/-- OUT and CODEC: a request firmware takes up (R146) is settled by its own verb: its results, its job or the error it names, each as the
verb's rule gives it; the reply is posted, and nothing else happens. -/
def Obligations.OutputAndCodecRequests : Prop :=
  (∀ (d : Dev) (r : Req),
    Answers (.outInfo r) d r 0x6 0x0 false
      (.ok d [1, (d.rd .outPool uPipe).toNat, bitmap 8 d.strRun, bitmap 4 fun g => d.fb F.algCfg_en uPipe g])) ∧
  (∀ (d : Dev) (r : Req), Answers (.outCameraAlloc r) d r 0x6 0x1 true (d.outCameraAlloc r)) ∧
  (∀ (d : Dev) (r : Req), Answers (.outCameraFree r) d r 0x6 0x2 true (
      if 15 < r.object then .err 0x0404
      else if d.camRun r.object ∨ d.camStreams r.object then .err 0x0408
      else .ok (((d.freeAlloc r.object).freeArea (tagOf 11 r.object)).freeArea (tagOf 12 r.object)))) ∧
  (∀ (d : Dev) (r : Req), Answers (.outPoolSet r) d r 0x6 0x3 true (d.outPoolSet r)) ∧
  (∀ (d : Dev) (r : Req), Answers (.outStreamSet r) d r 0x6 0x4 true (d.outStreamSet r)) ∧
  (∀ (d : Dev) (r : Req), Answers (.outStreamStart r) d r 0x6 0x5 true (d.outStreamStart r)) ∧
  (∀ (d : Dev) (r : Req), Answers (.outStreamStop r) d r 0x6 0x6 true (
      if 7 < r.object then .err 0x0404
      else if !d.strRun r.object ∨ d.isReference r.object then .err 0x0408
      else .job (d.modStr r.object fun t => { t with stopping := true }).settleStops)) ∧
  (∀ (d : Dev) (r : Req), Answers (.outCoefLoad r) d r 0x6 0x7 true (d.outCoefLoad r)) ∧
  (∀ (d : Dev) (r : Req), Answers (.outAlignSet r) d r 0x6 0x8 true (d.outAlignSet r)) ∧
  (∀ (d : Dev) (r : Req), Answers (.outAlignJoin r) d r 0x6 0x9 true (
      if 3 < r.object then .err 0x0404
      else if 7 < r.a0 then .err 0x0404 (offArg 0)
      else if (d.str r.a0).dropped ≠ some r.object ∨ !d.fb F.algCfg_en uPipe r.object ∨ !d.strRun r.a0 then .err 0x0408
      else
        let n := d.nextFrame (d.algF F.algCfg_refCam r.object)
        .ok (d.modStr r.a0 fun t => { t with joinAt := some n }) [n])) ∧
  (∀ (d : Dev) (r : Req), Answers (.outCompatSet r) d r 0x6 0xA true (d.outCompatSet r)) ∧
  (∀ (d : Dev) (r : Req), Answers (.outRotate r) d r 0x6 0xB true (d.outRotate r)) ∧
  (∀ (d : Dev) (r : Req), Answers (.outStreamInfo r) d r 0x6 0xC false (
      let x := r.object
      if 7 < x then .err 0x0404
      else
        let regs : List Reg := [.strCfg, .strCrop0, .strCrop1, .strSize, .strDecim, .strBufq, .strRowb, .strFrame, .strCnt]
        let o := (d.pcam (d.strF F.strCfg_camera x)).committed.ot (d.strF F.strCfg_ot x)
        .ok d [] (fitB ((regs.flatMap fun q => leBytes 4 (d.rd q uPipe x).toNat) ++ leBytes 1 (rdLe o.desc 1 1) ++ leBytes 1 (bit o.full)) 64))) ∧
  (∀ (d : Dev) (r : Req), Answers (.outStats r) d r 0x6 0xD false (
      .ok (((d.fs F.outDisp_redo 0 uPipe).fs F.outDisp_overrun 0 uPipe).fs F.cptSw_switches 0 uPipe)
        [(d.rd .outDisp uPipe).toNat, (d.rd .cptSw uPipe).toNat])) ∧
  (∀ (d : Dev) (r : Req),
    Answers (.codecInfo r) d r 0x7 0x0 false
      (.ok d [1, (activeEngines d).length, (readySpares d).length, bitmap 32 fun n => (d.psStr n).run])) ∧
  (∀ (d : Dev) (r : Req), Answers (.codecStreamSet r) d r 0x7 0x1 true (d.codecStreamSet r)) ∧
  (∀ (d : Dev) (r : Req), Answers (.codecStreamStart r) d r 0x7 0x2 true (d.codecStreamStart r)) ∧
  (∀ (d : Dev) (r : Req), Answers (.codecStreamStop r) d r 0x7 0x3 true (
      if 31 < r.object then .err 0x0404
      else if !(d.psStr r.object).run then .err 0x0408
      else .job ((d.modPs r.object fun x => { x with stopping := true, stopJob := d.oz.nextJob }).psSettle r.object)
        (if (d.psStr r.object).frames.all (!·.hdr) then some 0 else none))) ∧
  (∀ (d : Dev) (r : Req), Answers (.codecStreamInfo r) d r 0x7 0x4 false (
      let st := d.psStr r.object
      if 31 < r.object then .err 0x0404
      else .ok d [] (fitB (fitB st.cfg 32 ++ leBytes 4 (d.rd .cst uCodec r.object).toNat ++
        (st.parts.flatMap fun p => leBytes 1 p.engine ++ leBytes 4 p.seq)) 64))) ∧
  (∀ (d : Dev) (r : Req), Answers (.codecDecode r) d r 0x7 0x5 true (d.codecDecode r)) ∧
  (∀ (d : Dev) (r : Req), Answers (.codecCtxSave r) d r 0x7 0x6 true (
      let addr := r.a0 + r.a1 * 2 ^ 32
      let st := d.psStr r.object
      if 31 < r.object then .err 0x0404
      else if !st.run ∨ st.waiting ∨ st.save.isSome then .err 0x0408
      else if !d.callerMay r.master addr (st.slices * 0x4000) true then .err 0x0404 (offArg 0)
      else
        let e := (d.modPs r.object fun x => { x with save := some (addr, d.oz.nextJob) }).saveNow r.object
        .job e (if (e.psStr r.object).waiting then some 0 else none))) ∧
  (∀ (d : Dev) (r : Req), Answers (.codecCtxLoad r) d r 0x7 0x7 true (d.codecCtxLoad r)) ∧
  (∀ (d : Dev) (r : Req), Answers (.codecMove r) d r 0x7 0x8 true (d.codecMove r)) ∧
  (∀ (d : Dev) (r : Req), Answers (.codecKey r) d r 0x7 0x9 true (
      let st := d.psStr r.object
      if 31 < r.object then .err 0x0404
      else if !st.run then .err 0x0408
      else .ok (d.modPs r.object fun x => { x with keyAt := st.nextFrame :: x.keyAt }) [st.nextFrame])) ∧
  (∀ (d : Dev) (r : Req), Answers (.codecEngineStats r) d r 0x7 0xA false (
      let u := r.object
      if kindOf u ≠ some .engine then .err 0x0404
      else
        let regs : List Reg := [.psBind, .psLoad, .psCnt, .psEcc]
        .ok ([F.psCnt_chunks, F.psCnt_literal, F.psCnt_switches, F.psEcc_ce].foldl (fun (e : Dev) f => e.fs f 0 u) d)
          (regs.map fun q => (d.rd q u).toNat)))

/-- MEDIA: a request firmware takes up (R146) is settled by its own verb: its results, its job or the error it names, each as the
verb's rule gives it; the reply is posted, and nothing else happens. -/
def Obligations.MediaRequests : Prop :=
  (∀ (d : Dev) (r : Req), Answers (.mediaInfo r) d r 0x8 0x0 false (
      .ok d [1, (d.rd .mdCfg uMedia).toNat, bitmap 8 fun n => decide (d.pkState n = pkReady),
             (d.md.vol.map fun v => v.ports.foldl (fun a n => a + 2 ^ n) 0).getD 0])) ∧
  (∀ (d : Dev) (r : Req), Answers (.mediaPortSet r) d r 0x8 0x1 true (d.mdPortSet r)) ∧
  (∀ (d : Dev) (r : Req), Answers (.mediaPackInfo r) d r 0x8 0x2 false (
      if 7 < r.object then .err 0x0404
      else if d.pkRole r.object ≠ 1 ∨ (d.pport r.object).ident = [] then .err 0x0408
      else .ok d [] (d.pport r.object).ident)) ∧
  (∀ (d : Dev) (r : Req), Answers (.mediaConfigSet r) d r 0x8 0x3 true (
      if 1 < r.a0 then .err 0x0404 (offArg 0)
      else if d.md.qps ≠ [] ∨ d.md.conns ≠ [] then .err 0x0408
      else .ok (d.fs F.mdCfg_ext r.a0 uMedia))) ∧
  (∀ (d : Dev) (r : Req), Answers (.mediaQpCreate r) d r 0x8 0x4 true (d.mdQpCreate r)) ∧
  (∀ (d : Dev) (r : Req), Answers (.mediaQpDelete r) d r 0x8 0x5 true (
      if (tget d.md.qps r.object).isNone then .err 0x0404
      else
        let e := (d.modQp r.object fun p => { p with closeJob := d.oz.nextJob }).qpSettle r.object
        .job e (if (tget e.md.qps r.object).isNone then some 0 else none))) ∧
  (∀ (d : Dev) (r : Req), Answers (.mediaNsCreate r) d r 0x8 0x6 true (d.mdNsCreate r)) ∧
  (∀ (d : Dev) (r : Req), Answers (.mediaNsDelete r) d r 0x8 0x7 true (
      if (tget d.md.spaces r.object).isNone then .err 0x0404
      else if d.md.cmds.any fun m => decide (m.nsid = r.object) then .err 0x0408
      else .ok (d.modMd fun m => { m with spaces := tdel m.spaces r.object }))) ∧
  (∀ (d : Dev) (r : Req), Answers (.mediaVolumeFormat r) d r 0x8 0x8 true (d.mdFormat r)) ∧
  (∀ (d : Dev) (r : Req) (packs : List (Nat × List (Nat × List Byte))),
    Answers (.mediaVolumeMount r packs) d r 0x8 0x9 true (d.mdMount r packs)) ∧
  (∀ (d : Dev) (r : Req), Answers (.mediaVolumeUnmount r) d r 0x8 0xA true (
      if d.md.vol.isNone ∨ d.md.recs ≠ [] ∨ d.md.rings ≠ [] then .err 0x0408
      else .job (d.modMd fun m => { m with vol := none, spaces := m.spaces.filter fun p => !p.2.vol }) (some 0))) ∧
  (∀ (d : Dev) (r : Req), Answers (.mediaRecordStart r) d r 0x8 0xB true (d.mdRecordStart r)) ∧
  (∀ (d : Dev) (r : Req), Answers (.mediaRecordStop r) d r 0x8 0xC true (d.mdRecordStop r)) ∧
  (∀ (d : Dev) (r : Req), Answers (.mediaClipList r) d r 0x8 0xD false (
      if r.replyMax < 8 then .err 0x040D
      else .ok d [] (((d.volClips.filter fun p => decide (r.a0 ≤ p.1)).take (r.replyMax / 8)).flatMap fun p =>
        leBytes 4 p.1 ++ leBytes 1 p.2.state ++ leBytes 1 p.2.kind ++ leBytes 2 p.2.tracks))) ∧
  (∀ (d : Dev) (r : Req) (head : List Byte), Answers (.mediaClipInfo r head) d r 0x8 0xE false (
      match d.clipEntry r.object with
      | none => .err 0x0404
      | some c =>
        if r.replyMax < 1280 then .err 0x040D
        else .ok d [] (c.enc ++ (((d.md.vol.bind fun v => tget v.heads r.object)).getD head).take 1024))) ∧
  (∀ (d : Dev) (r : Req), Answers (.mediaClipMap r) d r 0x8 0xF false (
      match d.md.vol, d.clipEntry r.object with
      | some v, some c => .ok d [] ((v.chain c.first).flatMap (leBytes 4))
      | _, _ => .err 0x0404)) ∧
  (∀ (d : Dev) (r : Req), Answers (.mediaClipDelete r) d r 0x8 0x10 true (d.mdClipDelete r)) ∧
  (∀ (d : Dev) (r : Req), Answers (.mediaBurstArm r) d r 0x8 0x11 true (d.mdBurstArm r)) ∧
  (∀ (d : Dev) (r : Req), Answers (.mediaBurstTrigger r) d r 0x8 0x12 true (
      match d.ring r.object with
      | none => .err 0x0404
      | some g =>
        if g.frozen then .turned (d.modRing r.object fun g => { g with triggers := g.triggers + 1 }) 0x0C10
        else .ok (d.burstTrigger r.object d.devNs) [lo32 d.stamp, hi32 d.stamp])) ∧
  (∀ (d : Dev) (r : Req), Answers (.mediaBurstDisarm r) d r 0x8 0x13 true (
      match d.ring r.object with
      | none => .err 0x0404
      | some g =>
        if g.frozen then .err 0x0408
        else .ok (((d.modMd fun m => { m with rings := tdel m.rings r.object }).freeArea (tagOf 16 r.object)).syncClips))) ∧
  (∀ (d : Dev) (r : Req) (aus : List (List Byte)), Answers (.mediaOffload r aus) d r 0x8 0x14 true (d.mdOffload r aus)) ∧
  (∀ (d : Dev) (r : Req), Answers (.mediaMark r) d r 0x8 0x15 true (
      match d.clipRec r.object with
      | none => .err 0x0408
      | some x =>
        if x.phase ≠ 0 then .err 0x0408
        else
          .ok (d.modRec r.object fun y => y.note 8 0 d.stamp 0xFFFFFFFF (leBytes 4 3 ++ leBytes 4 r.a0 ++ leBytes 4 r.a1 ++ leBytes 4 r.a2))
            [x.rseq + x.items.length])) ∧
  (∀ (d : Dev) (r : Req), Answers (.mediaStats r) d r 0x8 0x16 false (
      let u := uPack r.object
      if 7 < r.object then .err 0x0404
      else
        let e := [F.mpCnt_retries, F.mpCnt_timeouts, F.mpCnt_mediaErr].foldl (fun (e : Dev) f => e.fs f 0 u) d
        .ok (e.set64 .mpBytesLo .mpBytesHi 0 u) [(d.rd .mpStat u).toNat, (d.rd .mpCnt u).toNat, (d.rd .mpBytesLo u).toNat, (d.rd .mpBytesHi u).toNat]))

/-- SCAN, AUDIO and TIME: a request firmware takes up (R146) is settled by its own verb: its results, its job or the error it names, each as the
verb's rule gives it; the reply is posted, and nothing else happens. -/
def Obligations.ScanAudioAndTimeRequests : Prop :=
  (∀ (d : Dev) (r : Req),
    Answers (.scanInfo r) d r 0x9 0x0 false (.ok d [1, (d.rd .scCtl uScan).toNat, d.scFrameNo, d.fg F.scTimVb_vbEff uScan])) ∧
  (∀ (d : Dev) (r : Req), Answers (.scanTimingSet r) d r 0x9 0x1 true (d.scTimingSet r)) ∧
  (∀ (d : Dev) (r : Req), Answers (.scanOutputSet r) d r 0x9 0x2 true (d.scOutputSet r)) ∧
  (∀ (d : Dev) (r : Req), Answers (.scanBaseBind r) d r 0x9 0x3 true (d.scBaseBind r)) ∧
  (∀ (d : Dev) (r : Req), Answers (.scanLayerBind r) d r 0x9 0x4 false (d.scLayerBind r)) ∧
  (∀ (d : Dev) (r : Req), Answers (.scanLayerUnbind r) d r 0x9 0x5 false (d.scLayerUnbind r)) ∧
  (∀ (d : Dev) (r : Req), Answers (.scanLayerSet r) d r 0x9 0x6 false (
      let k := r.object
      if 3 < k then .err 0x0404
      else if 1 < r.a0 then .err 0x0404 (offArg 0)
      else if bitsN r.a1 31 16 % 8 ≠ 0 then .err 0x0404 (offArg 1)
      else if 255 < r.a2 then .err 0x0404 (offArg 2)
      else if !d.ownsLayer r.master k then .err 0x0405
      else .ok (((d.drawSome.fs F.lyCtl_en r.a0 uScan k).wr .lyPos uScan k (BitVec.ofNat 32 r.a1)).fs F.lyCtl_galpha r.a2 uScan k))) ∧
  (∀ (d : Dev) (r : Req), Answers (.scanPaletteSet r) d r 0x9 0x7 false (
      if !d.ownsLayer r.master 3 then .err 0x0405
      else .ok (([r.a0, r.a1, r.a2].zipIdx).foldl (fun (e : Dev) (p : Nat × Nat) => e.wr .scPal uScan p.2 (BitVec.ofNat 32 p.1)) d.drawSome))) ∧
  (∀ (d : Dev) (r : Req), Answers (.scanSinkInfo r) d r 0x9 0x8 false (
      let n := r.object
      if 1 < n then .err 0x0404
      else if r.replyMax < 512 then .err 0x040D
      else if !d.hpd n || decide (d.fg F.opStat_state uScan n = opNoSink) then .err 0x0408
      else .ok d [] (fitB (d.sink n).edid 256 ++ fitB (d.sink n).dpcd 256))) ∧
  (∀ (d : Dev) (r : Req), Answers (.scanStats r) d r 0x9 0x9 false (
      let e := scCntFlds.foldl (fun (e : Dev) f => e.fs f 0 uScan) d
      let e := [0, 1, 2].foldl (fun (e : Dev) k => lyCntFlds.foldl (fun (e : Dev) f => e.fs f 0 uScan k) e) e
      .ok e ((d.rd .scCnt uScan).toNat :: [0, 1, 2].map fun k => (d.rd .lyCnt uScan k).toNat))) ∧
  (∀ (d : Dev) (r : Req),
    Answers (.audioInfo r) d r 0xA 0x0 false (.ok d [1, bitmap 4 fun n => decide (d.audState n = auRun), 3])) ∧
  (∀ (d : Dev) (r : Req), Answers (.audioPortSet r) d r 0xA 0x1 true (d.audPortSet r)) ∧
  (∀ (d : Dev) (r : Req), Answers (.audioStart r) d r 0xA 0x2 true (d.audStart r)) ∧
  (∀ (d : Dev) (r : Req), Answers (.audioStop r) d r 0xA 0x3 true (
      let n := r.object
      if 3 < n then .err 0x0404
      else if ¬(d.audState n = auStarting ∨ d.audState n = auRun) ∨ (d.aud n).stopJob ≠ 0 then .err 0x0408
      else
        let t := d.timeArg r
        let e := (d.audNote n t .stop).modAud n fun p => { p with stopJob := d.oz.nextJob }
        .job (if t = d.devNs then e.audFs F.auCfg_state auStopping n else e))) ∧
  (∀ (d : Dev) (r : Req), Answers (.audioMute r) d r 0xA 0x4 true (
      let n := r.object
      let k := (d.audSlots n).length
      if 3 < n then .err 0x0404
      else if 2 ^ k ≤ r.a0 then .err 0x0404 (offArg 0)
      else if 1 < r.a1 then .err 0x0404 (offArg 1)
      else if !d.audLive n then .err 0x0408
      else
        let e := d.audNote n d.devNs (.mute (decide (r.a1 = 1)) r.a0)
        let p := e.aud n
        let after := p.evs.foldl (fun (m : Nat) x => match x.2 with
          | .mute on mask => if on then m ||| mask else m - (m &&& mask)
          | _ => m) (((p.chans.zipIdx).foldl (fun (m : Nat) (c : AudChan × Nat) => if c.1.sw then m + 2 ^ c.2 else m) 0))
        .ok e [if d.audHeld n then 2 ^ k - 1 else after])) ∧
  (∀ (d : Dev) (r : Req), Answers (.audioStatus r) d r 0xA 0x5 false (
      let n := r.object
      let w := fun (q : Reg) => leBytes 4 (d.rd q (uAudioPort n)).toNat
      if 3 < n then .err 0x0404
      else .ok d [] (w .auCfg ++ w .auMask ++ w .auStat ++ fitB (d.aud n).cs 20))) ∧
  (∀ (d : Dev) (r : Req), Answers (.audioStats r) d r 0xA 0x6 true (
      let n := r.object
      if 3 < n then .err 0x0404
      else .ok (auCntFlds.foldl (fun (e : Dev) f => e.audFs f 0 n) d) [(d.rd .auCnt (uAudioPort n)).toNat])) ∧
  (∀ (d : Dev) (r : Req),
    Answers (.timeInfo r) d r 0xB 0x0 false (.ok d [1, d.tm.sel, (d.rd .ftStat uTime).toNat, d.tm.acts.length])) ∧
  (∀ (d : Dev) (r : Req),
    Answers (.timeNow r) d r 0xB 0x1 false
      (.ok d [d.stamp % 2 ^ 32, d.stamp / 2 ^ 32, unsgn 32 d.tm.ofs, d.fg F.tmCtl_slew uTime])) ∧
  (∀ (d : Dev) (r : Req), Answers (.timeSelect r) d r 0xB 0x2 true (
      if 1 < r.a0 then .err 0x0404 (offArg 0)
      else if 1 < r.a1 then .err 0x0404 (offArg 1)
      else if r.a0 = d.tm.sel then .ok d [unsgn 32 d.tm.ofs]
      else match d.tmSwitch (decide (r.a1 = 1)) with
        | none => .err 0x1101
        | some e => .ok e [unsgn 32 e.tm.ofs])) ∧
  (∀ (d : Dev) (r : Req), Answers (.timeFrameSet r) d r 0xB 0x3 true (d.tmFrameSet r)) ∧
  (∀ (d : Dev) (r : Req), Answers (.timeEthBind r) d r 0xB 0x4 true (d.tmEthBind r)) ∧
  (∀ (d : Dev) (r : Req), Answers (.timeEthUnbind r) d r 0xB 0x5 true (d.tmEthUnbind r)) ∧
  (∀ (d : Dev) (r : Req), Answers (.timeActionArm r) d r 0xB 0x6 true (d.tmActionArm r)) ∧
  (∀ (d : Dev) (r : Req), Answers (.timeActionCancel r) d r 0xB 0x7 true (
      match tget d.tm.acts r.object with
      | none => .err 0x0404
      | some a => if a.owner = r.master then .ok (d.disarm r.object) [a.fires] else .err 0x0404)) ∧
  (∀ (d : Dev) (r : Req), Answers (.timeTrigInSet r) d r 0xB 0x8 true (d.tmTrigInSet r)) ∧
  (∀ (d : Dev) (r : Req), Answers (.timeStats r) d r 0xB 0x9 false (
      let e := (ftCntFlds ++ tiCntFlds ++ taCntFlds ++ ethCntFlds).foldl (fun (e : Dev) f => e.fs f 0 uTime) d
      .ok e [(d.rd .ftCnt uTime).toNat, (d.rd .taCnt uTime).toNat, (d.rd .tiCnt uTime).toNat, (d.rd .ethCnt uTime).toNat]))

/-- SESSION, TWIN, CHAIN and HEALTH: a request firmware takes up (R146) is settled by its own verb: its results, its job or the error it names, each as the
verb's rule gives it; the reply is posted, and nothing else happens. -/
def Obligations.SessionTwinChainAndHealthRequests : Prop :=
  (∀ (d : Dev) (r : Req), Answers (.sessionInfo r) d r 0x2 0x0 false (.ok d [1, d.sessState])) ∧
  (∀ (d : Dev) (r : Req), Answers (.sessionSave r) d r 0x2 0x1 true (d.sessSave r)) ∧
  (∀ (d : Dev) (r : Req) (regs : List (Nat × Word)), Answers (.sessionLoad r regs) d r 0x2 0x2 true (d.sessLoad r regs)) ∧
  (∀ (d : Dev) (r : Req), Answers (.sessionStandby r) d r 0x2 0x3 true (d.sessStandby)) ∧
  (∀ (d : Dev) (r : Req), Answers (.sessionResume r) d r 0x2 0x4 true (d.sessResume r)) ∧
  (∀ (d : Dev) (r : Req),
    Answers (.twinInfo r) d r 0xC 0x0 false
      (.ok d [1, (d.rd .twStat uTwin).toNat, (d.rd .twPeerLo uTwin).toNat, (d.rd .twPeerHi uTwin).toNat])) ∧
  (∀ (d : Dev) (r : Req), Answers (.twinModeSet r) d r 0xC 0x1 true (d.twModeSet r)) ∧
  (∀ (d : Dev) (r : Req), Answers (.twinAttach r) d r 0xC 0x2 true (
      if (d.role ≠ roleSolo ∧ d.role ≠ roleIsolated) ∨ !d.twUp then .err 0x0408
      else .job (d.attachNow.modTw fun t => { t with attachJob := d.oz.nextJob }))) ∧
  (∀ (d : Dev) (r : Req), Answers (.twinDetach r) d r 0xC 0x3 true (d.twDetach)) ∧
  (∀ (d : Dev) (r : Req), Answers (.twinHandover r) d r 0xC 0x4 true (d.twHandover r)) ∧
  (∀ (d : Dev) (r : Req), Answers (.twinStatus r) d r 0xC 0x5 false (
      .ok d [] (leBytes 4 (d.rd .twStat uTwin).toNat ++ leBytes 4 (d.rd .twHb uTwin).toNat ++ leBytes 4 (d.rd .twCnt uTwin).toNat ++
        leBytes 4 (d.rd .twSkew uTwin).toNat ++ leBytes 8 d.tw.takeAt ++ leBytes 4 d.tw.takeCause ++ leBytes 36 0))) ∧
  (∀ (d : Dev) (r : Req),
    Answers (.chainInfo r) d r 0xD 0x0 false
      (.ok d [1, (d.rd .chNode uChain).toNat, (d.rd .chBudget uChain).toNat, bitmap 3 fun k => decide (d.cpState k = cpUp)])) ∧
  (∀ (d : Dev) (r : Req), Answers (.chainJoin r) d r 0xD 0x1 true (d.chJoin r)) ∧
  (∀ (d : Dev) (r : Req), Answers (.chainLeave r) d r 0xD 0x2 true (d.chLeave)) ∧
  (∀ (d : Dev) (r : Req), Answers (.chainRouteSet r) d r 0xD 0x3 true (
      let n := r.a0
      if n = 0 ∨ 4094 < n then .err 0x0404 (offArg 0)
      else if 3 < r.a1 then .err 0x0404 (offArg 1)
      else .ok (d.wr .chRoute uChain (n / 16) (setF (d.rd .chRoute uChain (n / 16)) (2 * (n % 16) + 1) (2 * (n % 16)) r.a1)))) ∧
  (∀ (d : Dev) (r : Req), Answers (.chainAction r) d r 0xD 0x4 true (d.chAction r)) ∧
  (∀ (d : Dev) (r : Req), Answers (.chainSend r) d r 0xD 0x5 true (d.chSendMsg r)) ∧
  (∀ (d : Dev) (r : Req), Answers (.chainTopo r) d r 0xD 0x6 false (
      .ok d [] ((List.range 3).flatMap fun k =>
        leBytes 2 (d.cpState k) ++ leBytes 2 (d.fg F.cpStat_neighbour (uChainPort k)) ++ leBytes 8 ((tget d.ch.serials k).getD 0) ++
          leBytes 4 (d.fg F.cpStat_delay (uChainPort k))))) ∧
  (∀ (nv : Nv) (d : Dev) (r : Req), AnswersLogged (.healthInfo r) nv d r 0xE 0x0 false (
      .ok d [1, (d.rd .thStat uTherm).toNat,
        (allUnits.filter fun u => decide (d.ust u = stUnusable)).length,
        bit d.hl.fatal * 2 ^ 31 + bit (decide (d.hl.rollPeriod ≠ 0)) * 2 ^ 30 + d.hl.rollPeriod])) ∧
  (∀ (nv : Nv) (d : Dev) (r : Req) (raw : List Int), AnswersLogged (.healthTemp r raw) nv d r 0xE 0x1 false (d.healthTemp r raw)) ∧
  (∀ (nv : Nv) (d : Dev) (r : Req), AnswersLogged (.healthThermAck r) nv d r 0xE 0x2 true (d.thermAck)) ∧
  (∀ (nv : Nv) (d : Dev) (r : Req), AnswersLogged (.healthSensorClear r) nv d r 0xE 0x3 true (d.sensorClear r)) ∧
  (∀ (nv : Nv) (d : Dev) (r : Req), AnswersLogged (.healthSelftest r) nv d r 0xE 0x4 true (d.healthSelftest r)) ∧
  (∀ (nv : Nv) (d : Dev) (r : Req), AnswersLogged (.healthTestInfo r) nv d r 0xE 0x5 false (
      let h := d.histOf r.object
      if (kindOf r.object).isNone then .err 0x0404
      else .ok d [h.last, h.patterns, h.passAt / 1000000000 % 2 ^ 32, h.runs % 65536 * 65536 + h.fails % 65536])) ∧
  (∀ (nv : Nv) (d : Dev) (r : Req), AnswersLogged (.healthRollSet r) nv d r 0xE 0x6 true (
      if r.a0 ≠ 0 ∧ (r.a0 < 60 ∨ 86400 < r.a0) then .err 0x0404 (offArg 0)
      else .ok { d with hl := { d.hl with rollPeriod := r.a0 } } [r.a0])) ∧
  (∀ (nv : Nv) (d : Dev) (r : Req), AnswersLogged (.healthRollNow r) nv d r 0xE 0x7 true (
      if d.hl.roll.isSome then .job d.rollSkip (some 0x130D)
      else
        let e := { d with hl := { d.hl with rollJob := d.oz.nextJob } }.rollStep
        .job e (if e.hl.roll.isSome then none else some 0x130D))) ∧
  (∀ (nv : Nv) (d : Dev) (r : Req), AnswersLogged (.healthUnitList r) nv d r 0xE 0x8 false (
      .ok d [] ((allUnits.filter fun u => decide (d.ust u = stUnusable) || decide (d.ust u = stHeld)).map fun u =>
        leBytes 4 (d.unitWord u)).flatten)) ∧
  (∀ (nv : Nv) (d : Dev) (r : Req), AnswersLogged (.healthEqStats r) nv d r 0xE 0x9 false (
      .ok { d with oz := { d.oz with discStats := [] } } ([1, 2, 3, 4].map fun n =>
        (d.oz.eq n).length % 65536 * 65536 + min 65535 ((tget d.oz.discStats n).getD 0))))

/-- A read of a counter that clears when read: the word comes back as it stood, the counter fields of that register read 0 from then
on, its other bits, every other register and everything else stay, and no read holds a master; a master that may not read a PRIV
register gets 0 and clears nothing (R81). -/
def Obligations.CounterReadsClear : Prop :=
  (∀ (d : Dev) (m u : Nat), ReadsAndClears (.ucbEventRead m u) d m .ucbEvent u 0 [F.ucbEvent_evCount]) ∧
  (∀ (d : Dev) (m : Nat), ReadsAndClears (.bankOvrRead m) d m .bankOvr uBank 0 [F.bankOvr_ovrCount]) ∧
  (∀ (d : Dev) (m : Nat), ReadsAndClears (.bankPeakRead m) d m .bankPeak uBank 0 [F.bankPeak_peak]) ∧
  (∀ (d : Dev) (m : Nat), ReadsAndClears (.accLogRead m) d m .accLog 0 0 [F.accLog_count]) ∧
  (∀ (d : Dev) (m : Nat), ReadsAndClears (.parLogRead m) d m .parLog 0 0 [F.parLog_count]) ∧
  (∀ (d : Dev) (m : Nat), ReadsAndClears (.qfRoleRead m) d m .qfRole uQf 0 [F.qfRole_returns]) ∧
  (∀ (d : Dev) (m : Nat), ReadsAndClears (.ozEccRead m) d m .ozEcc uOzder 0 [F.ozEcc_ce]) ∧
  (∀ (d : Dev) (m : Nat) (n : Fin 20), ReadsAndClears (.lnkStatRead m n) d m .lnkStat uLanes n.val [F.lnkStat_retrains, F.lnkStat_hdrErr]) ∧
  (∀ (d : Dev) (m : Nat) (l : Fin 96), ReadsAndClears (.lnCounterRead m l 0) d m .lnStatus (uQuad (l.val / 4)) (l.val % 4) [F.lnStatus_syncErr]) ∧
  (∀ (d : Dev) (m : Nat) (l : Fin 96), ReadsAndClears (.lnCounterRead m l 1) d m .lnFill (uQuad (l.val / 4)) (l.val % 4) [F.lnFill_del, F.lnFill_ins]) ∧
  (∀ (d : Dev) (m : Nat) (l : Fin 96), ReadsAndClears (.lnCounterRead m l 2) d m .lnCtl (uQuad (l.val / 4)) (l.val % 4) [F.lnCtl_prbsErr]) ∧
  (∀ (d : Dev) (m : Nat) (l : Fin 96), ReadsAndClears (.lnCounterRead m l 3) d m .lnEth (uQuad (l.val / 4)) (l.val % 4) [F.lnEth_fcsErr, F.lnEth_pause]) ∧
  (∀ (d : Dev) (m : Nat) (link : Fin 8), ReadsAndClears (.dfStatRead m link) d m .dfStat (uDeframer link) 0 [F.dfStat_ptErr, F.dfStat_crcErr]) ∧
  (∀ (d : Dev) (m : Nat) (link : Fin 8) (src : Fin 16), ReadsAndClears (.srcStatRead m link src) d m .srcStat (uDeframer link) src [F.srcStat_discarded, F.srcStat_frames]) ∧
  (∀ (d : Dev) (m : Nat) (c : Fin 16), ReadsAndClears (.camFlagsRead m c true) d m .camCnt uIngest c [F.camCnt_flagged, F.camCnt_suppressed]) ∧
  (∀ (d : Dev) (m : Nat) (c : Fin 16), ReadsAndClears (.camFlagsRead m c false) d m .camFlags uIngest c [F.camFlags_flags]) ∧
  (∀ (d : Dev) (m : Nat) (n : Fin 72), ReadsAndClears (.pxCounterRead m n 0) d m .pxDef (uTile n) 0 [F.pxDef_corrected, F.pxDef_unfixed]) ∧
  (∀ (d : Dev) (m : Nat) (n : Fin 72), ReadsAndClears (.pxCounterRead m n 1) d m .pxSat (uTile n) 0 [F.pxSat_sat]) ∧
  (∀ (d : Dev) (m : Nat) (n : Fin 72), ReadsAndClears (.pxCounterRead m n 2) d m .pxEcc (uTile n) 0 [F.pxEcc_range, F.pxEcc_ce]) ∧
  (∀ (d : Dev) (m : Nat) (n : Fin 72), ReadsAndClears (.clCounterRead m n 0) d m .clTnr (uTile n) 0 [F.clTnr_resets, F.clTnr_waits]) ∧
  (∀ (d : Dev) (m : Nat) (n : Fin 72), ReadsAndClears (.clCounterRead m n 1) d m .clClip (uTile n) 0 [F.clClip_shpClip, F.clClip_lutClip]) ∧
  (∀ (d : Dev) (m : Nat) (n : Fin 72), ReadsAndClears (.clCounterRead m n 2) d m .clEcc (uTile n) 0 [F.clEcc_ce]) ∧
  (∀ (d : Dev) (m : Nat) (n : Fin 72), ReadsAndClears (.clCounterRead m n 3) d m .lutStat (uTileGroup (n.val % 18)) 0 [F.lutStat_ce]) ∧
  (∀ (d : Dev) (m : Nat) (k : Fin 8), ReadsAndClears (.outCounterRead m 0 k) d m .outDisp uPipe 0 [F.outDisp_redo, F.outDisp_overrun]) ∧
  (∀ (d : Dev) (m : Nat) (k : Fin 8), ReadsAndClears (.outCounterRead m 1 k) d m .strCnt uPipe k [F.strCnt_subst, F.strCnt_skip]) ∧
  (∀ (d : Dev) (m : Nat) (k : Fin 8), ReadsAndClears (.outCounterRead m 2 k) d m .algUnm uPipe (k.val % 4) [F.algUnm_unmatched]) ∧
  (∀ (d : Dev) (m : Nat) (k : Fin 8), ReadsAndClears (.outCounterRead m 3 k) d m .cptSw uPipe 0 [F.cptSw_switches]) ∧
  (∀ (d : Dev) (m : Nat) (n : Fin 18), ReadsAndClears (.psCounterRead m n true) d m .psEcc (uEngine n) 0 [F.psEcc_ce]) ∧
  (∀ (d : Dev) (m : Nat) (n : Fin 18), ReadsAndClears (.psCounterRead m n false) d m .psCnt (uEngine n) 0 [F.psCnt_chunks, F.psCnt_literal, F.psCnt_switches]) ∧
  (∀ (d : Dev) (m : Nat) (n : Fin 8), ReadsAndClears (.mpCntRead m n) d m .mpCnt (uPack n) 0 [F.mpCnt_retries, F.mpCnt_timeouts, F.mpCnt_mediaErr]) ∧
  (∀ (d : Dev) (m : Nat) (n : Fin 8), ReadsAndClears (.cvuCounterRead m n true) d m .cvuAlive (uCvu n) 0 [F.cvuAlive_repeats, F.cvuAlive_skips]) ∧
  (∀ (d : Dev) (m : Nat) (n : Fin 8), ReadsAndClears (.cvuCounterRead m n false) d m .cvuStat (uCvu n) 0 [F.cvuStat_jobs, F.cvuStat_mismatch, F.cvuStat_stale]) ∧
  (∀ (d : Dev) (m : Nat), ReadsAndClears (.rcMismRead m true) d m .rcMism1 uInteg 0 [F.rcMism1_f, F.rcMism1_g]) ∧
  (∀ (d : Dev) (m : Nat), ReadsAndClears (.rcMismRead m false) d m .rcMism0 uInteg 0 [F.rcMism0_b, F.rcMism0_c, F.rcMism0_d, F.rcMism0_e]) ∧
  (∀ (d : Dev) (m : Nat) (n : Fin 64), ReadsAndClears (.pcCounterRead m n true) d m .pcEcc (uMover n.val) 0 [F.pcEcc_ce, F.pcEcc_die]) ∧
  (∀ (d : Dev) (m : Nat) (n : Fin 64), ReadsAndClears (.pcCounterRead m n false) d m .pcStat (uMover n.val) 0 [F.pcStat_c0Over]) ∧
  (∀ (d : Dev) (m : Nat) (k : Fin 4), ReadsAndClears (.scanCounterRead m 0 k) d m .scCnt uScan 0 [F.scCnt_repeat, F.scCnt_dropped, F.scCnt_short]) ∧
  (∀ (d : Dev) (m : Nat) (k : Fin 4), ReadsAndClears (.scanCounterRead m 1 k) d m .lyCnt uScan k [F.lyCnt_underrun, F.lyCnt_lease, F.lyCnt_rowchk]) ∧
  (∀ (d : Dev) (m : Nat) (k : Fin 4), ReadsAndClears (.scanCounterRead m 2 k) d m .opStat uScan k [F.opStat_retrains]) ∧
  (∀ (d : Dev) (m : Nat) (n : Fin 4), ReadsAndClears (.auCntRead m n) d m .auCnt (uAudioPort n) 0 [F.auCnt_overflow, F.auCnt_glitch, F.auCnt_parity, F.auCnt_zcTo]) ∧
  (∀ (d : Dev) (m : Nat) (k : Fin 8), ReadsAndClears (.timeCounterRead m 0 k) d m .ftCnt uTime 0 [F.ftCnt_ignored, F.ftCnt_losses, F.ftCnt_relocks]) ∧
  (∀ (d : Dev) (m : Nat) (k : Fin 8), ReadsAndClears (.timeCounterRead m 1 k) d m .tiCnt uTime (k.val % 4) [F.tiCnt_dropped, F.tiCnt_ignored]) ∧
  (∀ (d : Dev) (m : Nat) (k : Fin 8), ReadsAndClears (.timeCounterRead m 2 k) d m .taCnt uTime 0 [F.taCnt_fired, F.taCnt_late]) ∧
  (∀ (d : Dev) (m : Nat) (k : Fin 8), ReadsAndClears (.timeCounterRead m 3 k) d m .ethCnt uTime k [F.ethCnt_late, F.ethCnt_nobuf, F.ethCnt_timed]) ∧
  (∀ (d : Dev) (m : Nat), ReadsAndClears (.twCntRead m) d m .twCnt uTwin 0 [F.twCnt_missed, F.twCnt_stale, F.twCnt_crcBad, F.twCnt_lost]) ∧
  (∀ (d : Dev) (m : Nat), ReadsAndClears (.chCntRead m) d m .chCnt uChain 0 [F.chCnt_dup, F.chCnt_depth, F.chCnt_late])

/-- Writes of UCB commands, activity levels, the bank's registers, locks, VF privilege and hold releases: the effect of each when no
check turns the write away, and what each check does when it does (R72, R84, R85, R87, R89, R584). -/
def Obligations.UnitBankAndFabricWrites : Prop :=
  (∀ (d : Dev) (m u : Nat), (kindOf u).isSome = true → Writes (.ucbWake m u) d m .ucbState u 0 0 (d.ucbCmd 1 u)) ∧
  (∀ (d : Dev) (m u : Nat),
    (kindOf u).isSome = false → issued m = true → Makes (.ucbWake m u) d (if d.isHeld m then d.refuse m else d.unmapped m (0x10008 + u * 0x1000))) ∧
  (∀ (d : Dev) (m u : Nat), (kindOf u).isSome = true → Writes (.ucbDrain m u) d m .ucbState u 0 0 (d.ucbCmd 2 u)) ∧
  (∀ (d : Dev) (m u : Nat),
    (kindOf u).isSome = false → issued m = true → Makes (.ucbDrain m u) d (if d.isHeld m then d.refuse m else d.unmapped m (0x10008 + u * 0x1000))) ∧
  (∀ (d : Dev) (m u : Nat), (kindOf u).isSome = true → Writes (.ucbSleep m u) d m .ucbState u 0 0 (d.ucbCmd 3 u)) ∧
  (∀ (d : Dev) (m u : Nat),
    (kindOf u).isSome = false → issued m = true → Makes (.ucbSleep m u) d (if d.isHeld m then d.refuse m else d.unmapped m (0x10008 + u * 0x1000))) ∧
  (∀ (d : Dev) (m u : Nat), (kindOf u).isSome = true → Writes (.ucbOff m u) d m .ucbState u 0 0 (d.ucbCmd 4 u)) ∧
  (∀ (d : Dev) (m u : Nat),
    (kindOf u).isSome = false → issued m = true → Makes (.ucbOff m u) d (if d.isHeld m then d.refuse m else d.unmapped m (0x10008 + u * 0x1000))) ∧
  (∀ (d : Dev) (m u : Nat), (kindOf u).isSome = true → Writes (.ucbReload m u) d m .ucbState u 0 0 (d.ucbCmd 5 u)) ∧
  (∀ (d : Dev) (m u : Nat),
    (kindOf u).isSome = false → issued m = true → Makes (.ucbReload m u) d (if d.isHeld m then d.refuse m else d.unmapped m (0x10008 + u * 0x1000))) ∧
  (∀ (d : Dev) (m u : Nat) (v : Word),
    (kindOf u).isSome = true → Writes (.actLevelSet m u v) d m .ucbPip u 0 v (d.setLevel u (getF v 14 12))) ∧
  (∀ (d : Dev) (m u : Nat) (v : Word),
    (kindOf u).isSome = false → issued m = true → Makes (.actLevelSet m u v) d (if d.isHeld m then d.refuse m else d.unmapped m (0x10014 + u * 0x1000))) ∧
  (∀ (d : Dev) (m : Nat) (v : Word),
    Writes (.bankCeilWrite m v) d
      m .bankCeil uBank 0 v (if 0xA00 < getF v 11 0 ∨ getF v 11 0 < d.fg F.bankReserve_reserve uBank then d.bankCfg m else d.putFields .bankCeil uBank 0 v)) ∧
  (∀ (d : Dev) (m : Nat) (v : Word),
    Writes (.bankReserveWrite m v) d
      m .bankReserve uBank 0 v (if d.fg F.bankCeil_ceil uBank < getF v 11 0 then d.bankCfg m else d.putFields .bankReserve uBank 0 v)) ∧
  (∀ (d : Dev) (m : Nat) (v : Word), Writes (.bankVoltReq m v) d m .bankVolt uBank 0 v (d.effBankVolt m v)) ∧
  (∀ (d : Dev) (m index : Nat),
    Writes (.lockCtlGo m index) d
      m .lockCtl 0 0 (BitVec.ofNat 32 (2 ^ 31 + index % 0x1000)) (d.effLockCtl (BitVec.ofNat 32 (2 ^ 31 + index % 0x1000)))) ∧
  (∀ (d : Dev) (m : Nat) (v : Word),
    Writes (.lockCtlGlobal m v) d
      m .lockCtl 0 0 (v ||| BitVec.ofNat 32 (2 ^ 30)) (d.effLockCtl (v ||| BitVec.ofNat 32 (2 ^ 30)))) ∧
  (∀ (d : Dev) (m : Nat) (hi : Bool) (v : Word),
    Writes (.privVfWrite m hi v) d
      m (if hi then .privVfHi else .privVfLo) 0 0 v (if isOz m then d.putFields (if hi then .privVfHi else .privVfLo) 0 0 v else d.raise { code := 0x0206, sev := 1, master := m })) ∧
  (∀ (d : Dev) (m : Nat) (v : Word),
    Writes (.holdReleaseWrite m v) d
      m .holdRelease 0 0 v (d.releaseHold (decide (getF v 31 31 = 1)) (getF v 27 16) (getF v 15 0)))

/-- Writes that start something in a unit's window (queue commands, regions, lanes, cameras, checks, training helpers, scan timing, the
clocks, a host pair's completion head): the effect of each when no check turns the write away, and what each check does. -/
def Obligations.WindowCommandWrites : Prop :=
  (∀ (d : Dev) (m qid : Nat),
    Writes (.qfRead m qid) d
      m .qfCmd uQf 0 (BitVec.ofNat 32 (2 ^ 31 + 0 * 2 ^ 24 + qid % 2 ^ 20)) (d.effQfCmd m (BitVec.ofNat 32 (2 ^ 31 + 0 * 2 ^ 24 + qid % 2 ^ 20)))) ∧
  (∀ (d : Dev) (m qid : Nat),
    Writes (.qfCreate m qid) d
      m .qfCmd uQf 0 (BitVec.ofNat 32 (2 ^ 31 + 1 * 2 ^ 24 + qid % 2 ^ 20)) (d.effQfCmd m (BitVec.ofNat 32 (2 ^ 31 + 1 * 2 ^ 24 + qid % 2 ^ 20)))) ∧
  (∀ (d : Dev) (m qid : Nat),
    Writes (.qfDestroy m qid) d
      m .qfCmd uQf 0 (BitVec.ofNat 32 (2 ^ 31 + 2 * 2 ^ 24 + qid % 2 ^ 20)) (d.effQfCmd m (BitVec.ofNat 32 (2 ^ 31 + 2 * 2 ^ 24 + qid % 2 ^ 20)))) ∧
  (∀ (d : Dev) (m qid : Nat),
    Writes (.qfRetarget m qid) d
      m .qfCmd uQf 0 (BitVec.ofNat 32 (2 ^ 31 + 3 * 2 ^ 24 + qid % 2 ^ 20)) (d.effQfCmd m (BitVec.ofNat 32 (2 ^ 31 + 3 * 2 ^ 24 + qid % 2 ^ 20)))) ∧
  (∀ (d : Dev) (m qid : Nat),
    Writes (.qfStart m qid) d
      m .qfCmd uQf 0 (BitVec.ofNat 32 (2 ^ 31 + 4 * 2 ^ 24 + qid % 2 ^ 20)) (d.effQfCmd m (BitVec.ofNat 32 (2 ^ 31 + 4 * 2 ^ 24 + qid % 2 ^ 20)))) ∧
  (∀ (d : Dev) (m qid : Nat),
    Writes (.qfStop m qid) d
      m .qfCmd uQf 0 (BitVec.ofNat 32 (2 ^ 31 + 5 * 2 ^ 24 + qid % 2 ^ 20)) (d.effQfCmd m (BitVec.ofNat 32 (2 ^ 31 + 5 * 2 ^ 24 + qid % 2 ^ 20)))) ∧
  (∀ (d : Dev) (m qid : Nat),
    Writes (.qfReset m qid) d
      m .qfCmd uQf 0 (BitVec.ofNat 32 (2 ^ 31 + 6 * 2 ^ 24 + qid % 2 ^ 20)) (d.effQfCmd m (BitVec.ofNat 32 (2 ^ 31 + 6 * 2 ^ 24 + qid % 2 ^ 20)))) ∧
  (∀ (d : Dev) (m qid : Nat),
    Writes (.qfOpUnused m qid) d
      m .qfCmd uQf 0 (BitVec.ofNat 32 (2 ^ 31 + 7 * 2 ^ 24 + qid % 2 ^ 20)) (d.effQfCmd m (BitVec.ofNat 32 (2 ^ 31 + 7 * 2 ^ 24 + qid % 2 ^ 20)))) ∧
  (∀ (d : Dev) (m i : Nat),
    Writes (.rgnRead m i) d
      m .rgnCmd uHbm 0 (BitVec.ofNat 32 (2 ^ 31 + 0 * 2 ^ 26 + i % 512)) (d.effRgnCmd m (BitVec.ofNat 32 (2 ^ 31 + 0 * 2 ^ 26 + i % 512)))) ∧
  (∀ (d : Dev) (m i : Nat),
    Writes (.rgnWrite m i) d
      m .rgnCmd uHbm 0 (BitVec.ofNat 32 (2 ^ 31 + 1 * 2 ^ 26 + i % 512)) (d.effRgnCmd m (BitVec.ofNat 32 (2 ^ 31 + 1 * 2 ^ 26 + i % 512)))) ∧
  (∀ (d : Dev) (m i : Nat),
    Writes (.rgnClear m i) d
      m .rgnCmd uHbm 0 (BitVec.ofNat 32 (2 ^ 31 + 2 * 2 ^ 26 + i % 512)) (d.effRgnCmd m (BitVec.ofNat 32 (2 ^ 31 + 2 * 2 ^ 26 + i % 512)))) ∧
  (∀ (d : Dev) (m i : Nat),
    Writes (.rgnOpUnused m i) d
      m .rgnCmd uHbm 0 (BitVec.ofNat 32 (2 ^ 31 + 3 * 2 ^ 26 + i % 512)) (d.effRgnCmd m (BitVec.ofNat 32 (2 ^ 31 + 3 * 2 ^ 26 + i % 512)))) ∧
  (∀ (d : Dev) (m : Nat) (v : Word),
    Writes (.mbBootGo m v) d
      m .mbBootCtl uOzder 0 (v ||| BitVec.ofNat 32 (2 ^ 31)) (d.effMbBootCtl m (v ||| BitVec.ofNat 32 (2 ^ 31)))) ∧
  (∀ (d : Dev) (m : Nat) (q : Fin 24) (v : Word),
    Writes (.quadCfgWrite m q v) d m .quadCfg (uQuad q.val) 0 v (d.effQuadCfg m q.val v)) ∧
  (∀ (d : Dev) (m : Nat) (n : Fin 8) (v : Word), Writes (.lnkMapWrite m n v) d m .lnkMap uLanes n.val v (d.effLnkMap m n.val v)) ∧
  (∀ (d : Dev) (m : Nat) (l : Fin 96),
    Writes (.lnCtlRetrain m l) d
      m .lnCtl (uQuad (l.val / 4)) (l.val % 4) (BitVec.ofNat 32 (2 ^ 31)) (d.effLnCtl m l.val (BitVec.ofNat 32 (2 ^ 31)))) ∧
  (∀ (d : Dev) (m : Nat) (l : Fin 96),
    Writes (.lnCtlFull m l) d
      m .lnCtl (uQuad (l.val / 4)) (l.val % 4) (BitVec.ofNat 32 (2 ^ 30)) (d.effLnCtl m l.val (BitVec.ofNat 32 (2 ^ 30)))) ∧
  (∀ (d : Dev) (m : Nat) (c : Fin 16) (v : Word),
    Writes (.camEnable m c v) d
      m .camCfg uIngest c (v ||| BitVec.ofNat 32 0x80000000) (d.effCamReg m c .camCfg (v ||| BitVec.ofNat 32 0x80000000))) ∧
  (∀ (d : Dev) (m : Nat) (c : Fin 16) (v : Word),
    Writes (.camDisable m c v) d
      m .camCfg uIngest c (v &&& BitVec.ofNat 32 0x7FFFFFFF) (d.effCamReg m c .camCfg (v &&& BitVec.ofNat 32 0x7FFFFFFF))) ∧
  (∀ (d : Dev) (m : Nat) (n : Fin 8) (v : Word), Writes (.cvuCtlWrite m n v) d m .cvuCtl (uCvu n) 0 v (d.effCvuCtl m n v)) ∧
  (∀ (d : Dev) (m : Nat) (n : Fin 64) (v : Word) (lanes : Nat),
    Writes (.pcTrGo m n v lanes) d
      m .pcTrCtl (uMover n.val) 0 (v ||| BitVec.ofNat 32 (2 ^ 31)) (d.effPcTr (uMover n.val) (v ||| BitVec.ofNat 32 (2 ^ 31)) lanes)) ∧
  (∀ (d : Dev) (m : Nat) (v : Word), Writes (.scTimGo m v) d m .scTimGo uScan 0 (setF v 31 31 1) (d.effScGo m (setF v 31 31 1))) ∧
  (∀ (d : Dev) (m : Nat) (dom : Fin 2) (v : Word),
    Writes (.dIncWrite m dom v) d m .dIncNs uTime dom.val v (d.effDInc m dom.val v)) ∧
  (∀ (d : Dev) (m : Nat) (dom : Fin 2) (v : Word),
    Writes (.dSetGo m dom v) d
      m .dSetShi uTime dom.val (v ||| BitVec.ofNat 32 (2 ^ 31)) (d.effDSet m dom.val (v ||| BitVec.ofNat 32 (2 ^ 31)))) ∧
  (∀ (d : Dev) (m : Nat) (dom : Fin 2) (v : Word),
    Writes (.dAdjGo m dom v) d
      m .dAdj uTime dom.val (v ||| BitVec.ofNat 32 (2 ^ 31)) (d.effDAdj dom.val (v ||| BitVec.ofNat 32 (2 ^ 31)))) ∧
  (∀ (d : Dev) (m : Nat) (v : Word), Writes (.tmSnap m v) d m .tmCtl uTime 0 (setF v 31 31 1) (d.effTmCtl m (setF v 31 31 1))) ∧
  (∀ (d : Dev) (m : Nat) (v : Word), Writes (.tmSwitch m v) d m .tmCtl uTime 0 (setF v 30 29 2) (d.effTmCtl m (setF v 30 29 2))) ∧
  (∀ (d : Dev) (m : Nat) (v : Word),
    Writes (.tmSwitchForce m v) d m .tmCtl uTime 0 (setF v 30 29 3) (d.effTmCtl m (setF v 30 29 3))) ∧
  (∀ (d : Dev) (m : Nat) (n : Fin 64) (v : Word),
    (tget d.md.qps n.val).any (fun p => decide (p.owner = m)) = true → Writes (.mqCqhWrite m n v) d m .mqCqh uMedia n.val v (d.effMqCqh m n.val v)) ∧
  (∀ (d : Dev) (m : Nat) (n : Fin 64) (v : Word),
    (tget d.md.qps n.val).any (fun p => decide (p.owner = m)) = false → issued m = true → Makes (.mqCqhWrite m n v) d (if d.isHeld m then d.refuse m else d.effMqCqh m n.val v))

/-- A doorbell slot: TAIL, a pushed entry, START, STOP and RESET, with what a hold, a wrong size, a foreign owner, a resetting, disabled
or full queue makes of each (R87, R89, R105 to R110, R117 to R120). -/
def Obligations.DoorbellWrites : Prop :=
  (∀ (d : Dev) (m qid off size v : Nat) (ring : List Byte),
    issued m = true → Makes (.dbTailWrite m qid off size v ring) d
      (if d.isHeld m then d.refuse m else if ¬(off = 0 ∧ size = 4) then d.dbSize m qid
      else if !d.ownsQ m qid then d.violate m 4 qid
      else if (d.q qid).rstate = 3 then d.qOverflow m qid
      else if (d.q qid).rstate = 0 then d
      else if (d.q qid).tailBad v then d.raise { code := 0x0302, sev := 1, unit := uQf, master := m, d0 := qid, d1 := v }
      else d.takeTail m qid v ring)) ∧
  (∀ (d : Dev) (m qid off : Nat) (bytes : List Byte),
    issued m = true → Makes (.dbPush m qid off bytes) d
      (if d.isHeld m then d.refuse m else if ¬(off = 0 ∧ bytes.length = 64) then d.dbSize m qid
      else if !d.ownsQ m qid then d.violate m 4 qid
      else if (d.q qid).ringHost then d.dbSize m qid
      else if (d.q qid).rstate = 3 then d.qOverflow m qid
      else if (d.q qid).rstate = 0 then d
      else if (d.q qid).room = 0 then d.qOverflow m qid
      else (d.ringW (d.q qid) (d.q qid).tail ((Entry.dec bytes).from m)).setQ qid { d.q qid with
        tail := (d.q qid).step (d.q qid).tail 1, ents := (d.q qid).ents ++ [(Entry.dec bytes).from m], nsub := (d.q qid).nsub + 1 })) ∧
  (∀ (d : Dev) (m qid : Nat),
    issued m = true → Makes (.dbStart m qid) d
      (if d.isHeld m then d.refuse m else if d.ownsQ m qid then (if (d.q qid).rstate = 2 then d.modQ qid (fun q => { q with rstate := 1 }) else d) else d.violate m 4 qid)) ∧
  (∀ (d : Dev) (m qid : Nat),
    issued m = true → Makes (.dbStop m qid) d
      (if d.isHeld m then d.refuse m else if d.ownsQ m qid then (if (d.q qid).rstate = 1 then d.modQ qid (fun q => { q with rstate := 2 }) else d) else d.violate m 4 qid)) ∧
  (∀ (d : Dev) (m qid : Nat),
    issued m = true → Makes (.dbReset m qid) d
      (if d.isHeld m then d.refuse m else if d.ownsQ m qid then (if (d.q qid).noabort then d.raise { code := 0x0306, sev := 1, unit := uQf, master := m, d0 := qid }
      else if (d.q qid).rstate = 1 ∨ (d.q qid).rstate = 2 then d.beginReset qid else d) else d.violate m 4 qid))

/-- The accesses that are not one register's own row: a register write of any size and place, a bit-alias write, a BAR1 access, an extra
sample, a host boot, and the three reads with an effect beside clearing a counter. -/
def Obligations.BusAccesses : Prop :=
  (∀ (nv : Nv) (d : Dev) (m a size : Nat) (ws : List (Word × Bool)) (x : Shown),
    issued m = true → MakesBoth (.regWrite m a size ws x) nv d (busWrite m a size ws x nv d)) ∧
  (∀ (nv : Nv) (d : Dev) (m : Nat) (a : Fin 0x1000000) (size : Nat) (ws : List (Word × Bool)) (x : Shown),
    issued m = true → MakesBoth (.bitAliasWrite m a size ws x) nv d (busWrite m (0x4000000 + a.val) size ws x nv d)) ∧
  (∀ (nv : Nv) (d : Dev) (m a : Nat) (wr : Bool) (n : Nat) (bytes : List Byte) (se ue : List Nat) (die : Nat),
    issued m = true → MakesBoth (.bar1Access m a wr n bytes se ue die) nv d
      (nvFlush 0 nv (if wr then (d.injectEcc se ue).bar1Write m a bytes else (d.injectEcc se ue).bar1Read m a n die))) ∧
  (∀ (nv : Nv) (d : Dev) (m : Nat) (v : Word) (raw : List Int),
    issued m = true → MakesBoth (.thSampleWrite m v raw) nv d
      (nvFlush 0 nv (d.gated m .thCtl uTherm 0 (v ||| BitVec.ofNat 32 (2 ^ 31)) fun d => d.effThCtl m (v ||| BitVec.ofNat 32 (2 ^ 31)) raw))) ∧
  (∀ (nv : Nv) (d : Dev) (m : Nat) (v : Word) (img : List Byte),
    issued m = true → MakesBoth (.bootHostGo m v img) nv d (bootHostGo m v img nv d)) ∧
  (∀ (d : Dev) (m : Nat), issued m = true → Makes (.holdScanRead m) d (d.readHoldScan)) ∧
  (∀ (d : Dev) (m u : Nat),
    issued m = true → Makes (.ucbPaceMinRead m u) d
      ({ (if isAsync u then (d.fs F.ucbPaceMin_below 0 u).fs F.ucbPaceMin_paceMin 0xFFFF u else d) with
        fab := { d.fab with rdata := d.rd .ucbPaceMin u } })) ∧
  (∀ (d : Dev) (m addr : Nat), issued m = true → Makes (.counter64LowRead m addr) d (d.readLow64 m addr))

/-- Unit, domain and governor events: each answers the next state of its own effect, whatever waits, and changes nothing beside it: unit states, paces and bands (chapter 1). -/
def Obligations.UnitAndGovernorEvents : Prop :=
  (∀ (d : Dev) (n : Fin 64), Makes (.domainPowerGood n) d (
      if d.fb F.bankDom_on uBank n.val && !d.bank.good.contains n.val then
        let d := { d with bank := { d.bank with good := n.val :: d.bank.good } }
        (unitsInDomain n.val).foldl (fun e u => if e.own u = stWaking then e.askWork u else e) d
      else d)) ∧
  (∀ (d : Dev) (u : Nat) (good : Bool), Makes (.reloadComplete u good) d (d.reloadDone u good)) ∧
  (∀ (d : Dev) (u : Nat), Makes (.drainComplete u) d ((d.drained u).testReady u)) ∧
  (∀ (d : Dev) (n : Fin 64), Makes (.domainPowerLost n) d (d.domainLost n)) ∧
  (∀ (d : Dev) (u n : Nat), Makes (.paceWindow u n) d (
      if isAsync u then
        let p := d.paceOf u n
        let d := (d.fs F.ucbPace_pace p u).fs F.ucbPaceMin_paceMin (min p (d.fg F.ucbPaceMin_paceMin u)) u
        if d.belowFloor u then d.fadd F.ucbPaceMin_below 1 u else d
      else d)) ∧
  (∀ (d : Dev) (g : Nat), Makes (.paceLowTimeout g) d (
      if !isAsync g || d.bank.paceLow.contains g || !d.belowFloor g then d
      else
        let d := { d with bank := { d.bank with paceLow := g :: d.bank.paceLow } }
        let d := d.raise { code := 0x0105, sev := d.sevC0 g, unit := g }
        let d := if d.clsOf g = 0 then d.c0Risk 5 g else d
        d.rotateAway g)) ∧
  (∀ (d : Dev) (g : Nat), Makes (.paceOkTimeout g) d (
      if d.bank.paceLow.contains g && !d.belowFloor g then
        { d with bank := { d.bank with paceLow := d.bank.paceLow.filter (· ≠ g) } }.raise { code := 0x0106, sev := 1, unit := g }
      else d)) ∧
  (∀ (d : Dev) (g : Nat), Makes (.bandRiseDeferred g) d (
      match tget d.bank.bandDue g with
      | some b => d.bandSwitch g b
      | none => d)) ∧
  (∀ (d : Dev), Makes (.governorRun) d (
      let d := { d with bank := { d.bank with setPoint := d.fg F.bankVolt_present uBank } }
      let d := d.shed
      let d := d.riskEdge 4 0 (decide (d.effCeil < d.fg F.bankReserve_reserve uBank))
      let d := d.riskEdge 8 0 (decide (d.effCeil < d.usedC0 d.vscale))
      match d.slowest with
      | none => d
      | some g => (d.govern g).rereadPace))

/-- Bank events: each answers the next state of its own effect, whatever waits, and changes nothing beside it: the bank, its grants, monitors and holds (chapter 2). -/
def Obligations.BankEvents : Prop :=
  (∀ (d : Dev), Makes (.bankDecide) d (
      let d := d.creditAll.syncEff
      if d.bank.granting then
        let d := d.grantC0 d.bank.reqs.length
        let d := d.decideVolt
        (d.grantLow d.bank.reqs.length).syncBank
      else d.syncBank)) ∧
  (∀ (d : Dev) (u : Nat), Makes (.pipRelease u) d (
      match tget d.bank.settling u with
      | some b => { d with bank := { d.bank with settling := tdel d.bank.settling u, credits := tset d.bank.credits u b } }
      | none => d)) ∧
  (∀ (d : Dev) (u : Nat), Makes (.c0GrantLateTimeout u) d (
      match d.bank.reqs.find? fun r => decide (r.unit = u) && (decide (r.cls = 0) == true) && !r.told with
      | none => d
      | some r =>
        let d := { d with bank := { d.bank with reqs := d.bank.reqs.map fun x => if x = r then { x with told := true } else x } }
        if true then d.raise { code := 0x0113, sev := 3, unit := u } else d.raise { code := 0x0112, sev := 2, unit := u })) ∧
  (∀ (d : Dev) (u : Nat), Makes (.grantWaitTimeout u) d (
      match d.bank.reqs.find? fun r => decide (r.unit = u) && (decide (r.cls = 0) == false) && !r.told with
      | none => d
      | some r =>
        let d := { d with bank := { d.bank with reqs := d.bank.reqs.map fun x => if x = r then { x with told := true } else x } }
        if false then d.raise { code := 0x0113, sev := 3, unit := u } else d.raise { code := 0x0112, sev := 2, unit := u })) ∧
  (∀ (d : Dev) (meas : List Nat), Makes (.currentMonitorWindow meas) d (
      let d := (List.range 64).foldl (fun e n => e.domWindow n (meas.getD n 0)) d
      d.fs F.bankPeak_peak (max (d.fg F.bankPeak_peak uBank) (min ((List.range 64).foldl (fun t n => t + meas.getD n 0) 0) 0xFFF)) uBank)) ∧
  (∀ (d : Dev) (n : Fin 64), Makes (.overdraw n) d (d.overdraw n)) ∧
  (∀ (d : Dev) (n : Fin 64), Makes (.overdrawOff n) d (
      if 100 ≤ (tget d.bank.heldExcess n.val).getD 0 then
        let d := { d with bank := { d.bank with heldExcess := tdel d.bank.heldExcess n.val } }
        (d.raise { code := 0x0111, sev := 3, unit := uBank, d0 := n.val }).domainLost n.val
      else d)) ∧
  (∀ (d : Dev), Makes (.forceShedTimeout) d (if (d.over || d.lowRes) && d.fb F.bankCtl_forceShed uBank then d.forceShed else d)) ∧
  (∀ (d : Dev), Makes (.peerValidLost) d (d.setPeerValid false)) ∧
  (∀ (d : Dev) (statusWord vout iout : Nat),
    Makes (.pmbAlert statusWord vout iout) d
      (d.raise { code := 0x011A, sev := 3, unit := uBank, d0 := statusWord, d1 := vout, d2 := iout }))

/-- Power, reset and start-up events: each answers the next state of its own effect, whatever waits, and changes nothing beside it: supplies, resets and the boot stages (chapters 2 and 6). -/
def Obligations.StartUpEvents : Prop :=
  (∀ (nv : Nv) (d : Dev) (cut : Bool), MakesBoth (.pwrGoodFall cut) nv d (pwrGoodFall cut nv d)) ∧
  (∀ (d : Dev), Makes (.rstNAssert) d (
      let e := d.afterReset
      { e with pins := { e.pins with rstN := false, thermTripN := d.pins.thermTripN } })) ∧
  (∀ (nv : Nv) (d : Dev) (sel : Fin 4), MakesBoth (.rstNRelease sel) nv d (rstRelease sel.val nv d)) ∧
  (∀ (nv : Nv) (d : Dev) (spares : List (Nat × Nat)) (failed sizes div : List Nat),
    MakesBoth (.hbmTrainDone spares failed sizes div) nv d (nvFlush 0 nv (d.trained spares failed sizes div))) ∧
  (∀ (nv : Nv) (d : Dev) (img : List Byte), MakesBoth (.hbmSegmentLoad img) nv d (
      let p := loadSegments img nv d
      nvFlush 0 p.1 p.2)) ∧
  (∀ (nv : Nv) (d : Dev) (quads : List (Fin 24 × Word)), MakesBoth (.serviceReady quads) nv d ((nv, serviceReady quads nv d))) ∧
  (∀ (nv : Nv) (d : Dev),
    MakesBoth (.updateRestartReset) nv d (if d.boot.restart then rstRelease d.pins.bootSel nv d else (nv, d))) ∧
  (∀ (d : Dev), Makes (.debugNonceExpiry) d ({ d with boot := { d.boot with nonces := d.boot.nonces.tail } }))

/-- PCIe, pin and lane events: each answers the next state of its own effect, whatever waits, and changes nothing beside it: PCIe, the lanes and their links (chapters 3 and 7). -/
def Obligations.HostLinkAndLaneEvents : Prop :=
  (∀ (d : Dev) (isUnit : Bool) (id : Nat), Makes (.heldOpsClosed isUnit id) d (
      match d.holdOf isUnit id with
      | none => d
      | some _ =>
        if isUnit then (d.qf.ops.filter fun o => decide (o.unit = id)).foldl (fun e o => e.endOp o.tag 0x0310 []) d
        else d.closeHeldOps id)) ∧
  (∀ (d : Dev) (bad : List (Nat × Word)) (slots : List Nat),
    Makes (.scrubVisit bad slots) d
      (if d.fb F.parCtl_scrubEn then slots.foldl Dev.badSlot (bad.foldl (fun e p => e.badParity p.1 p.2) d) else d)) ∧
  (∀ (d : Dev), Makes (.perstNAssert) d ({ d.perst with pins := { d.perst.pins with perstN := false } })) ∧
  (∀ (d : Dev) (f : Fin 64), Makes (.pcieFlr f) d (
      let d := d.closeAll f.val
      { d with qf := { d.qf with vecs := d.qf.vecs.filter fun p => decide (p.1 / 0x1000 ≠ f.val) } })) ∧
  (∀ (d : Dev), Makes (.pcieLinkDown) d (d.perst.raise { code := 0x060A, sev := 2, unit := uPcie })) ∧
  (∀ (d : Dev) (width rate : Nat),
    Makes (.pcieLinkUp width rate) d
      (if width < 16 ∨ rate < 32 then d.raise { code := 0x060A, sev := 2, unit := uPcie, d0 := width, d1 := rate } else d)) ∧
  (∀ (d : Dev) (status : Word),
    Makes (.pcieAerError status) d (d.raise { code := 0x060B, sev := 2, unit := uPcie, d0 := status.toNat })) ∧
  (∀ (d : Dev) (l : Fin 96) (far tap act seq : Nat), Makes (.linkBlockRx l far tap act seq) d (d.linkBlock l.val far tap act seq)) ∧
  (∀ (d : Dev) (n : Fin 20) (skew : Nat) (col : List (Nat × Nat × Nat)), Makes (.alignColumnRx n skew col) d (
      let st := d.lstate n.val
      if st = 4 then
        if d.alignOk n.val skew col then d.fs F.lnkStat_skew skew uLanes n.val else (d.linkEv 0x0606 2 n.val 0xFFFFFFFF).linkCause n.val 0xFFFFFFFF
      else if (st = 2 ∨ st = 3) ∧ (d.linkLanes n.val).all (fun l => d.fb F.lnStatus_blockLock (uQuad (l / 4)) (l % 4)) then
        if d.alignOk n.val skew col then
          let c := (d.link n.val).aligned + 1
          if 4 ≤ c then d.linkUp n.val skew else (d.setLinkSt n.val { d.link n.val with aligned := c }).setLstate n.val 3
        else (d.setLinkSt n.val { d.link n.val with aligned := 0 }).linkEv 0x0606 2 n.val 0xFFFFFFFF
      else d)) ∧
  (∀ (d : Dev) (l : Fin 96), Makes (.blockLockLost l) d (
      let d := (d.fadd F.lnStatus_syncErr 16 (uQuad (l.val / 4)) (l.val % 4)).fs F.lnStatus_blockLock 0 (uQuad (l.val / 4)) (l.val % 4)
      match d.linkOfLane l.val with
      | some n => d.linkCause n l.val
      | none => d)) ∧
  (∀ (d : Dev) (l : Fin 96), Makes (.elasticOverflow l) d (
      match d.linkOfLane l.val with
      | some n => if d.lstate n = 0 then d else (d.linkEv 0x0605 2 n l.val).linkCause n l.val
      | none => d)) ∧
  (∀ (d : Dev) (l : Fin 96), Makes (.remoteFaultRx l) d (
      let d := d.fs F.lnStatus_farFault 1 (uQuad (l.val / 4)) (l.val % 4)
      match d.linkOfLane l.val with
      | some n => if d.lstate n = 0 then d else (d.linkEv 0x0609 2 n l.val).linkCause n l.val
      | none => d)) ∧
  (∀ (d : Dev) (q : Fin 24), Makes (.refLost q) d (
      let u := uQuad q.val
      let d := ((d.fs F.quadStatus_refOk 0 u).fs F.quadStatus_pllLock 0 u).raise { code := 0x0608, sev := 3, unit := u, d0 := q.val }
      let d := (List.range 4).foldl (fun e k => (e.fs F.lnStatus_blockLock 0 u k).fs F.lnStatus_lstate
        (if e.laneEn (4 * q.val + k) then 1 else 0) u k) d
      let d := (d.linksOfQuad q.val).foldl (fun e n =>
        if e.lstate n = 0 then e else ((e.leaveUp n 0xFFFFFFFF).setLinkSt n {}).setLstate n 1) d
      if 20 ≤ q.val then d.pcieDown else d)) ∧
  (∀ (d : Dev) (q : Fin 24), Makes (.refRetrainTimer q) d (
      (d.linksOfQuad q.val).foldl (fun e n =>
        if e.linkOn n && e.refsOk n && decide (e.lstate n = 1) then (e.setLinkSt n {}).train n 2 else e) d)) ∧
  (∀ (d : Dev) (n : Fin 20), Makes (.fastRetrainTimeout n) d (if (d.link n.val).mode = 1 then d.train n.val 2 else d)) ∧
  (∀ (d : Dev) (n : Fin 20), Makes (.fullTrainTimeout n) d (
      let x := d.link n.val
      if x.mode ≠ 2 then d
      else if x.failed then (d.setLinkSt n.val { x with mode := 0 }).setLstate n.val 5
      else if x.tries < 3 then d.train n.val 2
      else ((d.setLinkSt n.val { x with mode := 0, failed := true }).setLstate n.val 5).linkEv 0x0604 3 n.val 0xFFFFFFFF)) ∧
  (∀ (d : Dev) (n : Fin 20), Makes (.linkFailRetry n) d (if d.lstate n.val = 5 ∧ d.linkOn n.val then d.train n.val 2 else d)) ∧
  (∀ (d : Dev) (n : Fin 8) (up : Bool), Makes (.ethLinkChange n up) d (
      match d.ethLane n.val with
      | none => d
      | some l =>
        let d := (d.fs F.lnStatus_blockLock (bit up) (uQuad (l / 4)) (l % 4)).fs F.lnStatus_lstate (if up then 4 else 1)
          (uQuad (l / 4)) (l % 4)
        d.raise { code := 0x060C, sev := 2, unit := uQuad (l / 4), d0 := n.val })) ∧
  (∀ (d : Dev) (q : Fin 24) (ppm : Int), Makes (.refOkReturn q ppm) d (
      let u := uQuad q.val
      ((d.fs F.quadStatus_refOk 1 u).fs F.quadStatus_refPpm (unsgn 16 ppm) u).fs F.quadStatus_pllLock
        (bit (decide (d.fg F.quadCfg_laneEn u ≠ 0))) u)) ∧
  (∀ (d : Dev), Makes (.perstNRelease) d ({ d with pins := { d.pins with perstN := true } })) ∧
  (∀ (d : Dev) (l : Fin 96),
    Makes (.blockLockAcquired l) d
      (if d.laneTraining l.val then d.fs F.lnStatus_blockLock 1 (uQuad (l.val / 4)) (l.val % 4) else d))

/-- Queue fabric and Ozder events: each answers the next state of its own effect, whatever waits, and changes nothing beside it: queues, interrupts, the pairs and jobs (chapters 4 and 5). -/
def Obligations.QueueAndOzderEvents : Prop :=
  (∀ (d : Dev), Makes (.queueDispatch) d (
      let e := d.dispatch
      let e := match e.qf.ops.getLast? with
        | some o => if d.qf.ops.length < e.qf.ops.length then e.arrived o else e
        | none => e
      e.mdErrors)) ∧
  (∀ (d : Dev) (tag status : Nat) (body : List Byte), Makes (.operationEnd tag status body) d (
      match d.op tag with
      | none => d
      | some o =>
        let st := if d.isHeld o.entry.master || ((d.holdOf true o.unit).isSome && decide (d.own o.unit = stHeld)) then 0x0310 else status
        let d := d.closeTag o
        if o.entry.notify || decide (st ≠ 0) then
          d.answer o.entry.replyQid o.qid o.num (o.completion st (d.fab.marks.contains o.unit) body)
        else d.flushFifo o.qid)) ∧
  (∀ (d : Dev) (qid n : Nat), Makes (.replyPostResume qid n) d (
      let q := d.q qid
      let n := min n q.ents.length
      let d := if q.rstate = 0 then d else d.setQ qid { q with head := q.step q.head n, ents := q.ents.drop n }
      d.drainWaits qid (n + 1))) ∧
  (∀ (d : Dev) (qid : Nat),
    Makes (.tagWaitTimeout qid) d
      (if d.qf.tagWait.contains qid ∧ (d.q qid).cls ≠ 0 then d.raise { code := 0x0308, sev := 2, unit := uQf, d0 := qid } else d)) ∧
  (∀ (d : Dev) (qid : Nat) (done : List (Nat × Nat × List Byte)), Makes (.queueResetDone qid done) d (
      match d.qpOf qid with
      | none => d.resetDone qid done
      | some (n, _) =>
        if (d.q qid).rstate ≠ 3 then d
        else
          let d := d.modMd fun m => { m with cmds := m.cmds.map fun c => match c.orig with
            | .host k _ => if k = n then { c with orig := .dead } else c
            | _ => c }
          (d.resetDone qid []).mdErrors)) ∧
  (∀ (d : Dev) (fn vec : Nat), Makes (.holdoffExpiry fn vec) d (
      let k := fn * 0x1000 + vec
      match tget d.qf.vecs k with
      | none => d
      | some v =>
        if v.fell then
          if v.masked then { d with qf := { d.qf with vecs := tset d.qf.vecs k { v with window := false, fell := false, pend := true } } }
          else { d with qf := { d.qf with vecs := tset d.qf.vecs k { v with window := true, fell := false }, msgs := k :: d.qf.msgs } }
        else { d with qf := { d.qf with vecs := tset d.qf.vecs k { v with window := false } } })) ∧
  (∀ (d : Dev) (pairB : Bool), Makes (.ozLockstepMismatch pairB) d (d.pairFault pairB)) ∧
  (∀ (d : Dev) (pairB : Bool), Makes (.ozWatchdogExpiry pairB) d (d.pairFault pairB)) ∧
  (∀ (d : Dev) (pairB : Bool), Makes (.ozPairRejoin pairB) d (
      if (d.oz.pair pairB).stuck || d.oz.failed then d
      else if d.fg (pairFld pairB) uOzder = 1 then d.fs (pairFld pairB) 2 uOzder
      else if d.fg (pairFld pairB) uOzder = 2 then d.fs (pairFld pairB) 0 uOzder
      else d)) ∧
  (∀ (d : Dev) (pairB double : Bool), Makes (.ozSramEccError pairB double) d (
      if double then
        ((d.fadd F.ozEcc_ue 1 uOzder).raise { code := 0x0414, sev := 4, unit := uOzder }).pairFault pairB
      else (d.fadd F.ozEcc_ce 1 uOzder).raise { code := 0x0413, sev := 1, unit := uOzder })) ∧
  (∀ (d : Dev) (f : Nat), Makes (.mbBootReopenDone f) d (
      match d.bootMbox f with
      | none => d
      | some b =>
        if b.closing ∧ d.allAnswered b ∧ d.serving then
          let d := (d.endMbox b).bootDown f
          if d.bootBad f then d.fs F.mbBootCtl_error 1 uOzder f else d.openBoot f (d.nextBootEpoch f)
        else d)) ∧
  (∀ (d : Dev) (r : Req) (svc verb : Nat),
    Makes (.mbUnknownService r svc verb) d ((d.preGate r svc verb true (decide (1 ≤ svc) && decide (svc ≤ 0x11)) false).getD d)) ∧
  (∀ (nv : Nv) (d : Dev) (job : Nat), MakesBoth (.longVerbComplete job) nv d ((nv, Dev.completeJob nv d job))) ∧
  (∀ (d : Dev) (r : Req) (svc verb : Nat),
    Makes (.mbUnknownVerb r svc verb) d
      ((d.preGate r svc verb (decide (verb ≤ lastVerb svc)) (decide (1 ≤ svc) && decide (svc ≤ 0x11)) false).getD d))

/-- Packets and timers of sensor ingest: each answers the next state of its own effect, whatever waits, and changes nothing beside it: deframers, sources, cameras and back-channels (chapter 8). -/
def Obligations.IngestEvents : Prop :=
  (∀ (d : Dev) (link : Fin 20) (bytes : List Byte), Makes (.bastuPacketRx link bytes) d (
      if d.lstate link.val ≠ 4 then d
      else if headerOk link.val bytes then d.delivered link.val (bytes.take (8 * (rdLe bytes 0 4 % 2 ^ 13)))
      else d.headerErr link.val)) ∧
  (∀ (d : Dev) (link : Fin 8) (src : Fin 16) (crcOk : Bool) (frame width height depth headTime : Nat),
    Makes (.frameStart link src crcOk frame width height depth headTime) d
      (d.startPkt ⟨link, src⟩ crcOk ⟨frame % 4096, width, height, depth, headTime⟩)) ∧
  (∀ (d : Dev) (link : Fin 8) (src : Fin 16) (crcOk room : Bool) (frame line col : Nat) (last : Bool) (px : List Nat),
    Makes (.line link src crcOk room frame line col last px) d
      (d.linePkt ⟨link, src⟩ crcOk room ⟨frame % 4096, line, col, last⟩ px)) ∧
  (∀ (d : Dev) (link : Fin 8) (src : Fin 16) (crcOk : Bool) (frame : Nat),
    Makes (.frameEnd link src crcOk frame) d (d.upPacket ⟨link, src⟩ crcOk fun d => d.frameEnd ⟨link, src⟩ (frame % 4096))) ∧
  (∀ (d : Dev) (link : Fin 8) (src : Fin 16) (crcOk : Bool) (typ : Nat) (bytes : List Byte),
    Makes (.metaPkt link src crcOk typ bytes) d (d.upPacket ⟨link, src⟩ crcOk fun d => d.metaIn ⟨link, src⟩ typ bytes)) ∧
  (∀ (d : Dev) (link : Fin 8) (src : Fin 16) (crcOk : Bool) (tid status : Nat) (bytes : List Byte),
    Makes (.regResp link src crcOk tid status bytes) d
      (d.upPacket ⟨link, src⟩ crcOk fun d => d.regResp link src tid status bytes)) ∧
  (∀ (d : Dev) (link : Fin 8) (tid : Nat), Makes (.bcTimeout link tid) d (
      match d.ing.bc.find? fun o => decide (o.link = link.val) && decide (o.tid = tid) && o.sent with
      | none => d
      | some o =>
        let d := { d with ing := { d.ing with bc := d.ing.bc.filter fun p => decide (p.tid ≠ o.tid) || decide (p.link ≠ link.val) } }
        ((d.raise (inEv 0x0706 2 link)).jobDecided o.job 0x0706).bcPump link)) ∧
  (∀ (d : Dev) (c : Fin 16),
    Makes (.camSkewTimeout c) d
      (if (d.cam c).opn ∧ !(d.cam c).skewPast then (d.modCam c fun s => { s with skewPast := true }).missAll c else d)) ∧
  (∀ (d : Dev) (c : Fin 16), Makes (.camCloseTimeout c) d (if (d.cam c).mems.any (·.closed) then d.closeFrame c false else d)) ∧
  (∀ (d : Dev) (c : Fin 16), Makes (.camFrameTimeout c) d (d.closeFrame c true))

/-- Tile, colour and output events: each answers the next state of its own effect, whatever waits, and changes nothing beside it: stripes, tiles, look-up tables and output streams (chapters 9 to 11). -/
def Obligations.PipelineEvents : Prop :=
  (∀ (d : Dev) (n : Fin 72), Makes (.stripeStart n) d (d.stripeStart (uTile n))) ∧
  (∀ (d : Dev) (n : Fin 72), Makes (.stripeEnd n) d (d.stripeEnd (uTile n))) ∧
  (∀ (d : Dev) (n : Fin 72) (colour : Bool), Makes (.tileTableUe n colour) d (
      let u := uTile n
      let cam := ((tget d.pipe.runs u).map (·.cam)).getD 0
      let d := if colour then (d.fadd F.clEcc_ue 1 u).raise { pxEv 0x0906 (d.sevC0 u) cam u with unit := u }
        else (d.fadd F.pxEcc_ue 1 u).raise { pxEv 0x0808 (d.sevC0 u) cam u with unit := u }
      (d.failTile u).drainTile u true)) ∧
  (∀ (d : Dev) (c : Fin 16) (frame : Nat), Makes (.autoControlRun c frame) d (d.autoRun c frame)) ∧
  (∀ (d : Dev) (c : Fin 16), Makes (.autoLimitTimeout c) d (
      let p := d.pcam c
      if p.autoMask.testBit 1 ∧ (p.curSet.exposure = p.expMin ∨ p.curSet.exposure = p.expMax) then d.raise (pxEv 0x0905 2 c 0xFFFFFFFF)
      else d)) ∧
  (∀ (d : Dev) (g : Fin 18) (slot : Fin 4), Makes (.lutSlotUe g slot) d (
      let u := uTileGroup g
      let cam := ((d.lutSlots g)[slot.val]?).map (·.1)
      let d := (d.fadd F.lutStat_ue 1 u).raise { pxEv 0x0906 (d.sevC0 u) (cam.getD 0) u with unit := u }
      (tilesOf g).foldl (fun e t => match tget e.pipe.runs t with
        | some r => if some r.cam = cam then e.failTile t else e
        | none => e) d)) ∧
  (∀ (d : Dev) (part : Fin 5), Makes (.stripeJobDispatch part) d (d.dispatchJob part)) ∧
  (∀ (d : Dev) (n : Fin 72), Makes (.tileFail n) d (
      match tget d.pipe.runs (uTile n) with
      | none => d
      | some r =>
        let d := { d with pipe := { d.pipe with runs := tdel d.pipe.runs (uTile n) } }.fs F.pxStripe_valid 0 (uTile n)
        let inl := d.inRole (fun x => match x with | .inl _ _ => true | _ => false) (uTile n)
        let d := (d.queueRedo r.cam r.frame r.stripe (d.redoPart r.cam)).raise
          (pxEv 0x0A04 (if inl then 3 else 2) r.cam (memberNo (uTile n)))
        let d := if inl then d.replaceInline (uTile n) r.cam else d.replacePart (uTile n)
        d.drainTile (uTile n) true)) ∧
  (∀ (d : Dev), Makes (.compatSlotWait) d (
      let d := d.takeJobs
      if d.fg F.cptCfg_mode uPipe = 0 then d
      else match d.cptJob with
        | some _ => d
        | none => d.nextSlot)) ∧
  (∀ (d : Dev) (str : Fin 8) (frame : Nat) (hostBad : Bool),
    Makes (.streamFrameDone str frame hostBad) d (d.strDone str frame hostBad)) ∧
  (∀ (d : Dev) (g : Fin 4) (ref : Nat), Makes (.alignDeadline g ref) d (
      let d := d.takeJobs.pruneBufs
      if !d.fb F.algCfg_en uPipe g.val then d
      else
        let late := (List.range 8).filter fun s => d.isMember g.val s && decide (d.strF F.strCfg_grouped s = 1) && !(d.str s).outs.contains ref &&
          decide (ref % max 1 (d.strF F.strDecim_decim s) = d.strF F.strDecim_phase s) &&
          (!(d.str s).stopping || (d.str s).frames.any fun b => decide (b.out = ref))
        (late.foldl (fun e s => e.lateMember g.val ref s) d).settleStops.reap)) ∧
  (∀ (d : Dev) (c : Fin 16) (frame : Nat) (m : Fin 16) (line : Nat) (seen : Option (List Byte)),
    Makes (.pointCVerdict c frame m line seen) d (d.takeJobs.verdictC c frame m line seen))

/-- Codec and integrity events: each answers the next state of its own effect, whatever waits, and changes nothing beside it: coded chunks, verdicts and checks (chapters 12 and 14). -/
def Obligations.CodecAndIntegrityEvents : Prop :=
  (∀ (d : Dev) (seen : Option (List Byte)), Makes (.lineCommit seen) d (
      match d.ing.lines with
      | [] => d
      | j :: js => { d with ing := { d.ing with lines := js } }.commitJob j (seen.getD j.bytes))) ∧
  (∀ (d : Dev) (e : Fin 18) (fault : Fin 3), Makes (.chunkCode e fault) d (d.chunkCode e fault)) ∧
  (∀ (d : Dev) (n : Fin 32) (frame row : Nat) (good : Bool),
    Makes (.srcVerdict n frame row good) d (d.srcVerdict n frame row good)) ∧
  (∀ (d : Dev) (n : Fin 32) (slice : Fin 16), Makes (.sliceMove n slice) d (d.sliceMove n slice)) ∧
  (∀ (d : Dev) (e : Fin 18) (chunk ue : Bool), Makes (.engineFail e chunk ue) d (
      let d := d.psAdmit
      let d := if ue then d.fadd F.psEcc_ue 1 (uEngine e) else d
      d.engineFail e (if chunk then (d.nextChunk e).map fun j => (j.1, j.2.1) else none))) ∧
  (∀ (d : Dev) (n : Fin 32) (slice : Fin 16), Makes (.codecStarvedTimeout n slice) d (
      let d := d.psAdmit
      let st := d.psStr n
      if st.run && st.frames.any (fun f => f.left.contains slice.val) && (d.nextCbuf n).isNone then
        d.raiseOnce n 10000000 (psEv 0x0B0A 2 n (((st.parts[slice.val]?).map (·.seq)).getD 0))
      else d)) ∧
  (∀ (nv : Nv) (d : Dev) (n : Fin 8) (tag : Nat) (host : List Byte),
    MakesBoth (.cvuCheck n tag host) nv d (nvFlush 0 nv (d.cvuOp n tag fun d o => d.cvuCheck n o host))) ∧
  (∀ (d : Dev) (n : Fin 8) (tag : Nat), Makes (.cvuAlive n tag) d (d.cvuOp n tag fun d o => d.cvuAlive n o)) ∧
  (∀ (d : Dev) (n : Fin 8), Makes (.aliveTimeout n) d (
      let u := uCvu n
      if d.fb F.cvuCtl_alEn u ∧ d.fg F.cvuCtl_alTimeout u ≠ 0 ∧ !d.integ.stale.contains n.val then
        (({ d with integ := { d.integ with stale := n.val :: d.integ.stale } }).fadd F.cvuStat_stale 1 u).cvuEv 0x0D05 2 n 0 0
      else d))

/-- Media packets, hosts and recordings: each answers the next state of its own effect, whatever waits, and changes nothing beside it: packs, targets, clips and bursts (chapter 13). -/
def Obligations.MediaEvents : Prop :=
  (∀ (d : Dev) (n q : Fin 8) (ctag : Nat) (cmd : List Byte), Makes (.cmd n q ctag cmd) d (d.tgtCmd n q ctag cmd)) ∧
  (∀ (d : Dev) (n q : Fin 8) (ctag off len : Nat), Makes (.xferRdy n q ctag off len) d (
      match d.pkFind n.val q.val ctag with
      | none => d
      | some c =>
        let bs := sliceB c.data.enc off len
        ((List.range (ceilDiv len 8192)).foldl (fun e i =>
          e.mdSend n.val (mPkt 3 q.val ctag (off + 8192 * i) ((bs.drop (8192 * i)).take 8192))) d).pkBytes n.val len)) ∧
  (∀ (d : Dev) (n q : Fin 8) (ctag off : Nat) (bytes : List Byte),
    Makes (.dataOut n q ctag off bytes) d (d.tgtDataOut n q ctag off bytes)) ∧
  (∀ (d : Dev) (n q : Fin 8) (ctag off : Nat) (bytes : List Byte),
    Makes (.dataIn n q ctag off bytes) d (d.iniDataIn n q ctag off bytes)) ∧
  (∀ (d : Dev) (n q : Fin 8) (ctag status : Nat), Makes (.resp n q ctag status) d (
      match d.pkFind n.val q.val ctag with
      | none => d
      | some c =>
        let d := d.modPport n.val fun p => { p with attempts := 0 }
        let d := if status = 0 then d else d.fadd F.mpCnt_mediaErr 1 (uPack n.val)
        let met := decide (status = 0x0C09) && c.writes
        let d := if status = 0x0C09 then (d.raise (mdEv 0x0C09 2 n.val c.lba)).setPk n.val pkFenced else d
        let d := if met && decide (d.role = roleLead) then d.isolate else d
        ((d.pcmdEnd c status).pumpAll).tgtPumpAll)) ∧
  (∀ (d : Dev) (n q : Fin 8), Makes (.qreset n q) d (d.tgtReset n q)) ∧
  (∀ (d : Dev) (n q : Fin 8) (count : Nat),
    Makes (.qresetDone n q count) d (d.modPport n fun p => { p with reset := some (q.val, count) })) ∧
  (∀ (d : Dev) (n : Fin 8) (serial queues : Nat), Makes (.connect n serial queues) d (d.tgtConnect n serial queues)) ∧
  (∀ (d : Dev) (n : Fin 8) (queues depth burst : Nat) (page : List Byte),
    Makes (.connectAck n queues depth burst page) d (d.connectAck n queues depth burst page)) ∧
  (∀ (d : Dev) (n : Fin 8) (state : Fin 4), Makes (.pm n state) d (
      match d.conn n.val with
      | none => d
      | some _ =>
        if 3 < state.val then d
        else (if n.val < 8 then d.fs F.mpStat_pstate state.val (uPack n.val) else d).mdSend n.val (mPkt 0x0B 0 0 0 (leBytes 1 state.val)))) ∧
  (∀ (d : Dev) (n : Fin 8) (state : Fin 4) (late : Bool), Makes (.pmAck n state late) d (
      let d := if late then d.raise (mdEv 0x0C14 2 n.val) else d
      if d.pkRole n.val ≠ 1 ∨ (d.pkState n.val ≠ pkReady ∧ d.pkState n.val ≠ pkFenced) then d
      else
        let d := d.fs F.mpStat_pstate state.val (uPack n.val)
        let d := if 2 ≤ state.val ∧ d.lstate (12 + n.val) = 4 then ((d.setLinkSt (12 + n.val) {}).setLstate (12 + n.val) (if state.val = 2 then 1 else 0)).modPport n.val
            fun p => { p with queues := 0 }
          else d
        if d.md.pcmds.any fun c => decide (c.port = n.val) then (if state.val = 0 then d.pump n.val else d.pkWake n.val) else d)) ∧
  (∀ (d : Dev) (n q : Fin 8) (ctag : Nat), Makes (.xferTimeout n q ctag) d (
      match d.md.cmds.find? fun m => m.isTag n.val q.val ctag with
      | none => d
      | some m => if m.burst.isSome then d.tgtXfer n.val q.val ctag m else d)) ∧
  (∀ (d : Dev) (n : Fin 8),
    Makes (.packTimeout n) d
      (if d.md.pcmds.any fun c => decide (c.port = n.val) && c.issued then (d.fadd F.mpCnt_timeouts 1 (uPack n)).packFails n else d)) ∧
  (∀ (d : Dev) (n : Fin 8), Makes (.mediaReconnect n) d (
      if d.pkRole n.val ≠ 1 ∨ d.lstate (12 + n.val) ≠ 4 ∨ !(d.pkState n.val = pkDown ∨ d.pkPower n.val ≠ 0) then d
      else
        let again := d.md.pcmds.any fun c => decide (c.port = n.val) && decide (c.ctag ≠ 0)
        let k := (d.pport n.val).attempts
        if again && decide (3 ≤ k) then (d.raise (mdEv 0x0C08 2 n.val)).packFails n.val
        else (d.modPport n.val fun p => { p with attempts := if again then k + 1 else 0 }).pkConnectNow n.val)) ∧
  (∀ (d : Dev) (n : Fin 8) (state : Fin 4), Makes (.idleTimerExpiry n state) d (
      if d.pkRole n = 1 ∧ d.pkState n = pkReady ∧ !d.pkBusy n ∧ d.pkPower n < state.val ∧ d.pkIdle n state then
        d.mdSend n (mPkt 0x0A 0 0 0 (leBytes 1 state.val))
      else d)) ∧
  (∀ (d : Dev) (tag : Nat) (host : List Byte), Makes (.hostMediaSubmit tag host) d (d.hostSubmit tag host)) ∧
  (∀ (d : Dev) (clip au : Nat), Makes (.auWriteDone clip au) d (d.auDone clip au)) ∧
  (∀ (d : Dev) (clip : Nat) (reads : List (Nat × Bool × List Byte)), Makes (.pointEAssembly clip reads) d (
      let d := (d.intakeDone clip).intakeRaw clip 4096
      let d := if d.mayWrite then
          match d.clipRec clip with
          | none => d
          | some r => if 2 ≤ r.phase ∨ !r.started then d else
            let x := d.takeItems clip reads r r.items
            x.1.cutAu x.2
        else d
      (d.feedRec clip).recSettle clip)) ∧
  (∀ (d : Dev),
    Makes (.flushTimer) d (if d.mayWrite then d.md.recs.foldl (fun e r => if r.phase < 2 then e.flushAu r else e) d else d)) ∧
  (∀ (d : Dev) (ring : Nat), Makes (.burstFrameCopy ring) d (d.burstCopy ring)) ∧
  (∀ (d : Dev) (ring : Nat), Makes (.burstDrainDone ring) d (d.drainDone ring))

/-- Scan-out and audio events: each answers the next state of its own effect, whatever waits, and changes nothing beside it: the compositor, its outputs and the audio ports (chapters 16 and 17). -/
def Obligations.ScanAndAudioEvents : Prop :=
  (∀ (d : Dev), Makes (.scanFrameStart) d (
      let d := d.baseIntake
      if d.sc.base.isSome && d.sc.ready.isEmpty then (d.drawTo d.scTim.vActive).fs F.scStat_phase 2 uScan else d.scStart true)) ∧
  (∀ (d : Dev), Makes (.vbMaxExpiry) d (
      let d := d.baseIntake
      if d.sc.base.isSome && d.sc.ready.isEmpty then (d.fadd F.scCnt_repeat 1 uScan).scStart true else d.scStart true)) ∧
  (∀ (d : Dev) (layer : Fin 4) (line : Nat), Makes (.layerUnderrun layer line) d (
      let d := d.drawTo line
      if !d.layerOn layer.val then d
      else
        let d := ((d.fs F.lyCtl_off 1 uScan layer.val).fs F.lyCtl_cause 1 uScan layer.val).fadd F.lyCnt_underrun 1 uScan layer.val
        let d := d.modLayer layer.val fun l => { l with cur := l.cur.map fun x => { x with flags := x.flags ||| 4 } }
        d.raiseOnce layer.val 10000000 (scEv 0x0F02 2 layer.val d.scFrameNo))) ∧
  (∀ (d : Dev) (out : Fin 2) (kind : Fin 3) (lost : Bool) (edid dpcd : List Byte), Makes (.hpdChange out kind lost edid dpcd) d (
      match kind.val with
      | 0 => d.hpdSet out.val false
      | 1 =>
        let d := (d.hpdSet out.val true).modSink out.val fun s => { s with edid := fitB edid 256, dpcd := fitB dpcd 256 }
        if d.outOn out.val then d.dpTrain out.val else d
      | _ =>
        let d := (d.hpdSet out.val false).hpdSet out.val true
        if lost && d.outOn out.val then (d.dpTrain out.val).fadd F.opStat_retrains 1 uScan out.val else d)) ∧
  (∀ (d : Dev) (out : Fin 2), Makes (.hpdLowTimeout out) d (
      if d.hpd out.val || !d.outOn out.val then d
      else ((d.fs F.opStat_state opNoSink uScan out.val).fs F.opStat_lanes 0 uScan out.val).modSink out.val fun _ => {})) ∧
  (∀ (d : Dev) (out : Fin 2),
    Makes (.dpTrainRetry out) d (if d.fg F.opStat_state uScan out.val = opFail ∧ d.outOn out.val then d.dpTrain out.val else d)) ∧
  (∀ (d : Dev) (layer : Fin 4), Makes (.flipEntry layer) d (
      let q := d.fg F.lyCtl_queue uScan layer.val
      if q = 0 ∨ !d.eligible q (d.q q) then d
      else
        let e := d.dispatchFrom q
        match e.qf.ops.getLast? with
        | none => e
        | some o => if d.qf.ops.length < e.qf.ops.length then e.flipDispatched o else e)) ∧
  (∀ (d : Dev) (n : Fin 4) (time : Nat) (frames : List (List Nat)) (cs : List Byte), Makes (.audioBlockDone n time frames cs) d (
      if !d.audLive n then d
      else (if cs = [] then d else d.modAud n fun p => { p with cs := fitB cs 24 }).audGather n time frames false)) ∧
  (∀ (d : Dev) (n : Fin 4) (mask : Nat), Makes (.zcTimeout n mask) d (
      let p := d.aud n
      let open_ := (p.chans.zipIdx).any (fun (c : AudChan × Nat) => mask.testBit c.2 && c.1.waits) || p.evs.any fun e => match e.2 with
        | .start | .stop | .mute _ _ => true
        | _ => false
      if d.audLive n && open_ then
        let d := (d.audNote n d.devNs (.due mask)).fadd F.auCnt_zcTo 1 (uAudioPort n)
        d.raiseOnce n.val 100000000 (d.audEv 0x1007 1 n)
      else d)) ∧
  (∀ (d : Dev) (n : Fin 4), Makes (.mclkLost n) d (
      let live := d.audLive n
      let d := (d.audFs F.auStat_mclkOk 0 n).raise (d.audEv 0x1002 2 n)
      if live then ((d.modAud n fun p => ({ p with mclkLost := true } : AudPort).flag auMclkLost)).audHold n else d)) ∧
  (∀ (d : Dev) (n : Fin 4) (ppm : Int), Makes (.mclkReturn n ppm) d (
      let lost := (d.aud n).mclkLost
      let d := ((d.audFs F.auStat_mclkOk 1 n).audFs F.auStat_mclkPpm (unsgn 16 ppm) n).raise (d.audEv 0x1003 1 n)
      if lost then (d.modAud n fun p => { p with mclkLost := false }).audRelease n else d)) ∧
  (∀ (d : Dev) (n : Fin 4) (aes : Bool) (time : Nat) (frames : List (List Nat)), Makes (.audioRateChange n aes time frames) d (
      let e := d.audRateChange n time frames
      if aes then e else e.audFs F.auStat_mclkOk 0 n)) ∧
  (∀ (d : Dev) (n : Fin 4) (run time : Nat) (frames : List (List Nat)), Makes (.fsGlitch n run time frames) d (
      if d.audLive n && decide (d.audF F.auCfg_master n = 0) && decide (d.audF F.auCfg_mode n ≠ 3) then
        let d := (d.audNote n d.devNs .glitch).fadd F.auCnt_glitch 1 (uAudioPort n)
        let d := d.raiseOnce n.val 10000000 (d.audEv 0x1009 1 n)
        if 8 ≤ run then d.audRateChange n time frames else d
      else d)) ∧
  (∀ (d : Dev) (n : Fin 4), Makes (.aesUnlock n) d (
      if d.audF F.auCfg_mode n = 3 ∧ d.audF F.auStat_aesLock n = 1 then
        ((d.audFs F.auStat_aesLock 0 n).raise (d.audEv 0x1006 2 n)).modAud n (fun p => p.flag auUnlock) |>.audHold n
      else d)) ∧
  (∀ (d : Dev) (n : Fin 4), Makes (.aesRelock n) d (
      if d.audF F.auCfg_mode n = 3 ∧ d.audF F.auStat_aesLock n = 0 then
        ((d.audFs F.auStat_aesLock 1 n).raise (d.audEv 0x1006 2 n 1)).audRelease n
      else d)) ∧
  (∀ (d : Dev) (n : Fin 4), Makes (.nonaudioDetect n) d (
      if d.audF F.auCfg_mode n = 3 ∧ d.audF F.auStat_nonaudio n = 0 then
        ((d.audFs F.auStat_nonaudio 1 n).raise (d.audEv 0x1005 2 n)).modAud n (fun p => p.flag auNonaudio) |>.audHold n
      else d)) ∧
  (∀ (d : Dev) (n : Fin 4),
    Makes (.nonaudioClear n) d (if d.audF F.auStat_nonaudio n = 1 then (d.audFs F.auStat_nonaudio 0 n).audRelease n else d)) ∧
  (∀ (d : Dev) (out : Fin 2) (ok : Bool), Makes (.dpLinkTrainingDone out ok) d (
      if d.fg F.opStat_state uScan out.val ≠ opTraining then d
      else if ok then (d.fs F.opStat_state opActive uScan out.val).modSink out.val fun s => { s with tries := 0 }
      else
        let d := d.modSink out.val fun s => { s with tries := s.tries + 1 }
        if (d.sink out.val).tries < 3 then d else (d.fs F.opStat_state opFail uScan out.val).raise (scEv 0x0F04 2 out.val d.scFrameNo)))

/-- Ethernet, frame timing and timed actions: each answers the next state of its own effect, whatever waits, and changes nothing beside it: frames, edges, launches, triggers and actions (chapter 18). -/
def Obligations.TimeEvents : Prop :=
  (∀ (d : Dev) (port : Fin 8) (bytes : List Byte), Makes (.ethFrameRx port bytes) d (d.ethRx port.val bytes)) ∧
  (∀ (d : Dev) (port : Fin 8) (host : List Byte), Makes (.ethLaunch port host) d (d.ethLaunch port.val host)) ∧
  (∀ (d : Dev), Makes (.frameEdge) d (d.frameEdge)) ∧
  (∀ (d : Dev), Makes (.refInEdge) d (d.refEdge)) ∧
  (∀ (d : Dev), Makes (.refWindowClose) d (
      if d.fg F.ftStat_state uTime ≠ ftLocked ∨ !d.fb F.ftCtl_src uTime then d
      else
        let g := d.tm.gen
        let none_ := if g.seen then 0 else g.noneRow + 1
        let out := g.outRow + 1
        let d := (d.modTm fun x => { x with gen := { x.gen with noneRow := none_, outRow := out, seen := false } }).edgeAt (g.edge + max 1 d.ftPeriod)
        if 3 ≤ none_ ∨ 8 ≤ out then d.loseRef else d)) ∧
  (∀ (d : Dev) (slot : Fin 64), Makes (.timedActionFire slot) d (
      match tget d.tm.acts slot.val with
      | none => d
      | some a =>
        if a.frameRef ∧ a.time = 0 then d
        else
          let e := (d.modTm fun t => { t with stepped := t.stepped.filter (· ≠ slot.val) }).afterFire slot.val a a.time
          (e.fadd F.taCnt_fired 1 uTime).actEffect a a.time)) ∧
  (∀ (d : Dev) (pin : Fin 4), Makes (.trigOutPulseEnd pin) d (
      match tget d.tm.pulses pin.val with
      | none => d
      | some l => d.drivePin pin.val (decide (l = 1)))) ∧
  (∀ (d : Dev) (input : Fin 4) (rising : Bool), Makes (.trigInEdge input rising) d (d.trigEdge input.val rising))

/-- Twin link events: each answers the next state of its own effect, whatever waits, and changes nothing beside it: heartbeats, mirrored packets, attachment and takeover (chapter 19). -/
def Obligations.TwinEvents : Prop :=
  (∀ (d : Dev),
    Makes (.heartbeatSend) d (((if d.hl.fatal && decide (d.role = roleLead) then d.setActive false else d).beatOut).handStep)) ∧
  (∀ (d : Dev) (b : Beat), Makes (.heartbeat b) d (
      let x := d.feedAlive b.alive
      if b.crcOk && x.2 then x.1.validBeat b else x.1.missBeats 1)) ∧
  (∀ (d : Dev), Makes (.heartbeatTimeout) d ((d.missBeats (4 - min 4 d.bank.missed)).partnerLost 1)) ∧
  (∀ (d : Dev) (level : Bool), Makes (.twinPresentChange level) d (
      let fell := d.pins.twinPresent && !level
      let d := { d.fs F.twStat_present (bit level) uTwin with pins := { d.pins with twinPresent := level } }
      if fell then d.partnerLost 3 else d)) ∧
  (∀ (d : Dev),
    Makes (.twinLinkWaitTimeout) d
      (if d.tw.waiting && !d.twUp then ((d.setTwRole roleSolo).modTw fun t => { t with waiting := false }).twEv 0x1201 1 else d)) ∧
  (∀ (d : Dev) (packs : List (Nat × List (Nat × List Byte))), Makes (.takeover packs) d (
      if d.tw.lost && decide (d.role = roleShadow) && d.isHot then
        let d := d.takeRole.modTw fun t => { t with attached := false }
        (d.twEv 0x1204 3 d.pairEpoch).leadOn packs
      else d)) ∧
  (∀ (d : Dev) (epoch : Nat) (crcOk : Bool) (mseq : Nat) (link : Fin 8) (inner : List (Nat × Inner)),
    Makes (.mirror epoch crcOk mseq link inner) d (d.mirrorIn epoch crcOk mseq link inner)) ∧
  (∀ (d : Dev), Makes (.mirrorCloseTimeout) d (
      if d.tw.inner.isEmpty then d
      else
        let body := d.tw.inner.flatMap fun p => leBytes 8 p.1 ++ p.2
        (d.twSend 2 d.tw.mseq (d.tw.innerLink + d.tw.inner.length * 256) body).modTw fun t => { t with mseq := (t.mseq + 1) % 65536, inner := [] })) ∧
  (∀ (d : Dev) (epoch : Nat) (crcOk : Bool) (seg off : Nat) (bytes : List Byte),
    Makes (.state epoch crcOk seg off bytes) d (d.twRx epoch crcOk fun d => d.twState seg off bytes)) ∧
  (∀ (d : Dev) (epoch : Nat) (crcOk : Bool) (bytes : Nat),
    Makes (.stateAck epoch crcOk bytes) d (d.twRx epoch crcOk fun d => d.modTw fun t => { t with acked := bytes })) ∧
  (∀ (d : Dev) (epoch : Nat) (crcOk : Bool) (clip auseq rseq start bytes : Nat) (sha : List Nat),
    Makes (.clipsync epoch crcOk clip auseq rseq start bytes sha) d
      (d.twRx epoch crcOk fun d => if d.role = roleShadow then d.clipMark clip ⟨auseq, rseq, start, bytes, sha⟩ else d)) ∧
  (∀ (d : Dev) (crcOk : Bool) (start : Nat),
    Makes (.handoverReq crcOk start) d
      (if crcOk && decide (d.role = roleShadow) && d.isHot then d.modTw fun t => { t with handing := true, handAt := start } else d)) ∧
  (∀ (d : Dev) (crcOk : Bool) (packs : List (Nat × List (Nat × List Byte))),
    Makes (.handoverGo crcOk packs) d (if crcOk then d.handoverGo packs else d)) ∧
  (∀ (d : Dev) (epoch : Nat) (crcOk : Bool), Makes (.handoverDone epoch crcOk) d (if crcOk then d.handoverDone epoch else d)) ∧
  (∀ (d : Dev) (crcOk : Bool), Makes (.detach crcOk) d (
      if crcOk && decide (d.role = roleLead) then
        (d.modTw fun t => { t with attached := false, attaching := false, peerHot := false, peerRole := some 0 }).twEv 0x1207 2
      else d)) ∧
  (∀ (d : Dev) (crcOk : Bool) (major : Nat), Makes (.attachReq crcOk major) d (if crcOk then d.attachReq major else d)) ∧
  (∀ (d : Dev) (crcOk : Bool) (reason : Nat), Makes (.attachRefuse crcOk reason) d (if crcOk then d.attachRefused reason else d)) ∧
  (∀ (d : Dev) (crcOk : Bool),
    Makes (.hot crcOk) d
      (if crcOk && decide (d.role = roleLead) then d.modTw fun t => { t with peerHot := true, attaching := false } else d)) ∧
  (∀ (d : Dev) (epoch : Nat) (crcOk : Bool) (bytes : List Byte),
    Makes (.twinMsg epoch crcOk bytes) d
      (d.twRx epoch crcOk fun d => d.modTw fun t => { t with msgs := t.msgs ++ [fitB bytes 64] })) ∧
  (∀ (d : Dev), Makes (.attachBaseFreeze) d (
      if !d.tw.freezing then d
      else
        let body := leBytes (4 + d.freeVal % 2 ^ 24) d.useFree.freeVal
        let base := body ++ leBytes 4 (crc32c body)
        let d := d.useFree.useFree.modTw fun t => { t with freezing := false, attached := true, base := base, acked := 0 }
        (List.range (base.length / 65504 + 1)).foldl (fun (e : Dev) i => e.twSend 3 i (65504 * i) ((base.drop (65504 * i)).take 65504)) d))

/-- Chain packets: each answers the next state of its own effect, whatever waits, and changes nothing beside it: flooded and hop packets of a chain (chapter 19). -/
def Obligations.ChainEvents : Prop :=
  (∀ (d : Dev) (h : CHead) (frame edge send : Nat),
    Makes (.sync h frame edge send) d (d.flooded 1 h (syncBody frame edge send) fun d => d.syncIn frame edge h.port.val)) ∧
  (∀ (d : Dev) (h : CHead) (block : List Byte),
    Makes (.action h block) d (d.flooded 2 h (fitB block 32) fun d => d.actionIn (fitB block 32) h.port.val)) ∧
  (∀ (d : Dev) (h : CHead) (entry : List Byte),
    Makes (.chainMsg h entry) d (d.flooded 3 h (fitB entry 64) fun d => d.msgIn h.origin h.seq (fitB entry 64))) ∧
  (∀ (d : Dev) (h : CHead) (pt : Nat) (q : Fin 8) (ctag p1 : Nat) (bytes : List Byte), Makes (.media h pt q ctag p1 bytes) d (
      d.chRx h fun d =>
        if !d.fb F.mdCfg_ext uMedia then d
        else if h.dest = d.chNodeId then d.tgtPacket (0x1000 + h.origin) pt q.val ctag p1 bytes
        else
          match d.route h.dest with
          | none => d.chCfg h.dest
          | some k => if d.cpState k = cpUp then d.chRaw k 4 h.origin h.dest (h.hops + 1) h.seq (mPkt pt q.val ctag p1 bytes) else d)) ∧
  (∀ (d : Dev) (h : CHead) (send reply : Nat), Makes (.probe h send reply) d (d.hopRx h fun d => d.probeIn h send reply)) ∧
  (∀ (d : Dev), Makes (.probeSend) d (
      if !d.joinedRig then d
      else ((List.range 3).filter fun k => decide (cpUp ≤ d.cpState k)).foldl
        (fun (e : Dev) k => (e.chSend k 5 allNodes (leBytes 8 e.stamp ++ leBytes 8 0)).sendTopo k) d)) ∧
  (∀ (d : Dev) (h : CHead) (serial : Nat), Makes (.topo h serial) d (d.hopRx h fun d => d.topoIn h serial))

/-- Temperature, self-test and error events: each answers the next state of its own effect, whatever waits, and changes nothing beside it: samples, schedules, tests and the handling of errors (chapters 15 and 20). -/
def Obligations.HealthEvents : Prop :=
  (∀ (nv : Nv) (d : Dev) (n : Nat) (se ue : List Nat), MakesBoth (.hbmScrubStep n se ue) nv d (nvFlush 0 nv (d.hbmScrub n se ue))) ∧
  (∀ (nv : Nv) (d : Dev) (stack : Fin 2) (t : Int) (fails : Nat),
    MakesBoth (.hbmTempRead stack t fails) nv d (nvFlush fails nv (d.stackTemp stack.val t))) ∧
  (∀ (nv : Nv) (d : Dev) (raw : List Int) (fails : Nat),
    MakesBoth (.thermSample raw fails) nv d (nvFlush fails nv (d.thermSample raw true))) ∧
  (∀ (d : Dev), Makes (.fastScheduleExit) d (
      if sgn 12 (d.fg F.thStat_temp uTherm) < 744 ∧ d.tsTemp 24 < 624 ∧ d.tsTemp 25 < 624 ∧ !d.fb F.thStat_rise uTherm then
        d.setFast false (d.fg F.thStat_hottest uTherm) (sgn 12 (d.fg F.thStat_temp uTherm))
      else d)) ∧
  (∀ (d : Dev), Makes (.riseBonusEnd) d ((d.fs F.thStat_rise 0 uTherm).syncLevel)) ∧
  (∀ (nv : Nv) (d : Dev) (u : Nat) (res : List (Nat × Bool × Bool × Nat)) (fails : Nat),
    MakesBoth (.selftestDone u res fails) nv d (nvFlush fails nv (d.selftestDone u res))) ∧
  (∀ (d : Dev) (u : Nat), Makes (.selftestRetest u) d (
      let h := d.histOf u
      if h.retest && !h.excluded && decide (d.own u = stUnusable) && d.firmware then
        (d.setHist u { h with retest := false }).askTest u 0 false
      else d)) ∧
  (∀ (d : Dev), Makes (.rollTick) d (if d.hl.rollPeriod = 0 ∨ !d.serving then d else d.rollStep)) ∧
  (∀ (nv : Nv) (d : Dev) (fails : Nat), MakesBoth (.eventHandling fails) nv d (nvFlush fails nv d.handleEvent)) ∧
  (∀ (d : Dev) (stack : Fin 2), Makes (.standbySelfRefreshReentry stack) d (
      if d.standby ∧ d.hbm.woken.contains stack.val then
        ({ d with hbm := { d.hbm with woken := d.hbm.woken.filter (· ≠ stack.val) } }).fs F.hsStat_selfRef 1 (uStack stack.val)
      else d))

/-- Frames of chapters 1 to 3, 6, 14 and 15 (units, bank, register interface, start-up, integrity and HBM): each command answers a next state; what waits stays, what survives RST_N stays or, where the command may write it, only blows fuses, and every part
of the device but those named for it stays. -/
def Obligations.CoreFrames : Prop :=
  (∀ (s : State) (m u : Nat), issued m = true → Completes (.ucbWake m u) s (Part.answerAnd [.bank])) ∧
  (∀ (s : State) (m u : Nat), issued m = true → Completes (.ucbDrain m u) s (Part.answerAnd [.bank])) ∧
  (∀ (s : State) (m u : Nat), issued m = true → Completes (.ucbSleep m u) s (Part.answerAnd [.bank])) ∧
  (∀ (s : State) (m u : Nat), issued m = true → Completes (.ucbOff m u) s (Part.answerAnd [.bank])) ∧
  (∀ (s : State) (m u : Nat), issued m = true → Completes (.ucbReload m u) s (Part.answerAnd [.bank])) ∧
  (∀ (s : State) (n : Fin 64), Completes (.domainPowerGood n) s [.bank]) ∧
  (∀ (s : State) (u : Nat) (good : Bool), Completes (.reloadComplete u good) s [.fab, .bank]) ∧
  (∀ (s : State) (u : Nat), Completes (.drainComplete u) s [.bank, .hl]) ∧
  (∀ (s : State) (n : Fin 64), Completes (.domainPowerLost n) s [.fab, .bank]) ∧
  (∀ (s : State) (u n : Nat), Completes (.paceWindow u n) s []) ∧
  (∀ (s : State) (g : Nat), Completes (.paceOkTimeout g) s [.bank]) ∧
  (∀ (s : State) (g : Nat), Completes (.bandRiseDeferred g) s [.bank]) ∧
  (∀ (s : State), Completes (.governorRun) s [.bank]) ∧
  (∀ (s : State) (m u : Nat), issued m = true → Completes (.ucbPaceMinRead m u) s [.fab]) ∧
  (∀ (s : State) (m u : Nat), issued m = true → Completes (.ucbEventRead m u) s [.fab]) ∧
  (∀ (s : State) (m u : Nat) (v : Word), issued m = true → Completes (.actLevelSet m u v) s (Part.answerAnd [.bank])) ∧
  (∀ (s : State), Completes (.bankDecide) s [.bank]) ∧
  (∀ (s : State) (u : Nat), Completes (.pipRelease u) s [.bank]) ∧
  (∀ (s : State) (m : Nat) (v : Word), issued m = true → Completes (.bankCeilWrite m v) s Part.answer) ∧
  (∀ (s : State) (m : Nat) (v : Word), issued m = true → Completes (.bankReserveWrite m v) s Part.answer) ∧
  (∀ (s : State) (m : Nat) (v : Word), issued m = true → Completes (.bankVoltReq m v) s (Part.answerAnd [.bank])) ∧
  (∀ (s : State) (u : Nat), Completes (.c0GrantLateTimeout u) s [.bank]) ∧
  (∀ (s : State) (u : Nat), Completes (.grantWaitTimeout u) s [.bank]) ∧
  (∀ (s : State) (meas : List Nat), Completes (.currentMonitorWindow meas) s [.bank]) ∧
  (∀ (s : State) (n : Fin 64), Completes (.overdraw n) s [.fab, .bank, .hl]) ∧
  (∀ (s : State) (n : Fin 64), Completes (.overdrawOff n) s [.fab, .bank]) ∧
  (∀ (s : State), Completes (.forceShedTimeout) s [.bank]) ∧
  (∀ (s : State), Completes (.peerValidLost) s []) ∧
  (∀ (s : State) (m : Nat), issued m = true → Completes (.bankOvrRead m) s [.fab]) ∧
  (∀ (s : State) (m : Nat), issued m = true → Completes (.bankPeakRead m) s [.fab]) ∧
  (∀ (s : State) (cut : Bool), Stores (.pwrGoodFall cut) s [.bank, .boot, .hl, .pins]) ∧
  (∀ (s : State), Completes (.rstNAssert) s Part.all) ∧
  (∀ (s : State) (sel : Fin 4), Stores (.rstNRelease sel) s Part.all) ∧
  (∀ (s : State) (statusWord vout iout : Nat), Completes (.pmbAlert statusWord vout iout) s []) ∧
  (∀ (s : State) (m a size : Nat) (ws : List (Word × Bool)) (x : Shown),
    issued m = true → Stores (.regWrite m a size ws x) s Part.all) ∧
  (∀ (s : State) (isUnit : Bool) (id : Nat), Completes (.heldOpsClosed isUnit id) s [.qf, .hbm, .host]) ∧
  (∀ (s : State) (m : Nat) (a : Fin 0x1000000) (size : Nat) (ws : List (Word × Bool)) (x : Shown),
    issued m = true → Stores (.bitAliasWrite m a size ws x) s Part.all) ∧
  (∀ (s : State) (m addr : Nat), issued m = true → Completes (.counter64LowRead m addr) s [.fab]) ∧
  (∀ (s : State) (m index : Nat), issued m = true → Completes (.lockCtlGo m index) s Part.answer) ∧
  (∀ (s : State) (m : Nat) (v : Word), issued m = true → Completes (.lockCtlGlobal m v) s Part.answer) ∧
  (∀ (s : State) (m : Nat) (hi : Bool) (v : Word), issued m = true → Completes (.privVfWrite m hi v) s Part.answer) ∧
  (∀ (s : State) (m : Nat), issued m = true → Completes (.holdScanRead m) s [.fab]) ∧
  (∀ (s : State) (m : Nat) (v : Word), issued m = true → Completes (.holdReleaseWrite m v) s Part.answer) ∧
  (∀ (s : State) (m : Nat), issued m = true → Completes (.accLogRead m) s [.fab]) ∧
  (∀ (s : State) (m : Nat), issued m = true → Completes (.parLogRead m) s [.fab]) ∧
  (∀ (s : State) (bad : List (Nat × Word)) (slots : List Nat), Completes (.scrubVisit bad slots) s [.fab, .bank]) ∧
  (∀ (s : State) (m a : Nat) (wr : Bool) (n : Nat) (bytes : List Byte) (se ue : List Nat) (die : Nat),
    issued m = true → Stores (.bar1Access m a wr n bytes se ue die) s (Part.answerAnd [.boot])) ∧
  (∀ (s : State) (m : Nat) (v : Word) (img : List Byte),
    issued m = true → Stores (.bootHostGo m v img) s (Part.answerAnd [.bank, .boot])) ∧
  (∀ (s : State) (spares : List (Nat × Nat)) (failed sizes div : List Nat),
    Stores (.hbmTrainDone spares failed sizes div) s [.hbm, .boot]) ∧
  (∀ (s : State) (img : List Byte), Stores (.hbmSegmentLoad img) s [.hbm, .bank, .boot, .hl]) ∧
  (∀ (s : State), Stores (.updateRestartReset) s Part.all) ∧
  (∀ (s : State), Completes (.debugNonceExpiry) s [.boot]) ∧
  (∀ (s : State) (seen : Option (List Byte)), Completes (.lineCommit seen) s [.hbm, .ing]) ∧
  (∀ (s : State) (n : Fin 8) (tag : Nat) (host : List Byte), Stores (.cvuCheck n tag host) s (Part.answerAnd [.boot])) ∧
  (∀ (s : State) (n : Fin 8) (tag : Nat), Completes (.cvuAlive n tag) s [.qf, .hbm, .host, .integ]) ∧
  (∀ (s : State) (n : Fin 8), Completes (.aliveTimeout n) s [.integ]) ∧
  (∀ (s : State) (m : Nat) (n : Fin 8) (v : Word), issued m = true → Completes (.cvuCtlWrite m n v) s (Part.answerAnd [.integ])) ∧
  (∀ (s : State) (m : Nat) (n : Fin 8) (alive : Bool), issued m = true → Completes (.cvuCounterRead m n alive) s [.fab]) ∧
  (∀ (s : State) (m : Nat) (second : Bool), issued m = true → Completes (.rcMismRead m second) s [.fab]) ∧
  (∀ (s : State) (m i : Nat), issued m = true → Completes (.rgnRead m i) s Part.answer) ∧
  (∀ (s : State) (m i : Nat), issued m = true → Completes (.rgnWrite m i) s Part.answer) ∧
  (∀ (s : State) (m i : Nat), issued m = true → Completes (.rgnClear m i) s Part.answer) ∧
  (∀ (s : State) (m i : Nat), issued m = true → Completes (.rgnOpUnused m i) s Part.answer) ∧
  (∀ (s : State) (m : Nat) (n : Fin 64) (v : Word) (lanes : Nat), issued m = true → Completes (.pcTrGo m n v lanes) s Part.answer) ∧
  (∀ (s : State) (n : Nat) (se ue : List Nat), Stores (.hbmScrubStep n se ue) s [.hbm, .boot]) ∧
  (∀ (s : State) (stack : Fin 2) (t : Int) (fails : Nat),
    Stores (.hbmTempRead stack t fails) s [.fab, .bank, .boot, .hl, .pins, .tw]) ∧
  (∀ (s : State) (m : Nat) (n : Fin 64) (ecc : Bool), issued m = true → Completes (.pcCounterRead m n ecc) s [.fab]) ∧
  (∀ (s : State) (stack : Fin 2), Completes (.standbySelfRefreshReentry stack) s [.hbm])

/-- Frames of chapters 4 and 5 and the services SYS, LOG, UPDATE and ATTEST: each command answers a next state; what waits stays, what survives RST_N stays or, where the command may write it, only blows fuses, and every part
of the device but those named for it stays. -/
def Obligations.QueueAndOzderFrames : Prop :=
  (∀ (s : State) (g : Nat), Completes (.paceLowTimeout g) s [.bank, .hl, .pipe, .ps]) ∧
  (∀ (s : State) (m qid off size v : Nat) (ring : List Byte),
    issued m = true → Completes (.dbTailWrite m qid off size v ring) s Part.answer) ∧
  (∀ (s : State) (m qid off : Nat) (bytes : List Byte), issued m = true → Completes (.dbPush m qid off bytes) s Part.answer) ∧
  (∀ (s : State) (m qid : Nat), issued m = true → Completes (.dbStart m qid) s Part.answer) ∧
  (∀ (s : State) (m qid : Nat), issued m = true → Completes (.dbStop m qid) s Part.answer) ∧
  (∀ (s : State) (m qid : Nat), issued m = true → Completes (.dbReset m qid) s Part.answer) ∧
  (∀ (s : State), Completes (.queueDispatch) s (Part.answerAnd [.tm, .md])) ∧
  (∀ (s : State) (tag status : Nat) (body : List Byte), Completes (.operationEnd tag status body) s [.qf, .hbm, .host]) ∧
  (∀ (s : State) (qid n : Nat), Completes (.replyPostResume qid n) s [.qf, .hbm, .host]) ∧
  (∀ (s : State) (qid : Nat), Completes (.tagWaitTimeout qid) s []) ∧
  (∀ (s : State) (fn vec : Nat), Completes (.holdoffExpiry fn vec) s [.qf]) ∧
  (∀ (s : State) (m qid : Nat), issued m = true → Completes (.qfRead m qid) s Part.answer) ∧
  (∀ (s : State) (m qid : Nat), issued m = true → Completes (.qfCreate m qid) s Part.answer) ∧
  (∀ (s : State) (m qid : Nat), issued m = true → Completes (.qfDestroy m qid) s Part.answer) ∧
  (∀ (s : State) (m qid : Nat), issued m = true → Completes (.qfRetarget m qid) s Part.answer) ∧
  (∀ (s : State) (m qid : Nat), issued m = true → Completes (.qfStart m qid) s Part.answer) ∧
  (∀ (s : State) (m qid : Nat), issued m = true → Completes (.qfStop m qid) s Part.answer) ∧
  (∀ (s : State) (m qid : Nat), issued m = true → Completes (.qfReset m qid) s Part.answer) ∧
  (∀ (s : State) (m qid : Nat), issued m = true → Completes (.qfOpUnused m qid) s Part.answer) ∧
  (∀ (s : State) (m : Nat), issued m = true → Completes (.qfRoleRead m) s [.fab]) ∧
  (∀ (s : State) (pairB : Bool), Completes (.ozLockstepMismatch pairB) s []) ∧
  (∀ (s : State) (pairB : Bool), Completes (.ozWatchdogExpiry pairB) s []) ∧
  (∀ (s : State) (pairB : Bool), Completes (.ozPairRejoin pairB) s []) ∧
  (∀ (s : State) (pairB double : Bool), Completes (.ozSramEccError pairB double) s []) ∧
  (∀ (s : State) (m : Nat) (v : Word), issued m = true → Completes (.mbBootGo m v) s Part.answer) ∧
  (∀ (s : State) (f : Nat), Completes (.mbBootReopenDone f) s [.qf, .hbm, .host]) ∧
  (∀ (s : State) (r : Req) (svc verb : Nat), Completes (.mbUnknownService r svc verb) s Part.answer) ∧
  (∀ (s : State) (job : Nat), Completes (.longVerbComplete job) s (Part.answerAnd [.bank, .tm, .tw, .ch, .md, .sc])) ∧
  (∀ (s : State) (r : Req), Completes (.sysInfo r) s (Part.answerAnd [.tw])) ∧
  (∀ (s : State) (r : Req), Completes (.sysOpen r) s (Part.answerAnd [.tw])) ∧
  (∀ (s : State) (r : Req), Completes (.sysClose r) s (Part.answerAnd [.tw])) ∧
  (∀ (s : State) (r : Req), Completes (.sysQueueCreate r) s (Part.answerAnd [.tw])) ∧
  (∀ (s : State) (r : Req), Completes (.sysQueueDestroy r) s (Part.answerAnd [.tw])) ∧
  (∀ (s : State) (r : Req), Completes (.sysPrivSet r) s (Part.answerAnd [.tw])) ∧
  (∀ (s : State) (r : Req), Completes (.sysBankSet r) s (Part.answerAnd [.tw])) ∧
  (∀ (s : State) (r : Req), Completes (.sysHoldList r) s (Part.answerAnd [.tw])) ∧
  (∀ (s : State) (r : Req), Completes (.sysHoldRelease r) s (Part.answerAnd [.tw])) ∧
  (∀ (s : State) (r : Req), Completes (.sysUnitQuery r) s (Part.answerAnd [.tw])) ∧
  (∀ (s : State) (r : Req), Completes (.sysUnitCmd r) s (Part.answerAnd [.bank, .tw])) ∧
  (∀ (s : State) (r : Req), Completes (.sysJobStatus r) s (Part.answerAnd [.tw])) ∧
  (∀ (s : State) (r : Req), Completes (.sysPing r) s (Part.answerAnd [.tw])) ∧
  (∀ (s : State) (r : Req), Completes (.logInfo r) s (Part.answerAnd [.tw])) ∧
  (∀ (s : State) (r : Req), Completes (.logSubscribe r) s (Part.answerAnd [.tw])) ∧
  (∀ (s : State) (r : Req), Completes (.logUnsubscribe r) s (Part.answerAnd [.tw])) ∧
  (∀ (s : State) (r : Req), Completes (.logRead r) s (Part.answerAnd [.tw])) ∧
  (∀ (s : State) (r : Req), Stores (.logNvmRead r) s (Part.answerAnd [.tw])) ∧
  (∀ (s : State) (r : Req), Completes (.logMark r) s (Part.answerAnd [.tw])) ∧
  (∀ (s : State) (r : Req), Completes (.logStats r) s (Part.answerAnd [.tw])) ∧
  (∀ (s : State) (quads : List (Fin 24 × Word)),
    Completes (.serviceReady quads) s [.fab, .qf, .hbm, .bank, .hl, .tw, .ln, .pipe, .ps, .md]) ∧
  (∀ (s : State) (r : Req), Stores (.updateInfo r) s (Part.answerAnd [.tw])) ∧
  (∀ (s : State) (r : Req), Stores (.updateBegin r) s (Part.answerAnd [.boot, .tw])) ∧
  (∀ (s : State) (r : Req), Stores (.updateWrite r) s (Part.answerAnd [.boot, .tw])) ∧
  (∀ (s : State) (r : Req), Stores (.updateVerify r) s (Part.answerAnd [.boot, .tw])) ∧
  (∀ (s : State) (r : Req), Stores (.updateActivate r) s (Part.answerAnd [.boot, .tw])) ∧
  (∀ (s : State) (r : Req), Stores (.updateConfirm r) s (Part.answerAnd [.tw])) ∧
  (∀ (s : State) (r : Req), Stores (.updateAbort r) s (Part.answerAnd [.boot, .tw])) ∧
  (∀ (s : State) (r : Req), Stores (.updateRestart r) s (Part.answerAnd [.boot, .tw])) ∧
  (∀ (s : State) (r : Req), Stores (.updateSvnAdvance r) s (Part.answerAnd [.tw])) ∧
  (∀ (s : State) (r : Req), Stores (.updateKeyAdd r) s (Part.answerAnd [.tw])) ∧
  (∀ (s : State) (r : Req), Stores (.updateRevoke r) s (Part.answerAnd [.tw])) ∧
  (∀ (s : State) (r : Req), Stores (.attestInfo r) s (Part.answerAnd [.tw])) ∧
  (∀ (s : State) (r : Req), Stores (.attestReport r) s (Part.answerAnd [.tw])) ∧
  (∀ (s : State) (r : Req), Stores (.attestCert r) s (Part.answerAnd [.tw])) ∧
  (∀ (s : State) (r : Req), Stores (.attestDebugChallenge r) s (Part.answerAnd [.boot, .hl, .tw])) ∧
  (∀ (s : State) (r : Req), Stores (.attestDebugUnlock r) s (Part.answerAnd [.boot, .tw])) ∧
  (∀ (s : State) (link : Fin 20) (bytes : List Byte), Completes (.bastuPacketRx link bytes) s [.tw, .ln, .ing]) ∧
  (∀ (s : State) (m : Nat), issued m = true → Completes (.ozEccRead m) s [.fab]) ∧
  (∀ (s : State) (r : Req) (svc verb : Nat), Completes (.mbUnknownVerb r svc verb) s Part.answer)

/-- Frames of chapters 7 and 8 (lanes, links, PCIe, cameras and INGEST): each command answers a next state; what waits stays, what survives RST_N stays, and every part
of the device but those named for it stays. -/
def Obligations.LaneAndIngestFrames : Prop :=
  (∀ (s : State), Completes (.perstNAssert) s [.fab, .qf, .pins]) ∧
  (∀ (s : State) (f : Fin 64), Completes (.pcieFlr f) s [.qf]) ∧
  (∀ (s : State), Completes (.pcieLinkDown) s [.fab, .qf]) ∧
  (∀ (s : State) (width rate : Nat), Completes (.pcieLinkUp width rate) s []) ∧
  (∀ (s : State) (status : Word), Completes (.pcieAerError status) s []) ∧
  (∀ (s : State) (m : Nat) (q : Fin 24) (v : Word),
    issued m = true → Completes (.quadCfgWrite m q v) s (Part.answerAnd [.tw, .ln, .md])) ∧
  (∀ (s : State) (m : Nat) (n : Fin 8) (v : Word),
    issued m = true → Completes (.lnkMapWrite m n v) s (Part.answerAnd [.tw, .ln, .md])) ∧
  (∀ (s : State) (m : Nat) (l : Fin 96), issued m = true → Completes (.lnCtlRetrain m l) s (Part.answerAnd [.tw, .ln, .md])) ∧
  (∀ (s : State) (m : Nat) (l : Fin 96), issued m = true → Completes (.lnCtlFull m l) s (Part.answerAnd [.tw, .ln, .md])) ∧
  (∀ (s : State) (l : Fin 96) (far tap act seq : Nat), Completes (.linkBlockRx l far tap act seq) s [.ln]) ∧
  (∀ (s : State) (n : Fin 20) (skew : Nat) (col : List (Nat × Nat × Nat)),
    Completes (.alignColumnRx n skew col) s [.tw, .ln, .md]) ∧
  (∀ (s : State) (l : Fin 96), Completes (.blockLockLost l) s [.tw, .ln, .md]) ∧
  (∀ (s : State) (l : Fin 96), Completes (.elasticOverflow l) s [.tw, .ln, .md]) ∧
  (∀ (s : State) (l : Fin 96), Completes (.remoteFaultRx l) s [.tw, .ln, .md]) ∧
  (∀ (s : State) (q : Fin 24), Completes (.refLost q) s [.fab, .qf, .tw, .ln, .md]) ∧
  (∀ (s : State) (q : Fin 24), Completes (.refRetrainTimer q) s [.ln]) ∧
  (∀ (s : State) (n : Fin 20), Completes (.fastRetrainTimeout n) s [.ln]) ∧
  (∀ (s : State) (n : Fin 20), Completes (.fullTrainTimeout n) s [.ln]) ∧
  (∀ (s : State) (n : Fin 20), Completes (.linkFailRetry n) s [.ln]) ∧
  (∀ (s : State) (n : Fin 8) (up : Bool), Completes (.ethLinkChange n up) s []) ∧
  (∀ (s : State) (m : Nat) (n : Fin 20), issued m = true → Completes (.lnkStatRead m n) s [.fab]) ∧
  (∀ (s : State) (m : Nat) (l : Fin 96) (which : Fin 4), issued m = true → Completes (.lnCounterRead m l which) s [.fab]) ∧
  (∀ (s : State) (link : Fin 8) (src : Fin 16) (crcOk : Bool) (frame width height depth headTime : Nat),
    Completes (.frameStart link src crcOk frame width height depth headTime) s [.hbm, .bank, .hl, .ing, .pipe, .ps, .md]) ∧
  (∀ (s : State) (link : Fin 8) (src : Fin 16) (crcOk room : Bool) (frame line col : Nat) (last : Bool) (px : List Nat),
    Completes (.line link src crcOk room frame line col last px) s [.ing]) ∧
  (∀ (s : State) (link : Fin 8) (src : Fin 16) (crcOk : Bool) (frame : Nat),
    Completes (.frameEnd link src crcOk frame) s [.hbm, .ing, .pipe, .ps, .md]) ∧
  (∀ (s : State) (link : Fin 8) (src : Fin 16) (crcOk : Bool) (typ : Nat) (bytes : List Byte),
    Completes (.metaPkt link src crcOk typ bytes) s []) ∧
  (∀ (s : State) (link : Fin 8) (src : Fin 16) (crcOk : Bool) (tid status : Nat) (bytes : List Byte),
    Completes (.regResp link src crcOk tid status bytes) s [.hbm, .host, .ing]) ∧
  (∀ (s : State) (link : Fin 8) (tid : Nat), Completes (.bcTimeout link tid) s [.ing]) ∧
  (∀ (s : State) (c : Fin 16), Completes (.camSkewTimeout c) s [.ing]) ∧
  (∀ (s : State) (c : Fin 16), Completes (.camCloseTimeout c) s [.hbm, .ing, .pipe, .ps, .md]) ∧
  (∀ (s : State) (c : Fin 16), Completes (.camFrameTimeout c) s [.hbm, .ing, .pipe, .ps, .md]) ∧
  (∀ (s : State) (m : Nat) (c : Fin 16) (v : Word),
    issued m = true → Completes (.camEnable m c v) s (Part.answerAnd [.ing, .pipe])) ∧
  (∀ (s : State) (m : Nat) (c : Fin 16) (v : Word),
    issued m = true → Completes (.camDisable m c v) s (Part.answerAnd [.ing, .pipe])) ∧
  (∀ (s : State) (m : Nat) (link : Fin 8), issued m = true → Completes (.dfStatRead m link) s [.fab]) ∧
  (∀ (s : State) (m : Nat) (link : Fin 8) (src : Fin 16), issued m = true → Completes (.srcStatRead m link src) s [.fab]) ∧
  (∀ (s : State) (m : Nat) (c : Fin 16) (cnt : Bool), issued m = true → Completes (.camFlagsRead m c cnt) s [.fab]) ∧
  (∀ (s : State) (r : Req), Completes (.ingestInfo r) s (Part.answerAnd [.tw])) ∧
  (∀ (s : State) (r : Req), Completes (.ingestLinkSet r) s (Part.answerAnd [.tw, .ln, .md])) ∧
  (∀ (s : State) (r : Req), Completes (.ingestLinkOff r) s (Part.answerAnd [.tw, .ln, .md])) ∧
  (∀ (s : State) (r : Req), Completes (.ingestSourceSet r) s (Part.answerAnd [.tw])) ∧
  (∀ (s : State) (r : Req), Completes (.ingestCameraSet r) s (Part.answerAnd [.tw])) ∧
  (∀ (s : State) (r : Req), Completes (.ingestCameraStart r) s (Part.answerAnd [.tw, .ing, .pipe])) ∧
  (∀ (s : State) (r : Req), Completes (.ingestCameraStop r) s (Part.answerAnd [.tw, .ing, .pipe])) ∧
  (∀ (s : State) (r : Req), Completes (.ingestFrameInfo r) s (Part.answerAnd [.tw])) ∧
  (∀ (s : State) (r : Req), Completes (.ingestHeadWrite r) s (Part.answerAnd [.tw, .ing])) ∧
  (∀ (s : State) (r : Req), Completes (.ingestHeadRead r) s (Part.answerAnd [.tw, .ing])) ∧
  (∀ (s : State) (r : Req), Completes (.ingestHeadTrigger r) s (Part.answerAnd [.tw, .ing])) ∧
  (∀ (s : State) (r : Req), Completes (.ingestStats r) s (Part.answerAnd [.tw])) ∧
  (∀ (s : State) (q : Fin 24) (ppm : Int), Completes (.refOkReturn q ppm) s []) ∧
  (∀ (s : State), Completes (.perstNRelease) s [.pins]) ∧
  (∀ (s : State) (l : Fin 96), Completes (.blockLockAcquired l) s [])

/-- Frames of chapters 9 to 12 (tiles, colour, outputs, codec; PIPE, COLOUR, OUT and CODEC): each command answers a next state; what waits stays, what survives RST_N stays, and every part
of the device but those named for it stays. -/
def Obligations.PipelineFrames : Prop :=
  (∀ (s : State) (n : Fin 72), Completes (.stripeStart n) s (Part.answerAnd [.ing, .pipe])) ∧
  (∀ (s : State) (n : Fin 72), Completes (.stripeEnd n) s [.hbm, .host, .bank, .ing, .pipe]) ∧
  (∀ (s : State) (n : Fin 72) (colour : Bool), Completes (.tileTableUe n colour) s [.bank, .hl, .pipe]) ∧
  (∀ (s : State) (m : Nat) (n : Fin 72) (which : Fin 3), issued m = true → Completes (.pxCounterRead m n which) s [.fab]) ∧
  (∀ (s : State) (r : Req), Completes (.pipeInfo r) s (Part.answerAnd [.tw])) ∧
  (∀ (s : State) (r : Req), Completes (.pipeSensorSet r) s (Part.answerAnd [.tw, .pipe])) ∧
  (∀ (s : State) (r : Req), Completes (.pipeMosaicSet r) s (Part.answerAnd [.tw, .pipe])) ∧
  (∀ (s : State) (r : Req), Completes (.pipeDefectLoad r) s (Part.answerAnd [.tw, .pipe])) ∧
  (∀ (s : State) (r : Req), Completes (.pipeFlatLoad r) s (Part.answerAnd [.tw, .pipe])) ∧
  (∀ (s : State) (r : Req), Completes (.pipeSpectralLoad r) s (Part.answerAnd [.tw, .pipe])) ∧
  (∀ (s : State) (r : Req), Completes (.pipeMatrixLoad r) s (Part.answerAnd [.tw, .pipe])) ∧
  (∀ (s : State) (r : Req), Completes (.pipeIrSet r) s (Part.answerAnd [.tw, .pipe])) ∧
  (∀ (s : State) (r : Req), Completes (.pipeCommit r) s (Part.answerAnd [.tw, .pipe])) ∧
  (∀ (s : State) (r : Req), Completes (.pipeDiscard r) s (Part.answerAnd [.tw, .pipe])) ∧
  (∀ (s : State) (r : Req), Completes (.pipeTableInfo r) s (Part.answerAnd [.tw])) ∧
  (∀ (s : State) (r : Req), Completes (.pipeTileStats r) s (Part.answerAnd [.tw])) ∧
  (∀ (s : State) (c : Fin 16) (frame : Nat), Completes (.autoControlRun c frame) s [.pipe]) ∧
  (∀ (s : State) (c : Fin 16), Completes (.autoLimitTimeout c) s []) ∧
  (∀ (s : State) (g : Fin 18) (slot : Fin 4), Completes (.lutSlotUe g slot) s [.bank, .hl, .pipe]) ∧
  (∀ (s : State) (m : Nat) (n : Fin 72) (which : Fin 4), issued m = true → Completes (.clCounterRead m n which) s [.fab]) ∧
  (∀ (s : State) (r : Req), Completes (.colourInfo r) s (Part.answerAnd [.tw])) ∧
  (∀ (s : State) (r : Req), Completes (.colourOtSet r) s (Part.answerAnd [.tw, .pipe])) ∧
  (∀ (s : State) (r : Req), Completes (.colourShaperLoad r) s (Part.answerAnd [.tw, .pipe])) ∧
  (∀ (s : State) (r : Req), Completes (.colourLutLoad r) s (Part.answerAnd [.tw, .pipe])) ∧
  (∀ (s : State) (r : Req), Completes (.colourTnrSet r) s (Part.answerAnd [.tw, .pipe])) ∧
  (∀ (s : State) (r : Req), Completes (.colourStatSet r) s (Part.answerAnd [.tw, .pipe])) ∧
  (∀ (s : State) (r : Req), Completes (.colourFrameSet r) s (Part.answerAnd [.tw, .pipe])) ∧
  (∀ (s : State) (r : Req), Completes (.colourAutoSet r) s (Part.answerAnd [.tw, .pipe])) ∧
  (∀ (s : State) (r : Req), Completes (.colourStats r) s (Part.answerAnd [.tw])) ∧
  (∀ (s : State) (r : Req), Completes (.colourQuery r) s (Part.answerAnd [.tw])) ∧
  (∀ (s : State) (r : Req), Completes (.colourTileStats r) s (Part.answerAnd [.tw])) ∧
  (∀ (s : State) (part : Fin 5), Completes (.stripeJobDispatch part) s [.ing, .pipe]) ∧
  (∀ (s : State) (n : Fin 72), Completes (.tileFail n) s [.bank, .hl, .pipe]) ∧
  (∀ (s : State), Completes (.compatSlotWait) s [.ing, .pipe]) ∧
  (∀ (s : State) (str : Fin 8) (frame : Nat) (hostBad : Bool),
    Completes (.streamFrameDone str frame hostBad) s [.qf, .hbm, .host, .ing, .pipe]) ∧
  (∀ (s : State) (g : Fin 4) (ref : Nat), Completes (.alignDeadline g ref) s (Part.answerAnd [.ing, .pipe])) ∧
  (∀ (s : State) (c : Fin 16) (frame : Nat) (m : Fin 16) (line : Nat) (seen : Option (List Byte)),
    Completes (.pointCVerdict c frame m line seen) s [.ing, .pipe]) ∧
  (∀ (s : State) (m : Nat) (which : Fin 4) (k : Fin 8), issued m = true → Completes (.outCounterRead m which k) s [.fab]) ∧
  (∀ (s : State) (r : Req), Completes (.outInfo r) s (Part.answerAnd [.tw])) ∧
  (∀ (s : State) (r : Req), Completes (.outCameraAlloc r) s (Part.answerAnd [.bank, .tw, .pipe])) ∧
  (∀ (s : State) (r : Req), Completes (.outCameraFree r) s (Part.answerAnd [.bank, .tw, .pipe])) ∧
  (∀ (s : State) (r : Req), Completes (.outPoolSet r) s (Part.answerAnd [.bank, .tw, .pipe])) ∧
  (∀ (s : State) (r : Req), Completes (.outStreamSet r) s (Part.answerAnd [.tw, .pipe])) ∧
  (∀ (s : State) (r : Req), Completes (.outStreamStart r) s (Part.answerAnd [.tw, .pipe])) ∧
  (∀ (s : State) (r : Req), Completes (.outStreamStop r) s (Part.answerAnd [.tw, .pipe])) ∧
  (∀ (s : State) (r : Req), Completes (.outCoefLoad r) s (Part.answerAnd [.tw, .pipe])) ∧
  (∀ (s : State) (r : Req), Completes (.outAlignSet r) s (Part.answerAnd [.tw, .pipe])) ∧
  (∀ (s : State) (r : Req), Completes (.outAlignJoin r) s (Part.answerAnd [.tw, .pipe])) ∧
  (∀ (s : State) (r : Req), Completes (.outCompatSet r) s (Part.answerAnd [.bank, .tw, .pipe])) ∧
  (∀ (s : State) (r : Req), Completes (.outRotate r) s (Part.answerAnd [.bank, .hl, .tw, .pipe])) ∧
  (∀ (s : State) (r : Req), Completes (.outStreamInfo r) s (Part.answerAnd [.tw])) ∧
  (∀ (s : State) (r : Req), Completes (.outStats r) s (Part.answerAnd [.tw])) ∧
  (∀ (s : State) (e : Fin 18) (fault : Fin 3), Completes (.chunkCode e fault) s (Part.answerAnd [.bank, .hl, .pipe, .ps])) ∧
  (∀ (s : State) (n : Fin 32) (frame row : Nat) (good : Bool),
    Completes (.srcVerdict n frame row good) s [.qf, .hbm, .host, .bank, .pipe, .ps]) ∧
  (∀ (s : State) (n : Fin 32) (slice : Fin 16), Completes (.sliceMove n slice) s [.qf, .hbm, .host, .bank, .hl, .pipe, .ps]) ∧
  (∀ (s : State) (e : Fin 18) (chunk ue : Bool), Completes (.engineFail e chunk ue) s [.qf, .bank, .hl, .pipe, .ps]) ∧
  (∀ (s : State) (n : Fin 32) (slice : Fin 16), Completes (.codecStarvedTimeout n slice) s [.qf, .ps]) ∧
  (∀ (s : State) (m : Nat) (n : Fin 18) (ecc : Bool), issued m = true → Completes (.psCounterRead m n ecc) s [.fab]) ∧
  (∀ (s : State) (r : Req), Completes (.codecInfo r) s (Part.answerAnd [.tw])) ∧
  (∀ (s : State) (r : Req), Completes (.codecStreamSet r) s (Part.answerAnd [.tw, .ps])) ∧
  (∀ (s : State) (r : Req), Completes (.codecStreamStart r) s (Part.answerAnd [.bank, .tw, .pipe, .ps])) ∧
  (∀ (s : State) (r : Req), Completes (.codecStreamStop r) s (Part.answerAnd [.bank, .tw, .pipe, .ps])) ∧
  (∀ (s : State) (r : Req), Completes (.codecStreamInfo r) s (Part.answerAnd [.tw])) ∧
  (∀ (s : State) (r : Req), Completes (.codecDecode r) s (Part.answerAnd [.tw])) ∧
  (∀ (s : State) (r : Req), Completes (.codecCtxSave r) s (Part.answerAnd [.tw, .ps])) ∧
  (∀ (s : State) (r : Req), Completes (.codecCtxLoad r) s (Part.answerAnd [.bank, .tw, .pipe, .ps])) ∧
  (∀ (s : State) (r : Req), Completes (.codecMove r) s (Part.answerAnd [.tw, .ps])) ∧
  (∀ (s : State) (r : Req), Completes (.codecKey r) s (Part.answerAnd [.tw, .ps])) ∧
  (∀ (s : State) (r : Req), Completes (.codecEngineStats r) s (Part.answerAnd [.tw]))

/-- Frames of chapter 13 (packs, targets, recordings; MEDIA and SESSION): each command answers a next state; what waits stays, what survives RST_N stays, and every part
of the device but those named for it stays. -/
def Obligations.MediaFrames : Prop :=
  (∀ (s : State) (qid : Nat) (done : List (Nat × Nat × List Byte)),
    Completes (.queueResetDone qid done) s [.qf, .hbm, .host, .md]) ∧
  (∀ (s : State) (n q : Fin 8) (ctag : Nat) (cmd : List Byte), Completes (.cmd n q ctag cmd) s [.qf, .hbm, .host, .ch, .ln, .md]) ∧
  (∀ (s : State) (n q : Fin 8) (ctag off len : Nat), Completes (.xferRdy n q ctag off len) s [.ch, .md]) ∧
  (∀ (s : State) (n q : Fin 8) (ctag off : Nat) (bytes : List Byte),
    Completes (.dataOut n q ctag off bytes) s [.qf, .hbm, .host, .ch, .ln, .md]) ∧
  (∀ (s : State) (n q : Fin 8) (ctag off : Nat) (bytes : List Byte), Completes (.dataIn n q ctag off bytes) s [.host, .md]) ∧
  (∀ (s : State) (n q : Fin 8) (ctag status : Nat),
    Completes (.resp n q ctag status) s [.qf, .hbm, .host, .pins, .tw, .ch, .ln, .pipe, .md]) ∧
  (∀ (s : State) (n q : Fin 8), Completes (.qreset n q) s [.ch, .md]) ∧
  (∀ (s : State) (n q : Fin 8) (count : Nat), Completes (.qresetDone n q count) s [.md]) ∧
  (∀ (s : State) (n : Fin 8) (serial queues : Nat), Completes (.connect n serial queues) s [.ch, .md]) ∧
  (∀ (s : State) (n : Fin 8) (queues depth burst : Nat) (page : List Byte),
    Completes (.connectAck n queues depth burst page) s [.qf, .hbm, .host, .ch, .ln, .md]) ∧
  (∀ (s : State) (n : Fin 8) (state : Fin 4), Completes (.pm n state) s [.ch, .md]) ∧
  (∀ (s : State) (n : Fin 8) (state : Fin 4) (late : Bool), Completes (.pmAck n state late) s [.ch, .ln, .md]) ∧
  (∀ (s : State) (n q : Fin 8) (ctag : Nat), Completes (.xferTimeout n q ctag) s [.qf, .hbm, .host, .ch, .ln, .md]) ∧
  (∀ (s : State) (n : Fin 8), Completes (.packTimeout n) s [.qf, .hbm, .host, .tw, .ch, .ln, .md]) ∧
  (∀ (s : State) (n : Fin 8), Completes (.mediaReconnect n) s [.qf, .hbm, .host, .tw, .ch, .ln, .md]) ∧
  (∀ (s : State) (n : Fin 8) (state : Fin 4), Completes (.idleTimerExpiry n state) s [.ch, .md]) ∧
  (∀ (s : State) (tag : Nat) (host : List Byte), Completes (.hostMediaSubmit tag host) s [.qf, .hbm, .host, .ch, .ln, .md]) ∧
  (∀ (s : State) (m : Nat) (n : Fin 64) (v : Word), issued m = true → Completes (.mqCqhWrite m n v) s (Part.answerAnd [.md])) ∧
  (∀ (s : State) (clip au : Nat),
    Completes (.auWriteDone clip au) s [.qf, .hbm, .host, .bank, .tm, .tw, .ch, .ln, .pipe, .ps, .md]) ∧
  (∀ (s : State) (clip : Nat) (reads : List (Nat × Bool × List Byte)),
    Completes (.pointEAssembly clip reads) s [.qf, .hbm, .host, .bank, .tm, .ch, .ln, .pipe, .ps, .md]) ∧
  (∀ (s : State), Completes (.flushTimer) s [.qf, .hbm, .host, .ch, .ln, .md]) ∧
  (∀ (s : State) (ring : Nat), Completes (.burstFrameCopy ring) s [.qf, .hbm, .host, .ch, .ln, .md]) ∧
  (∀ (s : State) (ring : Nat), Completes (.burstDrainDone ring) s [.hbm, .md]) ∧
  (∀ (s : State) (m : Nat) (n : Fin 8), issued m = true → Completes (.mpCntRead m n) s [.fab]) ∧
  (∀ (s : State) (r : Req), Completes (.mediaInfo r) s (Part.answerAnd [.tw])) ∧
  (∀ (s : State) (r : Req), Completes (.mediaPortSet r) s (Part.answerAnd [.tw, .ch, .md])) ∧
  (∀ (s : State) (r : Req), Completes (.mediaPackInfo r) s (Part.answerAnd [.tw])) ∧
  (∀ (s : State) (r : Req), Completes (.mediaConfigSet r) s (Part.answerAnd [.tw])) ∧
  (∀ (s : State) (r : Req), Completes (.mediaQpCreate r) s (Part.answerAnd [.tw, .md])) ∧
  (∀ (s : State) (r : Req), Completes (.mediaQpDelete r) s (Part.answerAnd [.tw, .md])) ∧
  (∀ (s : State) (r : Req), Completes (.mediaNsCreate r) s (Part.answerAnd [.tw, .md])) ∧
  (∀ (s : State) (r : Req), Completes (.mediaNsDelete r) s (Part.answerAnd [.tw, .md])) ∧
  (∀ (s : State) (r : Req), Completes (.mediaVolumeFormat r) s (Part.answerAnd [.tw, .ch, .ln, .md])) ∧
  (∀ (s : State) (r : Req) (packs : List (Nat × List (Nat × List Byte))),
    Completes (.mediaVolumeMount r packs) s (Part.answerAnd [.tw, .ch, .ln, .md])) ∧
  (∀ (s : State) (r : Req), Completes (.mediaVolumeUnmount r) s (Part.answerAnd [.tw, .md])) ∧
  (∀ (s : State) (r : Req), Completes (.mediaRecordStart r) s (Part.answerAnd [.bank, .tm, .tw, .ch, .ln, .pipe, .ps, .md])) ∧
  (∀ (s : State) (r : Req), Completes (.mediaRecordStop r) s (Part.answerAnd [.bank, .tm, .tw, .ch, .ln, .pipe, .ps, .md])) ∧
  (∀ (s : State) (r : Req), Completes (.mediaClipList r) s (Part.answerAnd [.tw])) ∧
  (∀ (s : State) (r : Req) (head : List Byte), Completes (.mediaClipInfo r head) s (Part.answerAnd [.tw])) ∧
  (∀ (s : State) (r : Req), Completes (.mediaClipMap r) s (Part.answerAnd [.tw])) ∧
  (∀ (s : State) (r : Req), Completes (.mediaClipDelete r) s (Part.answerAnd [.tw, .ch, .ln, .md])) ∧
  (∀ (s : State) (r : Req), Completes (.mediaBurstArm r) s (Part.answerAnd [.tw, .md])) ∧
  (∀ (s : State) (r : Req), Completes (.mediaBurstTrigger r) s (Part.answerAnd [.tw, .ch, .ln, .md])) ∧
  (∀ (s : State) (r : Req), Completes (.mediaBurstDisarm r) s (Part.answerAnd [.tw, .md])) ∧
  (∀ (s : State) (r : Req) (aus : List (List Byte)), Completes (.mediaOffload r aus) s (Part.answerAnd [.tw, .ch, .ln, .md])) ∧
  (∀ (s : State) (r : Req), Completes (.mediaMark r) s (Part.answerAnd [.tw, .md])) ∧
  (∀ (s : State) (r : Req), Completes (.mediaStats r) s (Part.answerAnd [.tw])) ∧
  (∀ (s : State) (r : Req), Completes (.sessionInfo r) s (Part.answerAnd [.tw])) ∧
  (∀ (s : State) (r : Req), Completes (.sessionSave r) s (Part.answerAnd [.tw, .md])) ∧
  (∀ (s : State) (r : Req) (regs : List (Nat × Word)), Completes (.sessionLoad r regs) s (Part.answerAnd [.tw, .pipe, .ps])) ∧
  (∀ (s : State) (r : Req), Completes (.sessionStandby r) s (Part.answerAnd [.bank, .tw, .ing, .pipe, .ps, .md])) ∧
  (∀ (s : State) (r : Req), Completes (.sessionResume r) s (Part.answerAnd [.bank, .tw, .ch, .ln, .ing, .pipe, .ps, .md]))

/-- Frames of chapters 16 to 18 (scan-out, audio, time; SCAN, AUDIO and TIME): each command answers a next state; what waits stays, what survives RST_N stays, and every part
of the device but those named for it stays. -/
def Obligations.ScanAudioAndTimeFrames : Prop :=
  (∀ (s : State), Completes (.scanFrameStart) s [.qf, .hbm, .host, .sc]) ∧
  (∀ (s : State), Completes (.vbMaxExpiry) s [.qf, .hbm, .host, .sc]) ∧
  (∀ (s : State) (layer : Fin 4) (line : Nat), Completes (.layerUnderrun layer line) s [.sc]) ∧
  (∀ (s : State) (out : Fin 2) (kind : Fin 3) (lost : Bool) (edid dpcd : List Byte),
    Completes (.hpdChange out kind lost edid dpcd) s [.sc]) ∧
  (∀ (s : State) (out : Fin 2), Completes (.hpdLowTimeout out) s [.sc]) ∧
  (∀ (s : State) (out : Fin 2), Completes (.dpTrainRetry out) s [.sc]) ∧
  (∀ (s : State) (m : Nat) (v : Word), issued m = true → Completes (.scTimGo m v) s (Part.answerAnd [.sc])) ∧
  (∀ (s : State) (layer : Fin 4), Completes (.flipEntry layer) s Part.answer) ∧
  (∀ (s : State) (m : Nat) (which : Fin 3) (k : Fin 4), issued m = true → Completes (.scanCounterRead m which k) s [.fab]) ∧
  (∀ (s : State) (r : Req), Completes (.scanInfo r) s (Part.answerAnd [.tw])) ∧
  (∀ (s : State) (r : Req), Completes (.scanTimingSet r) s (Part.answerAnd [.tw, .sc])) ∧
  (∀ (s : State) (r : Req), Completes (.scanOutputSet r) s (Part.answerAnd [.tw, .sc])) ∧
  (∀ (s : State) (r : Req), Completes (.scanBaseBind r) s (Part.answerAnd [.tw, .pipe, .sc])) ∧
  (∀ (s : State) (r : Req), Completes (.scanLayerBind r) s (Part.answerAnd [.tw, .sc])) ∧
  (∀ (s : State) (r : Req), Completes (.scanLayerUnbind r) s (Part.answerAnd [.tw, .sc])) ∧
  (∀ (s : State) (r : Req), Completes (.scanLayerSet r) s (Part.answerAnd [.tw, .sc])) ∧
  (∀ (s : State) (r : Req), Completes (.scanPaletteSet r) s (Part.answerAnd [.tw, .sc])) ∧
  (∀ (s : State) (r : Req), Completes (.scanSinkInfo r) s (Part.answerAnd [.tw])) ∧
  (∀ (s : State) (r : Req), Completes (.scanStats r) s (Part.answerAnd [.tw])) ∧
  (∀ (s : State) (n : Fin 4) (time : Nat) (frames : List (List Nat)) (cs : List Byte),
    Completes (.audioBlockDone n time frames cs) s (Part.answerAnd [.au])) ∧
  (∀ (s : State) (n : Fin 4) (mask : Nat), Completes (.zcTimeout n mask) s [.au]) ∧
  (∀ (s : State) (n : Fin 4), Completes (.mclkLost n) s [.au]) ∧
  (∀ (s : State) (n : Fin 4) (ppm : Int), Completes (.mclkReturn n ppm) s [.au]) ∧
  (∀ (s : State) (n : Fin 4) (aes : Bool) (time : Nat) (frames : List (List Nat)),
    Completes (.audioRateChange n aes time frames) s (Part.answerAnd [.au])) ∧
  (∀ (s : State) (n : Fin 4) (run time : Nat) (frames : List (List Nat)),
    Completes (.fsGlitch n run time frames) s (Part.answerAnd [.au])) ∧
  (∀ (s : State) (n : Fin 4), Completes (.aesUnlock n) s [.au]) ∧
  (∀ (s : State) (n : Fin 4), Completes (.aesRelock n) s [.au]) ∧
  (∀ (s : State) (n : Fin 4), Completes (.nonaudioDetect n) s [.au]) ∧
  (∀ (s : State) (n : Fin 4), Completes (.nonaudioClear n) s [.au]) ∧
  (∀ (s : State) (m : Nat) (n : Fin 4), issued m = true → Completes (.auCntRead m n) s [.fab]) ∧
  (∀ (s : State) (r : Req), Completes (.audioInfo r) s (Part.answerAnd [.tw])) ∧
  (∀ (s : State) (r : Req), Completes (.audioPortSet r) s (Part.answerAnd [.tw, .au])) ∧
  (∀ (s : State) (r : Req), Completes (.audioStart r) s (Part.answerAnd [.tw, .au])) ∧
  (∀ (s : State) (r : Req), Completes (.audioStop r) s (Part.answerAnd [.tw, .au])) ∧
  (∀ (s : State) (r : Req), Completes (.audioMute r) s (Part.answerAnd [.tw, .au])) ∧
  (∀ (s : State) (r : Req), Completes (.audioStatus r) s (Part.answerAnd [.tw])) ∧
  (∀ (s : State) (r : Req), Completes (.audioStats r) s (Part.answerAnd [.tw])) ∧
  (∀ (s : State) (m : Nat) (dom : Fin 2) (v : Word), issued m = true → Completes (.dIncWrite m dom v) s (Part.answerAnd [.tm])) ∧
  (∀ (s : State) (m : Nat) (dom : Fin 2) (v : Word),
    issued m = true → Completes (.dSetGo m dom v) s (Part.answerAnd [.bank, .tm, .ch, .ln, .ing, .pipe, .ps, .md])) ∧
  (∀ (s : State) (m : Nat) (dom : Fin 2) (v : Word),
    issued m = true → Completes (.dAdjGo m dom v) s (Part.answerAnd [.bank, .tm, .ch, .ln, .ing, .pipe, .ps, .md])) ∧
  (∀ (s : State) (m : Nat) (v : Word),
    issued m = true → Completes (.tmSnap m v) s (Part.answerAnd [.bank, .tm, .ch, .ln, .ing, .pipe, .ps, .md])) ∧
  (∀ (s : State) (m : Nat) (v : Word),
    issued m = true → Completes (.tmSwitch m v) s (Part.answerAnd [.bank, .tm, .ch, .ln, .ing, .pipe, .ps, .md])) ∧
  (∀ (s : State) (m : Nat) (v : Word),
    issued m = true → Completes (.tmSwitchForce m v) s (Part.answerAnd [.bank, .tm, .ch, .ln, .ing, .pipe, .ps, .md])) ∧
  (∀ (s : State) (port : Fin 8) (bytes : List Byte), Completes (.ethFrameRx port bytes) s Part.answer) ∧
  (∀ (s : State) (port : Fin 8) (host : List Byte), Completes (.ethLaunch port host) s (Part.answerAnd [.tm])) ∧
  (∀ (s : State), Completes (.frameEdge) s [.tm, .ch]) ∧
  (∀ (s : State), Completes (.refInEdge) s [.tm, .ch]) ∧
  (∀ (s : State), Completes (.refWindowClose) s [.tm, .ch, .ing]) ∧
  (∀ (s : State) (slot : Fin 64),
    Completes (.timedActionFire slot) s [.qf, .hbm, .host, .bank, .tm, .ch, .ln, .ing, .pipe, .ps, .md]) ∧
  (∀ (s : State) (pin : Fin 4), Completes (.trigOutPulseEnd pin) s [.tm]) ∧
  (∀ (s : State) (input : Fin 4) (rising : Bool), Completes (.trigInEdge input rising) s [.qf, .hbm, .host, .tm, .ch, .ln, .md]) ∧
  (∀ (s : State) (m : Nat) (which : Fin 4) (k : Fin 8), issued m = true → Completes (.timeCounterRead m which k) s [.fab]) ∧
  (∀ (s : State) (r : Req), Completes (.timeInfo r) s (Part.answerAnd [.tw])) ∧
  (∀ (s : State) (r : Req), Completes (.timeNow r) s (Part.answerAnd [.tw])) ∧
  (∀ (s : State) (r : Req), Completes (.timeSelect r) s (Part.answerAnd [.bank, .tm, .tw, .ch, .ln, .ing, .pipe, .ps, .md])) ∧
  (∀ (s : State) (r : Req), Completes (.timeFrameSet r) s (Part.answerAnd [.tm, .tw, .ing])) ∧
  (∀ (s : State) (r : Req), Completes (.timeEthBind r) s (Part.answerAnd [.tm, .tw])) ∧
  (∀ (s : State) (r : Req), Completes (.timeEthUnbind r) s (Part.answerAnd [.tm, .tw])) ∧
  (∀ (s : State) (r : Req), Completes (.timeActionArm r) s (Part.answerAnd [.bank, .tm, .tw, .ch, .ln, .ing, .pipe, .ps, .md])) ∧
  (∀ (s : State) (r : Req), Completes (.timeActionCancel r) s (Part.answerAnd [.tm, .tw])) ∧
  (∀ (s : State) (r : Req), Completes (.timeTrigInSet r) s (Part.answerAnd [.tm, .tw])) ∧
  (∀ (s : State) (r : Req), Completes (.timeStats r) s (Part.answerAnd [.tw])) ∧
  (∀ (s : State) (out : Fin 2) (ok : Bool), Completes (.dpLinkTrainingDone out ok) s [.sc])

/-- Frames of chapters 19 and 20 (twins, chains, health; TWIN, CHAIN and HEALTH): each command answers a next state; what waits stays, what survives RST_N stays or, where the command may write it, only blows fuses, and every part
of the device but those named for it stays. -/
def Obligations.TwinChainAndHealthFrames : Prop :=
  (∀ (s : State), Completes (.heartbeatSend) s [.qf, .hbm, .host, .pins, .tw, .ch, .ln, .md]) ∧
  (∀ (s : State) (b : Beat), Completes (.heartbeat b) s [.qf, .hbm, .host, .bank, .pins, .tw, .ch, .ln, .integ, .md]) ∧
  (∀ (s : State), Completes (.heartbeatTimeout) s [.bank, .tw]) ∧
  (∀ (s : State) (level : Bool), Completes (.twinPresentChange level) s [.pins, .tw]) ∧
  (∀ (s : State), Completes (.twinLinkWaitTimeout) s [.tw]) ∧
  (∀ (s : State) (packs : List (Nat × List (Nat × List Byte))),
    Completes (.takeover packs) s [.qf, .hbm, .host, .pins, .tw, .ch, .ln, .ing, .md]) ∧
  (∀ (s : State) (epoch : Nat) (crcOk : Bool) (mseq : Nat) (link : Fin 8) (inner : List (Nat × Inner)),
    Completes (.mirror epoch crcOk mseq link inner) s [.hbm, .bank, .hl, .tm, .tw, .ing, .pipe, .ps, .md]) ∧
  (∀ (s : State), Completes (.mirrorCloseTimeout) s [.tw]) ∧
  (∀ (s : State) (epoch : Nat) (crcOk : Bool) (seg off : Nat) (bytes : List Byte),
    Completes (.state epoch crcOk seg off bytes) s [.qf, .hbm, .host, .bank, .tm, .tw, .ch, .ln, .ing, .pipe, .ps, .md]) ∧
  (∀ (s : State) (epoch : Nat) (crcOk : Bool) (bytes : Nat), Completes (.stateAck epoch crcOk bytes) s [.tw]) ∧
  (∀ (s : State) (epoch : Nat) (crcOk : Bool) (clip auseq rseq start bytes : Nat) (sha : List Nat),
    Completes (.clipsync epoch crcOk clip auseq rseq start bytes sha) s [.tw, .md]) ∧
  (∀ (s : State) (crcOk : Bool) (start : Nat), Completes (.handoverReq crcOk start) s [.tw]) ∧
  (∀ (s : State) (crcOk : Bool) (packs : List (Nat × List (Nat × List Byte))),
    Completes (.handoverGo crcOk packs) s [.qf, .hbm, .host, .pins, .tw, .ch, .ln, .ing, .md]) ∧
  (∀ (s : State) (epoch : Nat) (crcOk : Bool), Completes (.handoverDone epoch crcOk) s [.tw]) ∧
  (∀ (s : State) (crcOk : Bool), Completes (.detach crcOk) s [.tw]) ∧
  (∀ (s : State) (crcOk : Bool) (major : Nat), Completes (.attachReq crcOk major) s [.tw]) ∧
  (∀ (s : State) (crcOk : Bool) (reason : Nat), Completes (.attachRefuse crcOk reason) s [.tw]) ∧
  (∀ (s : State) (crcOk : Bool), Completes (.hot crcOk) s [.tw]) ∧
  (∀ (s : State) (epoch : Nat) (crcOk : Bool) (bytes : List Byte), Completes (.twinMsg epoch crcOk bytes) s [.tw]) ∧
  (∀ (s : State), Completes (.attachBaseFreeze) s [.tw]) ∧
  (∀ (s : State) (m : Nat), issued m = true → Completes (.twCntRead m) s [.fab]) ∧
  (∀ (s : State) (h : CHead) (frame edge send : Nat), Completes (.sync h frame edge send) s [.ch]) ∧
  (∀ (s : State) (h : CHead) (block : List Byte),
    Completes (.action h block) s [.qf, .hbm, .host, .bank, .tm, .ch, .ln, .ing, .pipe, .ps, .md]) ∧
  (∀ (s : State) (h : CHead) (entry : List Byte), Completes (.chainMsg h entry) s [.ch]) ∧
  (∀ (s : State) (h : CHead) (pt : Nat) (q : Fin 8) (ctag p1 : Nat) (bytes : List Byte),
    Completes (.media h pt q ctag p1 bytes) s [.qf, .hbm, .host, .ch, .ln, .md]) ∧
  (∀ (s : State) (h : CHead) (send reply : Nat), Completes (.probe h send reply) s [.ch]) ∧
  (∀ (s : State), Completes (.probeSend) s [.ch]) ∧
  (∀ (s : State) (h : CHead) (serial : Nat), Completes (.topo h serial) s [.ch]) ∧
  (∀ (s : State) (m : Nat), issued m = true → Completes (.chCntRead m) s [.fab]) ∧
  (∀ (s : State) (r : Req), Completes (.twinInfo r) s (Part.answerAnd [.tw])) ∧
  (∀ (s : State) (r : Req), Completes (.twinModeSet r) s (Part.answerAnd [.tw])) ∧
  (∀ (s : State) (r : Req), Completes (.twinAttach r) s (Part.answerAnd [.tw])) ∧
  (∀ (s : State) (r : Req), Completes (.twinDetach r) s (Part.answerAnd [.bank, .tw, .ing, .pipe, .ps])) ∧
  (∀ (s : State) (r : Req), Completes (.twinHandover r) s (Part.answerAnd [.tw])) ∧
  (∀ (s : State) (r : Req), Completes (.twinStatus r) s (Part.answerAnd [.tw])) ∧
  (∀ (s : State) (r : Req), Completes (.chainInfo r) s (Part.answerAnd [.tw])) ∧
  (∀ (s : State) (r : Req), Completes (.chainJoin r) s (Part.answerAnd [.tw, .ch])) ∧
  (∀ (s : State) (r : Req), Completes (.chainLeave r) s (Part.answerAnd [.tw, .md])) ∧
  (∀ (s : State) (r : Req), Completes (.chainRouteSet r) s (Part.answerAnd [.tw])) ∧
  (∀ (s : State) (r : Req), Completes (.chainAction r) s (Part.answerAnd [.tm, .tw, .ch])) ∧
  (∀ (s : State) (r : Req), Completes (.chainSend r) s (Part.answerAnd [.tw, .ch])) ∧
  (∀ (s : State) (r : Req), Completes (.chainTopo r) s (Part.answerAnd [.tw])) ∧
  (∀ (s : State) (raw : List Int) (fails : Nat), Stores (.thermSample raw fails) s [.fab, .bank, .boot, .hl, .pins, .tw]) ∧
  (∀ (s : State) (m : Nat) (v : Word) (raw : List Int),
    issued m = true → Stores (.thSampleWrite m v raw) s (Part.answerAnd [.bank, .boot, .hl, .pins, .tw])) ∧
  (∀ (s : State), Completes (.fastScheduleExit) s []) ∧
  (∀ (s : State), Completes (.riseBonusEnd) s [.hl]) ∧
  (∀ (s : State) (u : Nat) (res : List (Nat × Bool × Bool × Nat)) (fails : Nat),
    Stores (.selftestDone u res fails) s [.fab, .bank, .boot, .hl, .pipe, .ps]) ∧
  (∀ (s : State) (u : Nat), Completes (.selftestRetest u) s [.bank, .hl]) ∧
  (∀ (s : State), Completes (.rollTick) s [.bank, .hl, .pipe, .ps]) ∧
  (∀ (s : State) (fails : Nat), Stores (.eventHandling fails) s (Part.answerAnd [.bank, .boot, .hl, .pipe])) ∧
  (∀ (s : State) (r : Req), Stores (.healthInfo r) s (Part.answerAnd [.boot, .tw])) ∧
  (∀ (s : State) (r : Req) (raw : List Int), Stores (.healthTemp r raw) s (Part.answerAnd [.bank, .boot, .hl, .pins, .tw])) ∧
  (∀ (s : State) (r : Req), Stores (.healthThermAck r) s (Part.answerAnd [.boot, .hl, .tw])) ∧
  (∀ (s : State) (r : Req), Stores (.healthSensorClear r) s (Part.answerAnd [.boot, .hl, .tw])) ∧
  (∀ (s : State) (r : Req), Stores (.healthSelftest r) s (Part.answerAnd [.bank, .boot, .hl, .tw])) ∧
  (∀ (s : State) (r : Req), Stores (.healthTestInfo r) s (Part.answerAnd [.boot, .tw])) ∧
  (∀ (s : State) (r : Req), Stores (.healthRollSet r) s (Part.answerAnd [.boot, .hl, .tw])) ∧
  (∀ (s : State) (r : Req), Stores (.healthRollNow r) s (Part.answerAnd [.bank, .boot, .hl, .tw, .pipe, .ps])) ∧
  (∀ (s : State) (r : Req), Stores (.healthUnitList r) s (Part.answerAnd [.boot, .tw])) ∧
  (∀ (s : State) (r : Req), Stores (.healthEqStats r) s (Part.answerAnd [.boot, .tw]))

/-- The state after reset: nothing waits, every register word reads its own reset value (CEIL 0x960, RESERVE 0x140, 720 mV, every
switched unit OFF with EPOCH and GEN 0, every AON unit and ozder READY), no hold is in force, no mailbox or queue is open, HBM and
host memory list nothing (what an unlisted byte reads as, and register values the spec leaves open, are the log's). -/
def Obligations.ResetState : Prop :=
  State.reset.pending = [] ∧ (∀ r u k, State.reset.dev.rd r u k = r.reset u) ∧
  State.reset.dev.fg F.bankCeil_ceil uBank = 0x960 ∧ State.reset.dev.fg F.bankReserve_reserve uBank = 0x140 ∧
  State.reset.dev.fg F.bankVolt_target uBank = 720 ∧ State.reset.dev.fg F.bankVolt_present uBank = 720 ∧
  (∀ u ∈ allUnits, isAon u = true → State.reset.dev.own u = stReady) ∧
  (∀ u ∈ allUnits, (domainOf u).isSome = true → State.reset.dev.own u = stOff ∧ State.reset.dev.fg F.ucbEpoch_epoch u = 0 ∧
    State.reset.dev.fg F.ucbGen_gen u = 0) ∧
  (∀ m, State.reset.dev.isHeld m = false) ∧ State.reset.dev.oz.mboxes = [] ∧ State.reset.dev.qf.ops = [] ∧
  State.reset.dev.hbm.mem = [] ∧ State.reset.dev.host = []

/-- A command a leaf unit's state has no transition for (R18) is refused: the unit raises E_STATE_CMD, and that event is all that
happens: no violation, no hold; SLEEP is refused in ACTIVE and DRAINING, and every command to an AON unit or ozder (R581). -/
def Obligations.RefusedUnitCommands : Prop :=
  ∀ (d : Dev) (m u : Nat), issued m = true → (kindOf u).isSome = true → isGroup u = false → d.open m .ucbState u 0 0 →
    (¬(d.own u = stOff ∨ d.own u = stSleep) ∨ isAon u = true → Makes (.ucbWake m u) d (d.raise { code := 0x0101, sev := 1, unit := u })) ∧
    (d.own u ≠ stActive ∨ isAon u = true → Makes (.ucbDrain m u) d (d.raise { code := 0x0101, sev := 1, unit := u })) ∧
    (d.own u ≠ stReady ∨ isAon u = true → Makes (.ucbSleep m u) d (d.raise { code := 0x0101, sev := 1, unit := u })) ∧
    (¬(d.own u = stReady ∨ d.own u = stSleep ∨ d.own u = stUnusable) ∨ isAon u = true →
      Makes (.ucbOff m u) d (d.raise { code := 0x0101, sev := 1, unit := u })) ∧
    (d.own u ≠ stReady ∨ isAon u = true → Makes (.ucbReload m u) d (d.raise { code := 0x0101, sev := 1, unit := u })) ∧
    (d.raise { code := 0x0101, sev := 1, unit := u }).fab = d.fab ∧
    ∀ v ∈ allUnits, (d.raise { code := 0x0101, sev := 1, unit := u }).own v = d.own v

/-- The transitions of R18 that a command causes on a leaf unit that is not AON: DRAIN takes ACTIVE to DRAINING with REASON 0x8, SLEEP
READY to SLEEP with 0xA, OFF to OFF with 0xB, RELOAD READY to QUARANTINE with 0x4; WAKE moves no unit but makes it ask the bank for
its wake charge (R580); no other unit moves. -/
def Obligations.UnitCommandTransitions : Prop :=
  ∀ (d : Dev) (m u : Nat), issued m = true → u ∈ allUnits → isGroup u = false → isAon u = false → d.open m .ucbState u 0 0 →
    (d.own u = stActive → ∃ e, Makes (.ucbDrain m u) d e ∧ e.own u = stDraining ∧ e.fg F.ucbState_reason u = 0x8 ∧
      ∀ v ∈ allUnits, v ≠ u → e.own v = d.own v) ∧
    (d.own u = stReady → ∃ e, Makes (.ucbSleep m u) d e ∧ e.own u = stSleep ∧ e.fg F.ucbState_reason u = 0xA ∧
      ∀ v ∈ allUnits, v ≠ u → e.own v = d.own v) ∧
    (d.own u = stReady → ∃ e, Makes (.ucbReload m u) d e ∧ e.own u = stQuarantine ∧ e.fg F.ucbState_reason u = 0x4 ∧
      ∀ v ∈ allUnits, v ≠ u → e.own v = d.own v) ∧
    (d.own u = stOff ∨ d.own u = stSleep → d.bank.reqs.any (fun r => decide (r.unit = u) && decide (r.kind = .wake)) = false →
      ∃ e, Makes (.ucbWake m u) d e ∧ e.fg F.ucbPip_pend u = 1 ∧
        (∃ c, e.bank.reqs = d.bank.reqs ++ [⟨u, .wake, c, false⟩]) ∧ ∀ v ∈ allUnits, e.own v = d.own v)

/-- A request whose header names another master than its sender is not executed: its tag closes with E_MB_FORGED and the sender commits
violation 6 with the request QID as HOLD_INFO. -/
def Obligations.ForgedSenderIsHeld : Prop :=
  ∀ (c : Instr) (nv : Nv) (d : Dev) (r : Req) (svc verb : Nat) (priv : Bool), asRequest c = some (r, svc, verb, priv) →
    (∃ b, d.mbox r.qid = some b) → d.serving = true → r.hdrMaster ≠ r.master →
    MakesBoth c nv d (if svc = 0xE then nvFlush 0 nv ((d.replyErr r svc verb 0x0406 0xFFFF).violate r.master 6 r.qid)
      else (nv, (d.replyErr r svc verb 0x0406 0xFFFF).violate r.master 6 r.qid))

/-- A PRIV verb called by a master without privilege completes with E_MB_PRIV and does nothing else (R145), its first four checks
passed (R146). -/
def Obligations.PrivilegedVerbsNeedPrivilege : Prop :=
  ∀ (c : Instr) (nv : Nv) (d : Dev) (r : Req) (svc verb : Nat), asRequest c = some (r, svc, verb, true) →
    (∃ b, d.mbox r.qid = some b ∧ b.closing = false) → d.serving = true → r.hdrMaster = r.master → r.ifver = 1 → d.priv r.master = false →
    MakesBoth c nv d (if svc = 0xE then nvFlush 0 nv (d.replyErr r svc verb 0x0405 0xFFFF) else (nv, d.replyErr r svc verb 0x0405 0xFFFF))

/-- A request with CHECK_ONLY = 1 changes nothing any chapter's units hold, nor what survives RST_N (beyond event NVM records its error
may leave waiting), whatever it answers. -/
def Obligations.CheckOnlyActsOnNothing : Prop :=
  ∀ (c : Instr) (s : State) (r : Req) (svc verb : Nat) (priv : Bool), asRequest c = some (r, svc, verb, priv) → r.checkOnly = true →
    (svc ≠ 0xE → ∃ t, exec c s = .next t ∧ t.nv = s.nv ∧ t.pending = s.pending ∧ t.dev.works = s.dev.works) ∧
    (svc = 0xE → ∃ e, MakesBoth c s.nv s.dev (nvFlush 0 s.nv e) ∧ e.works = s.dev.works)

/-- A request naming a service or a verb no release has completes with E_MB_SERVICE or E_MB_VERB and does nothing else. -/
def Obligations.UnknownServicesAndVerbs : Prop :=
  ∀ (d : Dev) (r : Req) (svc verb : Nat), (∃ b, d.mbox r.qid = some b ∧ b.closing = false) → d.serving = true → r.hdrMaster = r.master →
    (svc = 0 ∨ 0x11 < svc → Makes (.mbUnknownService r svc verb) d (d.replyErr r svc verb 0x0402 0xFFFF)) ∧
    (1 ≤ svc → svc ≤ 0x11 → lastVerb svc < verb → r.ifver = 1 → Makes (.mbUnknownVerb r svc verb) d (d.replyErr r svc verb 0x0403 0xFFFF))

/-- A low level on RST_N: every register of every unit reads its reset value, every domain is off, nothing the device held is left, and
flash, the event NVM and the fuses stand. -/
def Obligations.LowRstNResetsEverything : Prop :=
  ∀ s : State, ∃ t, exec .rstNAssert s = .next t ∧ t.nv = s.nv ∧ t.pending = s.pending ∧ (∀ r u k, t.dev.rd r u k = r.reset u) ∧
    (∀ n < 64, t.dev.fg F.bankDom_on uBank n = 0) ∧ t.dev.works = ({ Dev.reset with pins := t.dev.pins } : Dev).works ∧
    t.dev.fab = Dev.reset.fab ∧ t.dev.qf = Dev.reset.qf ∧ t.dev.oz = Dev.reset.oz ∧ t.dev.hbm = Dev.reset.hbm ∧ t.dev.pins.rstN = false

/-- PERST_N ends the hold of every PCIe function and of no one else; a function-level reset ends none. -/
def Obligations.PerstEndsFunctionHolds : Prop :=
  (∀ s : State, ∃ t, exec .perstNAssert s = .next t ∧
    t.dev.fab.holds = s.dev.fab.holds.filter fun h => h.isUnit || !isFn h.id) ∧
  (∀ (s : State) (f : Fin 64), ∃ t, exec (.pcieFlr f) s = .next t ∧ t.dev.fab.holds = s.dev.fab.holds)

/-- A queue that is RESETTING drops TAIL writes and pushes of its owner with E_Q_OVERFLOW, which is no violation, and ignores a second
RESET. -/
def Obligations.ResettingQueueRefuses : Prop :=
  ∀ (d : Dev) (m qid v : Nat) (ring bytes : List Byte), issued m = true → d.isHeld m = false → d.ownsQ m qid = true → (d.q qid).rstate = 3 →
    Makes (.dbTailWrite m qid 0 4 v ring) d (d.raise { code := 0x0301, sev := 1, unit := uQf, master := m, d0 := qid }) ∧
    (bytes.length = 64 → (d.q qid).ringHost = false →
      Makes (.dbPush m qid 0 bytes) d (d.raise { code := 0x0301, sev := 1, unit := uQf, master := m, d0 := qid })) ∧
    ((d.q qid).noabort = false → Makes (.dbReset m qid) d d) ∧
    (∀ e : Ev, (d.raise e).fab = d.fab ∧ (d.raise e).qf = d.qf)

/-- A single-bit error of firmware's SRAM is counted in OZ_ECC and raises E_OZ_ECC_CE (S1); a double-bit error is counted, raises
E_OZ_ECC_UE (S4), and is then a fault of the pair that read it: the very state a lockstep mismatch of that pair makes. -/
def Obligations.SramErrors : Prop :=
  ∀ (d : Dev) (pairB : Bool),
    Makes (.ozSramEccError pairB false) d ((d.fadd F.ozEcc_ce 1 uOzder).raise { code := 0x0413, sev := 1, unit := uOzder }) ∧
    (∃ e, Makes (.ozSramEccError pairB true) d e ∧
      Makes (.ozLockstepMismatch pairB) ((d.fadd F.ozEcc_ue 1 uOzder).raise { code := 0x0414, sev := 4, unit := uOzder }) e)

/-- SNAP latches D0, D1 and device time of one tick: the snapshot registers hold the two domains' seconds, nanoseconds and fractions and
the device time as they stand together, and no clock moves. -/
def Obligations.SnapLatchesOneTick : Prop :=
  ∀ (d : Dev) (m : Nat) (v : Word), issued m = true → d.open m .tmCtl uTime 0 (setF v 31 31 1) →
    getF v 15 0 ≤ 1000 → getF v 30 30 = 0 → ∃ e, Makes (.tmSnap m v) d e ∧ e.tm = d.tm ∧
      (∀ k < 2, (e.rd .dSnapSlo uTime k).toNat = (d.tm.clock k).sec % 2 ^ 32 ∧ e.fg F.dSnapShi_secHi uTime k = (d.tm.clock k).sec / 2 ^ 32 % 2 ^ 16 ∧
        e.fg F.dSnapNs_ns uTime k = (d.tm.clock k).ns % 2 ^ 30 ∧ e.fg F.dSnapShi_frac uTime k = (d.tm.clock k).frac / 2 ^ 16 % 2 ^ 16) ∧
      (e.rd .devSnapLo uTime).toNat = d.stamp % 2 ^ 32 ∧ (e.rd .devSnapHi uTime).toNat = d.stamp / 2 ^ 32 % 2 ^ 32

/-- A MIRROR, STATE, STATE_ACK, CLIPSYNC or MSG packet whose pair epoch differs from the receiver's is discarded and counted in STALE. -/
def Obligations.StalePairEpochDiscarded : Prop :=
  ∀ (d : Dev) (epoch : Nat) (crcOk : Bool), epoch % 65536 ≠ d.pairEpoch →
    (∀ (mseq : Nat) (link : Fin 8) (inner : List (Nat × Inner)),
      Makes (.mirror epoch crcOk mseq link inner) d (d.fadd F.twCnt_stale 1 uTwin)) ∧
    (∀ (seg off : Nat) (bytes : List Byte), Makes (.state epoch crcOk seg off bytes) d (d.fadd F.twCnt_stale 1 uTwin)) ∧
    (∀ bytes : Nat, Makes (.stateAck epoch crcOk bytes) d (d.fadd F.twCnt_stale 1 uTwin)) ∧
    (∀ (clip auseq rseq start bytes : Nat) (sha : List Nat),
      Makes (.clipsync epoch crcOk clip auseq rseq start bytes sha) d (d.fadd F.twCnt_stale 1 uTwin)) ∧
    (∀ bytes : List Byte, Makes (.twinMsg epoch crcOk bytes) d (d.fadd F.twCnt_stale 1 uTwin))

/-- BAR1: a write of a privileged master that is not held, inside HBM, outside standby and outside the reserved regions (or by Ozder),
makes the bytes read back by any privileged master, and leaves every other byte of HBM as it was. -/
def Obligations.HbmReadsWhatWasWritten : Prop :=
  ∀ (nv : Nv) (q : List Instr) (d : Dev) (m m' a die : Nat) (bs : List Byte), issued m = true → issued m' = true →
    d.isHeld m = false → d.priv m = true → (isOz m = true ∨ d.reserved a bs.length = false) → d.standby = false →
    d.fb F.hbmState_ready uHbm = true → 0 < bs.length → a + bs.length ≤ hbmBytes →
    ∃ t, exec (.bar1Access m a true 0 bs [] [] 0) { nv := nv, dev := d, pending := q } = .next t ∧
      (∀ x, mget 0 t.dev.hbm.mem x = if a ≤ x ∧ x < a + bs.length then bs.getD (x - a) 0 else mget 0 d.hbm.mem x) ∧
      (t.dev.priv m' = true → ∃ e, exec (.bar1Access m' a false bs.length [] [] [] die) t = .next e ∧ e.dev.fab.rbytes = bs)

/-- A write to the registers by a master that is not held: a size or place that R77 does not allow is dropped with E_ACCESS_ALIGN, an 8- or
16-bit one at its size with E_ACCESS_ERR, a 32-bit one to no register with E_UNMAPPED; none is a violation. -/
def Obligations.RegisterWriteSizes : Prop :=
  ∀ (nv : Nv) (d : Dev) (m a size : Nat) (ws : List (Word × Bool)) (x : Shown), issued m = true → d.isHeld m = false → a < 0x1010000 →
    (sizeOk a size = false → MakesBoth (.regWrite m a size ws x) nv d (nv, (d.accErr 3 m a).raise { code := 0x0202, sev := 1, master := m })) ∧
    (sizeOk a size = true → size < 4 → MakesBoth (.regWrite m a size ws x) nv d (nv, (d.accErr 1 m a).raise { code := 0x0201, sev := 1, master := m })) ∧
    (∀ v : Word, size = 4 → sizeOk a 4 = true → regAt a = none → msixAt m a = none → ¬(0x7F00 ≤ a ∧ a < 0x8000) →
      MakesBoth (.regWrite m a size [(v, true)] x) nv d (nvFlush 0 nv ((d.accErr 4 m a).raise { code := 0x0203, sev := 1, master := m }))) ∧
    (∀ (e : Dev) (ev : Ev) (k : Nat), ((e.accErr k m a).raise ev).fab = e.fab)

/-- The two halves of a 64-bit write are two accesses: if the first violates (a PRIV register, a master without privilege), the master is
held and the second half is refused and counted. -/
def Obligations.SplitWriteIsTwoAccesses : Prop :=
  ∀ (nv : Nv) (d : Dev) (m a : Nat) (v w : Word) (x : Shown) (r : Reg) (u k : Nat), issued m = true → isOz m = false → d.isHeld m = false →
    a < 0x1010000 → sizeOk a 8 = true → msixAt m a = none → ¬(0x7F00 ≤ a ∧ a < 0x8000) → regAt a = some (r, u, k) → r ≠ .mqCqh → r ≠ .bootHostCtl →
    instFor r m k = k → r.isPriv = true → d.priv m = false →
    ∃ e, (nvFlush 0 nv (d.violate m 1 (regOffset r u k))).2 = e ∧ e.isHeld m = true ∧
      MakesBoth (.regWrite m a 8 [(v, true), (w, true)] x) nv d ((nvFlush 0 nv (d.violate m 1 (regOffset r u k))).1, e.refuse m)

/-- An Ozder master's violation (a submission to a queue it does not own) is dropped and raises E_OZ_VIOL, severity S4; nobody is held. -/
def Obligations.OzderViolationsRaiseAndDrop : Prop :=
  ∀ (d : Dev) (m qid v : Nat) (ring bytes : List Byte), isOz m = true → d.isHeld m = false → d.ownsQ m qid = false →
    let e := d.raise { code := 0x0213, sev := 4, master := m, d0 := 4, d1 := qid }
    Makes (.dbStart m qid) d e ∧ Makes (.dbStop m qid) d e ∧ Makes (.dbReset m qid) d e ∧ Makes (.dbTailWrite m qid 0 4 v ring) d e ∧
    (bytes.length = 64 → Makes (.dbPush m qid 0 bytes) d e) ∧ e.fab.holds = d.fab.holds

/-- SYS.QUEUE_CREATE refuses CVU7 as a target with E_MB_ARG, whatever else the argument block asks for, once it is long enough. -/
def Obligations.Cvu7IsFirmwaresOwn : Prop :=
  ∀ (d : Dev) (r : Req), d.Accepts r 1 3 false → 32 ≤ r.argLen → (d.queueSpec r).unit = uCvu 7 →
    Makes (.sysQueueCreate r) d (d.replyErr r 1 3 0x0404 (offBlk 0)).sweep
end

