-- ==== Sys2Proof/Laws/Assoc.lean ====
section
/-! SUPPORT. Tables and byte memories: read after write, and every operation keeps the canonical form. -/
namespace Sys2Proof.Machine

variable {α : Type}

@[simp] theorem tget_tset_same (t : Tab α) (k : Nat) (a : α) : tget (tset t k a) k = some a := by
  induction t with
  | nil => simp [tset, tget]
  | cons p t ih =>
    obtain ⟨j, b⟩ := p
    by_cases h : k < j
    · simp [tset, h, tget]
    · by_cases h' : k = j
      · simp [tset, h', tget]
      · have : ¬ j = k := fun e => h' e.symm
        simp [tset, h, h', tget, this, ih]

theorem tget_tset_other (t : Tab α) (k j : Nat) (a : α) (h : j ≠ k) : tget (tset t k a) j = tget t j := by
  induction t with
  | nil => simp [tset, tget, Ne.symm h]
  | cons p t ih =>
    obtain ⟨i, b⟩ := p
    by_cases h1 : k < i
    · simp [tset, h1, tget, Ne.symm h]
    · by_cases h2 : k = i
      · subst h2
        simp [tset, tget, Ne.symm h]
      · simp [tset, h1, h2, tget, ih]

theorem tget_tset (t : Tab α) (k j : Nat) (a : α) : tget (tset t k a) j = if j = k then some a else tget t j := by
  by_cases h : j = k
  · simp [h]
  · simp [h, tget_tset_other]

theorem tsorted_cons (p : Nat × α) (t : Tab α) :
    tsorted (p :: t) = true ↔ (∀ q ∈ t.head?, p.1 < q.1) ∧ tsorted t = true := by
  cases t with
  | nil => simp [tsorted]
  | cons q t => simp [tsorted]

theorem tset_head (t : Tab α) (k : Nat) (a : α) (m : Nat) (h : m < k) (ht : ∀ q ∈ t.head?, m < q.1) :
    ∀ q ∈ (tset t k a).head?, m < q.1 := by
  cases t with
  | nil => simpa [tset] using h
  | cons p t =>
    obtain ⟨j, b⟩ := p
    simp only [List.head?_cons, Option.mem_def, Option.some.injEq, forall_eq'] at ht
    by_cases h1 : k < j
    · simp [tset, h1, h]
    · by_cases h2 : k = j
      · simp [tset, h2, ht]
      · simp [tset, h1, h2, ht]

theorem tsorted_tset (t : Tab α) (k : Nat) (a : α) (h : tsorted t = true) : tsorted (tset t k a) = true := by
  induction t with
  | nil => simp [tset, tsorted]
  | cons p t ih =>
    obtain ⟨j, b⟩ := p
    have hc := (tsorted_cons _ _).1 h
    by_cases h1 : k < j
    · simp only [tset, h1, if_true]
      exact (tsorted_cons _ _).2 ⟨by simpa using h1, h⟩
    · by_cases h2 : k = j
      · subst h2
        simp only [tset, Nat.lt_irrefl, if_false, if_true]
        exact (tsorted_cons _ _).2 hc
      · simp only [tset, h1, h2, if_false]
        exact (tsorted_cons _ _).2 ⟨tset_head t k a j (by omega) hc.1, ih hc.2⟩

theorem tdel_eq_filter (t : Tab α) (k : Nat) : tdel t k = t.filter fun p => decide (p.1 ≠ k) := by
  induction t with
  | nil => rfl
  | cons p t ih =>
    obtain ⟨j, b⟩ := p
    by_cases h : j = k <;> simp [tdel, h, ih]

theorem tdel_subset (t : Tab α) (k : Nat) : ∀ p ∈ tdel t k, p ∈ t := by
  intro p hp
  rw [tdel_eq_filter] at hp
  exact (List.mem_filter.1 hp).1

/-- In a sorted table every entry lies above the head's key. -/
theorem tsorted_lt (p : Nat × α) (t : Tab α) (h : tsorted (p :: t) = true) : ∀ q ∈ t, p.1 < q.1 := by
  induction t generalizing p with
  | nil => simp
  | cons r t ih =>
    have hc := (tsorted_cons _ _).1 h
    have hr : p.1 < r.1 := hc.1 r (by simp)
    intro q hq
    rcases List.mem_cons.1 hq with e | hq
    · exact e ▸ hr
    · exact Nat.lt_trans hr (ih r hc.2 q hq)

theorem tsorted_of_lt (p : Nat × α) (t : Tab α) (h : ∀ q ∈ t, p.1 < q.1) (ht : tsorted t = true) : tsorted (p :: t) = true :=
  (tsorted_cons _ _).2 ⟨fun q hq => h q (List.mem_of_mem_head? hq), ht⟩

theorem tsorted_tail (p : Nat × α) (t : Tab α) (h : tsorted (p :: t) = true) : tsorted t = true := ((tsorted_cons _ _).1 h).2

theorem tsorted_filter (t : Tab α) (f : Nat × α → Bool) (h : tsorted t = true) : tsorted (t.filter f) = true := by
  induction t with
  | nil => simp [tsorted]
  | cons p t ih =>
    have ht := ih (tsorted_tail _ _ h)
    by_cases hp : f p = true
    · rw [List.filter_cons_of_pos hp]
      exact tsorted_of_lt _ _ (fun q hq => tsorted_lt _ _ h q (List.mem_filter.1 hq).1) ht
    · rw [List.filter_cons_of_neg hp]
      exact ht

theorem tsorted_tdel (t : Tab α) (k : Nat) (h : tsorted t = true) : tsorted (tdel t k) = true := by
  rw [tdel_eq_filter]
  exact tsorted_filter t _ h

theorem tset_mem (t : Tab α) (k : Nat) (a : α) : ∀ p ∈ tset t k a, p = (k, a) ∨ p ∈ t := by
  induction t with
  | nil => simp [tset]
  | cons p t ih =>
    obtain ⟨j, b⟩ := p
    intro q hq
    by_cases h1 : k < j
    · simpa [tset, h1] using hq
    · by_cases h2 : k = j
      · simp only [tset, h2, Nat.lt_irrefl, if_false, if_true, List.mem_cons] at hq
        rcases hq with hq | hq
        · exact Or.inl (by rw [hq, h2])
        · exact Or.inr (List.mem_cons_of_mem _ hq)
      · simp only [tset, h1, h2, if_false, List.mem_cons] at hq
        rcases hq with hq | hq
        · exact Or.inr (by simp [hq])
        · rcases ih q hq with e | e
          · exact Or.inl e
          · exact Or.inr (List.mem_cons_of_mem _ e)

/-- Deleting a key: that key reads none, every other key as before. -/
theorem tget_tdel (t : Tab α) (k j : Nat) : tget (tdel t k) j = if j = k then none else tget t j := by
  induction t with
  | nil => simp [tdel, tget]
  | cons p t ih =>
    obtain ⟨i, b⟩ := p
    by_cases h1 : i = k
    · subst h1
      by_cases h2 : j = i
      · subst h2
        simp [tdel, ih]
      · simp [tdel, ih, h2, tget, Ne.symm h2]
    · by_cases h2 : i = j
      · subst h2
        simp [tdel, h1, tget]
      · simp [tdel, h1, tget, h2, ih]

/-! ### Byte memories -/

/-- The canonical form, entry by entry. -/
theorem mwf_iff (d : Byte) (m : Tab Byte) : mwf d m = true ↔ tsorted m = true ∧ ∀ p ∈ m, p.2 ≠ d := by
  simp [mwf, List.all_eq_true]

theorem mset_wf (d : Byte) (m : Tab Byte) (a : Nat) (b : Byte) (h : mwf d m = true) : mwf d (mset d m a b) = true := by
  obtain ⟨hs, hd⟩ := (mwf_iff d m).1 h
  unfold mset
  split
  · exact (mwf_iff _ _).2 ⟨tsorted_tdel _ _ hs, fun p hp => hd p (tdel_subset _ _ p hp)⟩
  · rename_i hb
    refine (mwf_iff _ _).2 ⟨tsorted_tset _ _ _ hs, fun p hp => ?_⟩
    rcases tset_mem _ _ _ p hp with e | e
    · simpa [e] using hb
    · exact hd p e

theorem mwrite_wf (d : Byte) (m : Tab Byte) (a : Nat) (bs : List Byte) (h : mwf d m = true) : mwf d (mwrite d m a bs) = true := by
  induction bs generalizing m a with
  | nil => exact h
  | cons b bs ih => exact ih _ _ (mset_wf d m a b h)

theorem merase_wf (d : Byte) (m : Tab Byte) (a b : Nat) (h : mwf d m = true) : mwf d (merase m a b) = true := by
  obtain ⟨hs, hd⟩ := (mwf_iff d m).1 h
  exact (mwf_iff _ _).2 ⟨tsorted_filter _ _ hs, fun p hp => hd p (List.mem_filter.1 hp).1⟩

/-- A byte read after a byte write. -/
theorem mget_mset (d : Byte) (m : Tab Byte) (a j : Nat) (b : Byte) :
    mget d (mset d m a b) j = if j = a then b else mget d m j := by
  unfold mget mset
  split
  · rename_i hb
    rw [tget_tdel]
    split <;> simp [hb]
  · rw [tget_tset]
    split <;> simp

/-- A byte read after a run of bytes is written. -/
theorem mget_mwrite (d : Byte) (bs : List Byte) (m : Tab Byte) (a j : Nat) :
    mget d (mwrite d m a bs) j = if a ≤ j ∧ j < a + bs.length then bs.getD (j - a) d else mget d m j := by
  induction bs generalizing m a with
  | nil => rw [mwrite, if_neg (by simp)]
  | cons b bs ih =>
    rw [mwrite, ih, mget_mset]
    by_cases h1 : j = a
    · subst h1
      rw [if_neg (by omega), if_pos rfl, if_pos (by simp)]
      simp
    · by_cases h2 : a + 1 ≤ j ∧ j < a + 1 + bs.length
      · have h3 : a ≤ j ∧ j < a + (b :: bs).length := by simp; omega
        have h4 : j - a = (j - (a + 1)) + 1 := by omega
        rw [if_pos h2, if_pos h3, h4]
        simp
      · have h3 : ¬ (a ≤ j ∧ j < a + (b :: bs).length) := by simp; omega
        rw [if_neg h2, if_neg h3, if_neg h1]

end Sys2Proof.Machine
end

