-- ==== Sys2Proof/Laws/Bits.lean ====
section
/-! SUPPORT. Reading a bit field back: the field just written, and every field apart from it. -/
namespace Sys2Proof.Machine

theorem getF_testBit (w : Word) (hi lo i : Nat) :
    (getF w hi lo).testBit i = (decide (i < hi + 1 - lo) && w.getLsbD (lo + i)) := by
  unfold getF
  rw [Nat.testBit_mod_two_pow, Nat.testBit_shiftRight, BitVec.testBit_toNat]

theorem maskF_getLsbD (hi lo i : Nat) :
    (maskF hi lo).getLsbD i = (decide (i < 32) && (decide (lo ≤ i) && decide (i - lo < hi + 1 - lo))) := by
  unfold maskF
  rw [BitVec.getLsbD_ofNat, Nat.testBit_shiftLeft, Nat.testBit_two_pow_sub_one]

theorem setF_getLsbD (w : Word) (hi lo v j : Nat) :
    (setF w hi lo v).getLsbD j =
      if decide (j < 32) && (decide (lo ≤ j) && decide (j - lo < hi + 1 - lo)) then v.testBit (j - lo) else w.getLsbD j := by
  simp only [setF, BitVec.getLsbD_or, BitVec.getLsbD_and, BitVec.getLsbD_not, BitVec.getLsbD_shiftLeft, BitVec.getLsbD_ofNat,
    maskF_getLsbD]
  by_cases h1 : j < 32
  · by_cases h2 : lo ≤ j
    · have h3 : ¬ j < lo := by omega
      have h4 : j - lo < 32 := by omega
      by_cases h5 : j - lo < hi + 1 - lo <;> simp [h1, h2, h3, h4, h5]
    · have h3 : j < lo := by omega
      simp [h1, h2, h3]
  · have : w.getLsbD j = false := BitVec.getLsbD_of_ge w j (by omega)
    simp [h1, this]

/-- A field reads back what was written into it, cut to its width. -/
theorem getF_setF_same (w : Word) (hi lo v : Nat) (h : hi < 32) :
    getF (setF w hi lo v) hi lo = v % 2 ^ (hi + 1 - lo) := by
  apply Nat.eq_of_testBit_eq
  intro i
  rw [getF_testBit, Nat.testBit_mod_two_pow, setF_getLsbD]
  by_cases h1 : i < hi + 1 - lo
  · have h2 : lo + i < 32 := by omega
    have h3 : lo + i - lo = i := by omega
    simp [h1, h2, h3]
  · simp [h1]

/-- A field apart from the one written keeps its value. -/
theorem getF_setF_other (w : Word) (hi lo v hi' lo' : Nat) (h : hi' < lo ∨ hi < lo') :
    getF (setF w hi lo v) hi' lo' = getF w hi' lo' := by
  apply Nat.eq_of_testBit_eq
  intro i
  rw [getF_testBit, getF_testBit, setF_getLsbD]
  by_cases h1 : i < hi' + 1 - lo'
  · have : ¬ (lo' + i < 32 ∧ lo ≤ lo' + i ∧ lo' + i - lo < hi + 1 - lo) := by omega
    rw [if_neg (by simpa using this)]
  · simp [h1]

end Sys2Proof.Machine
end

