-- ==== Sys2Proof/Laws/Registers.lean ====
section
/-! SUPPORT. The register store: a register reads what was written into it, others keep their words; the same for fields. -/
namespace Sys2Proof.Machine

theorem Reg.ctorIdx_inj (r r' : Reg) (h : r.ctorIdx = r'.ctorIdx) : r = r' := by
  have := congrArg Reg.ofNat h
  rwa [Reg.ofNat_ctorIdx, Reg.ofNat_ctorIdx] at this

/-- Two registers share a key only if they are the same register, of the same unit and instance. -/
theorem Reg.key_inj (r r' : Reg) (u u' k k' : Nat) (hu : u < 0x1000) (hu' : u' < 0x1000) (hk : k < 0x100) (hk' : k' < 0x100)
    (h : r.key u k = r'.key u' k') : r = r' ∧ u = u' ∧ k = k' := by
  unfold Reg.key at h
  have h1 : k = k' := by omega
  have h2 : u = u' := by omega
  exact ⟨Reg.ctorIdx_inj _ _ (by omega), h2, h1⟩

/-- What a register reads after a write, by keys. -/
theorem Dev.rd_wr (d : Dev) (r r' : Reg) (u k u' k' : Nat) (w : Word)
    (hk : r'.key u' k' ≠ r.key u k) : (d.wr r u k w).rd r' u' k' = d.rd r' u' k' := by
  unfold Dev.rd Dev.wr
  split
  · rw [tget_tdel, if_neg hk]
  · rw [tget_tset, if_neg hk]

@[simp] theorem Dev.rd_wr_same (d : Dev) (r : Reg) (u k : Nat) (w : Word) :
    (d.wr r u k w).rd r u k = w := by
  unfold Dev.rd Dev.wr
  split
  · rename_i h
    rw [tget_tdel, if_pos rfl]
    exact h.symm
  · rw [tget_tset, if_pos rfl]
    rfl

theorem Dev.wr_sorted (d : Dev) (r : Reg) (u k : Nat) (w : Word) (hs : tsorted d.regs = true) : tsorted (d.wr r u k w).regs = true := by
  unfold Dev.wr
  split
  · exact tsorted_tdel _ _ hs
  · exact tsorted_tset _ _ _ hs

theorem Dev.fs_sorted (d : Dev) (f : Fld) (v u k : Nat) (hs : tsorted d.regs = true) : tsorted (d.fs f v u k).regs = true :=
  d.wr_sorted _ _ _ _ hs

theorem Dev.fadd_sorted (d : Dev) (f : Fld) (v u k : Nat) (hs : tsorted d.regs = true) : tsorted (d.fadd f v u k).regs = true :=
  d.wr_sorted _ _ _ _ hs

/-- A field reads back what was set, cut to its width. -/
theorem Dev.fg_fs_same (d : Dev) (f : Fld) (v u k : Nat) (hf : f.hi < 32) :
    (d.fs f v u k).fg f u k = v % 2 ^ (f.hi + 1 - f.lo) := by
  unfold Dev.fg Dev.fs
  rw [Dev.rd_wr_same]
  exact getF_setF_same _ _ _ _ hf

/-- A field of another register keeps its value. -/
theorem Dev.fg_fs_reg (d : Dev) (f g : Fld) (v u k u' k' : Nat)
    (hk : g.reg.key u' k' ≠ f.reg.key u k) : (d.fs f v u k).fg g u' k' = d.fg g u' k' := by
  unfold Dev.fg Dev.fs
  rw [Dev.rd_wr _ _ _ _ _ _ _ _ hk]

/-- A field of the same register apart from the one set keeps its value. -/
theorem Dev.fg_fs_apart (d : Dev) (f g : Fld) (v u k : Nat) (hr : g.reg = f.reg)
    (h : g.hi < f.lo ∨ f.hi < g.lo) : (d.fs f v u k).fg g u k = d.fg g u k := by
  unfold Dev.fg Dev.fs
  rw [hr, Dev.rd_wr_same]
  exact getF_setF_other _ _ _ _ _ _ h

end Sys2Proof.Machine
end

