-- ==== Sys2Proof/Laws/Accesses.lean ====
section
/-! SUPPORT. What an access can do: a gated write's ends (R84, R85, R87, R89), and a read that clears counters. -/
namespace Sys2Proof.Machine

/-- A held master's write. -/
theorem Dev.gated_held (d : Dev) (m : Nat) (r : Reg) (u k : Nat) (v : Word) (f : Dev → Dev) (h : d.isHeld m = true) :
    d.gated m r u k v f = d.refuse m := by
  simp [Dev.gated, Dev.unlessHeld, h]

/-- A write to a PRIV register by a master without privilege. -/
theorem Dev.gated_unprivileged (d : Dev) (m : Nat) (r : Reg) (u k : Nat) (v : Word) (f : Dev → Dev) (h : d.isHeld m = false)
    (hr : r.isPriv = true) (hp : d.priv m = false) : d.gated m r u k v f = d.violate m 1 (regOffset r u k) := by
  simp [Dev.gated, Dev.unlessHeld, h, hr, hp]

theorem Dev.gated_private (d : Dev) (m : Nat) (r : Reg) (h : r.isPriv = true → d.priv m = true) :
    (r.isPriv && !d.priv m) = false := by
  cases hr : r.isPriv <;> simp_all

/-- A write that meets a lock. -/
theorem Dev.gated_locked (d : Dev) (m : Nat) (r : Reg) (u k : Nat) (v : Word) (f : Dev → Dev) (h : d.isHeld m = false)
    (hp : r.isPriv = true → d.priv m = true) (hl : r.isLk = true) (hk : d.isLocked r u = true) :
    d.gated m r u k v f = d.lockViol m r u k := by
  simp [Dev.gated, Dev.unlessHeld, h, Dev.gated_private d m r hp, hl, hk]

/-- A third value in a WOO field. -/
theorem Dev.gated_woo (d : Dev) (m : Nat) (r : Reg) (u k : Nat) (v : Word) (f : Dev → Dev) (h : d.isHeld m = false)
    (hp : r.isPriv = true → d.priv m = true) (hl : r.isLk = true → d.isLocked r u = false)
    (hw : r.row.fields.any (d.wooThird r u k v) = true) : d.gated m r u k v f = d.wooViol m r u k := by
  have hl' : (r.isLk && d.isLocked r u) = false := by
    cases hr : r.isLk <;> simp_all
  unfold Dev.gated Dev.unlessHeld
  rw [if_neg (by simp [h])]
  dsimp only
  rw [if_neg (by simp [Dev.gated_private d m r hp]), if_neg (by simp [hl']), if_pos hw]

/-- A write that no check turns away. -/
theorem Dev.gated_open (d : Dev) (m : Nat) (r : Reg) (u k : Nat) (v : Word) (f : Dev → Dev) (h : d.open m r u k v) :
    d.gated m r u k v f = f d := by
  obtain ⟨h, hp, hl, hw⟩ := h
  have hl' : (r.isLk && d.isLocked r u) = false := by
    cases hr : r.isLk <;> simp_all
  unfold Dev.gated Dev.unlessHeld
  rw [if_neg (by simp [h])]
  dsimp only
  rw [if_neg (by simp [Dev.gated_private d m r hp]), if_neg (by simp [hl']), if_neg (by simp [hw])]

/-- Fields of one register, apart from one another. -/
def apartIn (r : Reg) : List Fld → Prop
  | [] => True
  | f :: fs => f.reg = r ∧ f.hi < 32 ∧ (∀ g ∈ fs, g.hi < f.lo ∨ f.hi < g.lo) ∧ apartIn r fs

/-- The device after some fields of one register are cleared. -/
def Dev.cleared (d : Dev) (u k : Nat) (fs : List Fld) : Dev := fs.foldl (fun e f => e.fs f 0 u k) d

theorem Dev.fs_keeps (d : Dev) (f : Fld) (v u k : Nat) : { d.fs f v u k with regs := d.regs } = d := rfl

theorem Dev.cleared_keeps (fs : List Fld) (d : Dev) (u k : Nat) : { d.cleared u k fs with regs := d.regs } = d := by
  induction fs generalizing d with
  | nil => rfl
  | cons f fs ih =>
    show { (d.fs f 0 u k).cleared u k fs with regs := d.regs } = d
    have h := ih (d.fs f 0 u k)
    have h2 := Dev.fs_keeps d f 0 u k
    generalize (d.fs f 0 u k).cleared u k fs = x at h ⊢
    rw [← h] at h2
    exact h2

theorem Dev.cleared_rd (fs : List Fld) (r : Reg) (d : Dev) (u k : Nat) (ha : apartIn r fs) (r' : Reg) (u' k' : Nat)
    (hk : r'.key u' k' ≠ r.key u k) : (d.cleared u k fs).rd r' u' k' = d.rd r' u' k' := by
  induction fs generalizing d with
  | nil => rfl
  | cons f fs ih =>
    refine (ih (d.fs f 0 u k) ha.2.2.2).trans ?_
    refine Dev.rd_wr _ _ _ _ _ _ _ _ ?_
    rw [ha.1]
    exact hk

theorem Dev.cleared_other (fs : List Fld) (r : Reg) (d : Dev) (u k : Nat) (ha : apartIn r fs) (hi lo : Nat)
    (h : ∀ f ∈ fs, hi < f.lo ∨ f.hi < lo) : getF ((d.cleared u k fs).rd r u k) hi lo = getF (d.rd r u k) hi lo := by
  induction fs generalizing d with
  | nil => rfl
  | cons f fs ih =>
    refine (ih (d.fs f 0 u k) ha.2.2.2 fun g hg => h g (List.mem_cons_of_mem _ hg)).trans ?_
    unfold Dev.fs
    rw [ha.1, Dev.rd_wr_same]
    exact getF_setF_other _ _ _ _ _ _ (h f List.mem_cons_self)

/-- Each cleared field reads 0. -/
theorem Dev.cleared_zero (fs : List Fld) (r : Reg) (d : Dev) (u k : Nat) (ha : apartIn r fs) :
    ∀ f ∈ fs, (d.cleared u k fs).fg f u k = 0 := by
  induction fs generalizing d with
  | nil => intro f hf; cases hf
  | cons f fs ih =>
    intro g hg
    rcases List.mem_cons.mp hg with rfl | hg
    · have h := Dev.cleared_other fs r (d.fs g 0 u k) u k ha.2.2.2 g.hi g.lo fun x hx => (ha.2.2.1 x hx).symm
      show getF _ _ _ = 0
      rw [ha.1]
      refine h.trans ?_
      have h0 := Dev.fg_fs_same d g 0 u k ha.2.1
      unfold Dev.fg at h0
      rw [ha.1] at h0
      simpa using h0
    · exact ih (d.fs f 0 u k) ha.2.2.2 g hg

/-- A read that may not see the register. -/
theorem Dev.readClear_hidden (d : Dev) (m : Nat) (r : Reg) (u k : Nat) (fs : List Fld) (h : (r.isPriv && !d.priv m) = true) :
    d.readClear m r u k fs = { d with fab := { d.fab with rdata := 0 } } := by
  unfold Dev.readClear Dev.readReg
  rw [if_pos h]

/-- A read that clears counters. -/
theorem Dev.readClear_seen (d : Dev) (m : Nat) (r : Reg) (u k : Nat) (fs : List Fld) (h : (r.isPriv && !d.priv m) = false) :
    d.readClear m r u k fs = { d.cleared u k fs with fab := { d.fab with rdata := d.rd r u k } } := by
  unfold Dev.readClear Dev.readReg
  rw [if_neg (by simp [h])]
  have hf : (d.cleared u k fs).fab = d.fab := by
    have := congrArg Dev.fab (Dev.cleared_keeps fs d u k)
    exact this
  show { d.cleared u k fs with fab := { (d.cleared u k fs).fab with rdata := d.rd r u k } } = _
  rw [hf]

end Sys2Proof.Machine
end

