-- ==== Sys2Proof/Laws/State.lean ====
section
/-! SUPPORT. One lemma per field per update: what each update of the state leaves as it was, and what the updates of the whole
state's parts read back. -/
namespace Sys2Proof.Machine

@[simp] theorem State.withPending_nv (s : State) (q : List Instr) : (s.withPending q).nv = s.nv := rfl
@[simp] theorem State.withPending_dev (s : State) (q : List Instr) : (s.withPending q).dev = s.dev := rfl
@[simp] theorem State.withPending_pending (s : State) (q : List Instr) : (s.withPending q).pending = q := rfl

/-- A meaning on the device answers a next state that keeps the queue and what survives reset. -/
@[simp] theorem State.onDev_eq (s : State) (f : Dev → Dev) : s.onDev f = .next { s with dev := f s.dev } := rfl
@[simp] theorem State.onBoth_eq (s : State) (f : Nv → Dev → Nv × Dev) :
    s.onBoth f = .next { s with nv := (f s.nv s.dev).1, dev := (f s.nv s.dev).2 } := rfl
theorem State.access_eq (s : State) (m : Nat) (f : Dev → Dev) (h : issued m = true) :
    s.access m f = .next { s with dev := f s.dev } := by simp [State.access, h]
theorem State.access_fault (s : State) (m : Nat) (f : Dev → Dev) (h : issued m = false) :
    s.access m f = .fault (.neverIssued m) := by simp [State.access, h]

@[simp] theorem Dev.wr_free (d : Dev) (r : Reg) (u k : Nat) (w : Word) : (d.wr r u k w).free = d.free := rfl
@[simp] theorem Dev.wr_up (d : Dev) (r : Reg) (u k : Nat) (w : Word) : (d.wr r u k w).up = d.up := rfl
@[simp] theorem Dev.wr_once (d : Dev) (r : Reg) (u k : Nat) (w : Word) : (d.wr r u k w).once = d.once := rfl
@[simp] theorem Dev.wr_bank (d : Dev) (r : Reg) (u k : Nat) (w : Word) : (d.wr r u k w).bank = d.bank := rfl
@[simp] theorem Dev.wr_fab (d : Dev) (r : Reg) (u k : Nat) (w : Word) : (d.wr r u k w).fab = d.fab := rfl
@[simp] theorem Dev.wr_qf (d : Dev) (r : Reg) (u k : Nat) (w : Word) : (d.wr r u k w).qf = d.qf := rfl
@[simp] theorem Dev.wr_oz (d : Dev) (r : Reg) (u k : Nat) (w : Word) : (d.wr r u k w).oz = d.oz := rfl
@[simp] theorem Dev.wr_boot (d : Dev) (r : Reg) (u k : Nat) (w : Word) : (d.wr r u k w).boot = d.boot := rfl
@[simp] theorem Dev.wr_hbm (d : Dev) (r : Reg) (u k : Nat) (w : Word) : (d.wr r u k w).hbm = d.hbm := rfl
@[simp] theorem Dev.wr_hl (d : Dev) (r : Reg) (u k : Nat) (w : Word) : (d.wr r u k w).hl = d.hl := rfl
@[simp] theorem Dev.wr_host (d : Dev) (r : Reg) (u k : Nat) (w : Word) : (d.wr r u k w).host = d.host := rfl
@[simp] theorem Dev.wr_pins (d : Dev) (r : Reg) (u k : Nat) (w : Word) : (d.wr r u k w).pins = d.pins := rfl
@[simp] theorem Dev.wr_tm (d : Dev) (r : Reg) (u k : Nat) (w : Word) : (d.wr r u k w).tm = d.tm := rfl
@[simp] theorem Dev.wr_tw (d : Dev) (r : Reg) (u k : Nat) (w : Word) : (d.wr r u k w).tw = d.tw := rfl
@[simp] theorem Dev.wr_ch (d : Dev) (r : Reg) (u k : Nat) (w : Word) : (d.wr r u k w).ch = d.ch := rfl
@[simp] theorem Dev.wr_ln (d : Dev) (r : Reg) (u k : Nat) (w : Word) : (d.wr r u k w).ln = d.ln := rfl
@[simp] theorem Dev.wr_ing (d : Dev) (r : Reg) (u k : Nat) (w : Word) : (d.wr r u k w).ing = d.ing := rfl
@[simp] theorem Dev.wr_integ (d : Dev) (r : Reg) (u k : Nat) (w : Word) : (d.wr r u k w).integ = d.integ := rfl
@[simp] theorem Dev.wr_pipe (d : Dev) (r : Reg) (u k : Nat) (w : Word) : (d.wr r u k w).pipe = d.pipe := rfl
@[simp] theorem Dev.wr_ps (d : Dev) (r : Reg) (u k : Nat) (w : Word) : (d.wr r u k w).ps = d.ps := rfl
@[simp] theorem Dev.wr_md (d : Dev) (r : Reg) (u k : Nat) (w : Word) : (d.wr r u k w).md = d.md := rfl
@[simp] theorem Dev.wr_au (d : Dev) (r : Reg) (u k : Nat) (w : Word) : (d.wr r u k w).au = d.au := rfl
@[simp] theorem Dev.wr_sc (d : Dev) (r : Reg) (u k : Nat) (w : Word) : (d.wr r u k w).sc = d.sc := rfl

@[simp] theorem Dev.fs_free (d : Dev) (f : Fld) (v u k : Nat) : (d.fs f v u k).free = d.free := rfl
@[simp] theorem Dev.fs_up (d : Dev) (f : Fld) (v u k : Nat) : (d.fs f v u k).up = d.up := rfl
@[simp] theorem Dev.fs_once (d : Dev) (f : Fld) (v u k : Nat) : (d.fs f v u k).once = d.once := rfl
@[simp] theorem Dev.fs_bank (d : Dev) (f : Fld) (v u k : Nat) : (d.fs f v u k).bank = d.bank := rfl
@[simp] theorem Dev.fs_fab (d : Dev) (f : Fld) (v u k : Nat) : (d.fs f v u k).fab = d.fab := rfl
@[simp] theorem Dev.fs_qf (d : Dev) (f : Fld) (v u k : Nat) : (d.fs f v u k).qf = d.qf := rfl
@[simp] theorem Dev.fs_oz (d : Dev) (f : Fld) (v u k : Nat) : (d.fs f v u k).oz = d.oz := rfl
@[simp] theorem Dev.fs_boot (d : Dev) (f : Fld) (v u k : Nat) : (d.fs f v u k).boot = d.boot := rfl
@[simp] theorem Dev.fs_hbm (d : Dev) (f : Fld) (v u k : Nat) : (d.fs f v u k).hbm = d.hbm := rfl
@[simp] theorem Dev.fs_hl (d : Dev) (f : Fld) (v u k : Nat) : (d.fs f v u k).hl = d.hl := rfl
@[simp] theorem Dev.fs_host (d : Dev) (f : Fld) (v u k : Nat) : (d.fs f v u k).host = d.host := rfl
@[simp] theorem Dev.fs_pins (d : Dev) (f : Fld) (v u k : Nat) : (d.fs f v u k).pins = d.pins := rfl
@[simp] theorem Dev.fs_tm (d : Dev) (f : Fld) (v u k : Nat) : (d.fs f v u k).tm = d.tm := rfl
@[simp] theorem Dev.fs_tw (d : Dev) (f : Fld) (v u k : Nat) : (d.fs f v u k).tw = d.tw := rfl
@[simp] theorem Dev.fs_ch (d : Dev) (f : Fld) (v u k : Nat) : (d.fs f v u k).ch = d.ch := rfl
@[simp] theorem Dev.fs_ln (d : Dev) (f : Fld) (v u k : Nat) : (d.fs f v u k).ln = d.ln := rfl
@[simp] theorem Dev.fs_ing (d : Dev) (f : Fld) (v u k : Nat) : (d.fs f v u k).ing = d.ing := rfl
@[simp] theorem Dev.fs_integ (d : Dev) (f : Fld) (v u k : Nat) : (d.fs f v u k).integ = d.integ := rfl
@[simp] theorem Dev.fs_pipe (d : Dev) (f : Fld) (v u k : Nat) : (d.fs f v u k).pipe = d.pipe := rfl
@[simp] theorem Dev.fs_ps (d : Dev) (f : Fld) (v u k : Nat) : (d.fs f v u k).ps = d.ps := rfl
@[simp] theorem Dev.fs_md (d : Dev) (f : Fld) (v u k : Nat) : (d.fs f v u k).md = d.md := rfl
@[simp] theorem Dev.fs_au (d : Dev) (f : Fld) (v u k : Nat) : (d.fs f v u k).au = d.au := rfl
@[simp] theorem Dev.fs_sc (d : Dev) (f : Fld) (v u k : Nat) : (d.fs f v u k).sc = d.sc := rfl

@[simp] theorem Dev.fadd_free (d : Dev) (f : Fld) (v u k : Nat) : (d.fadd f v u k).free = d.free := rfl
@[simp] theorem Dev.fadd_up (d : Dev) (f : Fld) (v u k : Nat) : (d.fadd f v u k).up = d.up := rfl
@[simp] theorem Dev.fadd_once (d : Dev) (f : Fld) (v u k : Nat) : (d.fadd f v u k).once = d.once := rfl
@[simp] theorem Dev.fadd_bank (d : Dev) (f : Fld) (v u k : Nat) : (d.fadd f v u k).bank = d.bank := rfl
@[simp] theorem Dev.fadd_fab (d : Dev) (f : Fld) (v u k : Nat) : (d.fadd f v u k).fab = d.fab := rfl
@[simp] theorem Dev.fadd_qf (d : Dev) (f : Fld) (v u k : Nat) : (d.fadd f v u k).qf = d.qf := rfl
@[simp] theorem Dev.fadd_oz (d : Dev) (f : Fld) (v u k : Nat) : (d.fadd f v u k).oz = d.oz := rfl
@[simp] theorem Dev.fadd_boot (d : Dev) (f : Fld) (v u k : Nat) : (d.fadd f v u k).boot = d.boot := rfl
@[simp] theorem Dev.fadd_hbm (d : Dev) (f : Fld) (v u k : Nat) : (d.fadd f v u k).hbm = d.hbm := rfl
@[simp] theorem Dev.fadd_hl (d : Dev) (f : Fld) (v u k : Nat) : (d.fadd f v u k).hl = d.hl := rfl
@[simp] theorem Dev.fadd_host (d : Dev) (f : Fld) (v u k : Nat) : (d.fadd f v u k).host = d.host := rfl
@[simp] theorem Dev.fadd_pins (d : Dev) (f : Fld) (v u k : Nat) : (d.fadd f v u k).pins = d.pins := rfl
@[simp] theorem Dev.fadd_tm (d : Dev) (f : Fld) (v u k : Nat) : (d.fadd f v u k).tm = d.tm := rfl
@[simp] theorem Dev.fadd_tw (d : Dev) (f : Fld) (v u k : Nat) : (d.fadd f v u k).tw = d.tw := rfl
@[simp] theorem Dev.fadd_ch (d : Dev) (f : Fld) (v u k : Nat) : (d.fadd f v u k).ch = d.ch := rfl
@[simp] theorem Dev.fadd_ln (d : Dev) (f : Fld) (v u k : Nat) : (d.fadd f v u k).ln = d.ln := rfl
@[simp] theorem Dev.fadd_ing (d : Dev) (f : Fld) (v u k : Nat) : (d.fadd f v u k).ing = d.ing := rfl
@[simp] theorem Dev.fadd_integ (d : Dev) (f : Fld) (v u k : Nat) : (d.fadd f v u k).integ = d.integ := rfl
@[simp] theorem Dev.fadd_pipe (d : Dev) (f : Fld) (v u k : Nat) : (d.fadd f v u k).pipe = d.pipe := rfl
@[simp] theorem Dev.fadd_ps (d : Dev) (f : Fld) (v u k : Nat) : (d.fadd f v u k).ps = d.ps := rfl
@[simp] theorem Dev.fadd_md (d : Dev) (f : Fld) (v u k : Nat) : (d.fadd f v u k).md = d.md := rfl
@[simp] theorem Dev.fadd_au (d : Dev) (f : Fld) (v u k : Nat) : (d.fadd f v u k).au = d.au := rfl
@[simp] theorem Dev.fadd_sc (d : Dev) (f : Fld) (v u k : Nat) : (d.fadd f v u k).sc = d.sc := rfl

@[simp] theorem Dev.set64_free (d : Dev) (lo hi : Reg) (v u k : Nat) : (d.set64 lo hi v u k).free = d.free := rfl
@[simp] theorem Dev.set64_up (d : Dev) (lo hi : Reg) (v u k : Nat) : (d.set64 lo hi v u k).up = d.up := rfl
@[simp] theorem Dev.set64_once (d : Dev) (lo hi : Reg) (v u k : Nat) : (d.set64 lo hi v u k).once = d.once := rfl
@[simp] theorem Dev.set64_bank (d : Dev) (lo hi : Reg) (v u k : Nat) : (d.set64 lo hi v u k).bank = d.bank := rfl
@[simp] theorem Dev.set64_fab (d : Dev) (lo hi : Reg) (v u k : Nat) : (d.set64 lo hi v u k).fab = d.fab := rfl
@[simp] theorem Dev.set64_qf (d : Dev) (lo hi : Reg) (v u k : Nat) : (d.set64 lo hi v u k).qf = d.qf := rfl
@[simp] theorem Dev.set64_oz (d : Dev) (lo hi : Reg) (v u k : Nat) : (d.set64 lo hi v u k).oz = d.oz := rfl
@[simp] theorem Dev.set64_boot (d : Dev) (lo hi : Reg) (v u k : Nat) : (d.set64 lo hi v u k).boot = d.boot := rfl
@[simp] theorem Dev.set64_hbm (d : Dev) (lo hi : Reg) (v u k : Nat) : (d.set64 lo hi v u k).hbm = d.hbm := rfl
@[simp] theorem Dev.set64_hl (d : Dev) (lo hi : Reg) (v u k : Nat) : (d.set64 lo hi v u k).hl = d.hl := rfl
@[simp] theorem Dev.set64_host (d : Dev) (lo hi : Reg) (v u k : Nat) : (d.set64 lo hi v u k).host = d.host := rfl
@[simp] theorem Dev.set64_pins (d : Dev) (lo hi : Reg) (v u k : Nat) : (d.set64 lo hi v u k).pins = d.pins := rfl
@[simp] theorem Dev.set64_tm (d : Dev) (lo hi : Reg) (v u k : Nat) : (d.set64 lo hi v u k).tm = d.tm := rfl
@[simp] theorem Dev.set64_tw (d : Dev) (lo hi : Reg) (v u k : Nat) : (d.set64 lo hi v u k).tw = d.tw := rfl
@[simp] theorem Dev.set64_ch (d : Dev) (lo hi : Reg) (v u k : Nat) : (d.set64 lo hi v u k).ch = d.ch := rfl
@[simp] theorem Dev.set64_ln (d : Dev) (lo hi : Reg) (v u k : Nat) : (d.set64 lo hi v u k).ln = d.ln := rfl
@[simp] theorem Dev.set64_ing (d : Dev) (lo hi : Reg) (v u k : Nat) : (d.set64 lo hi v u k).ing = d.ing := rfl
@[simp] theorem Dev.set64_integ (d : Dev) (lo hi : Reg) (v u k : Nat) : (d.set64 lo hi v u k).integ = d.integ := rfl
@[simp] theorem Dev.set64_pipe (d : Dev) (lo hi : Reg) (v u k : Nat) : (d.set64 lo hi v u k).pipe = d.pipe := rfl
@[simp] theorem Dev.set64_ps (d : Dev) (lo hi : Reg) (v u k : Nat) : (d.set64 lo hi v u k).ps = d.ps := rfl
@[simp] theorem Dev.set64_md (d : Dev) (lo hi : Reg) (v u k : Nat) : (d.set64 lo hi v u k).md = d.md := rfl
@[simp] theorem Dev.set64_au (d : Dev) (lo hi : Reg) (v u k : Nat) : (d.set64 lo hi v u k).au = d.au := rfl
@[simp] theorem Dev.set64_sc (d : Dev) (lo hi : Reg) (v u k : Nat) : (d.set64 lo hi v u k).sc = d.sc := rfl

@[simp] theorem Dev.useFree_regs (d : Dev) : (d.useFree).regs = d.regs := rfl
@[simp] theorem Dev.useFree_up (d : Dev) : (d.useFree).up = d.up := rfl
@[simp] theorem Dev.useFree_once (d : Dev) : (d.useFree).once = d.once := rfl
@[simp] theorem Dev.useFree_bank (d : Dev) : (d.useFree).bank = d.bank := rfl
@[simp] theorem Dev.useFree_fab (d : Dev) : (d.useFree).fab = d.fab := rfl
@[simp] theorem Dev.useFree_qf (d : Dev) : (d.useFree).qf = d.qf := rfl
@[simp] theorem Dev.useFree_oz (d : Dev) : (d.useFree).oz = d.oz := rfl
@[simp] theorem Dev.useFree_boot (d : Dev) : (d.useFree).boot = d.boot := rfl
@[simp] theorem Dev.useFree_hbm (d : Dev) : (d.useFree).hbm = d.hbm := rfl
@[simp] theorem Dev.useFree_hl (d : Dev) : (d.useFree).hl = d.hl := rfl
@[simp] theorem Dev.useFree_host (d : Dev) : (d.useFree).host = d.host := rfl
@[simp] theorem Dev.useFree_pins (d : Dev) : (d.useFree).pins = d.pins := rfl
@[simp] theorem Dev.useFree_tm (d : Dev) : (d.useFree).tm = d.tm := rfl
@[simp] theorem Dev.useFree_tw (d : Dev) : (d.useFree).tw = d.tw := rfl
@[simp] theorem Dev.useFree_ch (d : Dev) : (d.useFree).ch = d.ch := rfl
@[simp] theorem Dev.useFree_ln (d : Dev) : (d.useFree).ln = d.ln := rfl
@[simp] theorem Dev.useFree_ing (d : Dev) : (d.useFree).ing = d.ing := rfl
@[simp] theorem Dev.useFree_integ (d : Dev) : (d.useFree).integ = d.integ := rfl
@[simp] theorem Dev.useFree_pipe (d : Dev) : (d.useFree).pipe = d.pipe := rfl
@[simp] theorem Dev.useFree_ps (d : Dev) : (d.useFree).ps = d.ps := rfl
@[simp] theorem Dev.useFree_md (d : Dev) : (d.useFree).md = d.md := rfl
@[simp] theorem Dev.useFree_au (d : Dev) : (d.useFree).au = d.au := rfl
@[simp] theorem Dev.useFree_sc (d : Dev) : (d.useFree).sc = d.sc := rfl

@[simp] theorem Dev.hbmW_regs (d : Dev) (a : Nat) (bs : List Byte) : (d.hbmW a bs).regs = d.regs := rfl
@[simp] theorem Dev.hbmW_free (d : Dev) (a : Nat) (bs : List Byte) : (d.hbmW a bs).free = d.free := rfl
@[simp] theorem Dev.hbmW_up (d : Dev) (a : Nat) (bs : List Byte) : (d.hbmW a bs).up = d.up := rfl
@[simp] theorem Dev.hbmW_once (d : Dev) (a : Nat) (bs : List Byte) : (d.hbmW a bs).once = d.once := rfl
@[simp] theorem Dev.hbmW_bank (d : Dev) (a : Nat) (bs : List Byte) : (d.hbmW a bs).bank = d.bank := rfl
@[simp] theorem Dev.hbmW_fab (d : Dev) (a : Nat) (bs : List Byte) : (d.hbmW a bs).fab = d.fab := rfl
@[simp] theorem Dev.hbmW_qf (d : Dev) (a : Nat) (bs : List Byte) : (d.hbmW a bs).qf = d.qf := rfl
@[simp] theorem Dev.hbmW_oz (d : Dev) (a : Nat) (bs : List Byte) : (d.hbmW a bs).oz = d.oz := rfl
@[simp] theorem Dev.hbmW_boot (d : Dev) (a : Nat) (bs : List Byte) : (d.hbmW a bs).boot = d.boot := rfl
@[simp] theorem Dev.hbmW_hl (d : Dev) (a : Nat) (bs : List Byte) : (d.hbmW a bs).hl = d.hl := rfl
@[simp] theorem Dev.hbmW_host (d : Dev) (a : Nat) (bs : List Byte) : (d.hbmW a bs).host = d.host := rfl
@[simp] theorem Dev.hbmW_pins (d : Dev) (a : Nat) (bs : List Byte) : (d.hbmW a bs).pins = d.pins := rfl
@[simp] theorem Dev.hbmW_tm (d : Dev) (a : Nat) (bs : List Byte) : (d.hbmW a bs).tm = d.tm := rfl
@[simp] theorem Dev.hbmW_tw (d : Dev) (a : Nat) (bs : List Byte) : (d.hbmW a bs).tw = d.tw := rfl
@[simp] theorem Dev.hbmW_ch (d : Dev) (a : Nat) (bs : List Byte) : (d.hbmW a bs).ch = d.ch := rfl
@[simp] theorem Dev.hbmW_ln (d : Dev) (a : Nat) (bs : List Byte) : (d.hbmW a bs).ln = d.ln := rfl
@[simp] theorem Dev.hbmW_ing (d : Dev) (a : Nat) (bs : List Byte) : (d.hbmW a bs).ing = d.ing := rfl
@[simp] theorem Dev.hbmW_integ (d : Dev) (a : Nat) (bs : List Byte) : (d.hbmW a bs).integ = d.integ := rfl
@[simp] theorem Dev.hbmW_pipe (d : Dev) (a : Nat) (bs : List Byte) : (d.hbmW a bs).pipe = d.pipe := rfl
@[simp] theorem Dev.hbmW_ps (d : Dev) (a : Nat) (bs : List Byte) : (d.hbmW a bs).ps = d.ps := rfl
@[simp] theorem Dev.hbmW_md (d : Dev) (a : Nat) (bs : List Byte) : (d.hbmW a bs).md = d.md := rfl
@[simp] theorem Dev.hbmW_au (d : Dev) (a : Nat) (bs : List Byte) : (d.hbmW a bs).au = d.au := rfl
@[simp] theorem Dev.hbmW_sc (d : Dev) (a : Nat) (bs : List Byte) : (d.hbmW a bs).sc = d.sc := rfl

@[simp] theorem Dev.hostW_regs (d : Dev) (f a : Nat) (bs : List Byte) : (d.hostW f a bs).regs = d.regs := rfl
@[simp] theorem Dev.hostW_free (d : Dev) (f a : Nat) (bs : List Byte) : (d.hostW f a bs).free = d.free := rfl
@[simp] theorem Dev.hostW_up (d : Dev) (f a : Nat) (bs : List Byte) : (d.hostW f a bs).up = d.up := rfl
@[simp] theorem Dev.hostW_once (d : Dev) (f a : Nat) (bs : List Byte) : (d.hostW f a bs).once = d.once := rfl
@[simp] theorem Dev.hostW_bank (d : Dev) (f a : Nat) (bs : List Byte) : (d.hostW f a bs).bank = d.bank := rfl
@[simp] theorem Dev.hostW_fab (d : Dev) (f a : Nat) (bs : List Byte) : (d.hostW f a bs).fab = d.fab := rfl
@[simp] theorem Dev.hostW_qf (d : Dev) (f a : Nat) (bs : List Byte) : (d.hostW f a bs).qf = d.qf := rfl
@[simp] theorem Dev.hostW_oz (d : Dev) (f a : Nat) (bs : List Byte) : (d.hostW f a bs).oz = d.oz := rfl
@[simp] theorem Dev.hostW_boot (d : Dev) (f a : Nat) (bs : List Byte) : (d.hostW f a bs).boot = d.boot := rfl
@[simp] theorem Dev.hostW_hbm (d : Dev) (f a : Nat) (bs : List Byte) : (d.hostW f a bs).hbm = d.hbm := rfl
@[simp] theorem Dev.hostW_hl (d : Dev) (f a : Nat) (bs : List Byte) : (d.hostW f a bs).hl = d.hl := rfl
@[simp] theorem Dev.hostW_pins (d : Dev) (f a : Nat) (bs : List Byte) : (d.hostW f a bs).pins = d.pins := rfl
@[simp] theorem Dev.hostW_tm (d : Dev) (f a : Nat) (bs : List Byte) : (d.hostW f a bs).tm = d.tm := rfl
@[simp] theorem Dev.hostW_tw (d : Dev) (f a : Nat) (bs : List Byte) : (d.hostW f a bs).tw = d.tw := rfl
@[simp] theorem Dev.hostW_ch (d : Dev) (f a : Nat) (bs : List Byte) : (d.hostW f a bs).ch = d.ch := rfl
@[simp] theorem Dev.hostW_ln (d : Dev) (f a : Nat) (bs : List Byte) : (d.hostW f a bs).ln = d.ln := rfl
@[simp] theorem Dev.hostW_ing (d : Dev) (f a : Nat) (bs : List Byte) : (d.hostW f a bs).ing = d.ing := rfl
@[simp] theorem Dev.hostW_integ (d : Dev) (f a : Nat) (bs : List Byte) : (d.hostW f a bs).integ = d.integ := rfl
@[simp] theorem Dev.hostW_pipe (d : Dev) (f a : Nat) (bs : List Byte) : (d.hostW f a bs).pipe = d.pipe := rfl
@[simp] theorem Dev.hostW_ps (d : Dev) (f a : Nat) (bs : List Byte) : (d.hostW f a bs).ps = d.ps := rfl
@[simp] theorem Dev.hostW_md (d : Dev) (f a : Nat) (bs : List Byte) : (d.hostW f a bs).md = d.md := rfl
@[simp] theorem Dev.hostW_au (d : Dev) (f a : Nat) (bs : List Byte) : (d.hostW f a bs).au = d.au := rfl
@[simp] theorem Dev.hostW_sc (d : Dev) (f a : Nat) (bs : List Byte) : (d.hostW f a bs).sc = d.sc := rfl

@[simp] theorem Dev.setQ_regs (d : Dev) (q : Nat) (r : Queue) : (d.setQ q r).regs = d.regs := rfl
@[simp] theorem Dev.setQ_free (d : Dev) (q : Nat) (r : Queue) : (d.setQ q r).free = d.free := rfl
@[simp] theorem Dev.setQ_up (d : Dev) (q : Nat) (r : Queue) : (d.setQ q r).up = d.up := rfl
@[simp] theorem Dev.setQ_once (d : Dev) (q : Nat) (r : Queue) : (d.setQ q r).once = d.once := rfl
@[simp] theorem Dev.setQ_bank (d : Dev) (q : Nat) (r : Queue) : (d.setQ q r).bank = d.bank := rfl
@[simp] theorem Dev.setQ_fab (d : Dev) (q : Nat) (r : Queue) : (d.setQ q r).fab = d.fab := rfl
@[simp] theorem Dev.setQ_oz (d : Dev) (q : Nat) (r : Queue) : (d.setQ q r).oz = d.oz := rfl
@[simp] theorem Dev.setQ_boot (d : Dev) (q : Nat) (r : Queue) : (d.setQ q r).boot = d.boot := rfl
@[simp] theorem Dev.setQ_hbm (d : Dev) (q : Nat) (r : Queue) : (d.setQ q r).hbm = d.hbm := rfl
@[simp] theorem Dev.setQ_hl (d : Dev) (q : Nat) (r : Queue) : (d.setQ q r).hl = d.hl := rfl
@[simp] theorem Dev.setQ_host (d : Dev) (q : Nat) (r : Queue) : (d.setQ q r).host = d.host := rfl
@[simp] theorem Dev.setQ_pins (d : Dev) (q : Nat) (r : Queue) : (d.setQ q r).pins = d.pins := rfl
@[simp] theorem Dev.setQ_tm (d : Dev) (q : Nat) (r : Queue) : (d.setQ q r).tm = d.tm := rfl
@[simp] theorem Dev.setQ_tw (d : Dev) (q : Nat) (r : Queue) : (d.setQ q r).tw = d.tw := rfl
@[simp] theorem Dev.setQ_ch (d : Dev) (q : Nat) (r : Queue) : (d.setQ q r).ch = d.ch := rfl
@[simp] theorem Dev.setQ_ln (d : Dev) (q : Nat) (r : Queue) : (d.setQ q r).ln = d.ln := rfl
@[simp] theorem Dev.setQ_ing (d : Dev) (q : Nat) (r : Queue) : (d.setQ q r).ing = d.ing := rfl
@[simp] theorem Dev.setQ_integ (d : Dev) (q : Nat) (r : Queue) : (d.setQ q r).integ = d.integ := rfl
@[simp] theorem Dev.setQ_pipe (d : Dev) (q : Nat) (r : Queue) : (d.setQ q r).pipe = d.pipe := rfl
@[simp] theorem Dev.setQ_ps (d : Dev) (q : Nat) (r : Queue) : (d.setQ q r).ps = d.ps := rfl
@[simp] theorem Dev.setQ_md (d : Dev) (q : Nat) (r : Queue) : (d.setQ q r).md = d.md := rfl
@[simp] theorem Dev.setQ_au (d : Dev) (q : Nat) (r : Queue) : (d.setQ q r).au = d.au := rfl
@[simp] theorem Dev.setQ_sc (d : Dev) (q : Nat) (r : Queue) : (d.setQ q r).sc = d.sc := rfl

@[simp] theorem Dev.modQ_regs (d : Dev) (q : Nat) (f : Queue → Queue) : (d.modQ q f).regs = d.regs := rfl
@[simp] theorem Dev.modQ_free (d : Dev) (q : Nat) (f : Queue → Queue) : (d.modQ q f).free = d.free := rfl
@[simp] theorem Dev.modQ_up (d : Dev) (q : Nat) (f : Queue → Queue) : (d.modQ q f).up = d.up := rfl
@[simp] theorem Dev.modQ_once (d : Dev) (q : Nat) (f : Queue → Queue) : (d.modQ q f).once = d.once := rfl
@[simp] theorem Dev.modQ_bank (d : Dev) (q : Nat) (f : Queue → Queue) : (d.modQ q f).bank = d.bank := rfl
@[simp] theorem Dev.modQ_fab (d : Dev) (q : Nat) (f : Queue → Queue) : (d.modQ q f).fab = d.fab := rfl
@[simp] theorem Dev.modQ_oz (d : Dev) (q : Nat) (f : Queue → Queue) : (d.modQ q f).oz = d.oz := rfl
@[simp] theorem Dev.modQ_boot (d : Dev) (q : Nat) (f : Queue → Queue) : (d.modQ q f).boot = d.boot := rfl
@[simp] theorem Dev.modQ_hbm (d : Dev) (q : Nat) (f : Queue → Queue) : (d.modQ q f).hbm = d.hbm := rfl
@[simp] theorem Dev.modQ_hl (d : Dev) (q : Nat) (f : Queue → Queue) : (d.modQ q f).hl = d.hl := rfl
@[simp] theorem Dev.modQ_host (d : Dev) (q : Nat) (f : Queue → Queue) : (d.modQ q f).host = d.host := rfl
@[simp] theorem Dev.modQ_pins (d : Dev) (q : Nat) (f : Queue → Queue) : (d.modQ q f).pins = d.pins := rfl
@[simp] theorem Dev.modQ_tm (d : Dev) (q : Nat) (f : Queue → Queue) : (d.modQ q f).tm = d.tm := rfl
@[simp] theorem Dev.modQ_tw (d : Dev) (q : Nat) (f : Queue → Queue) : (d.modQ q f).tw = d.tw := rfl
@[simp] theorem Dev.modQ_ch (d : Dev) (q : Nat) (f : Queue → Queue) : (d.modQ q f).ch = d.ch := rfl
@[simp] theorem Dev.modQ_ln (d : Dev) (q : Nat) (f : Queue → Queue) : (d.modQ q f).ln = d.ln := rfl
@[simp] theorem Dev.modQ_ing (d : Dev) (q : Nat) (f : Queue → Queue) : (d.modQ q f).ing = d.ing := rfl
@[simp] theorem Dev.modQ_integ (d : Dev) (q : Nat) (f : Queue → Queue) : (d.modQ q f).integ = d.integ := rfl
@[simp] theorem Dev.modQ_pipe (d : Dev) (q : Nat) (f : Queue → Queue) : (d.modQ q f).pipe = d.pipe := rfl
@[simp] theorem Dev.modQ_ps (d : Dev) (q : Nat) (f : Queue → Queue) : (d.modQ q f).ps = d.ps := rfl
@[simp] theorem Dev.modQ_md (d : Dev) (q : Nat) (f : Queue → Queue) : (d.modQ q f).md = d.md := rfl
@[simp] theorem Dev.modQ_au (d : Dev) (q : Nat) (f : Queue → Queue) : (d.modQ q f).au = d.au := rfl
@[simp] theorem Dev.modQ_sc (d : Dev) (q : Nat) (f : Queue → Queue) : (d.modQ q f).sc = d.sc := rfl

@[simp] theorem Dev.addHold_regs (d : Dev) (b : Bool) (i c n : Nat) : (d.addHold b i c n).regs = d.regs := rfl
@[simp] theorem Dev.addHold_free (d : Dev) (b : Bool) (i c n : Nat) : (d.addHold b i c n).free = d.free := rfl
@[simp] theorem Dev.addHold_up (d : Dev) (b : Bool) (i c n : Nat) : (d.addHold b i c n).up = d.up := rfl
@[simp] theorem Dev.addHold_once (d : Dev) (b : Bool) (i c n : Nat) : (d.addHold b i c n).once = d.once := rfl
@[simp] theorem Dev.addHold_bank (d : Dev) (b : Bool) (i c n : Nat) : (d.addHold b i c n).bank = d.bank := rfl
@[simp] theorem Dev.addHold_qf (d : Dev) (b : Bool) (i c n : Nat) : (d.addHold b i c n).qf = d.qf := rfl
@[simp] theorem Dev.addHold_oz (d : Dev) (b : Bool) (i c n : Nat) : (d.addHold b i c n).oz = d.oz := rfl
@[simp] theorem Dev.addHold_boot (d : Dev) (b : Bool) (i c n : Nat) : (d.addHold b i c n).boot = d.boot := rfl
@[simp] theorem Dev.addHold_hbm (d : Dev) (b : Bool) (i c n : Nat) : (d.addHold b i c n).hbm = d.hbm := rfl
@[simp] theorem Dev.addHold_hl (d : Dev) (b : Bool) (i c n : Nat) : (d.addHold b i c n).hl = d.hl := rfl
@[simp] theorem Dev.addHold_host (d : Dev) (b : Bool) (i c n : Nat) : (d.addHold b i c n).host = d.host := rfl
@[simp] theorem Dev.addHold_pins (d : Dev) (b : Bool) (i c n : Nat) : (d.addHold b i c n).pins = d.pins := rfl
@[simp] theorem Dev.addHold_tm (d : Dev) (b : Bool) (i c n : Nat) : (d.addHold b i c n).tm = d.tm := rfl
@[simp] theorem Dev.addHold_tw (d : Dev) (b : Bool) (i c n : Nat) : (d.addHold b i c n).tw = d.tw := rfl
@[simp] theorem Dev.addHold_ch (d : Dev) (b : Bool) (i c n : Nat) : (d.addHold b i c n).ch = d.ch := rfl
@[simp] theorem Dev.addHold_ln (d : Dev) (b : Bool) (i c n : Nat) : (d.addHold b i c n).ln = d.ln := rfl
@[simp] theorem Dev.addHold_ing (d : Dev) (b : Bool) (i c n : Nat) : (d.addHold b i c n).ing = d.ing := rfl
@[simp] theorem Dev.addHold_integ (d : Dev) (b : Bool) (i c n : Nat) : (d.addHold b i c n).integ = d.integ := rfl
@[simp] theorem Dev.addHold_pipe (d : Dev) (b : Bool) (i c n : Nat) : (d.addHold b i c n).pipe = d.pipe := rfl
@[simp] theorem Dev.addHold_ps (d : Dev) (b : Bool) (i c n : Nat) : (d.addHold b i c n).ps = d.ps := rfl
@[simp] theorem Dev.addHold_md (d : Dev) (b : Bool) (i c n : Nat) : (d.addHold b i c n).md = d.md := rfl
@[simp] theorem Dev.addHold_au (d : Dev) (b : Bool) (i c n : Nat) : (d.addHold b i c n).au = d.au := rfl
@[simp] theorem Dev.addHold_sc (d : Dev) (b : Bool) (i c n : Nat) : (d.addHold b i c n).sc = d.sc := rfl

@[simp] theorem Dev.refuse_regs (d : Dev) (m : Nat) : (d.refuse m).regs = d.regs := rfl
@[simp] theorem Dev.refuse_free (d : Dev) (m : Nat) : (d.refuse m).free = d.free := rfl
@[simp] theorem Dev.refuse_up (d : Dev) (m : Nat) : (d.refuse m).up = d.up := rfl
@[simp] theorem Dev.refuse_once (d : Dev) (m : Nat) : (d.refuse m).once = d.once := rfl
@[simp] theorem Dev.refuse_bank (d : Dev) (m : Nat) : (d.refuse m).bank = d.bank := rfl
@[simp] theorem Dev.refuse_qf (d : Dev) (m : Nat) : (d.refuse m).qf = d.qf := rfl
@[simp] theorem Dev.refuse_oz (d : Dev) (m : Nat) : (d.refuse m).oz = d.oz := rfl
@[simp] theorem Dev.refuse_boot (d : Dev) (m : Nat) : (d.refuse m).boot = d.boot := rfl
@[simp] theorem Dev.refuse_hbm (d : Dev) (m : Nat) : (d.refuse m).hbm = d.hbm := rfl
@[simp] theorem Dev.refuse_hl (d : Dev) (m : Nat) : (d.refuse m).hl = d.hl := rfl
@[simp] theorem Dev.refuse_host (d : Dev) (m : Nat) : (d.refuse m).host = d.host := rfl
@[simp] theorem Dev.refuse_pins (d : Dev) (m : Nat) : (d.refuse m).pins = d.pins := rfl
@[simp] theorem Dev.refuse_tm (d : Dev) (m : Nat) : (d.refuse m).tm = d.tm := rfl
@[simp] theorem Dev.refuse_tw (d : Dev) (m : Nat) : (d.refuse m).tw = d.tw := rfl
@[simp] theorem Dev.refuse_ch (d : Dev) (m : Nat) : (d.refuse m).ch = d.ch := rfl
@[simp] theorem Dev.refuse_ln (d : Dev) (m : Nat) : (d.refuse m).ln = d.ln := rfl
@[simp] theorem Dev.refuse_ing (d : Dev) (m : Nat) : (d.refuse m).ing = d.ing := rfl
@[simp] theorem Dev.refuse_integ (d : Dev) (m : Nat) : (d.refuse m).integ = d.integ := rfl
@[simp] theorem Dev.refuse_pipe (d : Dev) (m : Nat) : (d.refuse m).pipe = d.pipe := rfl
@[simp] theorem Dev.refuse_ps (d : Dev) (m : Nat) : (d.refuse m).ps = d.ps := rfl
@[simp] theorem Dev.refuse_md (d : Dev) (m : Nat) : (d.refuse m).md = d.md := rfl
@[simp] theorem Dev.refuse_au (d : Dev) (m : Nat) : (d.refuse m).au = d.au := rfl
@[simp] theorem Dev.refuse_sc (d : Dev) (m : Nat) : (d.refuse m).sc = d.sc := rfl

@[simp] theorem Dev.comeDown_regs (d : Dev) (u b : Nat) : (d.comeDown u b).regs = d.regs := rfl
@[simp] theorem Dev.comeDown_free (d : Dev) (u b : Nat) : (d.comeDown u b).free = d.free := rfl
@[simp] theorem Dev.comeDown_up (d : Dev) (u b : Nat) : (d.comeDown u b).up = d.up := rfl
@[simp] theorem Dev.comeDown_once (d : Dev) (u b : Nat) : (d.comeDown u b).once = d.once := rfl
@[simp] theorem Dev.comeDown_fab (d : Dev) (u b : Nat) : (d.comeDown u b).fab = d.fab := rfl
@[simp] theorem Dev.comeDown_qf (d : Dev) (u b : Nat) : (d.comeDown u b).qf = d.qf := rfl
@[simp] theorem Dev.comeDown_oz (d : Dev) (u b : Nat) : (d.comeDown u b).oz = d.oz := rfl
@[simp] theorem Dev.comeDown_boot (d : Dev) (u b : Nat) : (d.comeDown u b).boot = d.boot := rfl
@[simp] theorem Dev.comeDown_hbm (d : Dev) (u b : Nat) : (d.comeDown u b).hbm = d.hbm := rfl
@[simp] theorem Dev.comeDown_hl (d : Dev) (u b : Nat) : (d.comeDown u b).hl = d.hl := rfl
@[simp] theorem Dev.comeDown_host (d : Dev) (u b : Nat) : (d.comeDown u b).host = d.host := rfl
@[simp] theorem Dev.comeDown_pins (d : Dev) (u b : Nat) : (d.comeDown u b).pins = d.pins := rfl
@[simp] theorem Dev.comeDown_tm (d : Dev) (u b : Nat) : (d.comeDown u b).tm = d.tm := rfl
@[simp] theorem Dev.comeDown_tw (d : Dev) (u b : Nat) : (d.comeDown u b).tw = d.tw := rfl
@[simp] theorem Dev.comeDown_ch (d : Dev) (u b : Nat) : (d.comeDown u b).ch = d.ch := rfl
@[simp] theorem Dev.comeDown_ln (d : Dev) (u b : Nat) : (d.comeDown u b).ln = d.ln := rfl
@[simp] theorem Dev.comeDown_ing (d : Dev) (u b : Nat) : (d.comeDown u b).ing = d.ing := rfl
@[simp] theorem Dev.comeDown_integ (d : Dev) (u b : Nat) : (d.comeDown u b).integ = d.integ := rfl
@[simp] theorem Dev.comeDown_pipe (d : Dev) (u b : Nat) : (d.comeDown u b).pipe = d.pipe := rfl
@[simp] theorem Dev.comeDown_ps (d : Dev) (u b : Nat) : (d.comeDown u b).ps = d.ps := rfl
@[simp] theorem Dev.comeDown_md (d : Dev) (u b : Nat) : (d.comeDown u b).md = d.md := rfl
@[simp] theorem Dev.comeDown_au (d : Dev) (u b : Nat) : (d.comeDown u b).au = d.au := rfl
@[simp] theorem Dev.comeDown_sc (d : Dev) (u b : Nat) : (d.comeDown u b).sc = d.sc := rfl

@[simp] theorem Dev.modTm_regs (d : Dev) (f : TimeSt → TimeSt) : (d.modTm f).regs = d.regs := rfl
@[simp] theorem Dev.modTm_free (d : Dev) (f : TimeSt → TimeSt) : (d.modTm f).free = d.free := rfl
@[simp] theorem Dev.modTm_up (d : Dev) (f : TimeSt → TimeSt) : (d.modTm f).up = d.up := rfl
@[simp] theorem Dev.modTm_once (d : Dev) (f : TimeSt → TimeSt) : (d.modTm f).once = d.once := rfl
@[simp] theorem Dev.modTm_bank (d : Dev) (f : TimeSt → TimeSt) : (d.modTm f).bank = d.bank := rfl
@[simp] theorem Dev.modTm_fab (d : Dev) (f : TimeSt → TimeSt) : (d.modTm f).fab = d.fab := rfl
@[simp] theorem Dev.modTm_qf (d : Dev) (f : TimeSt → TimeSt) : (d.modTm f).qf = d.qf := rfl
@[simp] theorem Dev.modTm_oz (d : Dev) (f : TimeSt → TimeSt) : (d.modTm f).oz = d.oz := rfl
@[simp] theorem Dev.modTm_boot (d : Dev) (f : TimeSt → TimeSt) : (d.modTm f).boot = d.boot := rfl
@[simp] theorem Dev.modTm_hbm (d : Dev) (f : TimeSt → TimeSt) : (d.modTm f).hbm = d.hbm := rfl
@[simp] theorem Dev.modTm_hl (d : Dev) (f : TimeSt → TimeSt) : (d.modTm f).hl = d.hl := rfl
@[simp] theorem Dev.modTm_host (d : Dev) (f : TimeSt → TimeSt) : (d.modTm f).host = d.host := rfl
@[simp] theorem Dev.modTm_pins (d : Dev) (f : TimeSt → TimeSt) : (d.modTm f).pins = d.pins := rfl
@[simp] theorem Dev.modTm_tw (d : Dev) (f : TimeSt → TimeSt) : (d.modTm f).tw = d.tw := rfl
@[simp] theorem Dev.modTm_ch (d : Dev) (f : TimeSt → TimeSt) : (d.modTm f).ch = d.ch := rfl
@[simp] theorem Dev.modTm_ln (d : Dev) (f : TimeSt → TimeSt) : (d.modTm f).ln = d.ln := rfl
@[simp] theorem Dev.modTm_ing (d : Dev) (f : TimeSt → TimeSt) : (d.modTm f).ing = d.ing := rfl
@[simp] theorem Dev.modTm_integ (d : Dev) (f : TimeSt → TimeSt) : (d.modTm f).integ = d.integ := rfl
@[simp] theorem Dev.modTm_pipe (d : Dev) (f : TimeSt → TimeSt) : (d.modTm f).pipe = d.pipe := rfl
@[simp] theorem Dev.modTm_ps (d : Dev) (f : TimeSt → TimeSt) : (d.modTm f).ps = d.ps := rfl
@[simp] theorem Dev.modTm_md (d : Dev) (f : TimeSt → TimeSt) : (d.modTm f).md = d.md := rfl
@[simp] theorem Dev.modTm_au (d : Dev) (f : TimeSt → TimeSt) : (d.modTm f).au = d.au := rfl
@[simp] theorem Dev.modTm_sc (d : Dev) (f : TimeSt → TimeSt) : (d.modTm f).sc = d.sc := rfl

@[simp] theorem Dev.modTw_regs (d : Dev) (f : TwinSt → TwinSt) : (d.modTw f).regs = d.regs := rfl
@[simp] theorem Dev.modTw_free (d : Dev) (f : TwinSt → TwinSt) : (d.modTw f).free = d.free := rfl
@[simp] theorem Dev.modTw_up (d : Dev) (f : TwinSt → TwinSt) : (d.modTw f).up = d.up := rfl
@[simp] theorem Dev.modTw_once (d : Dev) (f : TwinSt → TwinSt) : (d.modTw f).once = d.once := rfl
@[simp] theorem Dev.modTw_bank (d : Dev) (f : TwinSt → TwinSt) : (d.modTw f).bank = d.bank := rfl
@[simp] theorem Dev.modTw_fab (d : Dev) (f : TwinSt → TwinSt) : (d.modTw f).fab = d.fab := rfl
@[simp] theorem Dev.modTw_qf (d : Dev) (f : TwinSt → TwinSt) : (d.modTw f).qf = d.qf := rfl
@[simp] theorem Dev.modTw_oz (d : Dev) (f : TwinSt → TwinSt) : (d.modTw f).oz = d.oz := rfl
@[simp] theorem Dev.modTw_boot (d : Dev) (f : TwinSt → TwinSt) : (d.modTw f).boot = d.boot := rfl
@[simp] theorem Dev.modTw_hbm (d : Dev) (f : TwinSt → TwinSt) : (d.modTw f).hbm = d.hbm := rfl
@[simp] theorem Dev.modTw_hl (d : Dev) (f : TwinSt → TwinSt) : (d.modTw f).hl = d.hl := rfl
@[simp] theorem Dev.modTw_host (d : Dev) (f : TwinSt → TwinSt) : (d.modTw f).host = d.host := rfl
@[simp] theorem Dev.modTw_pins (d : Dev) (f : TwinSt → TwinSt) : (d.modTw f).pins = d.pins := rfl
@[simp] theorem Dev.modTw_tm (d : Dev) (f : TwinSt → TwinSt) : (d.modTw f).tm = d.tm := rfl
@[simp] theorem Dev.modTw_ch (d : Dev) (f : TwinSt → TwinSt) : (d.modTw f).ch = d.ch := rfl
@[simp] theorem Dev.modTw_ln (d : Dev) (f : TwinSt → TwinSt) : (d.modTw f).ln = d.ln := rfl
@[simp] theorem Dev.modTw_ing (d : Dev) (f : TwinSt → TwinSt) : (d.modTw f).ing = d.ing := rfl
@[simp] theorem Dev.modTw_integ (d : Dev) (f : TwinSt → TwinSt) : (d.modTw f).integ = d.integ := rfl
@[simp] theorem Dev.modTw_pipe (d : Dev) (f : TwinSt → TwinSt) : (d.modTw f).pipe = d.pipe := rfl
@[simp] theorem Dev.modTw_ps (d : Dev) (f : TwinSt → TwinSt) : (d.modTw f).ps = d.ps := rfl
@[simp] theorem Dev.modTw_md (d : Dev) (f : TwinSt → TwinSt) : (d.modTw f).md = d.md := rfl
@[simp] theorem Dev.modTw_au (d : Dev) (f : TwinSt → TwinSt) : (d.modTw f).au = d.au := rfl
@[simp] theorem Dev.modTw_sc (d : Dev) (f : TwinSt → TwinSt) : (d.modTw f).sc = d.sc := rfl

@[simp] theorem Dev.modCh_regs (d : Dev) (f : ChainSt → ChainSt) : (d.modCh f).regs = d.regs := rfl
@[simp] theorem Dev.modCh_free (d : Dev) (f : ChainSt → ChainSt) : (d.modCh f).free = d.free := rfl
@[simp] theorem Dev.modCh_up (d : Dev) (f : ChainSt → ChainSt) : (d.modCh f).up = d.up := rfl
@[simp] theorem Dev.modCh_once (d : Dev) (f : ChainSt → ChainSt) : (d.modCh f).once = d.once := rfl
@[simp] theorem Dev.modCh_bank (d : Dev) (f : ChainSt → ChainSt) : (d.modCh f).bank = d.bank := rfl
@[simp] theorem Dev.modCh_fab (d : Dev) (f : ChainSt → ChainSt) : (d.modCh f).fab = d.fab := rfl
@[simp] theorem Dev.modCh_qf (d : Dev) (f : ChainSt → ChainSt) : (d.modCh f).qf = d.qf := rfl
@[simp] theorem Dev.modCh_oz (d : Dev) (f : ChainSt → ChainSt) : (d.modCh f).oz = d.oz := rfl
@[simp] theorem Dev.modCh_boot (d : Dev) (f : ChainSt → ChainSt) : (d.modCh f).boot = d.boot := rfl
@[simp] theorem Dev.modCh_hbm (d : Dev) (f : ChainSt → ChainSt) : (d.modCh f).hbm = d.hbm := rfl
@[simp] theorem Dev.modCh_hl (d : Dev) (f : ChainSt → ChainSt) : (d.modCh f).hl = d.hl := rfl
@[simp] theorem Dev.modCh_host (d : Dev) (f : ChainSt → ChainSt) : (d.modCh f).host = d.host := rfl
@[simp] theorem Dev.modCh_pins (d : Dev) (f : ChainSt → ChainSt) : (d.modCh f).pins = d.pins := rfl
@[simp] theorem Dev.modCh_tm (d : Dev) (f : ChainSt → ChainSt) : (d.modCh f).tm = d.tm := rfl
@[simp] theorem Dev.modCh_tw (d : Dev) (f : ChainSt → ChainSt) : (d.modCh f).tw = d.tw := rfl
@[simp] theorem Dev.modCh_ln (d : Dev) (f : ChainSt → ChainSt) : (d.modCh f).ln = d.ln := rfl
@[simp] theorem Dev.modCh_ing (d : Dev) (f : ChainSt → ChainSt) : (d.modCh f).ing = d.ing := rfl
@[simp] theorem Dev.modCh_integ (d : Dev) (f : ChainSt → ChainSt) : (d.modCh f).integ = d.integ := rfl
@[simp] theorem Dev.modCh_pipe (d : Dev) (f : ChainSt → ChainSt) : (d.modCh f).pipe = d.pipe := rfl
@[simp] theorem Dev.modCh_ps (d : Dev) (f : ChainSt → ChainSt) : (d.modCh f).ps = d.ps := rfl
@[simp] theorem Dev.modCh_md (d : Dev) (f : ChainSt → ChainSt) : (d.modCh f).md = d.md := rfl
@[simp] theorem Dev.modCh_au (d : Dev) (f : ChainSt → ChainSt) : (d.modCh f).au = d.au := rfl
@[simp] theorem Dev.modCh_sc (d : Dev) (f : ChainSt → ChainSt) : (d.modCh f).sc = d.sc := rfl

@[simp] theorem Dev.modMd_regs (d : Dev) (f : MediaSt → MediaSt) : (d.modMd f).regs = d.regs := rfl
@[simp] theorem Dev.modMd_free (d : Dev) (f : MediaSt → MediaSt) : (d.modMd f).free = d.free := rfl
@[simp] theorem Dev.modMd_up (d : Dev) (f : MediaSt → MediaSt) : (d.modMd f).up = d.up := rfl
@[simp] theorem Dev.modMd_once (d : Dev) (f : MediaSt → MediaSt) : (d.modMd f).once = d.once := rfl
@[simp] theorem Dev.modMd_bank (d : Dev) (f : MediaSt → MediaSt) : (d.modMd f).bank = d.bank := rfl
@[simp] theorem Dev.modMd_fab (d : Dev) (f : MediaSt → MediaSt) : (d.modMd f).fab = d.fab := rfl
@[simp] theorem Dev.modMd_qf (d : Dev) (f : MediaSt → MediaSt) : (d.modMd f).qf = d.qf := rfl
@[simp] theorem Dev.modMd_oz (d : Dev) (f : MediaSt → MediaSt) : (d.modMd f).oz = d.oz := rfl
@[simp] theorem Dev.modMd_boot (d : Dev) (f : MediaSt → MediaSt) : (d.modMd f).boot = d.boot := rfl
@[simp] theorem Dev.modMd_hbm (d : Dev) (f : MediaSt → MediaSt) : (d.modMd f).hbm = d.hbm := rfl
@[simp] theorem Dev.modMd_hl (d : Dev) (f : MediaSt → MediaSt) : (d.modMd f).hl = d.hl := rfl
@[simp] theorem Dev.modMd_host (d : Dev) (f : MediaSt → MediaSt) : (d.modMd f).host = d.host := rfl
@[simp] theorem Dev.modMd_pins (d : Dev) (f : MediaSt → MediaSt) : (d.modMd f).pins = d.pins := rfl
@[simp] theorem Dev.modMd_tm (d : Dev) (f : MediaSt → MediaSt) : (d.modMd f).tm = d.tm := rfl
@[simp] theorem Dev.modMd_tw (d : Dev) (f : MediaSt → MediaSt) : (d.modMd f).tw = d.tw := rfl
@[simp] theorem Dev.modMd_ch (d : Dev) (f : MediaSt → MediaSt) : (d.modMd f).ch = d.ch := rfl
@[simp] theorem Dev.modMd_ln (d : Dev) (f : MediaSt → MediaSt) : (d.modMd f).ln = d.ln := rfl
@[simp] theorem Dev.modMd_ing (d : Dev) (f : MediaSt → MediaSt) : (d.modMd f).ing = d.ing := rfl
@[simp] theorem Dev.modMd_integ (d : Dev) (f : MediaSt → MediaSt) : (d.modMd f).integ = d.integ := rfl
@[simp] theorem Dev.modMd_pipe (d : Dev) (f : MediaSt → MediaSt) : (d.modMd f).pipe = d.pipe := rfl
@[simp] theorem Dev.modMd_ps (d : Dev) (f : MediaSt → MediaSt) : (d.modMd f).ps = d.ps := rfl
@[simp] theorem Dev.modMd_au (d : Dev) (f : MediaSt → MediaSt) : (d.modMd f).au = d.au := rfl
@[simp] theorem Dev.modMd_sc (d : Dev) (f : MediaSt → MediaSt) : (d.modMd f).sc = d.sc := rfl

@[simp] theorem Dev.modSc_regs (d : Dev) (f : ScanSt → ScanSt) : (d.modSc f).regs = d.regs := rfl
@[simp] theorem Dev.modSc_free (d : Dev) (f : ScanSt → ScanSt) : (d.modSc f).free = d.free := rfl
@[simp] theorem Dev.modSc_up (d : Dev) (f : ScanSt → ScanSt) : (d.modSc f).up = d.up := rfl
@[simp] theorem Dev.modSc_once (d : Dev) (f : ScanSt → ScanSt) : (d.modSc f).once = d.once := rfl
@[simp] theorem Dev.modSc_bank (d : Dev) (f : ScanSt → ScanSt) : (d.modSc f).bank = d.bank := rfl
@[simp] theorem Dev.modSc_fab (d : Dev) (f : ScanSt → ScanSt) : (d.modSc f).fab = d.fab := rfl
@[simp] theorem Dev.modSc_qf (d : Dev) (f : ScanSt → ScanSt) : (d.modSc f).qf = d.qf := rfl
@[simp] theorem Dev.modSc_oz (d : Dev) (f : ScanSt → ScanSt) : (d.modSc f).oz = d.oz := rfl
@[simp] theorem Dev.modSc_boot (d : Dev) (f : ScanSt → ScanSt) : (d.modSc f).boot = d.boot := rfl
@[simp] theorem Dev.modSc_hbm (d : Dev) (f : ScanSt → ScanSt) : (d.modSc f).hbm = d.hbm := rfl
@[simp] theorem Dev.modSc_hl (d : Dev) (f : ScanSt → ScanSt) : (d.modSc f).hl = d.hl := rfl
@[simp] theorem Dev.modSc_host (d : Dev) (f : ScanSt → ScanSt) : (d.modSc f).host = d.host := rfl
@[simp] theorem Dev.modSc_pins (d : Dev) (f : ScanSt → ScanSt) : (d.modSc f).pins = d.pins := rfl
@[simp] theorem Dev.modSc_tm (d : Dev) (f : ScanSt → ScanSt) : (d.modSc f).tm = d.tm := rfl
@[simp] theorem Dev.modSc_tw (d : Dev) (f : ScanSt → ScanSt) : (d.modSc f).tw = d.tw := rfl
@[simp] theorem Dev.modSc_ch (d : Dev) (f : ScanSt → ScanSt) : (d.modSc f).ch = d.ch := rfl
@[simp] theorem Dev.modSc_ln (d : Dev) (f : ScanSt → ScanSt) : (d.modSc f).ln = d.ln := rfl
@[simp] theorem Dev.modSc_ing (d : Dev) (f : ScanSt → ScanSt) : (d.modSc f).ing = d.ing := rfl
@[simp] theorem Dev.modSc_integ (d : Dev) (f : ScanSt → ScanSt) : (d.modSc f).integ = d.integ := rfl
@[simp] theorem Dev.modSc_pipe (d : Dev) (f : ScanSt → ScanSt) : (d.modSc f).pipe = d.pipe := rfl
@[simp] theorem Dev.modSc_ps (d : Dev) (f : ScanSt → ScanSt) : (d.modSc f).ps = d.ps := rfl
@[simp] theorem Dev.modSc_md (d : Dev) (f : ScanSt → ScanSt) : (d.modSc f).md = d.md := rfl
@[simp] theorem Dev.modSc_au (d : Dev) (f : ScanSt → ScanSt) : (d.modSc f).au = d.au := rfl

@[simp] theorem Dev.setAud_regs (d : Dev) (n : Nat) (p : AudPort) : (d.setAud n p).regs = d.regs := rfl
@[simp] theorem Dev.setAud_free (d : Dev) (n : Nat) (p : AudPort) : (d.setAud n p).free = d.free := rfl
@[simp] theorem Dev.setAud_up (d : Dev) (n : Nat) (p : AudPort) : (d.setAud n p).up = d.up := rfl
@[simp] theorem Dev.setAud_once (d : Dev) (n : Nat) (p : AudPort) : (d.setAud n p).once = d.once := rfl
@[simp] theorem Dev.setAud_bank (d : Dev) (n : Nat) (p : AudPort) : (d.setAud n p).bank = d.bank := rfl
@[simp] theorem Dev.setAud_fab (d : Dev) (n : Nat) (p : AudPort) : (d.setAud n p).fab = d.fab := rfl
@[simp] theorem Dev.setAud_qf (d : Dev) (n : Nat) (p : AudPort) : (d.setAud n p).qf = d.qf := rfl
@[simp] theorem Dev.setAud_oz (d : Dev) (n : Nat) (p : AudPort) : (d.setAud n p).oz = d.oz := rfl
@[simp] theorem Dev.setAud_boot (d : Dev) (n : Nat) (p : AudPort) : (d.setAud n p).boot = d.boot := rfl
@[simp] theorem Dev.setAud_hbm (d : Dev) (n : Nat) (p : AudPort) : (d.setAud n p).hbm = d.hbm := rfl
@[simp] theorem Dev.setAud_hl (d : Dev) (n : Nat) (p : AudPort) : (d.setAud n p).hl = d.hl := rfl
@[simp] theorem Dev.setAud_host (d : Dev) (n : Nat) (p : AudPort) : (d.setAud n p).host = d.host := rfl
@[simp] theorem Dev.setAud_pins (d : Dev) (n : Nat) (p : AudPort) : (d.setAud n p).pins = d.pins := rfl
@[simp] theorem Dev.setAud_tm (d : Dev) (n : Nat) (p : AudPort) : (d.setAud n p).tm = d.tm := rfl
@[simp] theorem Dev.setAud_tw (d : Dev) (n : Nat) (p : AudPort) : (d.setAud n p).tw = d.tw := rfl
@[simp] theorem Dev.setAud_ch (d : Dev) (n : Nat) (p : AudPort) : (d.setAud n p).ch = d.ch := rfl
@[simp] theorem Dev.setAud_ln (d : Dev) (n : Nat) (p : AudPort) : (d.setAud n p).ln = d.ln := rfl
@[simp] theorem Dev.setAud_ing (d : Dev) (n : Nat) (p : AudPort) : (d.setAud n p).ing = d.ing := rfl
@[simp] theorem Dev.setAud_integ (d : Dev) (n : Nat) (p : AudPort) : (d.setAud n p).integ = d.integ := rfl
@[simp] theorem Dev.setAud_pipe (d : Dev) (n : Nat) (p : AudPort) : (d.setAud n p).pipe = d.pipe := rfl
@[simp] theorem Dev.setAud_ps (d : Dev) (n : Nat) (p : AudPort) : (d.setAud n p).ps = d.ps := rfl
@[simp] theorem Dev.setAud_md (d : Dev) (n : Nat) (p : AudPort) : (d.setAud n p).md = d.md := rfl
@[simp] theorem Dev.setAud_sc (d : Dev) (n : Nat) (p : AudPort) : (d.setAud n p).sc = d.sc := rfl

@[simp] theorem Dev.setCam_regs (d : Dev) (c : Nat) (v : CamSt) : (d.setCam c v).regs = d.regs := rfl
@[simp] theorem Dev.setCam_free (d : Dev) (c : Nat) (v : CamSt) : (d.setCam c v).free = d.free := rfl
@[simp] theorem Dev.setCam_up (d : Dev) (c : Nat) (v : CamSt) : (d.setCam c v).up = d.up := rfl
@[simp] theorem Dev.setCam_once (d : Dev) (c : Nat) (v : CamSt) : (d.setCam c v).once = d.once := rfl
@[simp] theorem Dev.setCam_bank (d : Dev) (c : Nat) (v : CamSt) : (d.setCam c v).bank = d.bank := rfl
@[simp] theorem Dev.setCam_fab (d : Dev) (c : Nat) (v : CamSt) : (d.setCam c v).fab = d.fab := rfl
@[simp] theorem Dev.setCam_qf (d : Dev) (c : Nat) (v : CamSt) : (d.setCam c v).qf = d.qf := rfl
@[simp] theorem Dev.setCam_oz (d : Dev) (c : Nat) (v : CamSt) : (d.setCam c v).oz = d.oz := rfl
@[simp] theorem Dev.setCam_boot (d : Dev) (c : Nat) (v : CamSt) : (d.setCam c v).boot = d.boot := rfl
@[simp] theorem Dev.setCam_hbm (d : Dev) (c : Nat) (v : CamSt) : (d.setCam c v).hbm = d.hbm := rfl
@[simp] theorem Dev.setCam_hl (d : Dev) (c : Nat) (v : CamSt) : (d.setCam c v).hl = d.hl := rfl
@[simp] theorem Dev.setCam_host (d : Dev) (c : Nat) (v : CamSt) : (d.setCam c v).host = d.host := rfl
@[simp] theorem Dev.setCam_pins (d : Dev) (c : Nat) (v : CamSt) : (d.setCam c v).pins = d.pins := rfl
@[simp] theorem Dev.setCam_tm (d : Dev) (c : Nat) (v : CamSt) : (d.setCam c v).tm = d.tm := rfl
@[simp] theorem Dev.setCam_tw (d : Dev) (c : Nat) (v : CamSt) : (d.setCam c v).tw = d.tw := rfl
@[simp] theorem Dev.setCam_ch (d : Dev) (c : Nat) (v : CamSt) : (d.setCam c v).ch = d.ch := rfl
@[simp] theorem Dev.setCam_ln (d : Dev) (c : Nat) (v : CamSt) : (d.setCam c v).ln = d.ln := rfl
@[simp] theorem Dev.setCam_integ (d : Dev) (c : Nat) (v : CamSt) : (d.setCam c v).integ = d.integ := rfl
@[simp] theorem Dev.setCam_pipe (d : Dev) (c : Nat) (v : CamSt) : (d.setCam c v).pipe = d.pipe := rfl
@[simp] theorem Dev.setCam_ps (d : Dev) (c : Nat) (v : CamSt) : (d.setCam c v).ps = d.ps := rfl
@[simp] theorem Dev.setCam_md (d : Dev) (c : Nat) (v : CamSt) : (d.setCam c v).md = d.md := rfl
@[simp] theorem Dev.setCam_au (d : Dev) (c : Nat) (v : CamSt) : (d.setCam c v).au = d.au := rfl
@[simp] theorem Dev.setCam_sc (d : Dev) (c : Nat) (v : CamSt) : (d.setCam c v).sc = d.sc := rfl

@[simp] theorem Dev.setSrc_regs (d : Dev) (x : SrcId) (v : SrcSt) : (d.setSrc x v).regs = d.regs := rfl
@[simp] theorem Dev.setSrc_free (d : Dev) (x : SrcId) (v : SrcSt) : (d.setSrc x v).free = d.free := rfl
@[simp] theorem Dev.setSrc_up (d : Dev) (x : SrcId) (v : SrcSt) : (d.setSrc x v).up = d.up := rfl
@[simp] theorem Dev.setSrc_once (d : Dev) (x : SrcId) (v : SrcSt) : (d.setSrc x v).once = d.once := rfl
@[simp] theorem Dev.setSrc_bank (d : Dev) (x : SrcId) (v : SrcSt) : (d.setSrc x v).bank = d.bank := rfl
@[simp] theorem Dev.setSrc_fab (d : Dev) (x : SrcId) (v : SrcSt) : (d.setSrc x v).fab = d.fab := rfl
@[simp] theorem Dev.setSrc_qf (d : Dev) (x : SrcId) (v : SrcSt) : (d.setSrc x v).qf = d.qf := rfl
@[simp] theorem Dev.setSrc_oz (d : Dev) (x : SrcId) (v : SrcSt) : (d.setSrc x v).oz = d.oz := rfl
@[simp] theorem Dev.setSrc_boot (d : Dev) (x : SrcId) (v : SrcSt) : (d.setSrc x v).boot = d.boot := rfl
@[simp] theorem Dev.setSrc_hbm (d : Dev) (x : SrcId) (v : SrcSt) : (d.setSrc x v).hbm = d.hbm := rfl
@[simp] theorem Dev.setSrc_hl (d : Dev) (x : SrcId) (v : SrcSt) : (d.setSrc x v).hl = d.hl := rfl
@[simp] theorem Dev.setSrc_host (d : Dev) (x : SrcId) (v : SrcSt) : (d.setSrc x v).host = d.host := rfl
@[simp] theorem Dev.setSrc_pins (d : Dev) (x : SrcId) (v : SrcSt) : (d.setSrc x v).pins = d.pins := rfl
@[simp] theorem Dev.setSrc_tm (d : Dev) (x : SrcId) (v : SrcSt) : (d.setSrc x v).tm = d.tm := rfl
@[simp] theorem Dev.setSrc_tw (d : Dev) (x : SrcId) (v : SrcSt) : (d.setSrc x v).tw = d.tw := rfl
@[simp] theorem Dev.setSrc_ch (d : Dev) (x : SrcId) (v : SrcSt) : (d.setSrc x v).ch = d.ch := rfl
@[simp] theorem Dev.setSrc_ln (d : Dev) (x : SrcId) (v : SrcSt) : (d.setSrc x v).ln = d.ln := rfl
@[simp] theorem Dev.setSrc_integ (d : Dev) (x : SrcId) (v : SrcSt) : (d.setSrc x v).integ = d.integ := rfl
@[simp] theorem Dev.setSrc_pipe (d : Dev) (x : SrcId) (v : SrcSt) : (d.setSrc x v).pipe = d.pipe := rfl
@[simp] theorem Dev.setSrc_ps (d : Dev) (x : SrcId) (v : SrcSt) : (d.setSrc x v).ps = d.ps := rfl
@[simp] theorem Dev.setSrc_md (d : Dev) (x : SrcId) (v : SrcSt) : (d.setSrc x v).md = d.md := rfl
@[simp] theorem Dev.setSrc_au (d : Dev) (x : SrcId) (v : SrcSt) : (d.setSrc x v).au = d.au := rfl
@[simp] theorem Dev.setSrc_sc (d : Dev) (x : SrcId) (v : SrcSt) : (d.setSrc x v).sc = d.sc := rfl

@[simp] theorem Dev.setLinkSt_regs (d : Dev) (n : Nat) (x : LinkSt) : (d.setLinkSt n x).regs = d.regs := rfl
@[simp] theorem Dev.setLinkSt_free (d : Dev) (n : Nat) (x : LinkSt) : (d.setLinkSt n x).free = d.free := rfl
@[simp] theorem Dev.setLinkSt_up (d : Dev) (n : Nat) (x : LinkSt) : (d.setLinkSt n x).up = d.up := rfl
@[simp] theorem Dev.setLinkSt_once (d : Dev) (n : Nat) (x : LinkSt) : (d.setLinkSt n x).once = d.once := rfl
@[simp] theorem Dev.setLinkSt_bank (d : Dev) (n : Nat) (x : LinkSt) : (d.setLinkSt n x).bank = d.bank := rfl
@[simp] theorem Dev.setLinkSt_fab (d : Dev) (n : Nat) (x : LinkSt) : (d.setLinkSt n x).fab = d.fab := rfl
@[simp] theorem Dev.setLinkSt_qf (d : Dev) (n : Nat) (x : LinkSt) : (d.setLinkSt n x).qf = d.qf := rfl
@[simp] theorem Dev.setLinkSt_oz (d : Dev) (n : Nat) (x : LinkSt) : (d.setLinkSt n x).oz = d.oz := rfl
@[simp] theorem Dev.setLinkSt_boot (d : Dev) (n : Nat) (x : LinkSt) : (d.setLinkSt n x).boot = d.boot := rfl
@[simp] theorem Dev.setLinkSt_hbm (d : Dev) (n : Nat) (x : LinkSt) : (d.setLinkSt n x).hbm = d.hbm := rfl
@[simp] theorem Dev.setLinkSt_hl (d : Dev) (n : Nat) (x : LinkSt) : (d.setLinkSt n x).hl = d.hl := rfl
@[simp] theorem Dev.setLinkSt_host (d : Dev) (n : Nat) (x : LinkSt) : (d.setLinkSt n x).host = d.host := rfl
@[simp] theorem Dev.setLinkSt_pins (d : Dev) (n : Nat) (x : LinkSt) : (d.setLinkSt n x).pins = d.pins := rfl
@[simp] theorem Dev.setLinkSt_tm (d : Dev) (n : Nat) (x : LinkSt) : (d.setLinkSt n x).tm = d.tm := rfl
@[simp] theorem Dev.setLinkSt_tw (d : Dev) (n : Nat) (x : LinkSt) : (d.setLinkSt n x).tw = d.tw := rfl
@[simp] theorem Dev.setLinkSt_ch (d : Dev) (n : Nat) (x : LinkSt) : (d.setLinkSt n x).ch = d.ch := rfl
@[simp] theorem Dev.setLinkSt_ing (d : Dev) (n : Nat) (x : LinkSt) : (d.setLinkSt n x).ing = d.ing := rfl
@[simp] theorem Dev.setLinkSt_integ (d : Dev) (n : Nat) (x : LinkSt) : (d.setLinkSt n x).integ = d.integ := rfl
@[simp] theorem Dev.setLinkSt_pipe (d : Dev) (n : Nat) (x : LinkSt) : (d.setLinkSt n x).pipe = d.pipe := rfl
@[simp] theorem Dev.setLinkSt_ps (d : Dev) (n : Nat) (x : LinkSt) : (d.setLinkSt n x).ps = d.ps := rfl
@[simp] theorem Dev.setLinkSt_md (d : Dev) (n : Nat) (x : LinkSt) : (d.setLinkSt n x).md = d.md := rfl
@[simp] theorem Dev.setLinkSt_au (d : Dev) (n : Nat) (x : LinkSt) : (d.setLinkSt n x).au = d.au := rfl
@[simp] theorem Dev.setLinkSt_sc (d : Dev) (n : Nat) (x : LinkSt) : (d.setLinkSt n x).sc = d.sc := rfl

@[simp] theorem Dev.setLane_regs (d : Dev) (l : Nat) (x : LaneSt) : (d.setLane l x).regs = d.regs := rfl
@[simp] theorem Dev.setLane_free (d : Dev) (l : Nat) (x : LaneSt) : (d.setLane l x).free = d.free := rfl
@[simp] theorem Dev.setLane_up (d : Dev) (l : Nat) (x : LaneSt) : (d.setLane l x).up = d.up := rfl
@[simp] theorem Dev.setLane_once (d : Dev) (l : Nat) (x : LaneSt) : (d.setLane l x).once = d.once := rfl
@[simp] theorem Dev.setLane_bank (d : Dev) (l : Nat) (x : LaneSt) : (d.setLane l x).bank = d.bank := rfl
@[simp] theorem Dev.setLane_fab (d : Dev) (l : Nat) (x : LaneSt) : (d.setLane l x).fab = d.fab := rfl
@[simp] theorem Dev.setLane_qf (d : Dev) (l : Nat) (x : LaneSt) : (d.setLane l x).qf = d.qf := rfl
@[simp] theorem Dev.setLane_oz (d : Dev) (l : Nat) (x : LaneSt) : (d.setLane l x).oz = d.oz := rfl
@[simp] theorem Dev.setLane_boot (d : Dev) (l : Nat) (x : LaneSt) : (d.setLane l x).boot = d.boot := rfl
@[simp] theorem Dev.setLane_hbm (d : Dev) (l : Nat) (x : LaneSt) : (d.setLane l x).hbm = d.hbm := rfl
@[simp] theorem Dev.setLane_hl (d : Dev) (l : Nat) (x : LaneSt) : (d.setLane l x).hl = d.hl := rfl
@[simp] theorem Dev.setLane_host (d : Dev) (l : Nat) (x : LaneSt) : (d.setLane l x).host = d.host := rfl
@[simp] theorem Dev.setLane_pins (d : Dev) (l : Nat) (x : LaneSt) : (d.setLane l x).pins = d.pins := rfl
@[simp] theorem Dev.setLane_tm (d : Dev) (l : Nat) (x : LaneSt) : (d.setLane l x).tm = d.tm := rfl
@[simp] theorem Dev.setLane_tw (d : Dev) (l : Nat) (x : LaneSt) : (d.setLane l x).tw = d.tw := rfl
@[simp] theorem Dev.setLane_ch (d : Dev) (l : Nat) (x : LaneSt) : (d.setLane l x).ch = d.ch := rfl
@[simp] theorem Dev.setLane_ing (d : Dev) (l : Nat) (x : LaneSt) : (d.setLane l x).ing = d.ing := rfl
@[simp] theorem Dev.setLane_integ (d : Dev) (l : Nat) (x : LaneSt) : (d.setLane l x).integ = d.integ := rfl
@[simp] theorem Dev.setLane_pipe (d : Dev) (l : Nat) (x : LaneSt) : (d.setLane l x).pipe = d.pipe := rfl
@[simp] theorem Dev.setLane_ps (d : Dev) (l : Nat) (x : LaneSt) : (d.setLane l x).ps = d.ps := rfl
@[simp] theorem Dev.setLane_md (d : Dev) (l : Nat) (x : LaneSt) : (d.setLane l x).md = d.md := rfl
@[simp] theorem Dev.setLane_au (d : Dev) (l : Nat) (x : LaneSt) : (d.setLane l x).au = d.au := rfl
@[simp] theorem Dev.setLane_sc (d : Dev) (l : Nat) (x : LaneSt) : (d.setLane l x).sc = d.sc := rfl

@[simp] theorem Dev.setPs_regs (d : Dev) (n : Nat) (v : PsStream) : (d.setPs n v).regs = d.regs := rfl
@[simp] theorem Dev.setPs_free (d : Dev) (n : Nat) (v : PsStream) : (d.setPs n v).free = d.free := rfl
@[simp] theorem Dev.setPs_up (d : Dev) (n : Nat) (v : PsStream) : (d.setPs n v).up = d.up := rfl
@[simp] theorem Dev.setPs_once (d : Dev) (n : Nat) (v : PsStream) : (d.setPs n v).once = d.once := rfl
@[simp] theorem Dev.setPs_bank (d : Dev) (n : Nat) (v : PsStream) : (d.setPs n v).bank = d.bank := rfl
@[simp] theorem Dev.setPs_fab (d : Dev) (n : Nat) (v : PsStream) : (d.setPs n v).fab = d.fab := rfl
@[simp] theorem Dev.setPs_qf (d : Dev) (n : Nat) (v : PsStream) : (d.setPs n v).qf = d.qf := rfl
@[simp] theorem Dev.setPs_oz (d : Dev) (n : Nat) (v : PsStream) : (d.setPs n v).oz = d.oz := rfl
@[simp] theorem Dev.setPs_boot (d : Dev) (n : Nat) (v : PsStream) : (d.setPs n v).boot = d.boot := rfl
@[simp] theorem Dev.setPs_hbm (d : Dev) (n : Nat) (v : PsStream) : (d.setPs n v).hbm = d.hbm := rfl
@[simp] theorem Dev.setPs_hl (d : Dev) (n : Nat) (v : PsStream) : (d.setPs n v).hl = d.hl := rfl
@[simp] theorem Dev.setPs_host (d : Dev) (n : Nat) (v : PsStream) : (d.setPs n v).host = d.host := rfl
@[simp] theorem Dev.setPs_pins (d : Dev) (n : Nat) (v : PsStream) : (d.setPs n v).pins = d.pins := rfl
@[simp] theorem Dev.setPs_tm (d : Dev) (n : Nat) (v : PsStream) : (d.setPs n v).tm = d.tm := rfl
@[simp] theorem Dev.setPs_tw (d : Dev) (n : Nat) (v : PsStream) : (d.setPs n v).tw = d.tw := rfl
@[simp] theorem Dev.setPs_ch (d : Dev) (n : Nat) (v : PsStream) : (d.setPs n v).ch = d.ch := rfl
@[simp] theorem Dev.setPs_ln (d : Dev) (n : Nat) (v : PsStream) : (d.setPs n v).ln = d.ln := rfl
@[simp] theorem Dev.setPs_ing (d : Dev) (n : Nat) (v : PsStream) : (d.setPs n v).ing = d.ing := rfl
@[simp] theorem Dev.setPs_integ (d : Dev) (n : Nat) (v : PsStream) : (d.setPs n v).integ = d.integ := rfl
@[simp] theorem Dev.setPs_pipe (d : Dev) (n : Nat) (v : PsStream) : (d.setPs n v).pipe = d.pipe := rfl
@[simp] theorem Dev.setPs_md (d : Dev) (n : Nat) (v : PsStream) : (d.setPs n v).md = d.md := rfl
@[simp] theorem Dev.setPs_au (d : Dev) (n : Nat) (v : PsStream) : (d.setPs n v).au = d.au := rfl
@[simp] theorem Dev.setPs_sc (d : Dev) (n : Nat) (v : PsStream) : (d.setPs n v).sc = d.sc := rfl

@[simp] theorem Dev.setEng_regs (d : Dev) (e : Nat) (v : EngineSt) : (d.setEng e v).regs = d.regs := rfl
@[simp] theorem Dev.setEng_free (d : Dev) (e : Nat) (v : EngineSt) : (d.setEng e v).free = d.free := rfl
@[simp] theorem Dev.setEng_up (d : Dev) (e : Nat) (v : EngineSt) : (d.setEng e v).up = d.up := rfl
@[simp] theorem Dev.setEng_once (d : Dev) (e : Nat) (v : EngineSt) : (d.setEng e v).once = d.once := rfl
@[simp] theorem Dev.setEng_bank (d : Dev) (e : Nat) (v : EngineSt) : (d.setEng e v).bank = d.bank := rfl
@[simp] theorem Dev.setEng_fab (d : Dev) (e : Nat) (v : EngineSt) : (d.setEng e v).fab = d.fab := rfl
@[simp] theorem Dev.setEng_qf (d : Dev) (e : Nat) (v : EngineSt) : (d.setEng e v).qf = d.qf := rfl
@[simp] theorem Dev.setEng_oz (d : Dev) (e : Nat) (v : EngineSt) : (d.setEng e v).oz = d.oz := rfl
@[simp] theorem Dev.setEng_boot (d : Dev) (e : Nat) (v : EngineSt) : (d.setEng e v).boot = d.boot := rfl
@[simp] theorem Dev.setEng_hbm (d : Dev) (e : Nat) (v : EngineSt) : (d.setEng e v).hbm = d.hbm := rfl
@[simp] theorem Dev.setEng_hl (d : Dev) (e : Nat) (v : EngineSt) : (d.setEng e v).hl = d.hl := rfl
@[simp] theorem Dev.setEng_host (d : Dev) (e : Nat) (v : EngineSt) : (d.setEng e v).host = d.host := rfl
@[simp] theorem Dev.setEng_pins (d : Dev) (e : Nat) (v : EngineSt) : (d.setEng e v).pins = d.pins := rfl
@[simp] theorem Dev.setEng_tm (d : Dev) (e : Nat) (v : EngineSt) : (d.setEng e v).tm = d.tm := rfl
@[simp] theorem Dev.setEng_tw (d : Dev) (e : Nat) (v : EngineSt) : (d.setEng e v).tw = d.tw := rfl
@[simp] theorem Dev.setEng_ch (d : Dev) (e : Nat) (v : EngineSt) : (d.setEng e v).ch = d.ch := rfl
@[simp] theorem Dev.setEng_ln (d : Dev) (e : Nat) (v : EngineSt) : (d.setEng e v).ln = d.ln := rfl
@[simp] theorem Dev.setEng_ing (d : Dev) (e : Nat) (v : EngineSt) : (d.setEng e v).ing = d.ing := rfl
@[simp] theorem Dev.setEng_integ (d : Dev) (e : Nat) (v : EngineSt) : (d.setEng e v).integ = d.integ := rfl
@[simp] theorem Dev.setEng_pipe (d : Dev) (e : Nat) (v : EngineSt) : (d.setEng e v).pipe = d.pipe := rfl
@[simp] theorem Dev.setEng_md (d : Dev) (e : Nat) (v : EngineSt) : (d.setEng e v).md = d.md := rfl
@[simp] theorem Dev.setEng_au (d : Dev) (e : Nat) (v : EngineSt) : (d.setEng e v).au = d.au := rfl
@[simp] theorem Dev.setEng_sc (d : Dev) (e : Nat) (v : EngineSt) : (d.setEng e v).sc = d.sc := rfl

@[simp] theorem Dev.setStr_regs (d : Dev) (n : Nat) (v : StrSt) : (d.setStr n v).regs = d.regs := rfl
@[simp] theorem Dev.setStr_free (d : Dev) (n : Nat) (v : StrSt) : (d.setStr n v).free = d.free := rfl
@[simp] theorem Dev.setStr_up (d : Dev) (n : Nat) (v : StrSt) : (d.setStr n v).up = d.up := rfl
@[simp] theorem Dev.setStr_once (d : Dev) (n : Nat) (v : StrSt) : (d.setStr n v).once = d.once := rfl
@[simp] theorem Dev.setStr_bank (d : Dev) (n : Nat) (v : StrSt) : (d.setStr n v).bank = d.bank := rfl
@[simp] theorem Dev.setStr_fab (d : Dev) (n : Nat) (v : StrSt) : (d.setStr n v).fab = d.fab := rfl
@[simp] theorem Dev.setStr_qf (d : Dev) (n : Nat) (v : StrSt) : (d.setStr n v).qf = d.qf := rfl
@[simp] theorem Dev.setStr_oz (d : Dev) (n : Nat) (v : StrSt) : (d.setStr n v).oz = d.oz := rfl
@[simp] theorem Dev.setStr_boot (d : Dev) (n : Nat) (v : StrSt) : (d.setStr n v).boot = d.boot := rfl
@[simp] theorem Dev.setStr_hbm (d : Dev) (n : Nat) (v : StrSt) : (d.setStr n v).hbm = d.hbm := rfl
@[simp] theorem Dev.setStr_hl (d : Dev) (n : Nat) (v : StrSt) : (d.setStr n v).hl = d.hl := rfl
@[simp] theorem Dev.setStr_host (d : Dev) (n : Nat) (v : StrSt) : (d.setStr n v).host = d.host := rfl
@[simp] theorem Dev.setStr_pins (d : Dev) (n : Nat) (v : StrSt) : (d.setStr n v).pins = d.pins := rfl
@[simp] theorem Dev.setStr_tm (d : Dev) (n : Nat) (v : StrSt) : (d.setStr n v).tm = d.tm := rfl
@[simp] theorem Dev.setStr_tw (d : Dev) (n : Nat) (v : StrSt) : (d.setStr n v).tw = d.tw := rfl
@[simp] theorem Dev.setStr_ch (d : Dev) (n : Nat) (v : StrSt) : (d.setStr n v).ch = d.ch := rfl
@[simp] theorem Dev.setStr_ln (d : Dev) (n : Nat) (v : StrSt) : (d.setStr n v).ln = d.ln := rfl
@[simp] theorem Dev.setStr_ing (d : Dev) (n : Nat) (v : StrSt) : (d.setStr n v).ing = d.ing := rfl
@[simp] theorem Dev.setStr_integ (d : Dev) (n : Nat) (v : StrSt) : (d.setStr n v).integ = d.integ := rfl
@[simp] theorem Dev.setStr_ps (d : Dev) (n : Nat) (v : StrSt) : (d.setStr n v).ps = d.ps := rfl
@[simp] theorem Dev.setStr_md (d : Dev) (n : Nat) (v : StrSt) : (d.setStr n v).md = d.md := rfl
@[simp] theorem Dev.setStr_au (d : Dev) (n : Nat) (v : StrSt) : (d.setStr n v).au = d.au := rfl
@[simp] theorem Dev.setStr_sc (d : Dev) (n : Nat) (v : StrSt) : (d.setStr n v).sc = d.sc := rfl

@[simp] theorem Dev.setPcam_regs (d : Dev) (c : Nat) (p : PipeCam) : (d.setPcam c p).regs = d.regs := rfl
@[simp] theorem Dev.setPcam_free (d : Dev) (c : Nat) (p : PipeCam) : (d.setPcam c p).free = d.free := rfl
@[simp] theorem Dev.setPcam_up (d : Dev) (c : Nat) (p : PipeCam) : (d.setPcam c p).up = d.up := rfl
@[simp] theorem Dev.setPcam_once (d : Dev) (c : Nat) (p : PipeCam) : (d.setPcam c p).once = d.once := rfl
@[simp] theorem Dev.setPcam_bank (d : Dev) (c : Nat) (p : PipeCam) : (d.setPcam c p).bank = d.bank := rfl
@[simp] theorem Dev.setPcam_fab (d : Dev) (c : Nat) (p : PipeCam) : (d.setPcam c p).fab = d.fab := rfl
@[simp] theorem Dev.setPcam_qf (d : Dev) (c : Nat) (p : PipeCam) : (d.setPcam c p).qf = d.qf := rfl
@[simp] theorem Dev.setPcam_oz (d : Dev) (c : Nat) (p : PipeCam) : (d.setPcam c p).oz = d.oz := rfl
@[simp] theorem Dev.setPcam_boot (d : Dev) (c : Nat) (p : PipeCam) : (d.setPcam c p).boot = d.boot := rfl
@[simp] theorem Dev.setPcam_hbm (d : Dev) (c : Nat) (p : PipeCam) : (d.setPcam c p).hbm = d.hbm := rfl
@[simp] theorem Dev.setPcam_hl (d : Dev) (c : Nat) (p : PipeCam) : (d.setPcam c p).hl = d.hl := rfl
@[simp] theorem Dev.setPcam_host (d : Dev) (c : Nat) (p : PipeCam) : (d.setPcam c p).host = d.host := rfl
@[simp] theorem Dev.setPcam_pins (d : Dev) (c : Nat) (p : PipeCam) : (d.setPcam c p).pins = d.pins := rfl
@[simp] theorem Dev.setPcam_tm (d : Dev) (c : Nat) (p : PipeCam) : (d.setPcam c p).tm = d.tm := rfl
@[simp] theorem Dev.setPcam_tw (d : Dev) (c : Nat) (p : PipeCam) : (d.setPcam c p).tw = d.tw := rfl
@[simp] theorem Dev.setPcam_ch (d : Dev) (c : Nat) (p : PipeCam) : (d.setPcam c p).ch = d.ch := rfl
@[simp] theorem Dev.setPcam_ln (d : Dev) (c : Nat) (p : PipeCam) : (d.setPcam c p).ln = d.ln := rfl
@[simp] theorem Dev.setPcam_ing (d : Dev) (c : Nat) (p : PipeCam) : (d.setPcam c p).ing = d.ing := rfl
@[simp] theorem Dev.setPcam_integ (d : Dev) (c : Nat) (p : PipeCam) : (d.setPcam c p).integ = d.integ := rfl
@[simp] theorem Dev.setPcam_ps (d : Dev) (c : Nat) (p : PipeCam) : (d.setPcam c p).ps = d.ps := rfl
@[simp] theorem Dev.setPcam_md (d : Dev) (c : Nat) (p : PipeCam) : (d.setPcam c p).md = d.md := rfl
@[simp] theorem Dev.setPcam_au (d : Dev) (c : Nat) (p : PipeCam) : (d.setPcam c p).au = d.au := rfl
@[simp] theorem Dev.setPcam_sc (d : Dev) (c : Nat) (p : PipeCam) : (d.setPcam c p).sc = d.sc := rfl

@[simp] theorem Dev.setSensor_regs (d : Dev) (n : Nat) (x : Sensor) : (d.setSensor n x).regs = d.regs := rfl
@[simp] theorem Dev.setSensor_free (d : Dev) (n : Nat) (x : Sensor) : (d.setSensor n x).free = d.free := rfl
@[simp] theorem Dev.setSensor_up (d : Dev) (n : Nat) (x : Sensor) : (d.setSensor n x).up = d.up := rfl
@[simp] theorem Dev.setSensor_once (d : Dev) (n : Nat) (x : Sensor) : (d.setSensor n x).once = d.once := rfl
@[simp] theorem Dev.setSensor_bank (d : Dev) (n : Nat) (x : Sensor) : (d.setSensor n x).bank = d.bank := rfl
@[simp] theorem Dev.setSensor_fab (d : Dev) (n : Nat) (x : Sensor) : (d.setSensor n x).fab = d.fab := rfl
@[simp] theorem Dev.setSensor_qf (d : Dev) (n : Nat) (x : Sensor) : (d.setSensor n x).qf = d.qf := rfl
@[simp] theorem Dev.setSensor_oz (d : Dev) (n : Nat) (x : Sensor) : (d.setSensor n x).oz = d.oz := rfl
@[simp] theorem Dev.setSensor_boot (d : Dev) (n : Nat) (x : Sensor) : (d.setSensor n x).boot = d.boot := rfl
@[simp] theorem Dev.setSensor_hbm (d : Dev) (n : Nat) (x : Sensor) : (d.setSensor n x).hbm = d.hbm := rfl
@[simp] theorem Dev.setSensor_host (d : Dev) (n : Nat) (x : Sensor) : (d.setSensor n x).host = d.host := rfl
@[simp] theorem Dev.setSensor_pins (d : Dev) (n : Nat) (x : Sensor) : (d.setSensor n x).pins = d.pins := rfl
@[simp] theorem Dev.setSensor_tm (d : Dev) (n : Nat) (x : Sensor) : (d.setSensor n x).tm = d.tm := rfl
@[simp] theorem Dev.setSensor_tw (d : Dev) (n : Nat) (x : Sensor) : (d.setSensor n x).tw = d.tw := rfl
@[simp] theorem Dev.setSensor_ch (d : Dev) (n : Nat) (x : Sensor) : (d.setSensor n x).ch = d.ch := rfl
@[simp] theorem Dev.setSensor_ln (d : Dev) (n : Nat) (x : Sensor) : (d.setSensor n x).ln = d.ln := rfl
@[simp] theorem Dev.setSensor_ing (d : Dev) (n : Nat) (x : Sensor) : (d.setSensor n x).ing = d.ing := rfl
@[simp] theorem Dev.setSensor_integ (d : Dev) (n : Nat) (x : Sensor) : (d.setSensor n x).integ = d.integ := rfl
@[simp] theorem Dev.setSensor_pipe (d : Dev) (n : Nat) (x : Sensor) : (d.setSensor n x).pipe = d.pipe := rfl
@[simp] theorem Dev.setSensor_ps (d : Dev) (n : Nat) (x : Sensor) : (d.setSensor n x).ps = d.ps := rfl
@[simp] theorem Dev.setSensor_md (d : Dev) (n : Nat) (x : Sensor) : (d.setSensor n x).md = d.md := rfl
@[simp] theorem Dev.setSensor_au (d : Dev) (n : Nat) (x : Sensor) : (d.setSensor n x).au = d.au := rfl
@[simp] theorem Dev.setSensor_sc (d : Dev) (n : Nat) (x : Sensor) : (d.setSensor n x).sc = d.sc := rfl

@[simp] theorem Dev.setHist_regs (d : Dev) (u : Nat) (h : TestHist) : (d.setHist u h).regs = d.regs := rfl
@[simp] theorem Dev.setHist_free (d : Dev) (u : Nat) (h : TestHist) : (d.setHist u h).free = d.free := rfl
@[simp] theorem Dev.setHist_up (d : Dev) (u : Nat) (h : TestHist) : (d.setHist u h).up = d.up := rfl
@[simp] theorem Dev.setHist_once (d : Dev) (u : Nat) (h : TestHist) : (d.setHist u h).once = d.once := rfl
@[simp] theorem Dev.setHist_bank (d : Dev) (u : Nat) (h : TestHist) : (d.setHist u h).bank = d.bank := rfl
@[simp] theorem Dev.setHist_fab (d : Dev) (u : Nat) (h : TestHist) : (d.setHist u h).fab = d.fab := rfl
@[simp] theorem Dev.setHist_qf (d : Dev) (u : Nat) (h : TestHist) : (d.setHist u h).qf = d.qf := rfl
@[simp] theorem Dev.setHist_oz (d : Dev) (u : Nat) (h : TestHist) : (d.setHist u h).oz = d.oz := rfl
@[simp] theorem Dev.setHist_boot (d : Dev) (u : Nat) (h : TestHist) : (d.setHist u h).boot = d.boot := rfl
@[simp] theorem Dev.setHist_hbm (d : Dev) (u : Nat) (h : TestHist) : (d.setHist u h).hbm = d.hbm := rfl
@[simp] theorem Dev.setHist_host (d : Dev) (u : Nat) (h : TestHist) : (d.setHist u h).host = d.host := rfl
@[simp] theorem Dev.setHist_pins (d : Dev) (u : Nat) (h : TestHist) : (d.setHist u h).pins = d.pins := rfl
@[simp] theorem Dev.setHist_tm (d : Dev) (u : Nat) (h : TestHist) : (d.setHist u h).tm = d.tm := rfl
@[simp] theorem Dev.setHist_tw (d : Dev) (u : Nat) (h : TestHist) : (d.setHist u h).tw = d.tw := rfl
@[simp] theorem Dev.setHist_ch (d : Dev) (u : Nat) (h : TestHist) : (d.setHist u h).ch = d.ch := rfl
@[simp] theorem Dev.setHist_ln (d : Dev) (u : Nat) (h : TestHist) : (d.setHist u h).ln = d.ln := rfl
@[simp] theorem Dev.setHist_ing (d : Dev) (u : Nat) (h : TestHist) : (d.setHist u h).ing = d.ing := rfl
@[simp] theorem Dev.setHist_integ (d : Dev) (u : Nat) (h : TestHist) : (d.setHist u h).integ = d.integ := rfl
@[simp] theorem Dev.setHist_pipe (d : Dev) (u : Nat) (h : TestHist) : (d.setHist u h).pipe = d.pipe := rfl
@[simp] theorem Dev.setHist_ps (d : Dev) (u : Nat) (h : TestHist) : (d.setHist u h).ps = d.ps := rfl
@[simp] theorem Dev.setHist_md (d : Dev) (u : Nat) (h : TestHist) : (d.setHist u h).md = d.md := rfl
@[simp] theorem Dev.setHist_au (d : Dev) (u : Nat) (h : TestHist) : (d.setHist u h).au = d.au := rfl
@[simp] theorem Dev.setHist_sc (d : Dev) (u : Nat) (h : TestHist) : (d.setHist u h).sc = d.sc := rfl

end Sys2Proof.Machine
end

