-- ==== Sys2Proof/Laws/Verbs.lean ====
section
/-! SUPPORT. What the reply path of a request can do: raising an event, posting an entry, ending an operation, answering,
refusing and holding a master leave what the device works on as it was; a verb under CHECK_ONLY only answers. -/
namespace Sys2Proof.Machine

theorem foldl_works {α : Type} (f : Dev → α → Dev) (h : ∀ e x, (f e x).works = e.works) (l : List α) (d : Dev) :
    (l.foldl f d).works = d.works := by
  induction l generalizing d with
  | nil => rfl
  | cons x l ih => exact (ih _).trans (h d x)

theorem Dev.postErr_works (d : Dev) (r : EvRec) : (d.postErr r).works = d.works := by
  unfold Dev.postErr
  simp only
  repeat' split
  all_goals rfl

/-- An event raised. -/
theorem Dev.raise_works (d : Dev) (e : Ev) : (d.raise e).works = d.works := Dev.postErr_works _ _

theorem Dev.raiseOnce_works (d : Dev) (o n : Nat) (e : Ev) : (d.raiseOnce o n e).works = d.works := by
  unfold Dev.raiseOnce
  simp only
  repeat' split
  all_goals first | rfl | exact Dev.raise_works d e

theorem Dev.signal_works (d : Dev) (q : Queue) : (d.signal q).works = d.works := by
  unfold Dev.signal
  split
  · simp only
    split
    · rfl
    · split <;> rfl
  · rfl

theorem Dev.ringW_works (d : Dev) (q : Queue) (i : Nat) (e : Entry) : (d.ringW q i e).works = d.works := by
  unfold Dev.ringW
  simp only
  split <;> rfl

theorem Dev.enqueue_works (d : Dev) (q : Nat) (e : Entry) : (d.enqueue q e).works = d.works :=
  (Dev.signal_works _ _).trans (Dev.ringW_works d _ _ _)

theorem Dev.postGone_works (d : Dev) (q : Nat) (e : Entry) : (d.postGone q e).works = d.works := by
  unfold Dev.postGone
  split
  · rfl
  · exact Dev.raiseOnce_works _ _ _ _

/-- An entry offered to a queue. -/
theorem Dev.post_works (d : Dev) (q s : Nat) (e : Entry) : (d.post q s e).works = d.works := by
  unfold Dev.post
  simp only
  split
  · exact Dev.postGone_works _ _ _
  · split
    · rfl
    · split
      · split
        · rfl
        · split
          · rfl
          · exact Dev.raise_works _ _
      · exact Dev.enqueue_works _ _ _

theorem Dev.flushFifo_works (d : Dev) (q : Nat) : (d.flushFifo q).works = d.works := by
  unfold Dev.flushFifo
  simp only
  exact (foldl_works _ (fun e w => Dev.post_works e _ _ _) _ _).trans rfl

theorem Dev.answer_works (d : Dev) (q s n : Nat) (e : Entry) : (d.answer q s n e).works = d.works := by
  unfold Dev.answer
  split
  · exact (Dev.flushFifo_works _ _).trans rfl
  · exact Dev.post_works _ _ _ _

theorem Dev.closeTag_works (d : Dev) (o : Op) : (d.closeTag o).works = d.works := rfl

/-- An operation ended. -/
theorem Dev.endOp_works (d : Dev) (t s : Nat) (b : List Byte) : (d.endOp t s b).works = d.works := by
  unfold Dev.endOp
  simp only
  repeat' split
  all_goals first
    | rfl
    | exact (Dev.answer_works _ _ _ _ _).trans (Dev.closeTag_works d _)
    | exact (Dev.flushFifo_works _ _).trans (Dev.closeTag_works d _)

theorem Dev.reply_works (d : Dev) (r : Req) (a b c e f g : Nat) (l : List Nat) (bs : List Byte) :
    (d.reply r a b c e f g l bs).works = d.works := by
  unfold Dev.reply
  refine (Dev.endOp_works _ _ _ _).trans ?_
  split
  · rfl
  · split <;> rfl

theorem Dev.replyErr_works (d : Dev) (r : Req) (a b c e f : Nat) : (d.replyErr r a b c e f).works = d.works :=
  (Dev.reply_works _ _ _ _ _ _ _ _ _ _).trans (Dev.raise_works _ _)

theorem Dev.closeNoTag_works (d : Dev) (q : Nat) (e : Entry) (s n : Nat) : (d.closeNoTag q e s n).works = d.works :=
  Dev.answer_works _ _ _ _ _

theorem Dev.closeWaiting_works (d : Dev) (q s : Nat) : (d.closeWaiting q s).works = d.works := by
  unfold Dev.closeWaiting
  simp only
  refine (foldl_works _ (fun e p => ?_) _ _).trans (by split <;> rfl)
  split
  · exact Dev.closeNoTag_works _ _ _ _ _
  · rfl

theorem Dev.holdQueues_works (d : Dev) (m : Nat) : (d.holdQueues m).works = d.works := by
  unfold Dev.holdQueues
  simp only
  exact foldl_works _ (fun e q => (Dev.closeWaiting_works (e.modQ q fun r => { r with rstate := 2 }) q 0x0310).trans rfl) _ _

theorem Dev.setUst_works (d : Dev) (u s r : Nat) : (d.setUst u s r).works = d.works := by
  unfold Dev.setUst
  simp only
  refine (foldl_works _ (fun e p => ?_) _ _).trans ?_
  · split <;> rfl
  · split <;> rfl

theorem Dev.holdUnit_works (d : Dev) (u : Nat) : (d.holdUnit u).works = d.works := by
  unfold Dev.holdUnit
  split
  · exact Dev.setUst_works _ _ _ _
  · rfl

/-- A violation. -/
theorem Dev.violate_works (d : Dev) (m c i : Nat) : (d.violate m c i).works = d.works := by
  unfold Dev.violate
  split
  · exact Dev.raise_works _ _
  · split
    · rfl
    · have h : ∀ e : Ev, (((d.addHold false m c i).holdQueues m).raise e).works = d.works := fun e =>
        (Dev.raise_works _ e).trans ((Dev.holdQueues_works _ m).trans rfl)
      simp only
      split
      · exact h _
      · split
        · exact (Dev.raise_works _ _).trans ((Dev.holdUnit_works _ _).trans (h _))
        · exact (Dev.holdUnit_works _ _).trans (h _)

theorem Dev.destroyQ_works (d : Dev) (q : Nat) : (d.destroyQ q).works = d.works := by
  unfold Dev.destroyQ
  exact (foldl_works _ (fun e w => Dev.postGone_works e _ _) _ _).trans rfl

theorem Dev.dropMbox_works (d : Dev) (b : Mbox) : (d.dropMbox b).works = d.works := by
  refine Eq.trans (b := (((d.destroyQ b.req).destroyQ b.reply).destroyQ b.event).works) ?_ ?_
  · rfl
  · rw [Dev.destroyQ_works, Dev.destroyQ_works, Dev.destroyQ_works]

theorem Dev.endMbox_works (d : Dev) (b : Mbox) : (d.endMbox b).works = d.works :=
  (Dev.dropMbox_works _ _).trans (Dev.closeWaiting_works d _ _)

theorem Dev.sweep_works (d : Dev) : d.sweep.works = d.works := foldl_works _ Dev.endMbox_works _ _

/-- The checks before a verb. -/
theorem Dev.preGate_works (d e : Dev) (r : Req) (a b : Nat) (x y z : Bool) (h : d.preGate r a b x y z = some e) : e.works = d.works := by
  unfold Dev.preGate at h
  repeat' split at h
  all_goals first
    | (cases h; done)
    | (obtain rfl := Option.some.inj h
       first
        | with_reducible rfl
        | with_reducible exact Dev.replyErr_works _ _ _ _ _ _ _
        | (rw [Dev.violate_works]; with_reducible exact Dev.replyErr_works _ _ _ _ _ _ _)
        | (rw [Dev.sweep_works]; with_reducible exact Dev.replyErr_works _ _ _ _ _ _ _))

/-- A verb under CHECK_ONLY changes nothing it works on (R140). -/
theorem Dev.verbD_checkOnly (d : Dev) (r : Req) (a b : Nat) (deny : Bool) (body : Dev → VRes Dev) (h : r.checkOnly = true) :
    (d.verbD r a b deny body).works = d.works := by
  unfold Dev.verbD
  split
  · rename_i e he
    exact Dev.preGate_works d e r a b _ _ _ he
  · refine (Dev.sweep_works _).trans ?_
    unfold finishVerb
    split
    · exact Dev.replyErr_works _ _ _ _ _ _ _
    · simp only [h, if_true]
      exact Dev.replyErr_works _ _ _ _ _ _ _
    · simp only [h, if_true]
      exact Dev.reply_works _ _ _ _ _ _ _ _ _ _
    · simp only [h, if_true]
      exact Dev.reply_works _ _ _ _ _ _ _ _ _ _

theorem Dev.verb_checkOnly (d : Dev) (r : Req) (a b : Nat) (priv : Bool) (body : Dev → VRes Dev) (h : r.checkOnly = true) :
    (d.verb r a b priv body).works = d.works := Dev.verbD_checkOnly _ _ _ _ _ _ h

/-- The same for a verb that may change the survivors: they stand too. -/
theorem verbNv_checkOnly (nv : Nv) (d : Dev) (r : Req) (a b : Nat) (priv : Bool) (body : Nv → Dev → VRes (Nv × Dev))
    (h : r.checkOnly = true) : (verbNv nv d r a b priv body).1 = nv ∧ (verbNv nv d r a b priv body).2.works = d.works := by
  unfold verbNv
  split
  · rename_i e he
    exact ⟨rfl, Dev.preGate_works d e r a b _ _ _ he⟩
  · unfold finishVerb
    split
    · exact ⟨rfl, Dev.replyErr_works _ _ _ _ _ _ _⟩
    · simp only [h, if_true]
      exact ⟨trivial, Dev.replyErr_works _ _ _ _ _ _ _⟩
    · simp only [h, if_true]
      exact ⟨trivial, Dev.reply_works _ _ _ _ _ _ _ _ _ _⟩
    · simp only [h, if_true]
      exact ⟨trivial, Dev.reply_works _ _ _ _ _ _ _ _ _ _⟩

/-! ### The operation that a request holds -/

theorem foldl_ops {α : Type} (f : Dev → α → Dev) (h : ∀ e x, (f e x).qf.ops = e.qf.ops) (l : List α) (d : Dev) :
    (l.foldl f d).qf.ops = d.qf.ops := by
  induction l generalizing d with
  | nil => rfl
  | cons x l ih => exact (ih _).trans (h d x)

theorem Dev.postErr_qf (d : Dev) (r : EvRec) : (d.postErr r).qf = d.qf := by
  unfold Dev.postErr
  simp only
  repeat' split
  all_goals rfl

theorem Dev.raise_qf (d : Dev) (e : Ev) : (d.raise e).qf = d.qf := Dev.postErr_qf _ _

theorem Dev.raiseOnce_qf (d : Dev) (o n : Nat) (e : Ev) : (d.raiseOnce o n e).qf = d.qf := by
  unfold Dev.raiseOnce
  simp only
  repeat' split
  all_goals first | rfl | exact Dev.raise_qf d e

theorem Dev.signal_ops (d : Dev) (q : Queue) : (d.signal q).qf.ops = d.qf.ops := by
  unfold Dev.signal
  simp only
  repeat' split
  all_goals rfl

theorem Dev.ringW_qf (d : Dev) (q : Queue) (i : Nat) (e : Entry) : (d.ringW q i e).qf = d.qf := by
  unfold Dev.ringW
  simp only
  split <;> rfl

theorem Dev.setQ_ops (d : Dev) (q : Nat) (r : Queue) : (d.setQ q r).qf.ops = d.qf.ops := rfl

theorem Dev.enqueue_ops (d : Dev) (q : Nat) (e : Entry) : (d.enqueue q e).qf.ops = d.qf.ops := by
  unfold Dev.enqueue
  simp only
  rw [Dev.signal_ops, Dev.setQ_ops, Dev.ringW_qf]

theorem Dev.postGone_ops (d : Dev) (q : Nat) (e : Entry) : (d.postGone q e).qf.ops = d.qf.ops := by
  unfold Dev.postGone
  split
  · rfl
  · rw [Dev.raiseOnce_qf]

theorem Dev.post_ops (d : Dev) (q s : Nat) (e : Entry) : (d.post q s e).qf.ops = d.qf.ops := by
  unfold Dev.post
  simp only
  repeat' split
  all_goals first
    | rfl
    | exact Dev.postGone_ops _ _ _
    | rw [Dev.raise_qf]
    | exact Dev.enqueue_ops _ _ _

theorem Dev.flushFifo_ops (d : Dev) (q : Nat) : (d.flushFifo q).qf.ops = d.qf.ops := by
  unfold Dev.flushFifo
  simp only
  exact (foldl_ops _ (fun e w => Dev.post_ops e _ _ _) _ _).trans rfl

theorem Dev.answer_ops (d : Dev) (q s n : Nat) (e : Entry) : (d.answer q s n e).qf.ops = d.qf.ops := by
  unfold Dev.answer
  split
  · exact (Dev.flushFifo_ops _ _).trans rfl
  · exact Dev.post_ops _ _ _ _

theorem Dev.closeTag_ops (d : Dev) (o : Op) :
    (d.closeTag o).qf.ops = d.qf.ops.filter fun x => decide (x.tag ≠ o.tag) := rfl

/-- An ended operation's tag is free (R104, R114). -/
theorem Dev.endOp_closed (d : Dev) (t s : Nat) (b : List Byte) : ∀ o ∈ (d.endOp t s b).qf.ops, o.tag ≠ t := by
  unfold Dev.endOp
  simp only
  split
  · rename_i h
    intro o ho e
    unfold Dev.op at h
    have := List.find?_eq_none.1 h o ho
    simp [e] at this
  · rename_i x hx
    have ht : x.tag = t := by
      have := List.find?_some hx
      simpa using this
    intro o ho
    have hops : o ∈ (d.closeTag x).qf.ops := by
      repeat' split at ho
      all_goals first
        | rwa [Dev.answer_ops] at ho
        | rwa [Dev.flushFifo_ops] at ho
    rw [Dev.closeTag_ops, List.mem_filter] at hops
    simpa [ht] using hops.2

theorem Dev.reply_closed (d : Dev) (r : Req) (a b c e f g : Nat) (l : List Nat) (bs : List Byte) :
    ∀ o ∈ (d.reply r a b c e f g l bs).qf.ops, o.tag ≠ r.tag := Dev.endOp_closed _ _ _ _

theorem Dev.replyErr_closed (d : Dev) (r : Req) (a b c e f : Nat) :
    ∀ o ∈ (d.replyErr r a b c e f).qf.ops, o.tag ≠ r.tag := Dev.reply_closed _ _ _ _ _ _ _ _ _ _

theorem Dev.closeWaiting_ops (d : Dev) (q s : Nat) : (d.closeWaiting q s).qf.ops = d.qf.ops := by
  unfold Dev.closeWaiting
  simp only
  refine (foldl_ops _ (fun e p => ?_) _ _).trans (by split <;> rfl)
  split
  · exact Dev.answer_ops _ _ _ _ _
  · rfl

theorem Dev.modQ_ops (d : Dev) (q : Nat) (f : Queue → Queue) : (d.modQ q f).qf.ops = d.qf.ops := rfl

theorem Dev.holdQueues_ops (d : Dev) (m : Nat) : (d.holdQueues m).qf.ops = d.qf.ops := by
  unfold Dev.holdQueues
  simp only
  exact foldl_ops _ (fun e q => (Dev.closeWaiting_ops _ q _).trans (Dev.modQ_ops e q _)) _ _

theorem foldl_qf {α : Type} (f : Dev → α → Dev) (h : ∀ e x, (f e x).qf = e.qf) (l : List α) (d : Dev) : (l.foldl f d).qf = d.qf := by
  induction l generalizing d with
  | nil => rfl
  | cons x l ih => exact (ih _).trans (h d x)

theorem Dev.setUst_qf (d : Dev) (u s r : Nat) : (d.setUst u s r).qf = d.qf := by
  unfold Dev.setUst
  simp only
  refine (foldl_qf _ (fun e p => ?_) _ _).trans ?_
  · split <;> rfl
  · split <;> rfl

theorem Dev.holdUnit_qf (d : Dev) (u : Nat) : (d.holdUnit u).qf = d.qf := by
  unfold Dev.holdUnit
  split
  · exact Dev.setUst_qf _ _ _ _
  · rfl

theorem Dev.violate_ops (d : Dev) (m c i : Nat) : (d.violate m c i).qf.ops = d.qf.ops := by
  unfold Dev.violate
  simp only
  split
  · rw [Dev.raise_qf]
  · split
    · rfl
    · split
      · rw [Dev.raise_qf, Dev.holdQueues_ops]
        rfl
      · split
        · unfold Dev.c0Risk
          rw [Dev.raise_qf, Dev.holdUnit_qf, Dev.raise_qf, Dev.holdQueues_ops]
          rfl
        · rw [Dev.holdUnit_qf, Dev.raise_qf, Dev.holdQueues_ops]
          rfl

theorem Dev.destroyQ_ops (d : Dev) (q : Nat) : (d.destroyQ q).qf.ops = d.qf.ops := by
  unfold Dev.destroyQ
  exact (foldl_ops _ (fun e w => Dev.postGone_ops e _ _) _ _).trans rfl

theorem Dev.dropMbox_ops (d : Dev) (b : Mbox) : (d.dropMbox b).qf.ops = d.qf.ops := by
  refine Eq.trans (b := (((d.destroyQ b.req).destroyQ b.reply).destroyQ b.event).qf.ops) ?_ ?_
  · rfl
  · rw [Dev.destroyQ_ops, Dev.destroyQ_ops, Dev.destroyQ_ops]

theorem Dev.endMbox_ops (d : Dev) (b : Mbox) : (d.endMbox b).qf.ops = d.qf.ops :=
  (Dev.dropMbox_ops _ _).trans (Dev.closeWaiting_ops d _ _)

theorem Dev.sweep_ops (d : Dev) : d.sweep.qf.ops = d.qf.ops := by
  unfold Dev.sweep
  exact foldl_ops _ Dev.endMbox_ops _ _

/-- A refusal before the verb closes the request's tag, on a mailbox that firmware serves. -/
theorem Dev.preGate_closed (d e : Dev) (r : Req) (a b : Nat) (x y z : Bool) (hm : (d.mbox r.qid).isSome = true)
    (hs : d.serving = true) (h : d.preGate r a b x y z = some e) : ∀ o ∈ e.qf.ops, o.tag ≠ r.tag := by
  unfold Dev.preGate at h
  split at h
  · rename_i hn
    simp [hn] at hm
  · rw [hs] at h
    simp only [Bool.not_true, Bool.false_eq_true, if_false] at h
    repeat' split at h
    all_goals first
      | (cases h; done)
      | (obtain rfl := Option.some.inj h
         try simp only [Dev.violate_ops, Dev.sweep_ops]
         exact Dev.replyErr_closed _ _ _ _ _ _ _)

theorem finishVerb_closed {α : Type} (get : α → Dev) (put : α → Dev → α) (hp : ∀ s d, get (put s d) = d) (s0 : α) (r : Req)
    (a b : Nat) (v : VRes α) : ∀ o ∈ (get (finishVerb get put s0 r a b v)).qf.ops, o.tag ≠ r.tag := by
  cases v with
  | err st off detail =>
    simp only [finishVerb, hp]
    exact Dev.replyErr_closed _ _ _ _ _ _ _
  | turned s st =>
    simp only [finishVerb]
    split <;> rw [hp] <;> exact Dev.replyErr_closed _ _ _ _ _ _ _
  | ok s res bytes detail =>
    simp only [finishVerb]
    split
    · rw [hp]
      exact Dev.reply_closed _ _ _ _ _ _ _ _ _ _
    · split
      · rw [hp]
        exact Dev.replyErr_closed _ _ _ _ _ _ _
      · rw [hp]
        exact Dev.reply_closed _ _ _ _ _ _ _ _ _ _
  | job s decided aux =>
    simp only [finishVerb]
    split
    · rw [hp]
      exact Dev.reply_closed _ _ _ _ _ _ _ _ _ _
    · split
      · rw [hp]
        exact Dev.replyErr_closed _ _ _ _ _ _ _
      · rw [hp]
        exact Dev.reply_closed _ _ _ _ _ _ _ _ _ _

/-- Every request that a served mailbox brings is answered: its operation no longer holds its tag (R104, R141). -/
theorem Dev.verbD_closed (d : Dev) (r : Req) (a b : Nat) (deny : Bool) (body : Dev → VRes Dev)
    (hm : (d.mbox r.qid).isSome = true) (hs : d.serving = true) : ∀ o ∈ (d.verbD r a b deny body).qf.ops, o.tag ≠ r.tag := by
  unfold Dev.verbD
  split
  · rename_i e he
    exact Dev.preGate_closed d e r a b _ _ _ hm hs he
  · rw [Dev.sweep_ops]
    exact finishVerb_closed id (fun _ e => e) (fun _ _ => rfl) d r a b _

theorem verbNv_closed (nv : Nv) (d : Dev) (r : Req) (a b : Nat) (priv : Bool) (body : Nv → Dev → VRes (Nv × Dev))
    (hm : (d.mbox r.qid).isSome = true) (hs : d.serving = true) : ∀ o ∈ (verbNv nv d r a b priv body).2.qf.ops, o.tag ≠ r.tag := by
  unfold verbNv
  split
  · rename_i e he
    exact Dev.preGate_closed d e r a b _ _ _ hm hs he
  · exact finishVerb_closed (·.2) (fun p e => (p.1, e)) (fun _ _ => rfl) (nv, d) r a b _

/-! ### Requests that firmware takes up -/

/-- No check of R146 turns an accepted request away. -/
theorem Dev.preGate_accepts (d : Dev) (r : Req) (svc verb : Nat) (priv : Bool) (h : d.Accepts r svc verb priv) (deny : Bool)
    (hd : deny = false) : d.preGate r svc verb true true deny = none := by
  obtain ⟨⟨b, hb, hc⟩, hs, hm, hv, hp, ⟨hr1, hr2⟩, ht, hsh, hi⟩ := h
  unfold Dev.preGate
  simp only [hb, hc, hs, hm, hd, hr1, hr2, ht, hsh, hi]
  rcases hv with hv | ⟨ha, hb⟩
  · simp [hv]
  · simp [ha, hb]

theorem finishVerb_settled (d : Dev) (r : Req) (svc verb : Nat) (v : VRes Dev) :
    finishVerb id (fun _ e => e) d r svc verb v = d.settled r svc verb v := by
  cases v <;> simp only [finishVerb, Dev.settled, id]
  split <;> rfl

theorem Dev.verbD_settled (d : Dev) (r : Req) (svc verb : Nat) (priv deny : Bool) (body : Dev → VRes Dev)
    (h : d.Accepts r svc verb priv) (hd : deny = false) :
    d.verbD r svc verb deny body = (d.settled r svc verb (body d)).sweep := by
  unfold Dev.verbD
  rw [Dev.preGate_accepts d r svc verb priv h deny hd]
  simp only [finishVerb_settled]

/-- What a verb comes to once its request is accepted. -/
theorem Dev.verb_settled (d : Dev) (r : Req) (svc verb : Nat) (priv : Bool) (body : Dev → VRes Dev)
    (h : d.Accepts r svc verb priv) : d.verb r svc verb priv body = (d.settled r svc verb (body d)).sweep := by
  refine Dev.verbD_settled d r svc verb priv _ body h ?_
  have := h.allowed
  cases priv <;> simp_all

/-- The same for a verb that may change what survives RST_N. -/
theorem verbNv_settled (nv : Nv) (d : Dev) (r : Req) (svc verb : Nat) (priv : Bool) (body : Nv → Dev → VRes (Nv × Dev))
    (h : d.Accepts r svc verb priv) :
    verbNv nv d r svc verb priv body = (nv.settled d r (body nv d), d.settled r svc verb (body nv d).onDevice) := by
  have hd : (priv && !d.priv r.master) = false := by
    have := h.allowed
    cases priv <;> simp_all
  unfold verbNv
  rw [Dev.preGate_accepts d r svc verb priv h _ hd]
  cases body nv d <;> simp only [finishVerb, Dev.settled, Nv.settled, VRes.onDevice]
  · split <;> simp_all
  · split
    · simp_all
    · split <;> (simp_all; try omega)
  · split
    · simp_all
    · split <;> (simp_all; try omega)

end Sys2Proof.Machine
end

