-- ==== Sys2Proof/Laws/FrameParts.lean ====
section
/-! SUPPORT. A device without some of its parts (Dev.without) stays the same under every operation whose hypotheses name the parts
it may change: here one update of a field, a fold of steps, and the answer of a verb (VKeeps). The lemma of an operation f is called
f_keep; its hypotheses h_x say that part x is among those left out. -/
namespace Sys2Proof.Machine

theorem foldl_keep {pts : List Part} {α : Type} (f : Dev → α → Dev) (xs : List α) (d : Dev)
    (h : ∀ e x, (f e x).without pts = e.without pts) : (xs.foldl f d).without pts = d.without pts := by
  induction xs generalizing d with
  | nil => rfl
  | cons x xs ih => exact (ih _).trans (h d x)
theorem foldl_keepO {pts : List Part} {α : Type} (f : Option Dev → α → Option Dev) (xs : List α) (d : Dev) {e : Dev}
    (hn : ∀ x, f none x = none) (h : ∀ a x b, f (some a) x = some b → b.without pts = a.without pts)
    (he : xs.foldl f (some d) = some e) : e.without pts = d.without pts := by
  have hnone : ∀ ys : List α, ys.foldl f none = none := by
    intro ys
    induction ys with
    | nil => rfl
    | cons y ys ih => rw [List.foldl_cons, hn, ih]
  induction xs generalizing d with
  | nil => cases he; rfl
  | cons x xs ih =>
    rw [List.foldl_cons] at he
    cases hx : f (some d) x with
    | none => rw [hx, hnone] at he; cases he
    | some b => rw [hx] at he; exact (ih b he).trans (h d x b hx)
theorem foldl_keepP {pts : List Part} {α β : Type} (f : Option (Dev × β) → α → Option (Dev × β)) (xs : List α) (d : Dev × β) {e : Dev × β}
    (hn : ∀ x, f none x = none) (h : ∀ a x b, f (some a) x = some b → b.1.without pts = a.1.without pts)
    (he : xs.foldl f (some d) = some e) : e.1.without pts = d.1.without pts := by
  have hnone : ∀ ys : List α, ys.foldl f none = none := by
    intro ys
    induction ys with
    | nil => rfl
    | cons y ys ih => rw [List.foldl_cons, hn, ih]
  induction xs generalizing d with
  | nil => cases he; rfl
  | cons x xs ih =>
    rw [List.foldl_cons] at he
    cases hx : f (some d) x with
    | none => rw [hx, hnone] at he; cases he
    | some b => rw [hx] at he; exact (ih b he).trans (h d x b hx)
theorem foldl_keep1 {pts : List Part} {α β : Type} (f : Dev × β → α → Dev × β) (xs : List α) (p : Dev × β)
    (h : ∀ q x, (f q x).1.without pts = q.1.without pts) : (xs.foldl f p).1.without pts = p.1.without pts := by
  induction xs generalizing p with
  | nil => rfl
  | cons x xs ih => exact (ih _).trans (h p x)
theorem foldl_keep2 {pts : List Part} {α β : Type} (f : β × Dev → α → β × Dev) (xs : List α) (p : β × Dev)
    (h : ∀ q x, (f q x).2.without pts = q.2.without pts) : (xs.foldl f p).2.without pts = p.2.without pts := by
  induction xs generalizing p with
  | nil => rfl
  | cons x xs ih => exact (ih _).trans (h p x)
theorem upd_bank_hl_keep {pts : List Part} (d : Dev) (x_bank : BankSt) (x_hl : HealthSt) (h_bank : pts.contains .bank = true) (h_hl :
    pts.contains .hl = true) :
    ({ d with bank := x_bank, hl := x_hl } : Dev).without pts = d.without pts := by
  simp only [Dev.without, h_bank, h_hl, if_true]
theorem upd_bank_pins_keep {pts : List Part} (d : Dev) (x_bank : BankSt) (x_pins : Pins) (h_bank : pts.contains .bank = true) (h_pins :
    pts.contains .pins = true) :
    ({ d with bank := x_bank, pins := x_pins } : Dev).without pts = d.without pts := by
  simp only [Dev.without, h_bank, h_pins, if_true]
theorem upd_bank_pipe_keep {pts : List Part} (d : Dev) (x_bank : BankSt) (x_pipe : PipeSt) (h_bank : pts.contains .bank = true) (h_pipe :
    pts.contains .pipe = true) :
    ({ d with bank := x_bank, pipe := x_pipe } : Dev).without pts = d.without pts := by
  simp only [Dev.without, h_bank, h_pipe, if_true]
theorem upd_fab_bank_keep {pts : List Part} (d : Dev) (x_fab : FabSt) (x_bank : BankSt) (h_fab : pts.contains .fab = true) (h_bank :
    pts.contains .bank = true) :
    ({ d with fab := x_fab, bank := x_bank } : Dev).without pts = d.without pts := by
  simp only [Dev.without, h_fab, h_bank, if_true]
theorem upd_hl_pins_keep {pts : List Part} (d : Dev) (x_hl : HealthSt) (x_pins : Pins) (h_hl : pts.contains .hl = true) (h_pins :
    pts.contains .pins = true) :
    ({ d with hl := x_hl, pins := x_pins } : Dev).without pts = d.without pts := by
  simp only [Dev.without, h_hl, h_pins, if_true]
theorem upd_hl_pipe_keep {pts : List Part} (d : Dev) (x_hl : HealthSt) (x_pipe : PipeSt) (h_hl : pts.contains .hl = true) (h_pipe :
    pts.contains .pipe = true) :
    ({ d with hl := x_hl, pipe := x_pipe } : Dev).without pts = d.without pts := by
  simp only [Dev.without, h_hl, h_pipe, if_true]
theorem upd_ing_pipe_keep {pts : List Part} (d : Dev) (x_ing : IngSt) (x_pipe : PipeSt) (h_ing : pts.contains .ing = true) (h_pipe :
    pts.contains .pipe = true) :
    ({ d with ing := x_ing, pipe := x_pipe } : Dev).without pts = d.without pts := by
  simp only [Dev.without, h_ing, h_pipe, if_true]
theorem upd_oz_bank_hl_pins_keep {pts : List Part} (d : Dev) (x_oz : OzSt) (x_bank : BankSt) (x_hl : HealthSt) (x_pins : Pins) (h_bank :
    pts.contains .bank = true) (h_hl : pts.contains .hl = true) (h_pins : pts.contains .pins = true) :
    ({ d with oz := x_oz, bank := x_bank, hl := x_hl, pins := x_pins } : Dev).without pts = d.without pts := by
  simp only [Dev.without, h_bank, h_hl, h_pins, if_true]
theorem upd_oz_bank_keep {pts : List Part} (d : Dev) (x_oz : OzSt) (x_bank : BankSt) (h_bank : pts.contains .bank = true) :
    ({ d with oz := x_oz, bank := x_bank } : Dev).without pts = d.without pts := by
  simp only [Dev.without, h_bank, if_true]
theorem upd_oz_hl_keep {pts : List Part} (d : Dev) (x_oz : OzSt) (x_hl : HealthSt) (h_hl : pts.contains .hl = true) :
    ({ d with oz := x_oz, hl := x_hl } : Dev).without pts = d.without pts := by
  simp only [Dev.without, h_hl, if_true]
theorem upd_oz_pins_keep {pts : List Part} (d : Dev) (x_oz : OzSt) (x_pins : Pins) (h_pins : pts.contains .pins = true) :
    ({ d with oz := x_oz, pins := x_pins } : Dev).without pts = d.without pts := by
  simp only [Dev.without, h_pins, if_true]
theorem upd_pins_tw_keep {pts : List Part} (d : Dev) (x_pins : Pins) (x_tw : TwinSt) (h_pins : pts.contains .pins = true) (h_tw :
    pts.contains .tw = true) :
    ({ d with pins := x_pins, tw := x_tw } : Dev).without pts = d.without pts := by
  simp only [Dev.without, h_pins, h_tw, if_true]
theorem upd_regs_fab_keep {pts : List Part} (d : Dev) (x_regs : Tab Word) (x_fab : FabSt) (h_fab : pts.contains .fab = true) :
    ({ d with regs := x_regs, fab := x_fab } : Dev).without pts = d.without pts := by
  simp only [Dev.without, h_fab, if_true]
theorem upd_regs_pipe_keep {pts : List Part} (d : Dev) (x_regs : Tab Word) (x_pipe : PipeSt) (h_pipe : pts.contains .pipe = true) :
    ({ d with regs := x_regs, pipe := x_pipe } : Dev).without pts = d.without pts := by
  simp only [Dev.without, h_pipe, if_true]
def VKeeps (pts : List Part) (d : Dev) : VRes Dev → Prop
  | .err .. => True
  | .turned e _ => e.without pts = d.without pts
  | .ok e _ _ _ => e.without pts = d.without pts
  | .job e _ _ => e.without pts = d.without pts
theorem vk_err {pts : List Part} (d : Dev) (a b c : Nat) : VKeeps pts d (.err a b c) = True := rfl
theorem vk_ite {pts : List Part} {d : Dev} {c : Prop} [Decidable c] (n a : Nat) {v : VRes Dev} (h : VKeeps pts d v) :
    VKeeps pts d (if c then .err n a else v) := by
  split
  · exact True.intro
  · exact h
theorem vk_turned {pts : List Part} (d e : Dev) (a : Nat) : VKeeps pts d (.turned e a) = (e.without pts = d.without pts) := rfl
theorem vk_ok {pts : List Part} (d e : Dev) (a : List Nat) (b : List Byte) (c : Nat) :
    VKeeps pts d (.ok e a b c) = (e.without pts = d.without pts) := rfl
theorem vk_job {pts : List Part} (d e : Dev) (a : Option Nat) (b : Nat) : VKeeps pts d (.job e a b) = (e.without pts = d.without pts) := rfl
theorem upd_regs_keep {pts : List Part} (d : Dev) (x : Tab Word) : ({ d with regs := x } : Dev).without pts = d.without pts := rfl
theorem upd_free_keep {pts : List Part} (d : Dev) (x : Nat) : ({ d with free := x } : Dev).without pts = d.without pts := rfl
theorem upd_up_keep {pts : List Part} (d : Dev) (x : Nat) : ({ d with up := x } : Dev).without pts = d.without pts := rfl
theorem upd_once_keep {pts : List Part} (d : Dev) (x : Tab Nat) : ({ d with once := x } : Dev).without pts = d.without pts := rfl
theorem upd_oz_keep {pts : List Part} (d : Dev) (x : OzSt) : ({ d with oz := x } : Dev).without pts = d.without pts := rfl
theorem upd_fab_keep {pts : List Part} (d : Dev) (x : FabSt) (h : pts.contains .fab = true) : ({ d with fab := x } :
    Dev).without pts = d.without pts := by
  simp only [Dev.without, h, if_true]
theorem upd_qf_keep {pts : List Part} (d : Dev) (x : QfSt) (h : pts.contains .qf = true) : ({ d with qf := x } :
    Dev).without pts = d.without pts := by
  simp only [Dev.without, h, if_true]
theorem upd_hbm_keep {pts : List Part} (d : Dev) (x : HbmSt) (h : pts.contains .hbm = true) : ({ d with hbm := x } :
    Dev).without pts = d.without pts := by
  simp only [Dev.without, h, if_true]
theorem upd_host_keep {pts : List Part} (d : Dev) (x : Tab (Tab Byte)) (h : pts.contains .host = true) : ({ d with host := x } :
    Dev).without pts = d.without pts := by
  simp only [Dev.without, h, if_true]
theorem upd_bank_keep {pts : List Part} (d : Dev) (x : BankSt) (h : pts.contains .bank = true) : ({ d with bank := x } :
    Dev).without pts = d.without pts := by
  simp only [Dev.without, h, if_true]
theorem upd_boot_keep {pts : List Part} (d : Dev) (x : BootSt) (h : pts.contains .boot = true) : ({ d with boot := x } :
    Dev).without pts = d.without pts := by
  simp only [Dev.without, h, if_true]
theorem upd_hl_keep {pts : List Part} (d : Dev) (x : HealthSt) (h : pts.contains .hl = true) : ({ d with hl := x } :
    Dev).without pts = d.without pts := by
  simp only [Dev.without, h, if_true]
theorem upd_pins_keep {pts : List Part} (d : Dev) (x : Pins) (h : pts.contains .pins = true) : ({ d with pins := x } :
    Dev).without pts = d.without pts := by
  simp only [Dev.without, h, if_true]
theorem upd_tm_keep {pts : List Part} (d : Dev) (x : TimeSt) (h : pts.contains .tm = true) : ({ d with tm := x } :
    Dev).without pts = d.without pts := by
  simp only [Dev.without, h, if_true]
theorem upd_tw_keep {pts : List Part} (d : Dev) (x : TwinSt) (h : pts.contains .tw = true) : ({ d with tw := x } :
    Dev).without pts = d.without pts := by
  simp only [Dev.without, h, if_true]
theorem upd_ch_keep {pts : List Part} (d : Dev) (x : ChainSt) (h : pts.contains .ch = true) : ({ d with ch := x } :
    Dev).without pts = d.without pts := by
  simp only [Dev.without, h, if_true]
theorem upd_ln_keep {pts : List Part} (d : Dev) (x : LnSt) (h : pts.contains .ln = true) : ({ d with ln := x } :
    Dev).without pts = d.without pts := by
  simp only [Dev.without, h, if_true]
theorem upd_ing_keep {pts : List Part} (d : Dev) (x : IngSt) (h : pts.contains .ing = true) : ({ d with ing := x } :
    Dev).without pts = d.without pts := by
  simp only [Dev.without, h, if_true]
theorem upd_integ_keep {pts : List Part} (d : Dev) (x : IntegSt) (h : pts.contains .integ = true) : ({ d with integ := x } :
    Dev).without pts = d.without pts := by
  simp only [Dev.without, h, if_true]
theorem upd_pipe_keep {pts : List Part} (d : Dev) (x : PipeSt) (h : pts.contains .pipe = true) : ({ d with pipe := x } :
    Dev).without pts = d.without pts := by
  simp only [Dev.without, h, if_true]
theorem upd_ps_keep {pts : List Part} (d : Dev) (x : PsSt) (h : pts.contains .ps = true) : ({ d with ps := x } :
    Dev).without pts = d.without pts := by
  simp only [Dev.without, h, if_true]
theorem upd_md_keep {pts : List Part} (d : Dev) (x : MediaSt) (h : pts.contains .md = true) : ({ d with md := x } :
    Dev).without pts = d.without pts := by
  simp only [Dev.without, h, if_true]
theorem upd_au_keep {pts : List Part} (d : Dev) (x : AudSt) (h : pts.contains .au = true) : ({ d with au := x } :
    Dev).without pts = d.without pts := by
  simp only [Dev.without, h, if_true]
theorem upd_sc_keep {pts : List Part} (d : Dev) (x : ScanSt) (h : pts.contains .sc = true) : ({ d with sc := x } :
    Dev).without pts = d.without pts := by
  simp only [Dev.without, h, if_true]

end Sys2Proof.Machine
end

