-- ==== Sys2Proof/Laws/FrameFabric.lean ====
section
/-! SUPPORT. Which parts of the device an operation may change: the fabric, queues, the bank, Ozder and the log. -/
namespace Sys2Proof.Machine
set_option linter.all false

theorem Dev.wr_keep {pts : List Part} (d : Dev) (r : Reg) (u k : Nat) (w : Word) : (Dev.wr d r u k w).without pts = d.without pts := by
  unfold Dev.wr
  simp only [upd_regs_keep]
theorem Dev.fs_keep {pts : List Part} (d : Dev) (f : Fld) (v : Nat) (u : Nat) (k : Nat) : (Dev.fs d f v u k).without pts = d.without pts := by
  unfold Dev.fs
  simp only [Dev.wr_keep]
theorem Dev.fadd_keep {pts : List Part} (d : Dev) (f : Fld) (n : Nat) (u : Nat) (k : Nat) : (Dev.fadd d f n u k).without pts = d.without pts := by
  unfold Dev.fadd
  simp only [Dev.fs_keep]
theorem Dev.add64_keep {pts : List Part} (d : Dev) (lo hi : Reg) (n : Nat) (u : Nat) (k : Nat) :
    (Dev.add64 d lo hi n u k).without pts = d.without pts := by
  unfold Dev.add64
  simp only [Dev.wr_keep]
theorem Dev.set64_keep {pts : List Part} (d : Dev) (lo hi : Reg) (v : Nat) (u : Nat) (k : Nat) :
    (Dev.set64 d lo hi v u k).without pts = d.without pts := by
  unfold Dev.set64
  simp only [Dev.wr_keep]
theorem Dev.useFree_keep {pts : List Part} (d : Dev) : (Dev.useFree d).without pts = d.without pts := by
  unfold Dev.useFree
  simp only [upd_free_keep]
theorem Dev.postErr_keep {pts : List Part} (d : Dev) (r : EvRec) : (Dev.postErr d r).without pts = d.without pts := by
  unfold Dev.postErr
  simp only [apply_ite (Dev.without · pts), ite_self, upd_oz_keep]
theorem Dev.raise_keep {pts : List Part} (d : Dev) (e : Ev) : (Dev.raise d e).without pts = d.without pts := by
  unfold Dev.raise
  simp only [Dev.fadd_keep, Dev.fs_keep, Dev.postErr_keep]
theorem Dev.raiseOnce_keep {pts : List Part} (d : Dev) (obj ns : Nat) (e : Ev) : (Dev.raiseOnce d obj ns e).without pts = d.without pts := by
  unfold Dev.raiseOnce
  repeat' (first
    | (with_reducible rfl)
    | (simp only [apply_ite (Dev.without · pts), ite_self, upd_once_keep, Dev.raise_keep]; done)
    | (intro _)
    | split
    | (with_reducible refine (foldl_keep _ _ _ ?_).trans ?_)
    | (simp only [foldl_keep, apply_ite (Dev.without · pts), ite_self, upd_once_keep, Dev.raise_keep]))
theorem Dev.c0Risk_keep {pts : List Part} (d : Dev) (cond obj : Nat) : (Dev.c0Risk d cond obj).without pts = d.without pts := by
  unfold Dev.c0Risk
  simp only [Dev.raise_keep]
theorem Dev.hbmW_keep {pts : List Part} (d : Dev) (a : Nat) (bs : List Byte) (h_hbm : pts.contains .hbm = true) :
    (Dev.hbmW d a bs).without pts = d.without pts := by
  unfold Dev.hbmW
  simp only [h_hbm, upd_hbm_keep]
theorem Dev.hostW_keep {pts : List Part} (d : Dev) (f a : Nat) (bs : List Byte) (h_host : pts.contains .host = true) :
    (Dev.hostW d f a bs).without pts = d.without pts := by
  unfold Dev.hostW
  simp only [h_host, upd_host_keep]
theorem Dev.setUst_keep {pts : List Part} (d : Dev) (u st reason : Nat) : (Dev.setUst d u st reason).without pts = d.without pts := by
  unfold Dev.setUst
  repeat' (first
    | (with_reducible rfl)
    | (simp only [apply_ite (Dev.without · pts), ite_self, Dev.fs_keep]; done)
    | (intro _)
    | split
    | (with_reducible refine (foldl_keep _ _ _ ?_).trans ?_)
    | (simp only [foldl_keep, apply_ite (Dev.without · pts), ite_self, Dev.fs_keep]))
theorem Dev.setQ_keep {pts : List Part} (d : Dev) (q : Nat) (r : Queue) (h_qf : pts.contains .qf = true) :
    (Dev.setQ d q r).without pts = d.without pts := by
  unfold Dev.setQ
  simp only [h_qf, upd_qf_keep]
theorem Dev.modQ_keep {pts : List Part} (d : Dev) (q : Nat) (f : Queue → Queue) (h_qf : pts.contains .qf = true) :
    (Dev.modQ d q f).without pts = d.without pts := by
  unfold Dev.modQ
  simp only [h_qf, upd_qf_keep]
theorem Dev.signal_keep {pts : List Part} (d : Dev) (q : Queue) (h_qf : pts.contains .qf = true) : (Dev.signal d q).without pts = d.without pts := by
  unfold Dev.signal
  simp only [apply_ite (Dev.without · pts), ite_self, h_qf, upd_qf_keep]
theorem Dev.ringW_keep {pts : List Part} (d : Dev) (q : Queue) (i : Nat) (e : Entry) (h_hbm : pts.contains .hbm = true) (h_host :
    pts.contains .host = true) : (Dev.ringW d q i e).without pts = d.without pts := by
  unfold Dev.ringW
  simp only [apply_ite (Dev.without · pts), ite_self, h_hbm, h_host, Dev.hostW_keep, Dev.hbmW_keep]
theorem Dev.enqueue_keep {pts : List Part} (d : Dev) (qid : Nat) (e : Entry) (h_qf : pts.contains .qf = true) (h_hbm : pts.contains .hbm = true)
    (h_host : pts.contains .host = true) : (Dev.enqueue d qid e).without pts = d.without pts := by
  unfold Dev.enqueue
  simp only [h_qf, h_hbm, h_host, Dev.signal_keep, Dev.setQ_keep, Dev.ringW_keep]
theorem Dev.postGone_keep {pts : List Part} (d : Dev) (qid : Nat) (e : Entry) : (Dev.postGone d qid e).without pts = d.without pts := by
  unfold Dev.postGone
  simp only [apply_ite (Dev.without · pts), ite_self, Dev.raiseOnce_keep]
theorem Dev.post_keep {pts : List Part} (d : Dev) (qid src : Nat) (e : Entry) (h_qf : pts.contains .qf = true) (h_hbm : pts.contains .hbm = true)
    (h_host : pts.contains .host = true) : (Dev.post d qid src e).without pts = d.without pts := by
  unfold Dev.post
  simp only [apply_ite (Dev.without · pts), ite_self, h_qf, h_hbm, h_host, upd_qf_keep, Dev.postGone_keep, Dev.modQ_keep, Dev.raise_keep,
      Dev.enqueue_keep]
theorem Dev.postEvent_keep {pts : List Part} (d : Dev) (qid : Nat) (r : EvRec) (h_qf : pts.contains .qf = true) (h_hbm : pts.contains .hbm = true)
    (h_host : pts.contains .host = true) : (Dev.postEvent d qid r).without pts = d.without pts := by
  unfold Dev.postEvent
  simp only [apply_ite (Dev.without · pts), ite_self, h_qf, h_hbm, h_host, Dev.modQ_keep, Dev.post_keep]
theorem Dev.syncTags_keep {pts : List Part} (d : Dev) : (Dev.syncTags d).without pts = d.without pts := by
  unfold Dev.syncTags
  simp only [Dev.fs_keep]
theorem Dev.closeTag_keep {pts : List Part} (d : Dev) (o : Op) (h_qf : pts.contains .qf = true) : (Dev.closeTag d o).without pts = d.without pts := by
  unfold Dev.closeTag
  simp only [h_qf, upd_qf_keep, Dev.syncTags_keep, Dev.modQ_keep]
theorem Dev.flushFifo_keep {pts : List Part} (d : Dev) (qid : Nat) (h_qf : pts.contains .qf = true) (h_hbm : pts.contains .hbm = true) (h_host :
    pts.contains .host = true) : (Dev.flushFifo d qid).without pts = d.without pts := by
  unfold Dev.flushFifo
  repeat' (first
    | (with_reducible rfl)
    | (simp only [h_qf, h_hbm, h_host, upd_qf_keep, Dev.post_keep]; done)
    | (intro _)
    | split
    | (with_reducible refine (foldl_keep _ _ _ ?_).trans ?_)
    | (simp only [Dev.without, h_qf, h_hbm, h_host, if_true]; done)
    | (simp only [foldl_keep, apply_ite (Dev.without · pts), ite_self, h_qf, h_hbm, h_host, upd_qf_keep, Dev.post_keep]))
theorem Dev.answer_keep {pts : List Part} (d : Dev) (qid src num : Nat) (e : Entry) (h_qf : pts.contains .qf = true) (h_hbm :
    pts.contains .hbm = true) (h_host : pts.contains .host = true) : (Dev.answer d qid src num e).without pts = d.without pts := by
  unfold Dev.answer
  simp only [apply_ite (Dev.without · pts), ite_self, h_qf, h_hbm, h_host, upd_qf_keep, Dev.flushFifo_keep, Dev.post_keep]
theorem Dev.endOp_keep {pts : List Part} (d : Dev) (tag status : Nat) (body : List Byte) (h_qf : pts.contains .qf = true) (h_hbm :
    pts.contains .hbm = true) (h_host : pts.contains .host = true) : (Dev.endOp d tag status body).without pts = d.without pts := by
  unfold Dev.endOp
  repeat' (first
    | (with_reducible rfl)
    | (simp only [apply_ite (Dev.without · pts), ite_self, h_qf, h_hbm, h_host, Dev.closeTag_keep, Dev.answer_keep, Dev.flushFifo_keep]; done)
    | (intro _)
    | split
    | (with_reducible refine (foldl_keep _ _ _ ?_).trans ?_)
    | (simp only [Dev.without, h_qf, h_hbm, h_host, if_true]; done)
    | (simp only [foldl_keep, apply_ite (Dev.without · pts), ite_self, h_qf, h_hbm, h_host, Dev.closeTag_keep, Dev.answer_keep, Dev.flushFifo_keep]))
theorem Dev.closeNoTag_keep {pts : List Part} (d : Dev) (qid : Nat) (e : Entry) (status num : Nat) (h_qf : pts.contains .qf = true) (h_hbm :
    pts.contains .hbm = true) (h_host : pts.contains .host = true) : (Dev.closeNoTag d qid e status num).without pts = d.without pts := by
  unfold Dev.closeNoTag
  simp only [h_qf, h_hbm, h_host, Dev.answer_keep]
theorem Dev.returnRole_keep {pts : List Part} (d : Dev) (qid : Nat) (e : Entry) (tag expected unit : Nat) (h_qf : pts.contains .qf = true) (h_hbm :
    pts.contains .hbm = true) (h_host : pts.contains .host = true) : (Dev.returnRole d qid e tag expected unit).without pts = d.without pts := by
  unfold Dev.returnRole
  simp only [h_qf, h_hbm, h_host, Dev.raise_keep, Dev.fadd_keep, Dev.post_keep]
theorem Dev.popHead_keep {pts : List Part} (d : Dev) (qid : Nat) (h_qf : pts.contains .qf = true) :
    (Dev.popHead d qid).without pts = d.without pts := by
  unfold Dev.popHead
  simp only [h_qf, Dev.modQ_keep]
theorem Dev.firstOp_keep {pts : List Part} (d : Dev) (u : Nat) : (Dev.firstOp d u).without pts = d.without pts := by
  unfold Dev.firstOp
  simp only [apply_ite (Dev.without · pts), ite_self, Dev.setUst_keep]
theorem Dev.dispatchFrom_keep {pts : List Part} (d : Dev) (qid : Nat) (h_qf : pts.contains .qf = true) (h_hbm : pts.contains .hbm = true) (h_host :
    pts.contains .host = true) : (Dev.dispatchFrom d qid).without pts = d.without pts := by
  unfold Dev.dispatchFrom
  repeat' (first
    | (with_reducible rfl)
    | (simp only [apply_ite (Dev.without · pts), ite_self, h_qf, h_hbm, h_host, upd_qf_keep, Dev.closeNoTag_keep, Dev.raiseOnce_keep,
        Dev.popHead_keep, Dev.c0Risk_keep, Dev.raise_keep, Dev.useFree_keep, Dev.returnRole_keep, Dev.firstOp_keep, Dev.syncTags_keep,
        Dev.modQ_keep]; done)
    | (intro _)
    | split
    | (with_reducible refine (foldl_keep _ _ _ ?_).trans ?_)
    | (simp only [Dev.without, h_qf, h_hbm, h_host, if_true]; done)
    | (simp only [foldl_keep, apply_ite (Dev.without · pts), ite_self, h_qf, h_hbm, h_host, upd_qf_keep, Dev.closeNoTag_keep, Dev.raiseOnce_keep,
        Dev.popHead_keep, Dev.c0Risk_keep, Dev.raise_keep, Dev.useFree_keep, Dev.returnRole_keep, Dev.firstOp_keep, Dev.syncTags_keep,
        Dev.modQ_keep]))
theorem Dev.touchCache_keep {pts : List Part} (d : Dev) (qid : Nat) (h_qf : pts.contains .qf = true) :
    (Dev.touchCache d qid).without pts = d.without pts := by
  unfold Dev.touchCache
  simp only [apply_ite (Dev.without · pts), ite_self, h_qf, upd_qf_keep, Dev.fs_keep]
theorem Dev.dispatch_keep {pts : List Part} (d : Dev) (h_qf : pts.contains .qf = true) (h_hbm : pts.contains .hbm = true) (h_host :
    pts.contains .host = true) : (Dev.dispatch d).without pts = d.without pts := by
  unfold Dev.dispatch
  repeat' (first
    | (with_reducible rfl)
    | (simp only [h_qf, h_hbm, h_host, upd_qf_keep, Dev.dispatchFrom_keep, Dev.touchCache_keep]; done)
    | (intro _)
    | split
    | (with_reducible refine (foldl_keep _ _ _ ?_).trans ?_)
    | (simp only [Dev.without, h_qf, h_hbm, h_host, if_true]; done)
    | (simp only [foldl_keep, apply_ite (Dev.without · pts), ite_self, h_qf, h_hbm, h_host, upd_qf_keep, Dev.dispatchFrom_keep, Dev.touchCache_keep]))
theorem Dev.closeWaiting_keep {pts : List Part} (d : Dev) (qid status : Nat) (h_qf : pts.contains .qf = true) (h_hbm : pts.contains .hbm = true)
    (h_host : pts.contains .host = true) : (Dev.closeWaiting d qid status).without pts = d.without pts := by
  unfold Dev.closeWaiting
  repeat' (first
    | (with_reducible rfl)
    | (simp only [apply_ite (Dev.without · pts), ite_self, h_qf, h_hbm, h_host, Dev.setQ_keep, Dev.closeNoTag_keep]; done)
    | (intro _)
    | split
    | (with_reducible refine (foldl_keep _ _ _ ?_).trans ?_)
    | (simp only [Dev.without, h_qf, h_hbm, h_host, if_true]; done)
    | (simp only [foldl_keep, apply_ite (Dev.without · pts), ite_self, h_qf, h_hbm, h_host, Dev.setQ_keep, Dev.closeNoTag_keep]))
theorem Dev.holdQueues_keep {pts : List Part} (d : Dev) (m : Nat) (h_qf : pts.contains .qf = true) (h_hbm : pts.contains .hbm = true) (h_host :
    pts.contains .host = true) : (Dev.holdQueues d m).without pts = d.without pts := by
  unfold Dev.holdQueues
  repeat' (first
    | (with_reducible rfl)
    | (simp only [h_qf, h_hbm, h_host, Dev.closeWaiting_keep, Dev.modQ_keep]; done)
    | (intro _)
    | split
    | (with_reducible refine (foldl_keep _ _ _ ?_).trans ?_)
    | (simp only [Dev.without, h_qf, h_hbm, h_host, if_true]; done)
    | (simp only [foldl_keep, apply_ite (Dev.without · pts), ite_self, h_qf, h_hbm, h_host, Dev.closeWaiting_keep, Dev.modQ_keep]))
theorem Dev.closeHeldOps_keep {pts : List Part} (d : Dev) (m : Nat) (h_qf : pts.contains .qf = true) (h_hbm : pts.contains .hbm = true) (h_host :
    pts.contains .host = true) : (Dev.closeHeldOps d m).without pts = d.without pts := by
  unfold Dev.closeHeldOps
  (try simp only [foldl_keep, apply_ite (Dev.without · pts), ite_self, h_qf, h_hbm, h_host, Dev.endOp_keep])
  repeat' (first
    | (with_reducible rfl)
    | (simp only [h_qf, h_hbm, h_host, Dev.endOp_keep]; done)
    | (intro _)
    | split
    | (with_reducible refine (foldl_keep _ _ _ ?_).trans ?_)
    | (simp only [Dev.without, h_qf, h_hbm, h_host, if_true]; done)
    | (simp only [foldl_keep, apply_ite (Dev.without · pts), ite_self, h_qf, h_hbm, h_host, Dev.endOp_keep]))
theorem Dev.beginReset_keep {pts : List Part} (d : Dev) (qid : Nat) (h_qf : pts.contains .qf = true) :
    (Dev.beginReset d qid).without pts = d.without pts := by
  unfold Dev.beginReset
  simp only [h_qf, Dev.modQ_keep]
theorem Dev.drainWaits_keep {pts : List Part} (d : Dev) (qid : Nat) (z0 : Nat) (h_qf : pts.contains .qf = true) (h_hbm : pts.contains .hbm = true)
    (h_host : pts.contains .host = true) : (Dev.drainWaits d qid z0).without pts = d.without pts := by
  induction z0 generalizing d with
  | zero => first | rfl | (unfold Dev.drainWaits; simp only [foldl_keep, apply_ite (Dev.without · pts), ite_self, h_qf, h_hbm, h_host, upd_qf_keep,
      Dev.enqueue_keep])
  | succ n ih =>
    unfold Dev.drainWaits
    (try simp only [apply_ite (Dev.without · pts)]); repeat' (first
      | (with_reducible rfl)
      | (simp only [h_qf, h_hbm, h_host, upd_qf_keep, Dev.enqueue_keep, ih]; done)
      | (intro _)
      | split
      | (with_reducible refine (foldl_keep _ _ _ ?_).trans ?_)
      | (simp only [foldl_keep, apply_ite (Dev.without · pts), ite_self, h_qf, h_hbm, h_host, upd_qf_keep, Dev.enqueue_keep, ih]))
theorem Dev.addHold_keep {pts : List Part} (d : Dev) (isUnit : Bool) (id cause info : Nat) (h_fab : pts.contains .fab = true) :
    (Dev.addHold d isUnit id cause info).without pts = d.without pts := by
  unfold Dev.addHold
  simp only [h_fab, upd_fab_keep]
theorem Dev.holdUnit_keep {pts : List Part} (d : Dev) (u : Nat) : (Dev.holdUnit d u).without pts = d.without pts := by
  unfold Dev.holdUnit
  simp only [apply_ite (Dev.without · pts), ite_self, Dev.setUst_keep]
theorem Dev.violate_keep {pts : List Part} (d : Dev) (m cause info : Nat) (h_fab : pts.contains .fab = true) (h_qf : pts.contains .qf = true)
    (h_hbm : pts.contains .hbm = true) (h_host : pts.contains .host = true) : (Dev.violate d m cause info).without pts = d.without pts := by
  unfold Dev.violate
  (try simp only [apply_ite (Dev.without · pts), Dev.raise_keep])
  repeat' (first
    | (with_reducible rfl)
    | (simp only [apply_ite (Dev.without · pts), ite_self, h_fab, h_qf, h_hbm, h_host, Dev.raise_keep, Dev.addHold_keep, Dev.holdQueues_keep,
        Dev.holdUnit_keep, Dev.c0Risk_keep]; done)
    | (intro _)
    | split
    | (with_reducible refine (foldl_keep _ _ _ ?_).trans ?_)
    | (simp only [Dev.without, h_fab, h_qf, h_hbm, h_host, if_true]; done)
    | (simp only [foldl_keep, apply_ite (Dev.without · pts), ite_self, h_fab, h_qf, h_hbm, h_host, Dev.raise_keep, Dev.addHold_keep,
        Dev.holdQueues_keep, Dev.holdUnit_keep, Dev.c0Risk_keep]))
theorem Dev.refuse_keep {pts : List Part} (d : Dev) (m : Nat) (h_fab : pts.contains .fab = true) : (Dev.refuse d m).without pts = d.without pts := by
  unfold Dev.refuse
  simp only [h_fab, upd_fab_keep]
theorem Dev.unlessHeld_keep {pts : List Part} (d : Dev) (m : Nat) (f : Dev → Dev) (h_fab : pts.contains .fab = true) (hf : ∀ (y0 : Dev),
    (f y0).without pts = y0.without pts) : (Dev.unlessHeld d m f).without pts = d.without pts := by
  unfold Dev.unlessHeld
  simp only [apply_ite (Dev.without · pts), ite_self, h_fab, hf, Dev.refuse_keep]
theorem Dev.accErr_keep {pts : List Part} (d : Dev) (kind m addr : Nat) : (Dev.accErr d kind m addr).without pts = d.without pts := by
  unfold Dev.accErr
  simp only [Dev.fs_keep, Dev.fadd_keep]
theorem Dev.unmapped_keep {pts : List Part} (d : Dev) (m addr : Nat) : (Dev.unmapped d m addr).without pts = d.without pts := by
  unfold Dev.unmapped
  simp only [Dev.raise_keep, Dev.accErr_keep]
theorem Dev.lockViol_keep {pts : List Part} (d : Dev) (m : Nat) (r : Reg) (u k : Nat) (h_fab : pts.contains .fab = true) (h_qf :
    pts.contains .qf = true) (h_hbm : pts.contains .hbm = true) (h_host : pts.contains .host = true) :
    (Dev.lockViol d m r u k).without pts = d.without pts := by
  unfold Dev.lockViol
  simp only [apply_ite (Dev.without · pts), ite_self, h_fab, h_qf, h_hbm, h_host, Dev.raise_keep, Dev.violate_keep]
theorem Dev.wooViol_keep {pts : List Part} (d : Dev) (m : Nat) (r : Reg) (u k : Nat) (h_fab : pts.contains .fab = true) (h_qf :
    pts.contains .qf = true) (h_hbm : pts.contains .hbm = true) (h_host : pts.contains .host = true) :
    (Dev.wooViol d m r u k).without pts = d.without pts := by
  unfold Dev.wooViol
  simp only [apply_ite (Dev.without · pts), ite_self, h_fab, h_qf, h_hbm, h_host, Dev.raise_keep, Dev.violate_keep]
theorem Dev.gated_keep {pts : List Part} (d : Dev) (m : Nat) (r : Reg) (u k : Nat) (v : Word) (eff : Dev → Dev) (h_fab : pts.contains .fab = true)
    (h_qf : pts.contains .qf = true) (h_hbm : pts.contains .hbm = true) (h_host : pts.contains .host = true) (heff : ∀ (y0 : Dev),
    (eff y0).without pts = y0.without pts) : (Dev.gated d m r u k v eff).without pts = d.without pts := by
  unfold Dev.gated
  (try simp only [foldl_keep, apply_ite (Dev.without · pts), ite_self, h_fab, h_qf, h_hbm, h_host, heff, Dev.unlessHeld_keep, Dev.violate_keep,
      Dev.lockViol_keep, Dev.wooViol_keep])
  repeat' (first
    | (with_reducible rfl)
    | (simp only [apply_ite (Dev.without · pts), ite_self, h_fab, h_qf, h_hbm, h_host, heff, Dev.violate_keep, Dev.lockViol_keep,
        Dev.wooViol_keep]; done)
    | (intro _)
    | split
    | (with_reducible refine (foldl_keep _ _ _ ?_).trans ?_)
    | (simp only [Dev.without, h_fab, h_qf, h_hbm, h_host, if_true]; done)
    | (apply heff)
    | (with_reducible refine (Dev.unlessHeld_keep _ _ _ h_fab ?_).trans ?_)
    | (simp only [foldl_keep, apply_ite (Dev.without · pts), ite_self, h_fab, h_qf, h_hbm, h_host, heff, Dev.unlessHeld_keep, Dev.violate_keep,
        Dev.lockViol_keep, Dev.wooViol_keep]))
theorem Dev.cfgWritten_keep {pts : List Part} (d : Dev) (r : Reg) (u k : Nat) (h_fab : pts.contains .fab = true) :
    (Dev.cfgWritten d r u k).without pts = d.without pts := by
  unfold Dev.cfgWritten
  simp only [apply_ite (Dev.without · pts), ite_self, h_fab, upd_fab_keep]
theorem Dev.putFields_keep {pts : List Part} (d : Dev) (r : Reg) (u k : Nat) (v : Word) (h_fab : pts.contains .fab = true) :
    (Dev.putFields d r u k v).without pts = d.without pts := by
  unfold Dev.putFields
  simp only [h_fab, upd_fab_keep, Dev.wr_keep, Dev.cfgWritten_keep]
theorem Dev.readReg_keep {pts : List Part} (d : Dev) (m : Nat) (r : Reg) (val : Dev → Word) (eff : Dev → Dev) (h_fab :
    pts.contains .fab = true) (heff : ∀ (y0 : Dev), (eff y0).without pts = y0.without pts) :
    (Dev.readReg d m r val eff).without pts = d.without pts := by
  unfold Dev.readReg
  simp only [apply_ite (Dev.without · pts), ite_self, h_fab, heff, upd_fab_keep]
theorem Dev.readClear_keep {pts : List Part} (d : Dev) (m : Nat) (r : Reg) (u k : Nat) (fs : List Fld) (h_fab : pts.contains .fab = true) :
    (Dev.readClear d m r u k fs).without pts = d.without pts := by
  unfold Dev.readClear
  (try simp only [foldl_keep, apply_ite (Dev.without · pts), ite_self, h_fab, Dev.readReg_keep, Dev.fs_keep])
  repeat' (first
    | (with_reducible rfl)
    | (simp only [Dev.fs_keep]; done)
    | (intro _)
    | split
    | (with_reducible refine (foldl_keep _ _ _ ?_).trans ?_)
    | (simp only [Dev.without, h_fab, if_true]; done)
    | (with_reducible refine (Dev.readReg_keep _ _ _ _ _ h_fab ?_).trans ?_)
    | (simp only [foldl_keep, apply_ite (Dev.without · pts), ite_self, h_fab, Dev.readReg_keep, Dev.fs_keep]))
theorem Dev.syncEff_keep {pts : List Part} (d : Dev) : (Dev.syncEff d).without pts = d.without pts := by
  unfold Dev.syncEff
  simp only [Dev.fs_keep]
theorem Dev.syncPending_keep {pts : List Part} (d : Dev) : (Dev.syncPending d).without pts = d.without pts := by
  unfold Dev.syncPending
  simp only [Dev.fs_keep]
theorem Dev.syncBank_keep {pts : List Part} (d : Dev) : (Dev.syncBank d).without pts = d.without pts := by
  unfold Dev.syncBank
  (try simp only [apply_ite (Dev.without · pts), ite_self, Dev.fs_keep, Dev.syncPending_keep, Dev.raise_keep])
  repeat' (first
    | (with_reducible rfl)
    | (simp only [Dev.fs_keep]; done)
    | (intro _)
    | split
    | (with_reducible refine (foldl_keep _ _ _ ?_).trans ?_)
    | (simp only [foldl_keep, apply_ite (Dev.without · pts), ite_self, Dev.fs_keep, Dev.syncPending_keep, Dev.raise_keep]))
theorem Dev.ask_keep {pts : List Part} (d : Dev) (u : Nat) (k : ReqKind) (cls : Nat) (h_bank : pts.contains .bank = true) :
    (Dev.ask d u k cls).without pts = d.without pts := by
  unfold Dev.ask
  simp only [apply_ite (Dev.without · pts), ite_self, h_bank, upd_bank_keep, Dev.syncPending_keep, Dev.fs_keep]
theorem Dev.comeDown_keep {pts : List Part} (d : Dev) (u base : Nat) (h_bank : pts.contains .bank = true) :
    (Dev.comeDown d u base).without pts = d.without pts := by
  unfold Dev.comeDown
  simp only [h_bank, upd_bank_keep]
theorem Dev.withdraw_keep {pts : List Part} (d : Dev) (u : Nat) (h_bank : pts.contains .bank = true) :
    (Dev.withdraw d u).without pts = d.without pts := by
  unfold Dev.withdraw
  simp only [h_bank, upd_bank_keep, Dev.syncPending_keep, Dev.fs_keep]
theorem Dev.syncRequest_keep {pts : List Part} (d : Dev) (u : Nat) : (Dev.syncRequest d u).without pts = d.without pts := by
  unfold Dev.syncRequest
  simp only [Dev.fs_keep]
theorem Dev.recovered_keep {pts : List Part} (d : Dev) (u : Nat) : (Dev.recovered d u).without pts = d.without pts := by
  unfold Dev.recovered
  simp only [upd_oz_keep]
theorem Dev.toUnusable_keep {pts : List Part} (d : Dev) (u reason : Nat) : (Dev.toUnusable d u reason).without pts = d.without pts := by
  unfold Dev.toUnusable
  simp only [Dev.recovered_keep, Dev.setUst_keep]
theorem Dev.toReady_keep {pts : List Part} (d : Dev) (u reason : Nat) : (Dev.toReady d u reason).without pts = d.without pts := by
  unfold Dev.toReady
  simp only [Dev.recovered_keep, Dev.setUst_keep]
theorem Dev.loseUnit_keep {pts : List Part} (d : Dev) (u : Nat) (h_fab : pts.contains .fab = true) (h_bank : pts.contains .bank = true) :
    (Dev.loseUnit d u).without pts = d.without pts := by
  unfold Dev.loseUnit
  simp only [Dev.fs_keep]
  simp only [Dev.without, h_fab, h_bank, if_true]
theorem Dev.domainCheck_keep {pts : List Part} (d : Dev) (u : Nat) (h_fab : pts.contains .fab = true) (h_bank : pts.contains .bank = true) :
    (Dev.domainCheck d u).without pts = d.without pts := by
  unfold Dev.domainCheck
  repeat' (first
    | (with_reducible rfl)
    | (simp only [apply_ite (Dev.without · pts), h_fab, h_bank, upd_bank_keep, Dev.fs_keep, Dev.loseUnit_keep]; done)
    | (intro _)
    | split
    | (with_reducible refine (foldl_keep _ _ _ ?_).trans ?_)
    | (simp only [Dev.without, h_fab, h_bank, if_true]; done)
    | (simp only [foldl_keep, apply_ite (Dev.without · pts), ite_self, h_fab, h_bank, upd_bank_keep, Dev.fs_keep, Dev.loseUnit_keep]))
theorem Dev.refuseCmd_keep {pts : List Part} (d : Dev) (u : Nat) : (Dev.refuseCmd d u).without pts = d.without pts := by
  unfold Dev.refuseCmd
  simp only [Dev.raise_keep]
theorem Dev.cmd1_keep {pts : List Part} (d : Dev) (cmd u : Nat) (h_fab : pts.contains .fab = true) (h_bank : pts.contains .bank = true) :
    (Dev.cmd1 d cmd u).without pts = d.without pts := by
  unfold Dev.cmd1
  simp only [apply_ite (Dev.without · pts), ite_self, h_fab, h_bank, Dev.refuseCmd_keep, Dev.ask_keep, Dev.setUst_keep, Dev.comeDown_keep,
      Dev.withdraw_keep, Dev.domainCheck_keep]
theorem Dev.cmdN_keep {pts : List Part} (cmd : Nat) (z0 : Nat) (z1 : Dev) (z2 : Nat) (h_fab : pts.contains .fab = true) (h_bank :
    pts.contains .bank = true) : (Dev.cmdN cmd z0 z1 z2).without pts = z1.without pts := by
  induction z0 generalizing z1 z2 with
  | zero => first | rfl | (unfold Dev.cmdN; simp only [h_fab, h_bank, Dev.cmd1_keep])
  | succ n ih =>
    unfold Dev.cmdN
    (try simp only [apply_ite (Dev.without · pts), ite_self, h_fab, h_bank, Dev.cmd1_keep]); repeat' (first
      | (with_reducible rfl)
      | (simp only [apply_ite (Dev.without · pts), ite_self, ih]; done)
      | (intro _)
      | split
      | (with_reducible refine (foldl_keep _ _ _ ?_).trans ?_)
      | (simp only [foldl_keep, apply_ite (Dev.without · pts), ite_self, h_fab, h_bank, Dev.cmd1_keep, ih]))
theorem Dev.ucbCmd_keep {pts : List Part} (d : Dev) (cmd u : Nat) (h_fab : pts.contains .fab = true) (h_bank : pts.contains .bank = true) :
    (Dev.ucbCmd d cmd u).without pts = d.without pts := by
  unfold Dev.ucbCmd
  simp only [h_fab, h_bank, Dev.cmdN_keep]
theorem Dev.ucbCmdBy_keep {pts : List Part} (d : Dev) (m u cmd : Nat) (h_fab : pts.contains .fab = true) (h_qf : pts.contains .qf = true) (h_hbm :
    pts.contains .hbm = true) (h_host : pts.contains .host = true) (h_bank : pts.contains .bank = true) :
    (Dev.ucbCmdBy d m u cmd).without pts = d.without pts := by
  unfold Dev.ucbCmdBy
  (try simp only [foldl_keep, apply_ite (Dev.without · pts), ite_self, h_fab, h_qf, h_hbm, h_host, h_bank, Dev.unlessHeld_keep, Dev.unmapped_keep,
      Dev.gated_keep, Dev.ucbCmd_keep])
  repeat' (first
    | (with_reducible rfl)
    | (simp only [h_fab, h_bank, Dev.unmapped_keep, Dev.ucbCmd_keep]; done)
    | (intro _)
    | split
    | (with_reducible refine (foldl_keep _ _ _ ?_).trans ?_)
    | (simp only [Dev.without, h_fab, h_qf, h_hbm, h_host, h_bank, if_true]; done)
    | (with_reducible refine (Dev.gated_keep _ _ _ _ _ _ _ h_fab h_qf h_hbm h_host ?_).trans ?_)
    | (with_reducible refine (Dev.unlessHeld_keep _ _ _ h_fab ?_).trans ?_)
    | (simp only [foldl_keep, apply_ite (Dev.without · pts), ite_self, h_fab, h_qf, h_hbm, h_host, h_bank, Dev.unlessHeld_keep, Dev.unmapped_keep,
        Dev.gated_keep, Dev.ucbCmd_keep]))
theorem Dev.askWork_keep {pts : List Part} (d : Dev) (u : Nat) (h_bank : pts.contains .bank = true) :
    (Dev.askWork d u).without pts = d.without pts := by
  unfold Dev.askWork
  simp only [h_bank, Dev.ask_keep]
theorem Dev.leaveWaking_keep {pts : List Part} (d : Dev) (u : Nat) : (Dev.leaveWaking d u).without pts = d.without pts := by
  unfold Dev.leaveWaking
  simp only [apply_ite (Dev.without · pts), ite_self, Dev.fs_keep, Dev.toReady_keep, Dev.raise_keep, Dev.setUst_keep]
theorem Dev.powerGood_keep {pts : List Part} (d : Dev) (n : Nat) (h_bank : pts.contains .bank = true) :
    (Dev.powerGood d n).without pts = d.without pts := by
  unfold Dev.powerGood
  (try simp only [apply_ite (Dev.without · pts)])
  repeat' (first
    | (with_reducible rfl)
    | (simp only [apply_ite (Dev.without · pts), ite_self, h_bank, upd_bank_keep, Dev.askWork_keep]; done)
    | (intro _)
    | split
    | (with_reducible refine (foldl_keep _ _ _ ?_).trans ?_)
    | (simp only [Dev.without, h_bank, if_true]; done)
    | (simp only [foldl_keep, apply_ite (Dev.without · pts), ite_self, h_bank, upd_bank_keep, Dev.askWork_keep]))
theorem Dev.reloadDone_keep {pts : List Part} (d : Dev) (u : Nat) (good : Bool) (h_fab : pts.contains .fab = true) (h_bank : pts.contains .bank =
    true) : (Dev.reloadDone d u good).without pts = d.without pts := by
  unfold Dev.reloadDone
  simp only [apply_ite (Dev.without · pts), ite_self, h_fab, h_bank, upd_fab_bank_keep, Dev.fadd_keep, Dev.fs_keep, Dev.toReady_keep,
    Dev.raise_keep, Dev.toUnusable_keep, upd_bank_keep, upd_fab_keep, Dev.comeDown_keep]
theorem Dev.drained_keep {pts : List Part} (d : Dev) (u : Nat) (h_bank : pts.contains .bank = true) :
    (Dev.drained d u).without pts = d.without pts := by
  unfold Dev.drained
  simp only [apply_ite (Dev.without · pts), ite_self, h_bank, upd_bank_keep, Dev.toReady_keep, Dev.setUst_keep]
theorem Dev.askTest_keep {pts : List Part} (d : Dev) (u job : Nat) (roll : Bool) (h_bank : pts.contains .bank = true) (h_hl :
    pts.contains .hl = true) : (Dev.askTest d u job roll).without pts = d.without pts := by
  unfold Dev.askTest
  simp only [h_bank, h_hl, upd_hl_keep, Dev.ask_keep]
theorem Dev.testDrained_keep {pts : List Part} (d : Dev) (u : Nat) (roll : Bool) (h_bank : pts.contains .bank = true) (h_hl :
    pts.contains .hl = true) : (Dev.testDrained d u roll).without pts = d.without pts := by
  unfold Dev.testDrained
  simp only [apply_ite (Dev.without · pts), ite_self, h_bank, h_hl, upd_hl_keep, Dev.setUst_keep, Dev.askTest_keep]
theorem Dev.testReady_keep {pts : List Part} (d : Dev) (u : Nat) (h_bank : pts.contains .bank = true) (h_hl : pts.contains .hl = true) :
    (Dev.testReady d u).without pts = d.without pts := by
  unfold Dev.testReady
  repeat' (first
    | (with_reducible rfl)
    | (simp only [apply_ite (Dev.without · pts), ite_self, h_bank, h_hl, upd_hl_keep, Dev.askTest_keep]; done)
    | (intro _)
    | split
    | (with_reducible refine (foldl_keep _ _ _ ?_).trans ?_)
    | (simp only [Dev.without, h_bank, h_hl, if_true]; done)
    | (simp only [foldl_keep, apply_ite (Dev.without · pts), ite_self, h_bank, h_hl, upd_hl_keep, Dev.askTest_keep]))
theorem Dev.domainLost_keep {pts : List Part} (d : Dev) (n : Nat) (h_fab : pts.contains .fab = true) (h_bank : pts.contains .bank = true) :
    (Dev.domainLost d n).without pts = d.without pts := by
  unfold Dev.domainLost
  repeat' (first
    | (with_reducible rfl)
    | (simp only [h_fab, h_bank, upd_bank_keep, Dev.raise_keep, Dev.fs_keep, Dev.setUst_keep, Dev.withdraw_keep, Dev.loseUnit_keep]; done)
    | (intro _)
    | split
    | (with_reducible refine (foldl_keep _ _ _ ?_).trans ?_)
    | (simp only [Dev.without, h_fab, h_bank, if_true]; done)
    | (simp only [h_bank, upd_bank_keep, Dev.fs_keep]))
theorem Dev.paceWindow_keep {pts : List Part} (d : Dev) (u n : Nat) : (Dev.paceWindow d u n).without pts = d.without pts := by
  unfold Dev.paceWindow
  simp only [apply_ite (Dev.without · pts), ite_self, Dev.fs_keep, Dev.fadd_keep]
theorem Dev.bandSwitch_keep {pts : List Part} (d : Dev) (g b : Nat) (h_bank : pts.contains .bank = true) :
    (Dev.bandSwitch d g b).without pts = d.without pts := by
  unfold Dev.bandSwitch
  (try simp only [h_bank, upd_bank_keep, Dev.raise_keep])
  repeat' (first
    | (with_reducible rfl)
    | (simp only [Dev.fs_keep]; done)
    | (intro _)
    | split
    | (with_reducible refine (foldl_keep _ _ _ ?_).trans ?_)
    | (simp only [Dev.without, h_bank, if_true]; done)
    | (simp only [foldl_keep, apply_ite (Dev.without · pts), ite_self, h_bank, upd_bank_keep, Dev.fs_keep, Dev.raise_keep]))
theorem Dev.bandSample_keep {pts : List Part} (d : Dev) (g : Nat) (t : Int) (h_bank : pts.contains .bank = true) :
    (Dev.bandSample d g t).without pts = d.without pts := by
  unfold Dev.bandSample
  (try simp only [apply_ite (Dev.without · pts)])
  repeat' (first
    | (with_reducible rfl)
    | (simp only [apply_ite (Dev.without · pts), ite_self, h_bank, upd_bank_keep, Dev.bandSwitch_keep]; done)
    | (intro _)
    | split
    | (with_reducible refine (foldl_keep _ _ _ ?_).trans ?_)
    | (simp only [Dev.without, h_bank, if_true]; done)
    | (simp only [foldl_keep, apply_ite (Dev.without · pts), ite_self, h_bank, upd_bank_keep, Dev.bandSwitch_keep]))
theorem Dev.readPaceMin_keep {pts : List Part} (d : Dev) (m u : Nat) (h_fab : pts.contains .fab = true) :
    (Dev.readPaceMin d m u).without pts = d.without pts := by
  unfold Dev.readPaceMin
  (try simp only [foldl_keep, apply_ite (Dev.without · pts), ite_self, h_fab, Dev.readReg_keep, Dev.fs_keep])
  repeat' (first
    | (with_reducible rfl)
    | (simp only [Dev.fs_keep]; done)
    | (intro _)
    | split
    | (with_reducible refine (foldl_keep _ _ _ ?_).trans ?_)
    | (simp only [Dev.without, h_fab, if_true]; done)
    | (with_reducible refine (Dev.readReg_keep _ _ _ _ _ h_fab ?_).trans ?_)
    | (simp only [foldl_keep, apply_ite (Dev.without · pts), ite_self, h_fab, Dev.readReg_keep, Dev.fs_keep]))
theorem Dev.applyLevel_keep {pts : List Part} (d : Dev) (u n : Nat) (h_bank : pts.contains .bank = true) :
    (Dev.applyLevel d u n).without pts = d.without pts := by
  unfold Dev.applyLevel
  simp only [apply_ite (Dev.without · pts), ite_self, h_bank, Dev.syncRequest_keep, Dev.fs_keep, Dev.comeDown_keep, Dev.ask_keep]
theorem Dev.setLevel_keep {pts : List Part} (d : Dev) (u n : Nat) (h_bank : pts.contains .bank = true) :
    (Dev.setLevel d u n).without pts = d.without pts := by
  unfold Dev.setLevel
  simp only [apply_ite (Dev.without · pts), ite_self, h_bank, upd_bank_keep, Dev.applyLevel_keep]
theorem Dev.heldOpsClosed_keep {pts : List Part} (d : Dev) (isUnit : Bool) (id : Nat) (h_qf : pts.contains .qf = true) (h_hbm :
    pts.contains .hbm = true) (h_host : pts.contains .host = true) : (Dev.heldOpsClosed d isUnit id).without pts = d.without pts := by
  unfold Dev.heldOpsClosed
  (try simp only [foldl_keep, apply_ite (Dev.without · pts), ite_self, h_qf, h_hbm, h_host, Dev.endOp_keep, Dev.closeHeldOps_keep])
  repeat' (first
    | (with_reducible rfl)
    | (simp only [apply_ite (Dev.without · pts), h_qf, h_hbm, h_host, Dev.endOp_keep, Dev.closeHeldOps_keep]; done)
    | (intro _)
    | split
    | (with_reducible refine (foldl_keep _ _ _ ?_).trans ?_)
    | (simp only [Dev.without, h_qf, h_hbm, h_host, if_true]; done)
    | (simp only [foldl_keep, apply_ite (Dev.without · pts), ite_self, h_qf, h_hbm, h_host, Dev.endOp_keep, Dev.closeHeldOps_keep]))
theorem Dev.endHold_keep {pts : List Part} (d : Dev) (isUnit : Bool) (id : Nat) (h_fab : pts.contains .fab = true) :
    (Dev.endHold d isUnit id).without pts = d.without pts := by
  unfold Dev.endHold
  (try simp only [Dev.raise_keep])
  repeat' (first
    | (with_reducible rfl)
    | (simp only [apply_ite (Dev.without · pts), ite_self, h_fab, upd_fab_keep, Dev.setUst_keep, Dev.fs_keep]; done)
    | (intro _)
    | split
    | (with_reducible refine (foldl_keep _ _ _ ?_).trans ?_)
    | (simp only [Dev.without, h_fab, if_true]; done)
    | (simp only [foldl_keep, apply_ite (Dev.without · pts), ite_self, h_fab, upd_fab_keep, Dev.setUst_keep, Dev.fs_keep, Dev.raise_keep]))
theorem Dev.releaseHold_keep {pts : List Part} (d : Dev) (isUnit : Bool) (id seq : Nat) (h_fab : pts.contains .fab = true) :
    (Dev.releaseHold d isUnit id seq).without pts = d.without pts := by
  unfold Dev.releaseHold
  (try simp only [foldl_keep, apply_ite (Dev.without · pts), ite_self, h_fab, Dev.raise_keep, Dev.fs_keep, Dev.endHold_keep])
  repeat' (first
    | (with_reducible rfl)
    | (simp only [apply_ite (Dev.without · pts), ite_self, h_fab, Dev.raise_keep, Dev.fs_keep, Dev.endHold_keep]; done)
    | (intro _)
    | split
    | (with_reducible refine (foldl_keep _ _ _ ?_).trans ?_)
    | (simp only [Dev.without, h_fab, if_true]; done)
    | (simp only [foldl_keep, apply_ite (Dev.without · pts), ite_self, h_fab, Dev.raise_keep, Dev.fs_keep, Dev.endHold_keep]))
theorem Dev.effHoldRelease_keep {pts : List Part} (d : Dev) (v : Word) (h_fab : pts.contains .fab = true) :
    (Dev.effHoldRelease d v).without pts = d.without pts := by
  unfold Dev.effHoldRelease
  simp only [h_fab, Dev.releaseHold_keep]
theorem Dev.readHoldScan_keep {pts : List Part} (d : Dev) (h_fab : pts.contains .fab = true) : (Dev.readHoldScan d).without pts = d.without pts := by
  unfold Dev.readHoldScan
  split
  · extract_lets d1 d2
    exact (upd_fab_keep d2 _ h_fab).trans (by simp only [d2, d1, Dev.fs_keep])
  · extract_lets d1 d2
    exact (upd_fab_keep d2 _ h_fab).trans (by simp only [d2, d1, Dev.fs_keep])
theorem Dev.syncLocked_keep {pts : List Part} (d : Dev) : (Dev.syncLocked d).without pts = d.without pts := by
  unfold Dev.syncLocked
  simp only [Dev.fs_keep]
theorem Dev.effLockCtl_keep {pts : List Part} (d : Dev) (v : Word) (h_fab : pts.contains .fab = true) :
    (Dev.effLockCtl d v).without pts = d.without pts := by
  unfold Dev.effLockCtl
  simp only [apply_ite (Dev.without · pts), ite_self, h_fab, upd_fab_keep, Dev.putFields_keep, Dev.syncLocked_keep]
theorem Dev.effPrivVf_keep {pts : List Part} (d : Dev) (m : Nat) (hi : Bool) (v : Word) (h_fab : pts.contains .fab = true) :
    (Dev.effPrivVf d m hi v).without pts = d.without pts := by
  unfold Dev.effPrivVf
  simp only [apply_ite (Dev.without · pts), ite_self, h_fab, Dev.putFields_keep, Dev.raise_keep]
theorem Dev.readLow64_keep {pts : List Part} (d : Dev) (m addr : Nat) (h_fab : pts.contains .fab = true) :
    (Dev.readLow64 d m addr).without pts = d.without pts := by
  unfold Dev.readLow64
  repeat' (first
    | (with_reducible rfl)
    | (simp only [h_fab, upd_fab_keep]; done)
    | (intro _)
    | split
    | (with_reducible refine (foldl_keep _ _ _ ?_).trans ?_)
    | (simp only [Dev.without, h_fab, if_true]; done)
    | (simp only [foldl_keep, apply_ite (Dev.without · pts), ite_self, h_fab, upd_fab_keep]))
theorem Dev.parLog_keep {pts : List Part} (d : Dev) (u off : Nat) : (Dev.parLog d u off).without pts = d.without pts := by
  unfold Dev.parLog
  simp only [Dev.fs_keep, Dev.fadd_keep]
theorem Dev.badParity_keep {pts : List Part} (d : Dev) (off : Nat) (w : Word) (h_fab : pts.contains .fab = true) :
    (Dev.badParity d off w).without pts = d.without pts := by
  unfold Dev.badParity
  repeat' (first
    | (with_reducible rfl)
    | (simp only [apply_ite (Dev.without · pts), ite_self, h_fab, upd_fab_keep, Dev.wr_keep, Dev.raise_keep, Dev.parLog_keep]; done)
    | (intro _)
    | split
    | (with_reducible refine (foldl_keep _ _ _ ?_).trans ?_)
    | (simp only [Dev.without, h_fab, if_true]; done)
    | (simp only [foldl_keep, apply_ite (Dev.without · pts), ite_self, h_fab, upd_fab_keep, Dev.wr_keep, Dev.raise_keep, Dev.parLog_keep]))
theorem Dev.badSlot_keep {pts : List Part} (d : Dev) (u : Nat) (h_bank : pts.contains .bank = true) :
    (Dev.badSlot d u).without pts = d.without pts := by
  unfold Dev.badSlot
  simp only [apply_ite (Dev.without · pts), ite_self, h_bank, upd_bank_keep, Dev.raise_keep]
theorem Dev.scrub_keep {pts : List Part} (d : Dev) (bad : List (Nat × Word)) (slots : List Nat) (h_fab : pts.contains .fab = true) (h_bank :
    pts.contains .bank = true) : (Dev.scrub d bad slots).without pts = d.without pts := by
  unfold Dev.scrub
  (try simp only [apply_ite (Dev.without · pts)])
  repeat' (first
    | (with_reducible rfl)
    | (simp only [h_fab, h_bank, Dev.badSlot_keep, Dev.badParity_keep]; done)
    | (intro _)
    | split
    | (with_reducible refine (foldl_keep _ _ _ ?_).trans ?_)
    | (simp only [Dev.without, h_fab, h_bank, if_true]; done)
    | (simp only [foldl_keep, apply_ite (Dev.without · pts), ite_self, h_fab, h_bank, Dev.badSlot_keep, Dev.badParity_keep]))
theorem Dev.rewriteGlobal_keep {pts : List Part} (d : Dev) (off : Nat) (h_fab : pts.contains .fab = true) :
    (Dev.rewriteGlobal d off).without pts = d.without pts := by
  unfold Dev.rewriteGlobal
  repeat' (first
    | (with_reducible rfl)
    | (simp only [apply_ite (Dev.without · pts), ite_self, h_fab, upd_fab_keep, Dev.wr_keep]; done)
    | (intro _)
    | split
    | (with_reducible refine (foldl_keep _ _ _ ?_).trans ?_)
    | (simp only [Dev.without, h_fab, if_true]; done)
    | (simp only [foldl_keep, apply_ite (Dev.without · pts), ite_self, h_fab, upd_fab_keep, Dev.wr_keep]))
theorem Dev.parityReaction_keep {pts : List Part} (d : Dev) (u : Nat) (h_fab : pts.contains .fab = true) (h_bank : pts.contains .bank = true) :
    (Dev.parityReaction d u).without pts = d.without pts := by
  unfold Dev.parityReaction
  simp only [apply_ite (Dev.without · pts), ite_self, h_fab, h_bank, Dev.cmd1_keep]
theorem Dev.dbSize_keep {pts : List Part} (d : Dev) (m qid : Nat) : (Dev.dbSize d m qid).without pts = d.without pts := by
  unfold Dev.dbSize
  simp only [Dev.raise_keep]
theorem Dev.submit_keep {pts : List Part} (d : Dev) (m qid : Nat) (f : Dev → Dev) (h_fab : pts.contains .fab = true) (h_qf :
    pts.contains .qf = true) (h_hbm : pts.contains .hbm = true) (h_host : pts.contains .host = true) (hf : ∀ (y0 : Dev),
    (f y0).without pts = y0.without pts) : (Dev.submit d m qid f).without pts = d.without pts := by
  unfold Dev.submit
  (try simp only [foldl_keep, apply_ite (Dev.without · pts), ite_self, h_fab, h_qf, h_hbm, h_host, hf, Dev.unlessHeld_keep, Dev.violate_keep])
  repeat' (first
    | (with_reducible rfl)
    | (simp only [apply_ite (Dev.without · pts), ite_self, h_fab, h_qf, h_hbm, h_host, hf, Dev.violate_keep]; done)
    | (intro _)
    | split
    | (with_reducible refine (foldl_keep _ _ _ ?_).trans ?_)
    | (simp only [Dev.without, h_fab, h_qf, h_hbm, h_host, if_true]; done)
    | (apply hf)
    | (with_reducible refine (Dev.unlessHeld_keep _ _ _ h_fab ?_).trans ?_)
    | (simp only [foldl_keep, apply_ite (Dev.without · pts), ite_self, h_fab, h_qf, h_hbm, h_host, hf, Dev.unlessHeld_keep, Dev.violate_keep]))
theorem Dev.slotWrite_keep {pts : List Part} (d : Dev) (m qid : Nat) (fits : Bool) (f : Dev → Dev) (h_fab : pts.contains .fab = true) (h_qf :
    pts.contains .qf = true) (h_hbm : pts.contains .hbm = true) (h_host : pts.contains .host = true) (hf : ∀ (y0 : Dev),
    (f y0).without pts = y0.without pts) : (Dev.slotWrite d m qid fits f).without pts = d.without pts := by
  unfold Dev.slotWrite
  (try simp only [apply_ite (Dev.without · pts), h_fab, h_qf, h_hbm, h_host])
  repeat' (first
    | (with_reducible rfl)
    | (simp only [hf, Dev.dbSize_keep]; done)
    | (intro _)
    | split
    | (with_reducible refine (foldl_keep _ _ _ ?_).trans ?_)
    | (simp only [Dev.without, h_fab, h_qf, h_hbm, h_host, if_true]; done)
    | (apply hf)
    | (with_reducible refine (Dev.submit_keep _ _ _ _ h_fab h_qf h_hbm h_host ?_).trans ?_)
    | (with_reducible refine (Dev.unlessHeld_keep _ _ _ h_fab ?_).trans ?_)
    | (simp only [foldl_keep, apply_ite (Dev.without · pts), ite_self, h_fab, h_qf, h_hbm, h_host, hf, Dev.submit_keep, Dev.unlessHeld_keep,
        Dev.dbSize_keep]))
theorem Dev.qOverflow_keep {pts : List Part} (d : Dev) (m qid : Nat) : (Dev.qOverflow d m qid).without pts = d.without pts := by
  unfold Dev.qOverflow
  simp only [Dev.raise_keep]
theorem Dev.takeTail_keep {pts : List Part} (d : Dev) (m qid v : Nat) (ring : List Byte) (h_qf : pts.contains .qf = true) :
    (Dev.takeTail d m qid v ring).without pts = d.without pts := by
  unfold Dev.takeTail
  simp only [h_qf, Dev.setQ_keep]
theorem Dev.dbTail_keep {pts : List Part} (d : Dev) (m qid off size v : Nat) (ring : List Byte) (h_fab : pts.contains .fab = true) (h_qf :
    pts.contains .qf = true) (h_hbm : pts.contains .hbm = true) (h_host : pts.contains .host = true) :
    (Dev.dbTail d m qid off size v ring).without pts = d.without pts := by
  unfold Dev.dbTail
  (try simp only [h_fab, h_qf, h_hbm, h_host])
  repeat' (first
    | (with_reducible rfl)
    | (simp only [apply_ite (Dev.without · pts), ite_self, h_qf, Dev.qOverflow_keep, Dev.raise_keep, Dev.takeTail_keep]; done)
    | (intro _)
    | split
    | (with_reducible refine (foldl_keep _ _ _ ?_).trans ?_)
    | (simp only [Dev.without, h_fab, h_qf, h_hbm, h_host, if_true]; done)
    | (with_reducible refine (Dev.slotWrite_keep _ _ _ _ _ h_fab h_qf h_hbm h_host ?_).trans ?_)
    | (simp only [foldl_keep, apply_ite (Dev.without · pts), ite_self, h_fab, h_qf, h_hbm, h_host, Dev.slotWrite_keep, Dev.qOverflow_keep,
        Dev.raise_keep, Dev.takeTail_keep]))
theorem Dev.push_keep {pts : List Part} (d : Dev) (m qid off : Nat) (bytes : List Byte) (h_fab : pts.contains .fab = true) (h_qf :
    pts.contains .qf = true) (h_hbm : pts.contains .hbm = true) (h_host : pts.contains .host = true) :
    (Dev.push d m qid off bytes).without pts = d.without pts := by
  unfold Dev.push
  (try simp only [h_fab, h_qf, h_hbm, h_host])
  repeat' (first
    | (with_reducible rfl)
    | (simp only [apply_ite (Dev.without · pts), ite_self, h_qf, h_hbm, h_host, Dev.dbSize_keep, Dev.qOverflow_keep, Dev.setQ_keep,
        Dev.ringW_keep]; done)
    | (intro _)
    | split
    | (with_reducible refine (foldl_keep _ _ _ ?_).trans ?_)
    | (simp only [Dev.without, h_fab, h_qf, h_hbm, h_host, if_true]; done)
    | (with_reducible refine (Dev.slotWrite_keep _ _ _ _ _ h_fab h_qf h_hbm h_host ?_).trans ?_)
    | (simp only [foldl_keep, apply_ite (Dev.without · pts), ite_self, h_fab, h_qf, h_hbm, h_host, Dev.slotWrite_keep, Dev.dbSize_keep,
        Dev.qOverflow_keep, Dev.setQ_keep, Dev.ringW_keep]))
theorem Dev.startQ_keep {pts : List Part} (d : Dev) (qid : Nat) (h_qf : pts.contains .qf = true) :
    (Dev.startQ d qid).without pts = d.without pts := by
  unfold Dev.startQ
  simp only [apply_ite (Dev.without · pts), ite_self, h_qf, Dev.modQ_keep]
theorem Dev.stopQ_keep {pts : List Part} (d : Dev) (qid : Nat) (h_qf : pts.contains .qf = true) : (Dev.stopQ d qid).without pts = d.without pts := by
  unfold Dev.stopQ
  simp only [apply_ite (Dev.without · pts), ite_self, h_qf, Dev.modQ_keep]
theorem Dev.resetQ_keep {pts : List Part} (d : Dev) (m qid : Nat) (h_qf : pts.contains .qf = true) :
    (Dev.resetQ d m qid).without pts = d.without pts := by
  unfold Dev.resetQ
  simp only [apply_ite (Dev.without · pts), ite_self, h_qf, Dev.raise_keep, Dev.beginReset_keep]
theorem Dev.consume_keep {pts : List Part} (d : Dev) (qid n : Nat) (h_qf : pts.contains .qf = true) (h_hbm : pts.contains .hbm = true) (h_host :
    pts.contains .host = true) : (Dev.consume d qid n).without pts = d.without pts := by
  unfold Dev.consume
  simp only [apply_ite (Dev.without · pts), ite_self, h_qf, h_hbm, h_host, Dev.setQ_keep, Dev.drainWaits_keep]
theorem Dev.resetDone_keep {pts : List Part} (d : Dev) (qid : Nat) (done : List (Nat × Nat × List Byte)) (h_qf : pts.contains .qf = true) (h_hbm :
    pts.contains .hbm = true) (h_host : pts.contains .host = true) : (Dev.resetDone d qid done).without pts = d.without pts := by
  unfold Dev.resetDone
  (try simp only [apply_ite (Dev.without · pts), h_qf, h_hbm, h_host, Dev.drainWaits_keep, Dev.flushFifo_keep, Dev.setQ_keep, Dev.raise_keep,
      Dev.post_keep])
  repeat' (first
    | (with_reducible rfl)
    | (simp only [apply_ite (Dev.without · pts), ite_self, h_qf, h_hbm, h_host, Dev.endOp_keep, Dev.closeTag_keep]; done)
    | (intro _)
    | split
    | (with_reducible refine (foldl_keep _ _ _ ?_).trans ?_)
    | (simp only [Dev.without, h_qf, h_hbm, h_host, if_true]; done)
    | (simp only [foldl_keep, apply_ite (Dev.without · pts), ite_self, h_qf, h_hbm, h_host, upd_qf_keep, Dev.endOp_keep, Dev.closeTag_keep,
        Dev.setQ_keep, Dev.raise_keep, Dev.post_keep]))
theorem Dev.qfResult_keep {pts : List Part} (d : Dev) (n : Nat) : (Dev.qfResult d n).without pts = d.without pts := by
  unfold Dev.qfResult
  simp only [Dev.fs_keep]
theorem Dev.installQ_keep {pts : List Part} (d : Dev) (qid : Nat) (q : Queue) (h_qf : pts.contains .qf = true) :
    (Dev.installQ d qid q).without pts = d.without pts := by
  unfold Dev.installQ
  simp only [h_qf, Dev.setQ_keep, Dev.touchCache_keep, Dev.fs_keep]
theorem Dev.destroyQ_keep {pts : List Part} (d : Dev) (qid : Nat) (h_qf : pts.contains .qf = true) :
    (Dev.destroyQ d qid).without pts = d.without pts := by
  unfold Dev.destroyQ
  simp only [h_qf, upd_qf_keep, Dev.fs_keep]
  exact (foldl_keep _ _ _ fun e w => Dev.postGone_keep e _ _).trans (by simp only [h_qf, upd_qf_keep, Dev.modQ_keep])
theorem Dev.qfRun_keep {pts : List Part} (d : Dev) (m op qid : Nat) (h_qf : pts.contains .qf = true) :
    (Dev.qfRun d m op qid).without pts = d.without pts := by
  unfold Dev.qfRun
  simp only
  split
  · exact (Dev.qfResult_keep _ _).trans (foldl_keep _ _ _ (fun e n => Dev.wr_keep e _ _ _ _))
  · split
    · exact Dev.qfResult_keep d 2
    · split
      · exact Dev.qfResult_keep d 3
      · split
        · exact Dev.qfResult_keep d 4
        · exact (Dev.qfResult_keep _ 1).trans (Dev.installQ_keep d qid _ h_qf)
  · split
    · exact (Dev.qfResult_keep _ 1).trans (Dev.destroyQ_keep d qid h_qf)
    · exact Dev.qfResult_keep d 2
  · split
    · exact (Dev.qfResult_keep _ 1).trans (Dev.setQ_keep d qid _ h_qf)
    · exact Dev.qfResult_keep d 2
  · split
    · exact (Dev.qfResult_keep _ 1).trans (Dev.startQ_keep d qid h_qf)
    · exact Dev.qfResult_keep d 2
  · split
    · exact (Dev.qfResult_keep _ 1).trans (Dev.stopQ_keep d qid h_qf)
    · exact Dev.qfResult_keep d 2
  · split
    · split
      · exact (Dev.qfResult_keep _ 5).trans (Dev.resetQ_keep d m qid h_qf)
      · exact (Dev.qfResult_keep _ 1).trans (Dev.resetQ_keep d m qid h_qf)
    · exact Dev.qfResult_keep d 2
  · exact Dev.qfResult_keep d 3
theorem Dev.effQfCmd_keep {pts : List Part} (d : Dev) (m : Nat) (v : Word) (h_fab : pts.contains .fab = true) (h_qf : pts.contains .qf = true) :
    (Dev.effQfCmd d m v).without pts = d.without pts := by
  unfold Dev.effQfCmd
  simp only [apply_ite (Dev.without · pts), ite_self, h_fab, h_qf, Dev.raise_keep, Dev.putFields_keep, Dev.qfRun_keep]
theorem Dev.qfGo_keep {pts : List Part} (d : Dev) (m op qid : Nat) (h_fab : pts.contains .fab = true) (h_qf : pts.contains .qf = true) (h_hbm :
    pts.contains .hbm = true) (h_host : pts.contains .host = true) : (Dev.qfGo d m op qid).without pts = d.without pts := by
  unfold Dev.qfGo
  (try simp only [h_fab, h_qf, h_hbm, h_host])
  repeat' (first
    | (with_reducible rfl)
    | (simp only [h_fab, h_qf, Dev.effQfCmd_keep]; done)
    | (intro _)
    | split
    | (with_reducible refine (foldl_keep _ _ _ ?_).trans ?_)
    | (simp only [Dev.without, h_fab, h_qf, h_hbm, h_host, if_true]; done)
    | (with_reducible refine (Dev.gated_keep _ _ _ _ _ _ _ h_fab h_qf h_hbm h_host ?_).trans ?_)
    | (simp only [foldl_keep, apply_ite (Dev.without · pts), ite_self, h_fab, h_qf, h_hbm, h_host, Dev.gated_keep, Dev.effQfCmd_keep]))
theorem Dev.nvPut_keep {pts : List Part} (d : Dev) (kind : Nat) (err : EvRec) (info : List Byte) (h_boot : pts.contains .boot = true) :
    (Dev.nvPut d kind err info).without pts = d.without pts := by
  unfold Dev.nvPut
  simp only [h_boot, upd_boot_keep]
theorem nvPlace_keep {pts : List Part} (nv : Nv) (d : Dev) (j : NvJob) (good : Bool) : (nvPlace nv d j good).2.without pts = d.without pts := by
  unfold nvPlace
  simp only [Dev.fs_keep]
theorem nvWrite_keep {pts : List Part} (fails : Nat) (nv : Nv) (d : Dev) (j : NvJob) : (nvWrite fails nv d j).2.without pts = d.without pts := by
  unfold nvWrite
  (try simp only [apply_ite (Dev.without · pts), ite_self, Dev.fs_keep, Dev.raise_keep])
  repeat' (first
    | (with_reducible rfl)
    | (simp only [nvPlace_keep]; done)
    | (intro _)
    | split
    | (with_reducible refine (foldl_keep _ _ _ ?_).trans ?_)
    | (simp only [foldl_keep, apply_ite (Dev.without · pts), ite_self, nvPlace_keep, Dev.fs_keep, Dev.raise_keep]))
theorem nvFlush_keep {pts : List Part} (fails : Nat) (nv : Nv) (d : Dev) (h_boot : pts.contains .boot = true) :
    (nvFlush fails nv d).2.without pts = d.without pts := by
  unfold nvFlush
  extract_lets jobs b0 d1
  have h1 : d1.without pts = d.without pts := upd_boot_keep d _ h_boot
  refine Eq.trans (foldl_keep2 _ _ _ (fun q x => ?_)) h1
  exact nvWrite_keep (if x.2 = 0 then fails else 0) q.1 q.2 x.1
theorem Dev.dmaOutside_keep {pts : List Part} (d : Dev) (m a : Nat) (h_fab : pts.contains .fab = true) (h_qf : pts.contains .qf = true) (h_hbm :
    pts.contains .hbm = true) (h_host : pts.contains .host = true) : (Dev.dmaOutside d m a).without pts = d.without pts := by
  unfold Dev.dmaOutside
  simp only [h_fab, h_qf, h_hbm, h_host, Dev.violate_keep]
theorem Dev.foundCe_keep {pts : List Part} (d : Dev) (w : Nat) (h_hbm : pts.contains .hbm = true) :
    (Dev.foundCe d w).without pts = d.without pts := by
  unfold Dev.foundCe
  simp only [h_hbm, upd_hbm_keep, Dev.fadd_keep, Dev.raiseOnce_keep]
theorem Dev.foundUe_keep {pts : List Part} (d : Dev) (w : Nat) (h_hbm : pts.contains .hbm = true) (h_boot : pts.contains .boot = true) :
    (Dev.foundUe d w).without pts = d.without pts := by
  unfold Dev.foundUe
  simp only [h_hbm, h_boot, upd_hbm_keep, Dev.fs_keep, Dev.fadd_keep, Dev.nvPut_keep, Dev.raise_keep]
theorem Dev.injectEcc_keep {pts : List Part} (d : Dev) (se ue : List Nat) (h_hbm : pts.contains .hbm = true) :
    (Dev.injectEcc d se ue).without pts = d.without pts := by
  unfold Dev.injectEcc
  repeat' (first
    | (with_reducible rfl)
    | (simp only [apply_ite (Dev.without · pts), ite_self, h_hbm, upd_hbm_keep, Dev.useFree_keep]; done)
    | (intro _)
    | split
    | (with_reducible refine (foldl_keep _ _ _ ?_).trans ?_)
    | (simp only [Dev.without, h_hbm, if_true]; done)
    | (simp only [foldl_keep, apply_ite (Dev.without · pts), ite_self, h_hbm, upd_hbm_keep, Dev.useFree_keep]))
theorem Dev.eccRead_keep {pts : List Part} (d : Dev) (a n : Nat) (h_hbm : pts.contains .hbm = true) (h_boot : pts.contains .boot = true) :
    (Dev.eccRead d a n).without pts = d.without pts := by
  unfold Dev.eccRead
  (try simp only [foldl_keep, apply_ite (Dev.without · pts), ite_self, h_hbm, h_boot, Dev.foundUe_keep, Dev.foundCe_keep])
  repeat' (first
    | (with_reducible rfl)
    | (simp only [apply_ite (Dev.without · pts), ite_self, h_hbm, h_boot, Dev.foundUe_keep, Dev.foundCe_keep]; done)
    | (intro _)
    | split
    | (with_reducible refine (foldl_keep _ _ _ ?_).trans ?_)
    | (simp only [Dev.without, h_hbm, h_boot, if_true]; done)
    | (simp only [foldl_keep, apply_ite (Dev.without · pts), ite_self, h_hbm, h_boot, Dev.foundUe_keep, Dev.foundCe_keep]))
theorem Dev.loadRgn_keep {pts : List Part} (d : Dev) (i : Nat) : (Dev.loadRgn d i).without pts = d.without pts := by
  unfold Dev.loadRgn
  repeat' (first
    | (with_reducible rfl)
    | (simp only [Dev.wr_keep]; done)
    | (intro _)
    | split
    | (with_reducible refine (foldl_keep _ _ _ ?_).trans ?_)
    | (simp only [foldl_keep, apply_ite (Dev.without · pts), ite_self, Dev.wr_keep]))
theorem Dev.setRgn_keep {pts : List Part} (d : Dev) (i : Nat) (g : Option Rgn) (h_hbm : pts.contains .hbm = true) :
    (Dev.setRgn d i g).without pts = d.without pts := by
  unfold Dev.setRgn
  simp only [h_hbm, upd_hbm_keep]
theorem Dev.rgnResult_keep {pts : List Part} (d : Dev) (n : Nat) : (Dev.rgnResult d n).without pts = d.without pts := by
  unfold Dev.rgnResult
  simp only [Dev.fs_keep]
theorem Dev.rgnRun_keep {pts : List Part} (d : Dev) (op i : Nat) (h_hbm : pts.contains .hbm = true) :
    (Dev.rgnRun d op i).without pts = d.without pts := by
  unfold Dev.rgnRun
  repeat' (first
    | (with_reducible rfl)
    | (simp only [apply_ite (Dev.without · pts), ite_self, h_hbm, Dev.rgnResult_keep, Dev.loadRgn_keep, Dev.setRgn_keep, Dev.raise_keep]; done)
    | (intro _)
    | split
    | (with_reducible refine (foldl_keep _ _ _ ?_).trans ?_)
    | (simp only [Dev.without, h_hbm, if_true]; done)
    | (simp only [foldl_keep, apply_ite (Dev.without · pts), ite_self, h_hbm, Dev.rgnResult_keep, Dev.loadRgn_keep, Dev.setRgn_keep, Dev.raise_keep]))
theorem Dev.hbmSec_keep {pts : List Part} (d : Dev) (m : Nat) : (Dev.hbmSec d m).without pts = d.without pts := by
  unfold Dev.hbmSec
  simp only [Dev.raise_keep]
theorem Dev.effRgnCmd_keep {pts : List Part} (d : Dev) (m : Nat) (v : Word) (h_fab : pts.contains .fab = true) (h_hbm : pts.contains .hbm = true) :
    (Dev.effRgnCmd d m v).without pts = d.without pts := by
  unfold Dev.effRgnCmd
  simp only [apply_ite (Dev.without · pts), ite_self, h_fab, h_hbm, Dev.hbmSec_keep, Dev.putFields_keep, Dev.rgnRun_keep]
theorem Dev.rgnGo_keep {pts : List Part} (d : Dev) (m op i : Nat) (h_fab : pts.contains .fab = true) (h_qf : pts.contains .qf = true) (h_hbm :
    pts.contains .hbm = true) (h_host : pts.contains .host = true) : (Dev.rgnGo d m op i).without pts = d.without pts := by
  unfold Dev.rgnGo
  (try simp only [h_fab, h_qf, h_hbm, h_host])
  repeat' (first
    | (with_reducible rfl)
    | (simp only [h_fab, h_hbm, Dev.effRgnCmd_keep]; done)
    | (intro _)
    | split
    | (with_reducible refine (foldl_keep _ _ _ ?_).trans ?_)
    | (simp only [Dev.without, h_fab, h_qf, h_hbm, h_host, if_true]; done)
    | (with_reducible refine (Dev.gated_keep _ _ _ _ _ _ _ h_fab h_qf h_hbm h_host ?_).trans ?_)
    | (simp only [foldl_keep, apply_ite (Dev.without · pts), ite_self, h_fab, h_qf, h_hbm, h_host, Dev.gated_keep, Dev.effRgnCmd_keep]))
theorem Dev.hbmCfg_keep {pts : List Part} (d : Dev) (u : Nat) : (Dev.hbmCfg d u).without pts = d.without pts := by
  unfold Dev.hbmCfg
  simp only [Dev.raise_keep]
theorem Dev.effPcTr_keep {pts : List Part} (d : Dev) (u : Nat) (v : Word) (lanes : Nat) (h_fab : pts.contains .fab = true) :
    (Dev.effPcTr d u v lanes).without pts = d.without pts := by
  unfold Dev.effPcTr
  simp only [apply_ite (Dev.without · pts), ite_self, h_fab, Dev.hbmCfg_keep, Dev.putFields_keep, Dev.fs_keep]
theorem Dev.hbmScrub_keep {pts : List Part} (d : Dev) (n : Nat) (se ue : List Nat) (h_hbm : pts.contains .hbm = true) (h_boot :
    pts.contains .boot = true) : (Dev.hbmScrub d n se ue).without pts = d.without pts := by
  unfold Dev.hbmScrub
  (try simp only [apply_ite (Dev.without · pts), ite_self, h_hbm, upd_hbm_keep, Dev.fadd_keep])
  repeat' (first
    | (with_reducible rfl)
    | (simp only [h_hbm, h_boot, Dev.injectEcc_keep, Dev.foundUe_keep, Dev.foundCe_keep]; done)
    | (intro _)
    | split
    | (with_reducible refine (foldl_keep _ _ _ ?_).trans ?_)
    | (simp only [Dev.without, h_hbm, h_boot, if_true]; done)
    | (simp only [foldl_keep, apply_ite (Dev.without · pts), ite_self, h_hbm, h_boot, upd_hbm_keep, Dev.injectEcc_keep, Dev.foundUe_keep,
        Dev.foundCe_keep, Dev.fadd_keep]))
theorem Dev.grantTest_keep {pts : List Part} (d : Dev) (u : Nat) : (Dev.grantTest d u).without pts = d.without pts := by
  unfold Dev.grantTest
  repeat' (first
    | (with_reducible rfl)
    | (simp only [Dev.fs_keep]; done)
    | (intro _)
    | split
    | (with_reducible refine (foldl_keep _ _ _ ?_).trans ?_)
    | (simp only [Dev.fs_keep]))
theorem Dev.grantWake_keep {pts : List Part} (d : Dev) (u : Nat) (h_bank : pts.contains .bank = true) :
    (Dev.grantWake d u).without pts = d.without pts := by
  unfold Dev.grantWake
  repeat' (first
    | (with_reducible rfl)
    | (simp only [apply_ite (Dev.without · pts), ite_self, h_bank, Dev.setUst_keep, Dev.askWork_keep, Dev.fs_keep]; done)
    | (intro _)
    | split
    | (with_reducible refine (foldl_keep _ _ _ ?_).trans ?_)
    | (simp only [Dev.without, h_bank, if_true]; done)
    | (simp only [foldl_keep, apply_ite (Dev.without · pts), ite_self, h_bank, Dev.setUst_keep, Dev.askWork_keep, Dev.fs_keep]))
theorem Dev.granted_keep {pts : List Part} (d : Dev) (r : BankReq) (h_bank : pts.contains .bank = true) :
    (Dev.granted d r).without pts = d.without pts := by
  unfold Dev.granted
  (try simp only [foldl_keep, apply_ite (Dev.without · pts), ite_self, h_bank, Dev.grantWake_keep, Dev.syncRequest_keep, Dev.leaveWaking_keep,
      Dev.fs_keep, Dev.grantTest_keep])
  repeat' (first
    | (with_reducible rfl)
    | (simp only [apply_ite (Dev.without · pts), ite_self, h_bank, Dev.grantWake_keep, Dev.syncRequest_keep, Dev.leaveWaking_keep, Dev.fs_keep,
        Dev.grantTest_keep]; done)
    | (intro _)
    | split
    | (with_reducible refine (foldl_keep _ _ _ ?_).trans ?_)
    | (simp only [Dev.without, h_bank, if_true]; done)
    | (simp only [foldl_keep, apply_ite (Dev.without · pts), ite_self, h_bank, Dev.grantWake_keep, Dev.syncRequest_keep, Dev.leaveWaking_keep,
        Dev.fs_keep, Dev.grantTest_keep]))
theorem Dev.grant_keep {pts : List Part} (d : Dev) (r : BankReq) (h_bank : pts.contains .bank = true) :
    (Dev.grant d r).without pts = d.without pts := by
  unfold Dev.grant
  simp only [apply_ite (Dev.without · pts), ite_self, h_bank, upd_bank_keep, Dev.fs_keep, Dev.granted_keep]
theorem Dev.creditAll_keep {pts : List Part} (d : Dev) (h_bank : pts.contains .bank = true) : (Dev.creditAll d).without pts = d.without pts := by
  unfold Dev.creditAll
  simp only [h_bank, upd_bank_keep]
theorem Dev.grantC0_keep {pts : List Part} (d : Dev) (z0 : Nat) (h_bank : pts.contains .bank = true) :
    (Dev.grantC0 d z0).without pts = d.without pts := by
  induction z0 generalizing d with
  | zero => first | rfl | (unfold Dev.grantC0; simp only [foldl_keep, apply_ite (Dev.without · pts), ite_self, h_bank, Dev.grant_keep])
  | succ n ih =>
    unfold Dev.grantC0
    (try simp only [foldl_keep, apply_ite (Dev.without · pts), ite_self, h_bank, Dev.grant_keep, ih]); repeat' (first
      | (with_reducible rfl)
      | (simp only [apply_ite (Dev.without · pts), ite_self, h_bank, Dev.grant_keep, ih]; done)
      | (intro _)
      | split
      | (with_reducible refine (foldl_keep _ _ _ ?_).trans ?_)
      | (simp only [foldl_keep, apply_ite (Dev.without · pts), ite_self, h_bank, Dev.grant_keep, ih]))
theorem Dev.grantLow_keep {pts : List Part} (d : Dev) (z0 : Nat) (h_bank : pts.contains .bank = true) :
    (Dev.grantLow d z0).without pts = d.without pts := by
  induction z0 generalizing d with
  | zero => first | rfl | (unfold Dev.grantLow; simp only [foldl_keep, apply_ite (Dev.without · pts), ite_self, h_bank, Dev.grant_keep])
  | succ n ih =>
    unfold Dev.grantLow
    (try simp only [foldl_keep, apply_ite (Dev.without · pts), ite_self, h_bank, Dev.grant_keep, ih]); repeat' (first
      | (with_reducible rfl)
      | (simp only [apply_ite (Dev.without · pts), ite_self, h_bank, Dev.grant_keep, ih]; done)
      | (intro _)
      | split
      | (with_reducible refine (foldl_keep _ _ _ ?_).trans ?_)
      | (simp only [foldl_keep, apply_ite (Dev.without · pts), ite_self, h_bank, Dev.grant_keep, ih]))
theorem Dev.decideVolt_keep {pts : List Part} (d : Dev) (h_bank : pts.contains .bank = true) : (Dev.decideVolt d).without pts = d.without pts := by
  unfold Dev.decideVolt
  simp only [apply_ite (Dev.without · pts), ite_self, h_bank, upd_bank_keep, Dev.fs_keep]
theorem Dev.decide60_keep {pts : List Part} (d : Dev) (h_bank : pts.contains .bank = true) : (Dev.decide60 d).without pts = d.without pts := by
  unfold Dev.decide60
  simp only [apply_ite (Dev.without · pts), ite_self, h_bank, Dev.syncEff_keep, Dev.creditAll_keep, Dev.grantC0_keep, Dev.decideVolt_keep,
      Dev.syncBank_keep, Dev.grantLow_keep]
theorem Dev.bankCfg_keep {pts : List Part} (d : Dev) (m : Nat) : (Dev.bankCfg d m).without pts = d.without pts := by
  unfold Dev.bankCfg
  simp only [Dev.raise_keep]
theorem Dev.effBankCeil_keep {pts : List Part} (d : Dev) (m : Nat) (v : Word) (h_fab : pts.contains .fab = true) :
    (Dev.effBankCeil d m v).without pts = d.without pts := by
  unfold Dev.effBankCeil
  simp only [apply_ite (Dev.without · pts), ite_self, h_fab, Dev.bankCfg_keep, Dev.putFields_keep]
theorem Dev.effBankReserve_keep {pts : List Part} (d : Dev) (m : Nat) (v : Word) (h_fab : pts.contains .fab = true) :
    (Dev.effBankReserve d m v).without pts = d.without pts := by
  unfold Dev.effBankReserve
  simp only [apply_ite (Dev.without · pts), ite_self, h_fab, Dev.bankCfg_keep, Dev.putFields_keep]
theorem Dev.effBankVolt_keep {pts : List Part} (d : Dev) (m : Nat) (v : Word) (h_fab : pts.contains .fab = true) (h_bank :
    pts.contains .bank = true) : (Dev.effBankVolt d m v).without pts = d.without pts := by
  unfold Dev.effBankVolt
  simp only [apply_ite (Dev.without · pts), ite_self, h_fab, h_bank, upd_bank_keep, Dev.bankCfg_keep, Dev.putFields_keep]
theorem Dev.grantLate_keep {pts : List Part} (d : Dev) (u : Nat) (c0 : Bool) (h_bank : pts.contains .bank = true) :
    (Dev.grantLate d u c0).without pts = d.without pts := by
  unfold Dev.grantLate
  repeat' (first
    | (with_reducible rfl)
    | (simp only [apply_ite (Dev.without · pts), ite_self, h_bank, upd_bank_keep, Dev.raise_keep]; done)
    | (intro _)
    | split
    | (with_reducible refine (foldl_keep _ _ _ ?_).trans ?_)
    | (simp only [Dev.without, h_bank, if_true]; done)
    | (simp only [foldl_keep, apply_ite (Dev.without · pts), ite_self, h_bank, upd_bank_keep, Dev.raise_keep]))
theorem Dev.domWindow_keep {pts : List Part} (d : Dev) (n meas : Nat) (h_bank : pts.contains .bank = true) :
    (Dev.domWindow d n meas).without pts = d.without pts := by
  unfold Dev.domWindow
  simp only [apply_ite (Dev.without · pts), ite_self, h_bank, upd_bank_keep, Dev.fs_keep]
theorem Dev.stopTest_keep {pts : List Part} (d : Dev) (u : Nat) (h_hl : pts.contains .hl = true) :
    (Dev.stopTest d u).without pts = d.without pts := by
  unfold Dev.stopTest
  simp only [h_hl, upd_hl_keep, Dev.toUnusable_keep, Dev.fs_keep]
theorem Dev.overdraw_keep {pts : List Part} (d : Dev) (n : Nat) (h_fab : pts.contains .fab = true) (h_bank : pts.contains .bank = true) (h_hl :
    pts.contains .hl = true) : (Dev.overdraw d n).without pts = d.without pts := by
  unfold Dev.overdraw
  (try simp only [apply_ite (Dev.without · pts), ite_self, h_bank, upd_bank_keep, Dev.fs_keep, Dev.fadd_keep, Dev.raise_keep, Dev.c0Risk_keep])
  repeat' (first
    | (with_reducible rfl)
    | (simp only [h_fab, h_hl, Dev.stopTest_keep, Dev.holdUnit_keep, Dev.addHold_keep]; done)
    | (intro _)
    | split
    | (with_reducible refine (foldl_keep _ _ _ ?_).trans ?_)
    | (simp only [Dev.without, h_fab, h_bank, h_hl, if_true]; done)
    | (simp only [foldl_keep, apply_ite (Dev.without · pts), ite_self, h_fab, h_bank, h_hl, upd_bank_keep, Dev.stopTest_keep, Dev.holdUnit_keep,
        Dev.addHold_keep, Dev.fs_keep, Dev.fadd_keep, Dev.raise_keep, Dev.c0Risk_keep]))
theorem Dev.overdrawOff_keep {pts : List Part} (d : Dev) (n : Nat) (h_fab : pts.contains .fab = true) (h_bank : pts.contains .bank = true) :
    (Dev.overdrawOff d n).without pts = d.without pts := by
  unfold Dev.overdrawOff
  simp only [apply_ite (Dev.without · pts), ite_self, h_fab, h_bank, upd_fab_bank_keep, Dev.fs_keep, Dev.domainLost_keep, Dev.raise_keep]
theorem Dev.shedUnit_keep {pts : List Part} (d : Dev) (u : Nat) (h_bank : pts.contains .bank = true) :
    (Dev.shedUnit d u).without pts = d.without pts := by
  unfold Dev.shedUnit
  simp only [apply_ite (Dev.without · pts), ite_self, h_bank, Dev.applyLevel_keep]
theorem Dev.shed_keep {pts : List Part} (d : Dev) (h_bank : pts.contains .bank = true) : (Dev.shed d).without pts = d.without pts := by
  unfold Dev.shed
  (try simp only [apply_ite (Dev.without · pts)])
  repeat' (first
    | (with_reducible rfl)
    | (simp only [h_bank, Dev.shedUnit_keep]; done)
    | (intro _)
    | split
    | (with_reducible refine (foldl_keep _ _ _ ?_).trans ?_)
    | (simp only [Dev.without, h_bank, if_true]; done)
    | (simp only [foldl_keep, apply_ite (Dev.without · pts), ite_self, h_bank, Dev.shedUnit_keep]))
theorem Dev.forceShed_keep {pts : List Part} (d : Dev) (h_bank : pts.contains .bank = true) : (Dev.forceShed d).without pts = d.without pts := by
  unfold Dev.forceShed
  (try simp only [foldl_keep, apply_ite (Dev.without · pts), ite_self, h_bank, Dev.raise_keep, Dev.applyLevel_keep])
  repeat' (first
    | (with_reducible rfl)
    | (simp only [apply_ite (Dev.without · pts), ite_self, h_bank, Dev.raise_keep, Dev.applyLevel_keep]; done)
    | (intro _)
    | split
    | (with_reducible refine (foldl_keep _ _ _ ?_).trans ?_)
    | (simp only [Dev.without, h_bank, if_true]; done)
    | (simp only [foldl_keep, apply_ite (Dev.without · pts), ite_self, h_bank, Dev.raise_keep, Dev.applyLevel_keep]))
theorem Dev.setPeerValid_keep {pts : List Part} (d : Dev) (b : Bool) : (Dev.setPeerValid d b).without pts = d.without pts := by
  unfold Dev.setPeerValid
  simp only [apply_ite (Dev.without · pts), ite_self, Dev.raise_keep, Dev.syncEff_keep, Dev.fs_keep]
theorem Dev.riskEdge_keep {pts : List Part} (d : Dev) (cond obj : Nat) (failing : Bool) (h_bank : pts.contains .bank = true) :
    (Dev.riskEdge d cond obj failing).without pts = d.without pts := by
  unfold Dev.riskEdge
  simp only [apply_ite (Dev.without · pts), ite_self, h_bank, upd_bank_keep, Dev.c0Risk_keep]
theorem Dev.askVolt_keep {pts : List Part} (d : Dev) (mv : Nat) (h_bank : pts.contains .bank = true) :
    (Dev.askVolt d mv).without pts = d.without pts := by
  unfold Dev.askVolt
  simp only [h_bank, upd_bank_keep, Dev.decide60_keep, Dev.fs_keep]
theorem Dev.withhold_keep {pts : List Part} (d : Dev) (g : Nat) (h_bank : pts.contains .bank = true) :
    (Dev.withhold d g).without pts = d.without pts := by
  unfold Dev.withhold
  simp only [h_bank, upd_bank_keep]
theorem Dev.unwithhold_keep {pts : List Part} (d : Dev) (h_bank : pts.contains .bank = true) : (Dev.unwithhold d).without pts = d.without pts := by
  unfold Dev.unwithhold
  simp only [h_bank, upd_bank_keep]
theorem Dev.rereadPace_keep {pts : List Part} (d : Dev) : (Dev.rereadPace d).without pts = d.without pts := by
  unfold Dev.rereadPace
  (try simp only [foldl_keep, apply_ite (Dev.without · pts), ite_self, Dev.fs_keep])
  repeat' (first
    | (with_reducible rfl)
    | (simp only [Dev.fs_keep]; done)
    | (intro _)
    | split
    | (with_reducible refine (foldl_keep _ _ _ ?_).trans ?_)
    | (simp only [foldl_keep, apply_ite (Dev.without · pts), ite_self, Dev.fs_keep]))
theorem Dev.govern_keep {pts : List Part} (d : Dev) (g : Nat) (h_bank : pts.contains .bank = true) :
    (Dev.govern d g).without pts = d.without pts := by
  unfold Dev.govern
  simp only [apply_ite (Dev.without · pts), ite_self, h_bank, upd_bank_keep, Dev.askVolt_keep, Dev.withhold_keep, Dev.unwithhold_keep]
theorem Dev.governorRun_keep {pts : List Part} (d : Dev) (h_bank : pts.contains .bank = true) : (Dev.governorRun d).without pts = d.without pts := by
  unfold Dev.governorRun
  repeat' (first
    | (with_reducible rfl)
    | (simp only [h_bank, upd_bank_keep, Dev.shed_keep, Dev.riskEdge_keep, Dev.rereadPace_keep, Dev.govern_keep]; done)
    | (intro _)
    | split
    | (with_reducible refine (foldl_keep _ _ _ ?_).trans ?_)
    | (simp only [Dev.without, h_bank, if_true]; done)
    | (simp only [foldl_keep, apply_ite (Dev.without · pts), ite_self, h_bank, upd_bank_keep, Dev.shed_keep, Dev.riskEdge_keep, Dev.rereadPace_keep,
        Dev.govern_keep]))
theorem Dev.pairFault_keep {pts : List Part} (d : Dev) (b : Bool) : (Dev.pairFault d b).without pts = d.without pts := by
  unfold Dev.pairFault
  simp only [apply_ite (Dev.without · pts), ite_self, upd_oz_keep, Dev.fs_keep, Dev.raise_keep]
theorem Dev.pairRejoin_keep {pts : List Part} (d : Dev) (b : Bool) : (Dev.pairRejoin d b).without pts = d.without pts := by
  unfold Dev.pairRejoin
  simp only [apply_ite (Dev.without · pts), ite_self, Dev.fs_keep]
theorem Dev.sramEcc_keep {pts : List Part} (d : Dev) (pairB double : Bool) : (Dev.sramEcc d pairB double).without pts = d.without pts := by
  unfold Dev.sramEcc
  simp only [apply_ite (Dev.without · pts), ite_self, Dev.pairFault_keep, Dev.raise_keep, Dev.fadd_keep]
theorem Dev.logRec_keep {pts : List Part} (d : Dev) (r : EvRec) (h_qf : pts.contains .qf = true) (h_hbm : pts.contains .hbm = true) (h_host :
    pts.contains .host = true) : (Dev.logRec d r).without pts = d.without pts := by
  unfold Dev.logRec
  extract_lets l s0 o d1
  clear_value l
  have h1 : d1.without pts = d.without pts := upd_oz_keep d o
  clear_value d1
  with_reducible refine (foldl_keep _ _ _ ?_).trans h1
  exact fun e b => Dev.postEvent_keep e _ _ h_qf h_hbm h_host
theorem Dev.logNew_keep {pts : List Part} (d : Dev) (e : Ev) (h_qf : pts.contains .qf = true) (h_hbm : pts.contains .hbm = true) (h_host :
    pts.contains .host = true) : (Dev.logNew d e).1.without pts = d.without pts := by
  unfold Dev.logNew
  simp only [h_qf, h_hbm, h_host, upd_oz_keep, Dev.logRec_keep]
theorem Dev.makeQ_keep {pts : List Part} (d : Dev) (qid : Nat) (q : Queue) (h_qf : pts.contains .qf = true) :
    (Dev.makeQ d qid q).without pts = d.without pts :=
  (Dev.touchCache_keep _ _ h_qf).trans (Dev.setQ_keep d qid q h_qf)
theorem Dev.openBoot_keep {pts : List Part} (d : Dev) (f epoch : Nat) (h_qf : pts.contains .qf = true) :
    (Dev.openBoot d f epoch).without pts = d.without pts := by
  unfold Dev.openBoot
  simp only [h_qf, upd_oz_keep, Dev.makeQ_keep, Dev.fs_keep]
theorem Dev.dropMbox_keep {pts : List Part} (d : Dev) (b : Mbox) (h_qf : pts.contains .qf = true) :
    (Dev.dropMbox d b).without pts = d.without pts := by
  exact (upd_oz_keep (((d.destroyQ b.req).destroyQ b.reply).destroyQ b.event) _).trans (by simp only [Dev.destroyQ_keep, h_qf])
theorem Dev.bootDown_keep {pts : List Part} (d : Dev) (f : Nat) : (Dev.bootDown d f).without pts = d.without pts := by
  unfold Dev.bootDown
  simp only [Dev.fs_keep]
theorem Dev.closeMbox_keep {pts : List Part} (d : Dev) (b : Mbox) : (Dev.closeMbox d b).without pts = d.without pts := by
  unfold Dev.closeMbox
  simp only [upd_oz_keep]
theorem Dev.effMbBootCtl_keep {pts : List Part} (d : Dev) (m : Nat) (v : Word) (h_fab : pts.contains .fab = true) (h_qf : pts.contains .qf = true) :
    (Dev.effMbBootCtl d m v).without pts = d.without pts := by
  unfold Dev.effMbBootCtl
  (try simp only [apply_ite (Dev.without · pts), h_fab, Dev.raise_keep, Dev.putFields_keep])
  repeat' (first
    | (with_reducible rfl)
    | (simp only [apply_ite (Dev.without · pts), ite_self, h_fab, h_qf, upd_oz_keep, Dev.putFields_keep, Dev.fs_keep, Dev.closeMbox_keep, Dev.bootDown_keep,
        Dev.openBoot_keep]; done)
    | (intro _)
    | split
    | (with_reducible refine (foldl_keep _ _ _ ?_).trans ?_)
    | (simp only [Dev.without, h_fab, h_qf, if_true]; done)
    | (simp only [foldl_keep, apply_ite (Dev.without · pts), ite_self, h_fab, h_qf, upd_oz_keep, Dev.raise_keep, Dev.putFields_keep, Dev.fs_keep,
        Dev.closeMbox_keep, Dev.bootDown_keep, Dev.openBoot_keep]))
theorem Dev.endMbox_keep {pts : List Part} (d : Dev) (b : Mbox) (h_qf : pts.contains .qf = true) (h_hbm : pts.contains .hbm = true)
    (h_host : pts.contains .host = true) : (Dev.endMbox d b).without pts = d.without pts :=
  (Dev.dropMbox_keep _ b h_qf).trans (Dev.closeWaiting_keep d _ _ h_qf h_hbm h_host)
theorem Dev.bootReopened_keep {pts : List Part} (d : Dev) (f : Nat) (h_qf : pts.contains .qf = true) (h_hbm : pts.contains .hbm = true) (h_host : pts.contains .host = true) :
    (Dev.bootReopened d f).without pts = d.without pts := by
  unfold Dev.bootReopened
  repeat' (first
    | (with_reducible rfl)
    | (simp only [apply_ite (Dev.without · pts), ite_self, h_qf, h_hbm, h_host, Dev.bootDown_keep, Dev.endMbox_keep, Dev.fs_keep, Dev.openBoot_keep]; done)
    | (intro _)
    | split
    | (with_reducible refine (foldl_keep _ _ _ ?_).trans ?_)
    | (simp only [Dev.without, h_qf, h_hbm, h_host, if_true]; done)
    | (simp only [foldl_keep, apply_ite (Dev.without · pts), ite_self, h_qf, h_hbm, h_host, Dev.bootDown_keep, Dev.endMbox_keep, Dev.fs_keep, Dev.openBoot_keep]))
theorem Dev.closeAll_keep {pts : List Part} (d : Dev) (f : Nat) (h_qf : pts.contains .qf = true) :
    (Dev.closeAll d f).without pts = d.without pts := by
  unfold Dev.closeAll
  (try simp only [upd_oz_keep, Dev.bootDown_keep])
  repeat' (first
    | (with_reducible rfl)
    | (simp only [h_qf, Dev.dropMbox_keep]; done)
    | (intro _)
    | split
    | (with_reducible refine (foldl_keep _ _ _ ?_).trans ?_)
    | (simp only [Dev.without, h_qf, if_true]; done)
    | (simp only [foldl_keep, apply_ite (Dev.without · pts), ite_self, h_qf, upd_oz_keep, Dev.dropMbox_keep, Dev.bootDown_keep]))
theorem Dev.reply_keep {pts : List Part} (d : Dev) (r : Req) (svc verb status off job detail : Nat) (res : List Nat) (bytes : List Byte) (h_qf :
    pts.contains .qf = true) (h_hbm : pts.contains .hbm = true) (h_host : pts.contains .host = true) :
    (Dev.reply d r svc verb status off job detail res bytes).without pts = d.without pts := by
  unfold Dev.reply
  simp only [apply_ite (Dev.without · pts), ite_self, h_qf, h_hbm, h_host, Dev.hbmW_keep, Dev.hostW_keep, Dev.endOp_keep]
theorem Dev.replyErr_keep {pts : List Part} (d : Dev) (r : Req) (svc verb status off : Nat) (detail : Nat) (h_qf : pts.contains .qf = true) (h_hbm :
    pts.contains .hbm = true) (h_host : pts.contains .host = true) : (Dev.replyErr d r svc verb status off detail).without pts = d.without pts := by
  unfold Dev.replyErr
  simp only [h_qf, h_hbm, h_host, Dev.reply_keep, Dev.raise_keep]
theorem Dev.openJob_keep {pts : List Part} (d : Dev) (r : Req) (svc verb : Nat) (decided : Option Nat) (aux : Nat) :
    (Dev.openJob d r svc verb decided aux).without pts = d.without pts := by
  unfold Dev.openJob
  simp only [upd_oz_keep]
theorem Dev.sweep_keep {pts : List Part} (d : Dev) (h_qf : pts.contains .qf = true) (h_hbm : pts.contains .hbm = true)
    (h_host : pts.contains .host = true) : (Dev.sweep d).without pts = d.without pts := by
  unfold Dev.sweep
  exact foldl_keep _ _ _ fun e b => Dev.endMbox_keep e b h_qf h_hbm h_host
theorem Dev.preGate_keep {pts : List Part} (d e : Dev) (r : Req) (svc verb : Nat) (a b c : Bool) (h_fab : pts.contains .fab = true) (h_qf :
    pts.contains .qf = true) (h_hbm : pts.contains .hbm = true) (h_host : pts.contains .host = true) (h : d.preGate r svc verb a b c = some e) :
    e.without pts = d.without pts := by
  have step : ∀ (p : Prop) [Decidable p] (x : Dev) (o : Option Dev), x.without pts = d.without pts →
      (∀ y, o = some y → y.without pts = d.without pts) → ∀ y, (if p then some x else o) = some y → y.without pts = d.without pts := by
    intro p _ x o hx ho y hy
    split at hy
    · rw [← Option.some.inj hy]
      exact hx
    · exact ho y hy
  have err : ∀ n, (d.replyErr r svc verb n 0xFFFF).without pts = d.without pts := fun n => by simp only [Dev.replyErr_keep, h_qf, h_hbm, h_host]
  unfold Dev.preGate at h
  split at h
  · rw [← Option.some.inj h]
  · revert h
    revert e
    refine step _ d _ rfl (step _ _ _ ?_ (step _ _ _ ?_ (step _ _ _ (err _) (step _ _ _ (err _) (step _ _ _ (err _) (step _ _ _ (err _)
      (step _ _ _ (err _) (step _ _ _ (err _) (fun y hy => nomatch hy)))))))))
    · simp only [Dev.violate_keep, Dev.replyErr_keep, h_fab, h_qf, h_hbm, h_host]
    · simp only [Dev.sweep_keep, Dev.replyErr_keep, h_qf, h_hbm, h_host]
theorem Dev.twSend_keep {pts : List Part} (d : Dev) (pt lo p1 : Nat) (body : List Byte) (h_tw : pts.contains .tw = true) :
    (Dev.twSend d pt lo p1 body).without pts = d.without pts := by
  unfold Dev.twSend
  simp only [h_tw, upd_tw_keep]
theorem Dev.replicated_keep {pts : List Part} (d : Dev) (svc verb : Nat) (h_tw : pts.contains .tw = true) :
    (Dev.replicated d svc verb).without pts = d.without pts := by
  unfold Dev.replicated
  simp only [apply_ite (Dev.without · pts), ite_self, h_tw, upd_tw_keep, Dev.twSend_keep, Dev.useFree_keep]
theorem Dev.verbD_keep {pts : List Part} (d : Dev) (r : Req) (svc verb : Nat) (deny : Bool) (body : Dev → VRes Dev) (h_fab :
    pts.contains .fab = true) (h_qf : pts.contains .qf = true) (h_hbm : pts.contains .hbm = true) (h_host : pts.contains .host = true) (h_tw :
    pts.contains .tw = true) (hbody : ∀ (y0 : Dev), VKeeps pts y0 (body y0)) : (Dev.verbD d r svc verb deny body).without pts = d.without pts := by
  unfold Dev.verbD
  split
  · rename_i e h
    exact Dev.preGate_keep d e r svc verb _ _ _ h_fab h_qf h_hbm h_host h
  · refine (Dev.sweep_keep _ h_qf h_hbm h_host).trans ?_
    have hb := hbody d
    unfold finishVerb
    revert hb
    cases body d with
    | err st off detail => exact fun _ => Dev.replyErr_keep d r svc verb st off detail h_qf h_hbm h_host
    | turned e st =>
      intro hb
      simp only
      split
      · exact Dev.replyErr_keep d r svc verb st _ _ h_qf h_hbm h_host
      · exact (Dev.replyErr_keep e r svc verb st _ _ h_qf h_hbm h_host).trans hb
    | ok e res bytes detail =>
      intro hb
      simp only
      split
      · exact Dev.reply_keep _ _ _ _ _ _ _ _ _ _ h_qf h_hbm h_host
      · split
        · exact Dev.replyErr_keep _ _ _ _ _ _ _ h_qf h_hbm h_host
        · exact (Dev.reply_keep _ _ _ _ _ _ _ _ _ _ h_qf h_hbm h_host).trans ((Dev.replicated_keep e svc verb h_tw).trans hb)
    | job e decided aux =>
      intro hb
      simp only
      split
      · exact Dev.reply_keep _ _ _ _ _ _ _ _ _ _ h_qf h_hbm h_host
      · split
        · exact Dev.replyErr_keep _ _ _ _ _ _ _ h_qf h_hbm h_host
        · exact (Dev.reply_keep _ _ _ _ _ _ _ _ _ _ h_qf h_hbm h_host).trans ((Dev.openJob_keep _ _ _ _ _ _).trans
            ((Dev.replicated_keep e svc verb h_tw).trans hb))
theorem Dev.verb_keep {pts : List Part} (d : Dev) (r : Req) (svc verb : Nat) (priv : Bool) (body : Dev → VRes Dev) (h_fab :
    pts.contains .fab = true) (h_qf : pts.contains .qf = true) (h_hbm : pts.contains .hbm = true) (h_host : pts.contains .host = true) (h_tw :
    pts.contains .tw = true) (hbody : ∀ (y0 : Dev), VKeeps pts y0 (body y0)) : (Dev.verb d r svc verb priv body).without pts = d.without pts := by
  exact Dev.verbD_keep d r svc verb _ body h_fab h_qf h_hbm h_host h_tw hbody
theorem Dev.badVerb_keep {pts : List Part} (d : Dev) (r : Req) (svc verb : Nat) (svcKnown known : Bool) (h_fab : pts.contains .fab = true) (h_qf :
    pts.contains .qf = true) (h_hbm : pts.contains .hbm = true) (h_host : pts.contains .host = true) :
    (Dev.badVerb d r svc verb svcKnown known).without pts = d.without pts := by
  unfold Dev.badVerb
  cases h : d.preGate r svc verb known svcKnown false with
  | none => rfl
  | some e => exact Dev.preGate_keep d e r svc verb _ _ _ h_fab h_qf h_hbm h_host h
theorem Dev.sysOpen_keep {pts : List Part} (d : Dev) (r : Req) (h_qf : pts.contains .qf = true) : VKeeps pts d (Dev.sysOpen d r) := by
  unfold Dev.sysOpen
  repeat' (first
    | (with_reducible refine vk_ite _ _ ?_)
    | (simp only [vk_ok, h_qf, upd_oz_keep, Dev.makeQ_keep]; done)
    | (intro _)
    | split
    | (extract_lets)
    | (with_reducible refine (foldl_keep _ _ _ ?_).trans ?_)
    | (simp only [Dev.without, h_qf, if_true]; done)
    | (simp only [vk_err, vk_turned, vk_ok, vk_job, foldl_keep, apply_ite (Dev.without · pts), ite_self, h_qf, upd_oz_keep, Dev.makeQ_keep])
    | (simp +zetaDelta only [vk_err, vk_turned, vk_ok, vk_job, foldl_keep, apply_ite (Dev.without · pts), ite_self, h_qf, upd_oz_keep,
        Dev.makeQ_keep]; done)
    | (simp +zetaDelta only [vk_err, vk_turned, vk_ok, vk_job, foldl_keep, apply_ite (Dev.without · pts), ite_self, h_qf, upd_oz_keep,
        Dev.makeQ_keep]))
theorem Dev.sysClose_keep {pts : List Part} (d : Dev) (r : Req) : VKeeps pts d (Dev.sysClose d r) := by
  unfold Dev.sysClose
  repeat' (first
    | (with_reducible refine vk_ite _ _ ?_)
    | (simp only [vk_err, vk_ok, Dev.closeMbox_keep]; done)
    | (intro _)
    | split
    | (extract_lets)
    | (with_reducible refine (foldl_keep _ _ _ ?_).trans ?_)
    | (simp only [vk_err, vk_turned, vk_ok, vk_job, foldl_keep, apply_ite (Dev.without · pts), ite_self, Dev.closeMbox_keep])
    | (simp +zetaDelta only [vk_err, vk_turned, vk_ok, vk_job, foldl_keep, apply_ite (Dev.without · pts), ite_self, Dev.closeMbox_keep]; done)
    | (simp +zetaDelta only [vk_err, vk_turned, vk_ok, vk_job, foldl_keep, apply_ite (Dev.without · pts), ite_self, Dev.closeMbox_keep]))
theorem Dev.sysQueueCreate_keep {pts : List Part} (d : Dev) (r : Req) (h_qf : pts.contains .qf = true) : VKeeps pts d (Dev.sysQueueCreate d r) := by
  unfold Dev.sysQueueCreate
  repeat' (first
    | (with_reducible refine vk_ite _ _ ?_)
    | (simp only [vk_ok, h_qf, upd_oz_keep, Dev.useFree_keep, Dev.installQ_keep]; done)
    | (intro _)
    | split
    | (extract_lets)
    | (with_reducible refine (foldl_keep _ _ _ ?_).trans ?_)
    | (simp only [Dev.without, h_qf, if_true]; done)
    | (simp only [vk_err, vk_turned, vk_ok, vk_job, foldl_keep, apply_ite (Dev.without · pts), ite_self, h_qf, upd_oz_keep, Dev.useFree_keep,
        Dev.installQ_keep])
    | (simp +zetaDelta only [vk_err, vk_turned, vk_ok, vk_job, foldl_keep, apply_ite (Dev.without · pts), ite_self, h_qf, upd_oz_keep,
        Dev.useFree_keep, Dev.installQ_keep]; done)
    | (simp +zetaDelta only [vk_err, vk_turned, vk_ok, vk_job, foldl_keep, apply_ite (Dev.without · pts), ite_self, h_qf, upd_oz_keep,
        Dev.useFree_keep, Dev.installQ_keep]))
theorem Dev.sysQueueDestroy_keep {pts : List Part} (d : Dev) (r : Req) (h_qf : pts.contains .qf = true) : VKeeps pts d (Dev.sysQueueDestroy d r) := by
  unfold Dev.sysQueueDestroy
  repeat' (first
    | (with_reducible refine vk_ite _ _ ?_)
    | (simp only [vk_ok, h_qf, Dev.destroyQ_keep]; done)
    | (intro _)
    | split
    | (extract_lets)
    | (with_reducible refine (foldl_keep _ _ _ ?_).trans ?_)
    | (simp only [Dev.without, h_qf, if_true]; done)
    | (simp only [vk_err, vk_turned, vk_ok, vk_job, foldl_keep, apply_ite (Dev.without · pts), ite_self, h_qf, Dev.destroyQ_keep])
    | (simp +zetaDelta only [vk_err, vk_turned, vk_ok, vk_job, foldl_keep, apply_ite (Dev.without · pts), ite_self, h_qf, Dev.destroyQ_keep]; done)
    | (simp +zetaDelta only [vk_err, vk_turned, vk_ok, vk_job, foldl_keep, apply_ite (Dev.without · pts), ite_self, h_qf, Dev.destroyQ_keep]))
theorem Dev.setVf_keep {pts : List Part} (d : Dev) (n v : Nat) (h_fab : pts.contains .fab = true) : (Dev.setVf d n v).without pts = d.without pts := by
  unfold Dev.setVf
  simp only [apply_ite (Dev.without · pts), ite_self, h_fab, Dev.wr_keep, Dev.cfgWritten_keep]
theorem Dev.sysPrivSet_keep {pts : List Part} (d : Dev) (r : Req) (h_fab : pts.contains .fab = true) : VKeeps pts d (Dev.sysPrivSet d r) := by
  unfold Dev.sysPrivSet
  repeat' (first
    | (with_reducible refine vk_ite _ _ ?_)
    | (simp only [vk_ok, h_fab, Dev.setVf_keep]; done)
    | (intro _)
    | split
    | (extract_lets)
    | (with_reducible refine (foldl_keep _ _ _ ?_).trans ?_)
    | (simp only [vk_err, vk_turned, vk_ok, vk_job, foldl_keep, apply_ite (Dev.without · pts), ite_self, h_fab, Dev.setVf_keep])
    | (simp +zetaDelta only [vk_err, vk_turned, vk_ok, vk_job, foldl_keep, apply_ite (Dev.without · pts), ite_self, h_fab, Dev.setVf_keep]; done)
    | (simp +zetaDelta only [vk_err, vk_turned, vk_ok, vk_job, foldl_keep, apply_ite (Dev.without · pts), ite_self, h_fab, Dev.setVf_keep]))
theorem Dev.sysBankSet_keep {pts : List Part} (d : Dev) (r : Req) (h_fab : pts.contains .fab = true) (h_qf : pts.contains .qf = true) (h_hbm :
    pts.contains .hbm = true) (h_host : pts.contains .host = true) : VKeeps pts d (Dev.sysBankSet d r) := by
  unfold Dev.sysBankSet
  repeat' (first
    | (with_reducible refine vk_ite _ _ ?_)
    | (simp only [vk_ok, apply_ite (Dev.without · pts), h_fab, h_qf, h_hbm, h_host, Dev.effBankCeil_keep, Dev.effBankReserve_keep]; done)
    | (intro _)
    | split
    | (extract_lets)
    | (with_reducible refine (foldl_keep _ _ _ ?_).trans ?_)
    | (simp only [Dev.without, h_fab, h_qf, h_hbm, h_host, if_true]; done)
    | (with_reducible refine (Dev.gated_keep _ _ _ _ _ _ _ h_fab h_qf h_hbm h_host ?_).trans ?_)
    | (simp only [vk_ok])
    | (simp +zetaDelta only [vk_err, vk_turned, vk_ok, vk_job, foldl_keep, apply_ite (Dev.without · pts), ite_self, h_fab, h_qf, h_hbm, h_host,
        Dev.gated_keep, Dev.effBankCeil_keep, Dev.effBankReserve_keep]; done)
    | (simp +zetaDelta only [vk_err, vk_turned, vk_ok, vk_job, foldl_keep, apply_ite (Dev.without · pts), ite_self, h_fab, h_qf, h_hbm, h_host,
        Dev.gated_keep, Dev.effBankCeil_keep, Dev.effBankReserve_keep]))
theorem Dev.sysHoldRelease_keep {pts : List Part} (d : Dev) (r : Req) (h_fab : pts.contains .fab = true) : VKeeps pts d (Dev.sysHoldRelease d r) := by
  unfold Dev.sysHoldRelease
  repeat' (first
    | (with_reducible refine vk_ite _ _ ?_)
    | (simp only [vk_ok, h_fab, Dev.releaseHold_keep]; done)
    | (intro _)
    | split
    | (extract_lets)
    | (with_reducible refine (foldl_keep _ _ _ ?_).trans ?_)
    | (simp only [Dev.without, h_fab, if_true]; done)
    | (simp only [vk_err, vk_turned, vk_ok, vk_job, foldl_keep, apply_ite (Dev.without · pts), ite_self, h_fab, Dev.releaseHold_keep])
    | (simp +zetaDelta only [vk_err, vk_turned, vk_ok, vk_job, foldl_keep, apply_ite (Dev.without · pts), ite_self, h_fab,
        Dev.releaseHold_keep]; done)
    | (simp +zetaDelta only [vk_err, vk_turned, vk_ok, vk_job, foldl_keep, apply_ite (Dev.without · pts), ite_self, h_fab, Dev.releaseHold_keep]))
theorem Dev.sysUnitQuery_keep {pts : List Part} (d : Dev) (r : Req) : VKeeps pts d (Dev.sysUnitQuery d r) := by
  unfold Dev.sysUnitQuery
  repeat' (first
    | (with_reducible refine vk_ite _ _ ?_)
    | (simp only [vk_ok]; done)
    | (intro _)
    | split
    | (extract_lets)
    | (with_reducible refine (foldl_keep _ _ _ ?_).trans ?_)
    | (simp only [vk_err, vk_turned, vk_ok, vk_job, foldl_keep, apply_ite (Dev.without · pts), ite_self])
    | (simp +zetaDelta only [vk_err, vk_turned, vk_ok, vk_job, foldl_keep, apply_ite (Dev.without · pts), ite_self]; done)
    | (simp +zetaDelta only [vk_err, vk_turned, vk_ok, vk_job, foldl_keep, apply_ite (Dev.without · pts), ite_self]))
theorem Dev.loadCtx_keep {pts : List Part} (d : Dev) (u : Nat) (h_bank : pts.contains .bank = true) :
    (Dev.loadCtx d u).without pts = d.without pts := by
  unfold Dev.loadCtx
  simp only [apply_ite (Dev.without · pts), ite_self, h_bank, upd_bank_keep, Dev.fs_keep]
theorem Dev.sysUnitCmd_keep {pts : List Part} (d : Dev) (r : Req) (h_fab : pts.contains .fab = true) (h_bank : pts.contains .bank = true) :
    VKeeps pts d (Dev.sysUnitCmd d r) := by
  unfold Dev.sysUnitCmd
  repeat' (first
    | (with_reducible refine vk_ite _ _ ?_)
    | (simp only [vk_job, apply_ite (Dev.without · pts), h_fab, h_bank, Dev.loadCtx_keep, Dev.ucbCmd_keep]; done)
    | (intro _)
    | split
    | (extract_lets)
    | (with_reducible refine (foldl_keep _ _ _ ?_).trans ?_)
    | (simp only [Dev.without, h_fab, h_bank, if_true]; done)
    | (simp only [vk_job, h_fab, h_bank, Dev.ucbCmd_keep])
    | (simp +zetaDelta only [vk_err, vk_turned, vk_ok, vk_job, foldl_keep, apply_ite (Dev.without · pts), ite_self, h_fab, h_bank, Dev.loadCtx_keep,
        Dev.ucbCmd_keep]; done)
    | (simp +zetaDelta only [vk_err, vk_turned, vk_ok, vk_job, foldl_keep, apply_ite (Dev.without · pts), ite_self, h_fab, h_bank, Dev.loadCtx_keep,
        Dev.ucbCmd_keep]))
theorem Dev.setSubs_keep {pts : List Part} (d : Dev) (qid : Nat) (l : List (Nat × Nat)) : (Dev.setSubs d qid l).without pts = d.without pts := by
  unfold Dev.setSubs
  simp only [upd_oz_keep]
theorem Dev.logSubscribe_keep {pts : List Part} (d : Dev) (r : Req) : VKeeps pts d (Dev.logSubscribe d r) := by
  unfold Dev.logSubscribe
  repeat' (first
    | (with_reducible refine vk_ite _ _ ?_)
    | (simp only [vk_ok, Dev.setSubs_keep]; done)
    | (intro _)
    | split
    | (extract_lets)
    | (with_reducible refine (foldl_keep _ _ _ ?_).trans ?_)
    | (simp only [vk_err, vk_turned, vk_ok, vk_job, foldl_keep, apply_ite (Dev.without · pts), ite_self, Dev.setSubs_keep])
    | (simp +zetaDelta only [vk_err, vk_turned, vk_ok, vk_job, foldl_keep, apply_ite (Dev.without · pts), ite_self, Dev.setSubs_keep]; done)
    | (simp +zetaDelta only [vk_err, vk_turned, vk_ok, vk_job, foldl_keep, apply_ite (Dev.without · pts), ite_self, Dev.setSubs_keep]))
theorem Dev.logRead_keep {pts : List Part} (d : Dev) (r : Req) : VKeeps pts d (Dev.logRead d r) := by
  unfold Dev.logRead
  repeat' (first
    | (with_reducible refine vk_ite _ _ ?_)
    | (simp only [vk_ok]; done)
    | (intro _)
    | split
    | (extract_lets)
    | (with_reducible refine (foldl_keep _ _ _ ?_).trans ?_)
    | (simp only [vk_err, vk_turned, vk_ok, vk_job, foldl_keep, apply_ite (Dev.without · pts), ite_self])
    | (simp +zetaDelta only [vk_err, vk_turned, vk_ok, vk_job, foldl_keep, apply_ite (Dev.without · pts), ite_self]; done)
    | (simp +zetaDelta only [vk_err, vk_turned, vk_ok, vk_job, foldl_keep, apply_ite (Dev.without · pts), ite_self]))
theorem Dev.logMark_keep {pts : List Part} (d : Dev) (r : Req) (h_qf : pts.contains .qf = true) (h_hbm : pts.contains .hbm = true) (h_host :
    pts.contains .host = true) : VKeeps pts d (Dev.logMark d r) := by
  unfold Dev.logMark
  repeat' (first
    | (with_reducible refine vk_ite _ _ ?_)
    | (simp only [vk_ok, h_qf, h_hbm, h_host, Dev.logNew_keep]; done)
    | (intro _)
    | split
    | (extract_lets)
    | (with_reducible refine (foldl_keep _ _ _ ?_).trans ?_)
    | (simp only [Dev.without, h_qf, h_hbm, h_host, if_true]; done)
    | (simp only [vk_err, vk_turned, vk_ok, vk_job, foldl_keep, apply_ite (Dev.without · pts), ite_self, h_qf, h_hbm, h_host, Dev.logNew_keep])
    | (simp +zetaDelta only [vk_err, vk_turned, vk_ok, vk_job, foldl_keep, apply_ite (Dev.without · pts), ite_self, h_qf, h_hbm, h_host,
        Dev.logNew_keep]; done)
    | (simp +zetaDelta only [vk_err, vk_turned, vk_ok, vk_job, foldl_keep, apply_ite (Dev.without · pts), ite_self, h_qf, h_hbm, h_host,
        Dev.logNew_keep]))

end Sys2Proof.Machine
end

