-- ==== Sys2Proof/Laws/FramePipe.lean ====
section
/-! SUPPORT. Which parts of the device an operation may change: links, ingest, the pipeline, the codec and audio. -/
namespace Sys2Proof.Machine
set_option linter.all false

theorem Dev.alloc_keep {pts : List Part} (d : Dev) (k size tag : Nat) (h_hbm : pts.contains .hbm = true) {a0 : Nat} {e0 : Dev} (h :
    Dev.alloc d k size tag = some (a0, e0)) : e0.without pts = d.without pts := by
  unfold Dev.alloc at h
  try simp only at h
  repeat' split at h
  all_goals first
    | (cases h; done)
    | (first
      | obtain rfl := Option.some.inj h
      | (simp only [Option.some.injEq, Prod.mk.injEq] at h; obtain ⟨rfl, rfl⟩ := h)
      | (simp only [Option.some.injEq, Prod.mk.injEq] at h; obtain ⟨rfl, rfl, rfl⟩ := h)
      | skip); (try simp only [h_hbm, upd_hbm_keep, Dev.useFree_keep]); repeat' (first
        | (with_reducible rfl)
        | (simp only [foldl_keep, apply_ite (Dev.without · pts), ite_self, h_hbm, upd_hbm_keep, Dev.useFree_keep]; done)
        | (intro _)
        | split
        | (with_reducible refine (foldl_keep _ _ _ ?_).trans ?_)
        | (simp only [Dev.without, h_hbm, if_true]; done)
        | (simp only [foldl_keep, apply_ite (Dev.without · pts), ite_self, h_hbm, upd_hbm_keep, Dev.useFree_keep]))
theorem Dev.freeArea_keep {pts : List Part} (d : Dev) (tag : Nat) (h_hbm : pts.contains .hbm = true) :
    (Dev.freeArea d tag).without pts = d.without pts := by
  unfold Dev.freeArea
  simp only [h_hbm, upd_hbm_keep]
theorem Dev.grantRgn_keep {pts : List Part} (d : Dev) (mask master base size : Nat) (rd wr : Bool) (h_hbm : pts.contains .hbm = true) {a0 : Nat}
    {e0 : Dev} (h : Dev.grantRgn d mask master base size rd wr = some (a0, e0)) : e0.without pts = d.without pts := by
  unfold Dev.grantRgn at h
  try simp only at h
  repeat' split at h
  all_goals first
    | (cases h; done)
    | (first
      | obtain rfl := Option.some.inj h
      | (simp only [Option.some.injEq, Prod.mk.injEq] at h; obtain ⟨rfl, rfl⟩ := h)
      | (simp only [Option.some.injEq, Prod.mk.injEq] at h; obtain ⟨rfl, rfl, rfl⟩ := h)
      | skip); (try simp only [h_hbm, upd_hbm_keep]); repeat' (first
        | (with_reducible rfl)
        | (simp only [foldl_keep, apply_ite (Dev.without · pts), ite_self, h_hbm, upd_hbm_keep]; done)
        | (intro _)
        | split
        | (with_reducible refine (foldl_keep _ _ _ ?_).trans ?_)
        | (simp only [Dev.without, h_hbm, if_true]; done)
        | (simp only [foldl_keep, apply_ite (Dev.without · pts), ite_self, h_hbm, upd_hbm_keep]))
theorem Dev.revokeRgn_keep {pts : List Part} (d : Dev) (master base : Nat) (h_hbm : pts.contains .hbm = true) :
    (Dev.revokeRgn d master base).without pts = d.without pts := by
  unfold Dev.revokeRgn
  simp only [h_hbm, upd_hbm_keep]
theorem Dev.jobDecided_keep {pts : List Part} (d : Dev) (job outcome : Nat) : (Dev.jobDecided d job outcome).without pts = d.without pts := by
  unfold Dev.jobDecided
  simp only [apply_ite (Dev.without · pts), ite_self, upd_oz_keep]
theorem Dev.dropConn_keep {pts : List Part} (d : Dev) (key : Nat) (h_md : pts.contains .md = true) :
    (Dev.dropConn d key).without pts = d.without pts := by
  unfold Dev.dropConn
  simp only [h_md, upd_md_keep, Dev.fs_keep]
theorem Dev.mediaLoss_keep {pts : List Part} (d : Dev) (n : Nat) (h_md : pts.contains .md = true) :
    (Dev.mediaLoss d n).without pts = d.without pts := by
  unfold Dev.mediaLoss
  simp only [apply_ite (Dev.without · pts), ite_self, h_md, upd_md_keep, Dev.fs_keep, Dev.dropConn_keep]
theorem Dev.chainLoss_keep {pts : List Part} (d : Dev) (k : Nat) (h_md : pts.contains .md = true) :
    (Dev.chainLoss d k).without pts = d.without pts := by
  unfold Dev.chainLoss
  (try simp only [apply_ite (Dev.without · pts)])
  repeat' (first
    | (with_reducible rfl)
    | (simp only [h_md, Dev.fs_keep, Dev.raise_keep, Dev.dropConn_keep]; done)
    | (intro _)
    | split
    | (with_reducible refine (foldl_keep _ _ _ ?_).trans ?_)
    | (simp only [Dev.without, h_md, if_true]; done)
    | (simp only [foldl_keep, apply_ite (Dev.without · pts), ite_self, h_md, Dev.fs_keep, Dev.raise_keep, Dev.dropConn_keep]))
theorem Dev.attachFails_keep {pts : List Part} (d : Dev) (h_tw : pts.contains .tw = true) : (Dev.attachFails d).without pts = d.without pts := by
  unfold Dev.attachFails
  simp only [apply_ite (Dev.without · pts), ite_self, h_tw, upd_tw_keep, Dev.fs_keep, Dev.raise_keep, Dev.jobDecided_keep]
theorem Dev.linkLeft_keep {pts : List Part} (d : Dev) (n : Nat) (h_tw : pts.contains .tw = true) (h_md : pts.contains .md = true) :
    (Dev.linkLeft d n).without pts = d.without pts := by
  unfold Dev.linkLeft
  simp only [apply_ite (Dev.without · pts), ite_self, h_tw, h_md, Dev.attachFails_keep, Dev.chainLoss_keep, Dev.mediaLoss_keep]
theorem Dev.linkCame_keep {pts : List Part} (d : Dev) (n : Nat) : (Dev.linkCame d n).without pts = d.without pts := by
  unfold Dev.linkCame
  simp only [apply_ite (Dev.without · pts), ite_self, Dev.raise_keep, Dev.fs_keep]
theorem Dev.syncPool_keep {pts : List Part} (d : Dev) (h_pipe : pts.contains .pipe = true) : (Dev.syncPool d).without pts = d.without pts := by
  unfold Dev.syncPool
  (try simp only [apply_ite (Dev.without · pts), ite_self, h_pipe, upd_pipe_keep, Dev.raise_keep])
  repeat' (first
    | (with_reducible rfl)
    | (simp only [Dev.fs_keep]; done)
    | (intro _)
    | split
    | (with_reducible refine (foldl_keep _ _ _ ?_).trans ?_)
    | (simp only [Dev.without, h_pipe, if_true]; done)
    | (simp only [foldl_keep, apply_ite (Dev.without · pts), ite_self, h_pipe, upd_pipe_keep, Dev.fs_keep, Dev.raise_keep]))
theorem Dev.setRole_keep {pts : List Part} (d : Dev) (u : Nat) (r : Role) (h_bank : pts.contains .bank = true) (h_pipe :
    pts.contains .pipe = true) : (Dev.setRole d u r).without pts = d.without pts := by
  unfold Dev.setRole
  simp only [h_bank, h_pipe, upd_bank_pipe_keep]
theorem Dev.initRoles_keep {pts : List Part} (d : Dev) (h_bank : pts.contains .bank = true) (h_pipe : pts.contains .pipe = true) :
    (Dev.initRoles d).without pts = d.without pts := by
  unfold Dev.initRoles
  (try simp only [h_pipe, Dev.syncPool_keep])
  repeat' (first
    | (with_reducible rfl)
    | (simp only [h_bank, h_pipe, Dev.setRole_keep]; done)
    | (intro _)
    | split
    | (with_reducible refine (foldl_keep _ _ _ ?_).trans ?_)
    | (simp only [Dev.without, h_bank, h_pipe, if_true]; done)
    | (simp only [foldl_keep, apply_ite (Dev.without · pts), ite_self, h_bank, h_pipe, Dev.syncPool_keep, Dev.setRole_keep]))
theorem Dev.prepare_keep {pts : List Part} (d : Dev) (a b : Nat) (h_bank : pts.contains .bank = true) :
    (Dev.prepare d a b).without pts = d.without pts := by
  unfold Dev.prepare
  simp only [apply_ite (Dev.without · pts), ite_self, h_bank, Dev.fs_keep, Dev.setUst_keep, Dev.applyLevel_keep]
theorem Dev.drainTile_keep {pts : List Part} (d : Dev) (u : Nat) (reload : Bool) (h_bank : pts.contains .bank = true) :
    (Dev.drainTile d u reload).without pts = d.without pts := by
  unfold Dev.drainTile
  simp only [apply_ite (Dev.without · pts), ite_self, h_bank, upd_bank_keep, Dev.setUst_keep]
theorem Dev.rollSkip_keep {pts : List Part} (d : Dev) (h_hl : pts.contains .hl = true) : (Dev.rollSkip d).without pts = d.without pts := by
  unfold Dev.rollSkip
  simp only [apply_ite (Dev.without · pts), ite_self, h_hl, upd_hl_keep, Dev.jobDecided_keep, Dev.raise_keep]
theorem Dev.rollTaken_keep {pts : List Part} (d : Dev) (b : Nat) (h_hl : pts.contains .hl = true) (h_pipe : pts.contains .pipe = true) :
    (Dev.rollTaken d b).without pts = d.without pts := by
  unfold Dev.rollTaken
  repeat' (first
    | (with_reducible rfl)
    | (simp only [apply_ite (Dev.without · pts), ite_self, h_hl, h_pipe, upd_hl_pipe_keep, Dev.rollSkip_keep]; done)
    | (intro _)
    | split
    | (with_reducible refine (foldl_keep _ _ _ ?_).trans ?_)
    | (simp only [Dev.without, h_hl, h_pipe, if_true]; done)
    | (simp only [foldl_keep, apply_ite (Dev.without · pts), ite_self, h_hl, h_pipe, upd_hl_keep, upd_pipe_keep, upd_hl_pipe_keep,
        Dev.rollSkip_keep]))
theorem Dev.rollMoved_keep {pts : List Part} (d : Dev) (a b : Nat) (h_bank : pts.contains .bank = true) (h_hl : pts.contains .hl = true) :
    (Dev.rollMoved d a b).without pts = d.without pts := by
  unfold Dev.rollMoved
  simp only [apply_ite (Dev.without · pts), ite_self, h_bank, h_hl, Dev.testDrained_keep, Dev.raise_keep, upd_hl_keep]
theorem Dev.swapRole_keep {pts : List Part} (d : Dev) (a b cam : Nat) (h_bank : pts.contains .bank = true) (h_hl : pts.contains .hl = true)
    (h_pipe : pts.contains .pipe = true) : (Dev.swapRole d a b cam).without pts = d.without pts := by
  unfold Dev.swapRole
  (try simp only [foldl_keep, apply_ite (Dev.without · pts), ite_self, h_bank, h_hl, h_pipe, Dev.rollMoved_keep, Dev.raise_keep, Dev.syncPool_keep,
      Dev.drainTile_keep, Dev.setRole_keep])
  repeat' (first
    | (with_reducible rfl)
    | (simp only [h_bank, h_hl, h_pipe, Dev.rollMoved_keep, Dev.raise_keep, Dev.syncPool_keep, Dev.drainTile_keep, Dev.setRole_keep]; done)
    | (intro _)
    | split
    | (with_reducible refine (foldl_keep _ _ _ ?_).trans ?_)
    | (simp only [Dev.without, h_bank, h_hl, h_pipe, if_true]; done)
    | (simp only [foldl_keep, apply_ite (Dev.without · pts), ite_self, h_bank, h_hl, h_pipe, Dev.rollMoved_keep, Dev.raise_keep, Dev.syncPool_keep,
        Dev.drainTile_keep, Dev.setRole_keep]))
theorem Dev.rotateAt_keep {pts : List Part} (d : Dev) (c : Nat) (h_bank : pts.contains .bank = true) (h_hl : pts.contains .hl = true) (h_pipe :
    pts.contains .pipe = true) : (Dev.rotateAt d c).without pts = d.without pts := by
  unfold Dev.rotateAt
  repeat' (first
    | (with_reducible rfl)
    | (simp only [h_bank, h_hl, h_pipe, upd_pipe_keep, Dev.jobDecided_keep, Dev.swapRole_keep]; done)
    | (intro _)
    | split
    | (with_reducible refine (foldl_keep _ _ _ ?_).trans ?_)
    | (simp only [Dev.without, h_bank, h_hl, h_pipe, if_true]; done)
    | (simp only [foldl_keep, apply_ite (Dev.without · pts), ite_self, h_bank, h_hl, h_pipe, upd_pipe_keep, Dev.jobDecided_keep, Dev.swapRole_keep]))
theorem Dev.streamsLose_keep {pts : List Part} (d : Dev) (c n : Nat) (h_pipe : pts.contains .pipe = true) :
    (Dev.streamsLose d c n).without pts = d.without pts := by
  unfold Dev.streamsLose
  repeat' (first
    | (with_reducible rfl)
    | (simp only [h_pipe, upd_pipe_keep, Dev.fadd_keep]; done)
    | (intro _)
    | split
    | (with_reducible refine (foldl_keep _ _ _ ?_).trans ?_)
    | (simp only [Dev.without, h_pipe, if_true]; done)
    | (simp only [foldl_keep, apply_ite (Dev.without · pts), ite_self, h_pipe, upd_pipe_keep, Dev.fadd_keep]))
theorem Dev.setPcam_keep {pts : List Part} (d : Dev) (c : Nat) (p : PipeCam) (h_pipe : pts.contains .pipe = true) :
    (Dev.setPcam d c p).without pts = d.without pts := by
  unfold Dev.setPcam
  simp only [h_pipe, upd_pipe_keep]
theorem Dev.switchGen_keep {pts : List Part} (d : Dev) (c n : Nat) (h_pipe : pts.contains .pipe = true) :
    (Dev.switchGen d c n).without pts = d.without pts := by
  unfold Dev.switchGen
  repeat' (first
    | (with_reducible rfl)
    | (simp only [h_pipe, Dev.fs_keep, Dev.setPcam_keep]; done)
    | (intro _)
    | split
    | (with_reducible refine (foldl_keep _ _ _ ?_).trans ?_)
    | (simp only [Dev.without, h_pipe, if_true]; done)
    | (simp only [foldl_keep, apply_ite (Dev.without · pts), ite_self, h_pipe, Dev.fs_keep, Dev.setPcam_keep]))
theorem Dev.applySets_keep {pts : List Part} (d : Dev) (c n : Nat) (h_pipe : pts.contains .pipe = true) :
    (Dev.applySets d c n).without pts = d.without pts := by
  unfold Dev.applySets
  repeat' (first
    | (with_reducible rfl)
    | (simp only [h_pipe, Dev.raiseOnce_keep, Dev.wr_keep, Dev.setPcam_keep]; done)
    | (intro _)
    | split
    | (with_reducible refine (foldl_keep _ _ _ ?_).trans ?_)
    | (simp only [Dev.without, h_pipe, if_true]; done)
    | (simp only [foldl_keep, apply_ite (Dev.without · pts), ite_self, h_pipe, Dev.raiseOnce_keep, Dev.wr_keep, Dev.setPcam_keep]))
theorem Dev.overrunAt_keep {pts : List Part} (d : Dev) (c n slots : Nat) (h_ing : pts.contains .ing = true) (h_pipe : pts.contains .pipe = true) :
    (Dev.overrunAt d c n slots).without pts = d.without pts := by
  unfold Dev.overrunAt
  repeat' (first
    | (with_reducible rfl)
    | (simp only [h_ing, h_pipe, upd_ing_pipe_keep, Dev.raise_keep, Dev.streamsLose_keep, Dev.fadd_keep]; done)
    | (intro _)
    | split
    | (with_reducible refine (foldl_keep _ _ _ ?_).trans ?_)
    | (simp only [Dev.without, h_ing, h_pipe, if_true]; done)
    | (simp only [foldl_keep, apply_ite (Dev.without · pts), ite_self, h_ing, h_pipe, upd_ing_keep, upd_pipe_keep, upd_ing_pipe_keep, Dev.raise_keep,
        Dev.streamsLose_keep, Dev.fadd_keep]))
theorem Dev.pipeRestart_keep {pts : List Part} (d : Dev) (c : Nat) (h_ing : pts.contains .ing = true) (h_pipe : pts.contains .pipe = true) :
    (Dev.pipeRestart d c).without pts = d.without pts := by
  unfold Dev.pipeRestart
  simp only [h_ing, h_pipe, upd_ing_keep, Dev.setPcam_keep]
theorem Dev.atOpen_keep {pts : List Part} (d : Dev) (c n slots stamp : Nat) (h_bank : pts.contains .bank = true) (h_hl : pts.contains .hl = true)
    (h_ing : pts.contains .ing = true) (h_pipe : pts.contains .pipe = true) : (Dev.atOpen d c n slots stamp).without pts = d.without pts := by
  unfold Dev.atOpen
  (try simp only [h_bank, h_hl, h_ing, h_pipe, Dev.overrunAt_keep, Dev.rotateAt_keep, Dev.applySets_keep])
  repeat' (first
    | (with_reducible rfl)
    | (simp only [apply_ite (Dev.without · pts), ite_self, h_ing, h_pipe, upd_ing_keep, Dev.switchGen_keep]; done)
    | (intro _)
    | split
    | (with_reducible refine (foldl_keep _ _ _ ?_).trans ?_)
    | (simp only [Dev.without, h_bank, h_hl, h_ing, h_pipe, if_true]; done)
    | (simp only [foldl_keep, apply_ite (Dev.without · pts), ite_self, h_bank, h_hl, h_ing, h_pipe, upd_ing_keep, Dev.switchGen_keep,
        Dev.overrunAt_keep, Dev.rotateAt_keep, Dev.applySets_keep]))
theorem Dev.setStage_keep {pts : List Part} (d : Dev) (n : Nat) : (Dev.setStage d n).without pts = d.without pts := by
  unfold Dev.setStage
  simp only [Dev.fs_keep]
theorem Dev.putLayout_keep {pts : List Part} (d : Dev) (sizes : List Nat) : (Dev.putLayout d sizes).without pts = d.without pts := by
  unfold Dev.putLayout
  exact foldl_keep1 _ _ _ (fun q x => by simp only [Dev.fs_keep])
theorem Dev.putUser_keep {pts : List Part} (d : Dev) (div : List Nat) (h_hbm : pts.contains .hbm = true) :
    (Dev.putUser d div).without pts = d.without pts := by
  unfold Dev.putUser
  simp only [apply_ite (Dev.without · pts), ite_self, h_hbm, upd_hbm_keep, Dev.hbmCfg_keep]
theorem Dev.trained_keep {pts : List Part} (d : Dev) (spares : List (Nat × Nat)) (failed : List Nat) (sizes div : List Nat) (h_hbm :
    pts.contains .hbm = true) (h_boot : pts.contains .boot = true) : (Dev.trained d spares failed sizes div).without pts = d.without pts := by
  unfold Dev.trained
  split
  · rfl
  · split
    · simp only [Dev.setStage_keep, Dev.nvPut_keep, Dev.raise_keep, h_boot]
    · extract_lets d1 tp g0 d2 good d3 d4 d5 b0 d6
      have h1 : d1.without pts = d.without pts := by
        refine foldl_keep _ _ _ (fun e p => ?_)
        split
        · rfl
        · simp only [Dev.raise_keep, Dev.fs_keep]
      have h2 : d2.without pts = d.without pts := by
        simp only [d2]
        cases tp with
        | some p =>
          simp only [Dev.fs_keep]
          exact (upd_hbm_keep d1 _ h_hbm).trans h1
        | none =>
          simp only [Dev.hbmCfg_keep, Dev.fs_keep]
          exact h1
      have h3 : d3.without pts = d.without pts := by
        simp only [d3]
        split
        · exact h2
        · exact (Dev.hbmCfg_keep d2 _).trans h2
      have h5 : d5.without pts = d.without pts :=
        (foldl_keep _ _ _ (fun e n => Dev.fs_keep e _ _ _ _)).trans ((Dev.putUser_keep _ div h_hbm).trans ((Dev.putLayout_keep d3 _).trans h3))
      simp only [Dev.setStage_keep, Dev.fs_keep]
      exact (upd_hbm_keep d5 _ h_hbm).trans h5
theorem attReportDone_keep {pts : List Part} (nv : Nv) (d : Dev) (r : Req) (h_hbm : pts.contains .hbm = true) (h_host : pts.contains .host = true) :
    (attReportDone nv d r).without pts = d.without pts := by
  unfold attReportDone
  simp only [apply_ite (Dev.without · pts), ite_self, h_hbm, h_host, Dev.hbmW_keep, Dev.hostW_keep]
theorem Dev.openDebug_keep {pts : List Part} (d : Dev) (h_fab : pts.contains .fab = true) : (Dev.openDebug d).without pts = d.without pts := by
  unfold Dev.openDebug
  simp only [h_fab, upd_fab_keep, Dev.raise_keep, Dev.fs_keep]
theorem Dev.setLinkSt_keep {pts : List Part} (d : Dev) (n : Nat) (x : LinkSt) (h_ln : pts.contains .ln = true) :
    (Dev.setLinkSt d n x).without pts = d.without pts := by
  unfold Dev.setLinkSt
  simp only [h_ln, upd_ln_keep]
theorem Dev.setLane_keep {pts : List Part} (d : Dev) (l : Nat) (x : LaneSt) (h_ln : pts.contains .ln = true) :
    (Dev.setLane d l x).without pts = d.without pts := by
  unfold Dev.setLane
  simp only [h_ln, upd_ln_keep]
theorem Dev.setLstate_keep {pts : List Part} (d : Dev) (n st : Nat) : (Dev.setLstate d n st).without pts = d.without pts := by
  unfold Dev.setLstate
  (try simp only [foldl_keep, apply_ite (Dev.without · pts), ite_self, Dev.fs_keep])
  repeat' (first
    | (with_reducible rfl)
    | (simp only [Dev.fs_keep]; done)
    | (intro _)
    | split
    | (with_reducible refine (foldl_keep _ _ _ ?_).trans ?_)
    | (simp only [foldl_keep, apply_ite (Dev.without · pts), ite_self, Dev.fs_keep]))
theorem Dev.linkEv_keep {pts : List Part} (d : Dev) (code sev n lane : Nat) : (Dev.linkEv d code sev n lane).without pts = d.without pts := by
  unfold Dev.linkEv
  simp only [Dev.raise_keep]
theorem Dev.beginTrain_keep {pts : List Part} (d : Dev) (n mode : Nat) (h_ln : pts.contains .ln = true) : (Dev.beginTrain d n mode).without pts =
    d.without pts := by
  unfold Dev.beginTrain
  repeat' (first
    | (with_reducible rfl)
    | (simp only [apply_ite (Dev.without · pts), ite_self, h_ln, Dev.fs_keep, Dev.setLane_keep, Dev.setLinkSt_keep, Dev.setLstate_keep]; done)
    | (intro _)
    | split
    | (with_reducible refine (foldl_keep _ _ _ ?_).trans ?_)
    | (simp only [Dev.without, h_ln, if_true]; done)
    | (simp only [foldl_keep, apply_ite (Dev.without · pts), ite_self, h_ln, Dev.fs_keep, Dev.setLane_keep, Dev.setLinkSt_keep,
        Dev.setLstate_keep]))
theorem Dev.train_keep {pts : List Part} (d : Dev) (n mode : Nat) (h_ln : pts.contains .ln = true) : (Dev.train d n mode).without pts = d.without
    pts := by
  unfold Dev.train
  repeat' (first
    | (with_reducible rfl)
    | (simp only [h_ln, Dev.setLinkSt_keep, Dev.setLstate_keep, Dev.fadd_keep, Dev.setLane_keep, Dev.fs_keep, Dev.beginTrain_keep]; done)
    | (intro _)
    | split
    | (with_reducible refine (foldl_keep _ _ _ ?_).trans ?_)
    | (simp only [Dev.without, h_ln, if_true]; done)
    | (simp only [foldl_keep, apply_ite (Dev.without · pts), ite_self, h_ln, Dev.setLinkSt_keep, Dev.setLstate_keep, Dev.fadd_keep,
        Dev.setLane_keep, Dev.fs_keep, Dev.beginTrain_keep]))
theorem Dev.leaveUp_keep {pts : List Part} (d : Dev) (n lane : Nat) (h_tw : pts.contains .tw = true) (h_md : pts.contains .md = true) :
    (Dev.leaveUp d n lane).without pts = d.without pts := by
  unfold Dev.leaveUp
  simp only [apply_ite (Dev.without · pts), ite_self, h_tw, h_md, Dev.linkLeft_keep, Dev.linkEv_keep]
theorem Dev.linkCause_keep {pts : List Part} (d : Dev) (n lane : Nat) (h_tw : pts.contains .tw = true) (h_ln : pts.contains .ln = true) (h_md :
    pts.contains .md = true) : (Dev.linkCause d n lane).without pts = d.without pts := by
  unfold Dev.linkCause
  simp only [apply_ite (Dev.without · pts), ite_self, h_tw, h_ln, h_md, Dev.setLinkSt_keep, Dev.leaveUp_keep, Dev.train_keep, Dev.fadd_keep]
theorem Dev.syncLink_keep {pts : List Part} (d : Dev) (n : Nat) (h_tw : pts.contains .tw = true) (h_ln : pts.contains .ln = true) (h_md :
    pts.contains .md = true) : (Dev.syncLink d n).without pts = d.without pts := by
  unfold Dev.syncLink
  simp only [apply_ite (Dev.without · pts), ite_self, h_tw, h_ln, h_md, Dev.setLinkSt_keep, Dev.train_keep, Dev.setLstate_keep, Dev.leaveUp_keep,
    Dev.beginTrain_keep]
theorem Dev.syncLinks_keep {pts : List Part} (d : Dev) (h_tw : pts.contains .tw = true) (h_ln : pts.contains .ln = true) (h_md :
    pts.contains .md = true) : (Dev.syncLinks d).without pts = d.without pts := by
  unfold Dev.syncLinks
  (try simp only [foldl_keep, apply_ite (Dev.without · pts), ite_self, h_tw, h_ln, h_md, Dev.syncLink_keep])
  repeat' (first
    | (with_reducible rfl)
    | (simp only [h_tw, h_ln, h_md, Dev.syncLink_keep]; done)
    | (intro _)
    | split
    | (with_reducible refine (foldl_keep _ _ _ ?_).trans ?_)
    | (simp only [Dev.without, h_tw, h_ln, h_md, if_true]; done)
    | (simp only [foldl_keep, apply_ite (Dev.without · pts), ite_self, h_tw, h_ln, h_md, Dev.syncLink_keep]))
theorem Dev.laneCfg_keep {pts : List Part} (d : Dev) (m : Nat) : (Dev.laneCfg d m).without pts = d.without pts := by
  unfold Dev.laneCfg
  simp only [Dev.raise_keep]
theorem Dev.effQuadCfg_keep {pts : List Part} (d : Dev) (m q : Nat) (v : Word) (h_fab : pts.contains .fab = true) (h_tw : pts.contains .tw = true)
    (h_ln : pts.contains .ln = true) (h_md : pts.contains .md = true) : (Dev.effQuadCfg d m q v).without pts = d.without pts := by
  unfold Dev.effQuadCfg
  (try simp only [apply_ite (Dev.without · pts), h_fab, h_tw, h_ln, h_md, Dev.laneCfg_keep, Dev.fs_keep, Dev.syncLinks_keep, Dev.cfgWritten_keep])
  repeat' (first
    | (with_reducible rfl)
    | (simp only [apply_ite (Dev.without · pts), ite_self, Dev.fs_keep]; done)
    | (intro _)
    | split
    | (with_reducible refine (foldl_keep _ _ _ ?_).trans ?_)
    | (simp only [Dev.without, h_fab, h_tw, h_ln, h_md, if_true]; done)
    | (simp only [foldl_keep, apply_ite (Dev.without · pts), ite_self, h_fab, h_tw, h_ln, h_md, Dev.laneCfg_keep, Dev.fs_keep, Dev.syncLinks_keep,
        Dev.cfgWritten_keep]))
theorem Dev.effLnkMap_keep {pts : List Part} (d : Dev) (m n : Nat) (v : Word) (h_fab : pts.contains .fab = true) (h_tw : pts.contains .tw = true)
    (h_ln : pts.contains .ln = true) (h_md : pts.contains .md = true) : (Dev.effLnkMap d m n v).without pts = d.without pts := by
  unfold Dev.effLnkMap
  simp only [apply_ite (Dev.without · pts), ite_self, h_fab, h_tw, h_ln, h_md, Dev.laneCfg_keep, Dev.syncLinks_keep, Dev.putFields_keep,
      Dev.setLstate_keep, Dev.setLinkSt_keep, Dev.leaveUp_keep]
theorem Dev.retrain_keep {pts : List Part} (d : Dev) (l : Nat) (h_tw : pts.contains .tw = true) (h_ln : pts.contains .ln = true) (h_md :
    pts.contains .md = true) : (Dev.retrain d l).without pts = d.without pts := by
  unfold Dev.retrain
  repeat' (first
    | (with_reducible rfl)
    | (simp only [apply_ite (Dev.without · pts), ite_self, h_tw, h_ln, h_md, Dev.linkCause_keep, Dev.train_keep, Dev.setLinkSt_keep]; done)
    | (intro _)
    | split
    | (with_reducible refine (foldl_keep _ _ _ ?_).trans ?_)
    | (simp only [Dev.without, h_tw, h_ln, h_md, if_true]; done)
    | (simp only [foldl_keep, apply_ite (Dev.without · pts), ite_self, h_tw, h_ln, h_md, Dev.linkCause_keep, Dev.train_keep, Dev.setLinkSt_keep]))
theorem Dev.fullTrain_keep {pts : List Part} (d : Dev) (l : Nat) (h_tw : pts.contains .tw = true) (h_ln : pts.contains .ln = true) (h_md :
    pts.contains .md = true) : (Dev.fullTrain d l).without pts = d.without pts := by
  unfold Dev.fullTrain
  (try simp only [foldl_keep, apply_ite (Dev.without · pts), ite_self, h_tw, h_ln, h_md, Dev.train_keep, Dev.setLinkSt_keep, Dev.leaveUp_keep])
  repeat' (first
    | (with_reducible rfl)
    | (simp only [apply_ite (Dev.without · pts), ite_self, h_tw, h_ln, h_md, Dev.train_keep, Dev.setLinkSt_keep, Dev.leaveUp_keep]; done)
    | (intro _)
    | split
    | (with_reducible refine (foldl_keep _ _ _ ?_).trans ?_)
    | (simp only [Dev.without, h_tw, h_ln, h_md, if_true]; done)
    | (simp only [foldl_keep, apply_ite (Dev.without · pts), ite_self, h_tw, h_ln, h_md, Dev.train_keep, Dev.setLinkSt_keep, Dev.leaveUp_keep]))
theorem Dev.effLnCtl_keep {pts : List Part} (d : Dev) (m l : Nat) (v : Word) (h_fab : pts.contains .fab = true) (h_tw : pts.contains .tw = true)
    (h_ln : pts.contains .ln = true) (h_md : pts.contains .md = true) : (Dev.effLnCtl d m l v).without pts = d.without pts := by
  unfold Dev.effLnCtl
  simp only [apply_ite (Dev.without · pts), ite_self, h_fab, h_tw, h_ln, h_md, Dev.laneCfg_keep, Dev.putFields_keep, Dev.retrain_keep,
      Dev.fullTrain_keep]
theorem Dev.lnCtlBy_keep {pts : List Part} (d : Dev) (m l : Nat) (v : Word) (h_fab : pts.contains .fab = true) (h_qf : pts.contains .qf = true)
    (h_hbm : pts.contains .hbm = true) (h_host : pts.contains .host = true) (h_tw : pts.contains .tw = true) (h_ln : pts.contains .ln = true)
    (h_md : pts.contains .md = true) : (Dev.lnCtlBy d m l v).without pts = d.without pts := by
  unfold Dev.lnCtlBy
  (try simp only [foldl_keep, apply_ite (Dev.without · pts), ite_self, h_fab, h_qf, h_hbm, h_host, h_tw, h_ln, h_md, Dev.gated_keep,
      Dev.effLnCtl_keep])
  repeat' (first
    | (with_reducible rfl)
    | (simp only [h_fab, h_tw, h_ln, h_md, Dev.effLnCtl_keep]; done)
    | (intro _)
    | split
    | (with_reducible refine (foldl_keep _ _ _ ?_).trans ?_)
    | (simp only [Dev.without, h_fab, h_qf, h_hbm, h_host, h_tw, h_ln, h_md, if_true]; done)
    | (with_reducible refine (Dev.gated_keep _ _ _ _ _ _ _ h_fab h_qf h_hbm h_host ?_).trans ?_)
    | (simp only [foldl_keep, apply_ite (Dev.without · pts), ite_self, h_fab, h_qf, h_hbm, h_host, h_tw, h_ln, h_md, Dev.gated_keep,
        Dev.effLnCtl_keep]))
theorem Dev.linkBlock_keep {pts : List Part} (d : Dev) (l far tap act seq : Nat) (h_ln : pts.contains .ln = true) :
    (Dev.linkBlock d l far tap act seq).without pts = d.without pts := by
  unfold Dev.linkBlock
  (try simp only [apply_ite (Dev.without · pts), h_ln, Dev.setLane_keep])
  repeat' (first
    | (with_reducible rfl)
    | (simp only [h_ln, Dev.setLane_keep, Dev.fs_keep]; done)
    | (intro _)
    | split
    | (with_reducible refine (foldl_keep _ _ _ ?_).trans ?_)
    | (simp only [Dev.without, h_ln, if_true]; done)
    | (simp only [foldl_keep, apply_ite (Dev.without · pts), ite_self, h_ln, Dev.setLane_keep, Dev.fs_keep]))
theorem Dev.linkUp_keep {pts : List Part} (d : Dev) (n skew : Nat) (h_ln : pts.contains .ln = true) : (Dev.linkUp d n skew).without pts = d.without
    pts := by
  unfold Dev.linkUp
  simp only [h_ln, Dev.fs_keep, Dev.setLstate_keep, Dev.setLinkSt_keep, Dev.linkCame_keep, Dev.linkEv_keep]
  exact foldl_keep _ _ _ fun e l => Dev.fs_keep e _ _ _ _
theorem Dev.alignColumn_keep {pts : List Part} (d : Dev) (n skew : Nat) (col : List (Nat × Nat × Nat)) (h_tw : pts.contains .tw = true) (h_ln :
    pts.contains .ln = true) (h_md : pts.contains .md = true) : (Dev.alignColumn d n skew col).without pts = d.without pts := by
  unfold Dev.alignColumn
  simp only [apply_ite (Dev.without · pts), ite_self, h_tw, h_ln, h_md, Dev.fs_keep, Dev.linkCause_keep, Dev.linkEv_keep, Dev.linkUp_keep,
      Dev.setLstate_keep, Dev.setLinkSt_keep]
theorem Dev.lockLost_keep {pts : List Part} (d : Dev) (l : Nat) (h_tw : pts.contains .tw = true) (h_ln : pts.contains .ln = true) (h_md :
    pts.contains .md = true) : (Dev.lockLost d l).without pts = d.without pts := by
  unfold Dev.lockLost
  repeat' (first
    | (with_reducible rfl)
    | (simp only [h_tw, h_ln, h_md, Dev.fs_keep, Dev.fadd_keep, Dev.linkCause_keep]; done)
    | (intro _)
    | split
    | (with_reducible refine (foldl_keep _ _ _ ?_).trans ?_)
    | (simp only [Dev.without, h_tw, h_ln, h_md, if_true]; done)
    | (simp only [foldl_keep, apply_ite (Dev.without · pts), ite_self, h_tw, h_ln, h_md, Dev.fs_keep, Dev.fadd_keep, Dev.linkCause_keep]))
theorem Dev.overflow_keep {pts : List Part} (d : Dev) (l : Nat) (h_tw : pts.contains .tw = true) (h_ln : pts.contains .ln = true) (h_md :
    pts.contains .md = true) : (Dev.overflow d l).without pts = d.without pts := by
  unfold Dev.overflow
  (try simp only [foldl_keep, apply_ite (Dev.without · pts), ite_self, h_tw, h_ln, h_md, Dev.linkCause_keep, Dev.linkEv_keep])
  repeat' (first
    | (with_reducible rfl)
    | (simp only [h_tw, h_ln, h_md, Dev.linkCause_keep, Dev.linkEv_keep]; done)
    | (intro _)
    | split
    | (with_reducible refine (foldl_keep _ _ _ ?_).trans ?_)
    | (simp only [Dev.without, h_tw, h_ln, h_md, if_true]; done)
    | (simp only [foldl_keep, apply_ite (Dev.without · pts), ite_self, h_tw, h_ln, h_md, Dev.linkCause_keep, Dev.linkEv_keep]))
theorem Dev.remoteFault_keep {pts : List Part} (d : Dev) (l : Nat) (h_tw : pts.contains .tw = true) (h_ln : pts.contains .ln = true) (h_md :
    pts.contains .md = true) : (Dev.remoteFault d l).without pts = d.without pts := by
  unfold Dev.remoteFault
  repeat' (first
    | (with_reducible rfl)
    | (simp only [h_tw, h_ln, h_md, Dev.fs_keep, Dev.linkCause_keep, Dev.linkEv_keep]; done)
    | (intro _)
    | split
    | (with_reducible refine (foldl_keep _ _ _ ?_).trans ?_)
    | (simp only [Dev.without, h_tw, h_ln, h_md, if_true]; done)
    | (simp only [foldl_keep, apply_ite (Dev.without · pts), ite_self, h_tw, h_ln, h_md, Dev.fs_keep, Dev.linkCause_keep, Dev.linkEv_keep]))
theorem Dev.perst_keep {pts : List Part} (d : Dev) (h_fab : pts.contains .fab = true) (h_qf : pts.contains .qf = true) :
    (Dev.perst d).without pts = d.without pts := by
  unfold Dev.perst
  (try simp only [h_qf, upd_qf_keep])
  repeat' (first
    | (with_reducible rfl)
    | (simp only [h_fab, h_qf, Dev.endHold_keep, Dev.closeAll_keep]; done)
    | (intro _)
    | split
    | (with_reducible refine (foldl_keep _ _ _ ?_).trans ?_)
    | (simp only [Dev.without, h_fab, h_qf, if_true]; done)
    | (simp only [foldl_keep, apply_ite (Dev.without · pts), ite_self, h_fab, h_qf, upd_qf_keep, Dev.endHold_keep, Dev.closeAll_keep]))
theorem Dev.pcieDown_keep {pts : List Part} (d : Dev) (h_fab : pts.contains .fab = true) (h_qf : pts.contains .qf = true) :
    (Dev.pcieDown d).without pts = d.without pts := by
  unfold Dev.pcieDown
  simp only [h_fab, h_qf, Dev.raise_keep, Dev.perst_keep]
theorem Dev.refLost_keep {pts : List Part} (d : Dev) (q : Nat) (h_fab : pts.contains .fab = true) (h_qf : pts.contains .qf = true) (h_tw :
    pts.contains .tw = true) (h_ln : pts.contains .ln = true) (h_md : pts.contains .md = true) : (Dev.refLost d q).without pts = d.without pts := by
  unfold Dev.refLost
  (try simp only [apply_ite (Dev.without · pts), ite_self, h_fab, h_qf, Dev.pcieDown_keep])
  repeat' (first
    | (with_reducible rfl)
    | (simp only [apply_ite (Dev.without · pts), ite_self, h_tw, h_ln, h_md, Dev.raise_keep, Dev.fs_keep, Dev.setLstate_keep, Dev.setLinkSt_keep,
        Dev.leaveUp_keep]; done)
    | (intro _)
    | split
    | (with_reducible refine (foldl_keep _ _ _ ?_).trans ?_)
    | (simp only [Dev.without, h_fab, h_qf, h_tw, h_ln, h_md, if_true]; done)
    | (simp only [foldl_keep, apply_ite (Dev.without · pts), ite_self, h_fab, h_qf, h_tw, h_ln, h_md, Dev.raise_keep, Dev.fs_keep,
        Dev.setLstate_keep, Dev.setLinkSt_keep, Dev.leaveUp_keep, Dev.pcieDown_keep]))
theorem Dev.fullTimeout_keep {pts : List Part} (d : Dev) (n : Nat) (h_ln : pts.contains .ln = true) :
    (Dev.fullTimeout d n).without pts = d.without pts := by
  unfold Dev.fullTimeout
  simp only [apply_ite (Dev.without · pts), ite_self, h_ln, Dev.setLstate_keep, Dev.setLinkSt_keep, Dev.train_keep, Dev.linkEv_keep]
theorem Dev.setSrc_keep {pts : List Part} (d : Dev) (x : SrcId) (v : SrcSt) (h_ing : pts.contains .ing = true) :
    (Dev.setSrc d x v).without pts = d.without pts := by
  unfold Dev.setSrc
  simp only [h_ing, upd_ing_keep]
theorem Dev.setCam_keep {pts : List Part} (d : Dev) (c : Nat) (v : CamSt) (h_ing : pts.contains .ing = true) :
    (Dev.setCam d c v).without pts = d.without pts := by
  unfold Dev.setCam
  simp only [h_ing, upd_ing_keep]
theorem Dev.modCam_keep {pts : List Part} (d : Dev) (c : Nat) (f : CamSt → CamSt) (h_ing : pts.contains .ing = true) :
    (Dev.modCam d c f).without pts = d.without pts := by
  unfold Dev.modCam
  simp only [h_ing, Dev.setCam_keep]
theorem Dev.pktErr_keep {pts : List Part} (d : Dev) (k link code sev : Nat) (h_ing : pts.contains .ing = true) : (Dev.pktErr d k link code
    sev).without pts = d.without pts := by
  unfold Dev.pktErr
  repeat' (first
    | (with_reducible rfl)
    | (simp only [apply_ite (Dev.without · pts), ite_self, h_ing, upd_ing_keep, Dev.raiseOnce_keep]; done)
    | (intro _)
    | split
    | (with_reducible refine (foldl_keep _ _ _ ?_).trans ?_)
    | (simp only [Dev.without, h_ing, if_true]; done)
    | (simp only [foldl_keep, apply_ite (Dev.without · pts), ite_self, h_ing, upd_ing_keep, Dev.raiseOnce_keep]))
theorem Dev.ptErr_keep {pts : List Part} (d : Dev) (link : Nat) (told : Bool) (h_ing : pts.contains .ing = true) : (Dev.ptErr d link told).without
    pts = d.without pts := by
  unfold Dev.ptErr
  simp only [apply_ite (Dev.without · pts), ite_self, Dev.fadd_keep, Dev.raiseOnce_keep, h_ing, Dev.pktErr_keep]
theorem Dev.crcErr_keep {pts : List Part} (d : Dev) (link : Nat) (h_ing : pts.contains .ing = true) : (Dev.crcErr d link).without pts = d.without
    pts := by
  unfold Dev.crcErr
  simp only [Dev.fadd_keep, Dev.raiseOnce_keep, h_ing, Dev.pktErr_keep]
theorem Dev.pktIn_keep {pts : List Part} (d : Dev) (link : Nat) : (Dev.pktIn d link).without pts = d.without pts := by
  unfold Dev.pktIn
  simp only [Dev.set64_keep]
theorem Dev.srcDrop_keep {pts : List Part} (d : Dev) (x : SrcId) : (Dev.srcDrop d x).without pts = d.without pts := by
  unfold Dev.srcDrop
  simp only [Dev.fadd_keep]
theorem Dev.upPacket_keep {pts : List Part} (d : Dev) (x : SrcId) (crcOk : Bool) (f : Dev → Dev) (hf : ∀ (y0 : Dev), (f y0).without pts =
    y0.without pts) (h_ing : pts.contains .ing = true) : (Dev.upPacket d x crcOk f).without pts = d.without pts := by
  unfold Dev.upPacket
  simp only [apply_ite (Dev.without · pts), ite_self, hf, Dev.crcErr_keep, Dev.ptErr_keep, Dev.pktIn_keep, h_ing]
theorem Dev.frameFlag_keep {pts : List Part} (d : Dev) (c b : Nat) (h_ing : pts.contains .ing = true) :
    (Dev.frameFlag d c b).without pts = d.without pts := by
  unfold Dev.frameFlag
  simp only [h_ing, Dev.modCam_keep]
theorem Dev.modMem_keep {pts : List Part} (d : Dev) (c m : Nat) (f : MemSt → MemSt) (h_ing : pts.contains .ing = true) :
    (Dev.modMem d c m f).without pts = d.without pts := by
  unfold Dev.modMem
  simp only [h_ing, Dev.modCam_keep]
theorem Dev.emitLine_keep {pts : List Part} (d : Dev) (x : SrcId) (no stamp segs fill flags : Nat) (px : List Nat) (h_ing :
    pts.contains .ing = true) : (Dev.emitLine d x no stamp segs fill flags px).without pts = d.without pts := by
  unfold Dev.emitLine
  simp only [h_ing, upd_ing_keep, Dev.modCam_keep, Dev.modMem_keep]
theorem Dev.fillLine_keep {pts : List Part} (d : Dev) (gap : Nat) (x : SrcId) (no : Nat) (h_ing : pts.contains .ing = true) :
    (Dev.fillLine d gap x no).without pts = d.without pts := by
  unfold Dev.fillLine
  simp only [h_ing, Dev.emitLine_keep]
theorem Dev.fillLines_keep {pts : List Part} (d : Dev) (gap : Nat) (x : SrcId) (a n : Nat) (h_ing : pts.contains .ing = true) :
    (Dev.fillLines d gap x a n).without pts = d.without pts := by
  unfold Dev.fillLines
  (try simp only [foldl_keep, apply_ite (Dev.without · pts), ite_self, h_ing, Dev.fillLine_keep])
  repeat' (first
    | (with_reducible rfl)
    | (simp only [h_ing, Dev.fillLine_keep]; done)
    | (intro _)
    | split
    | (with_reducible refine (foldl_keep _ _ _ ?_).trans ?_)
    | (simp only [Dev.without, h_ing, if_true]; done)
    | (simp only [foldl_keep, apply_ite (Dev.without · pts), ite_self, h_ing, Dev.fillLine_keep]))
theorem Dev.closeLine_keep {pts : List Part} (d : Dev) (x : SrcId) (h_ing : pts.contains .ing = true) :
    (Dev.closeLine d x).without pts = d.without pts := by
  unfold Dev.closeLine
  repeat' (first
    | (with_reducible rfl)
    | (simp only [h_ing, Dev.emitLine_keep, Dev.setSrc_keep]; done)
    | (intro _)
    | split
    | (with_reducible refine (foldl_keep _ _ _ ?_).trans ?_)
    | (simp only [Dev.without, h_ing, if_true]; done)
    | (simp only [foldl_keep, apply_ite (Dev.without · pts), ite_self, h_ing, Dev.emitLine_keep, Dev.setSrc_keep]))
theorem Dev.closeSource_keep {pts : List Part} (d : Dev) (x : SrcId) (noFe : Bool) (h_ing : pts.contains .ing = true) :
    (Dev.closeSource d x noFe).without pts = d.without pts := by
  unfold Dev.closeSource
  simp only [apply_ite (Dev.without · pts), ite_self, h_ing, Dev.closeLine_keep, Dev.frameFlag_keep, Dev.fillLines_keep, Dev.modMem_keep,
      Dev.fadd_keep, Dev.setSrc_keep]
theorem Dev.missMember_keep {pts : List Part} (d : Dev) (c m : Nat) (h_ing : pts.contains .ing = true) :
    (Dev.missMember d c m).without pts = d.without pts := by
  unfold Dev.missMember
  repeat' (first
    | (with_reducible rfl)
    | (simp only [h_ing, Dev.frameFlag_keep, Dev.fillLines_keep, Dev.modMem_keep]; done)
    | (intro _)
    | split
    | (with_reducible refine (foldl_keep _ _ _ ?_).trans ?_)
    | (simp only [Dev.without, h_ing, if_true]; done)
    | (simp only [foldl_keep, apply_ite (Dev.without · pts), ite_self, h_ing, Dev.frameFlag_keep, Dev.fillLines_keep, Dev.modMem_keep]))
theorem Dev.missAll_keep {pts : List Part} (d : Dev) (c : Nat) (h_ing : pts.contains .ing = true) :
    (Dev.missAll d c).without pts = d.without pts := by
  unfold Dev.missAll
  repeat' (first
    | (with_reducible rfl)
    | (simp only [apply_ite (Dev.without · pts), ite_self, h_ing, Dev.missMember_keep]; done)
    | (intro _)
    | split
    | (with_reducible refine (foldl_keep _ _ _ ?_).trans ?_)
    | (simp only [Dev.without, h_ing, if_true]; done)
    | (simp only [foldl_keep, apply_ite (Dev.without · pts), ite_self, h_ing, Dev.missMember_keep]))
theorem Dev.fillGaps_keep {pts : List Part} (d : Dev) (c : Nat) (h_hbm : pts.contains .hbm = true) :
    (Dev.fillGaps d c).without pts = d.without pts := by
  unfold Dev.fillGaps
  repeat' (first
    | (with_reducible rfl)
    | (simp only [h_hbm, Dev.hbmW_keep]; done)
    | (intro _)
    | split
    | (with_reducible refine (foldl_keep _ _ _ ?_).trans ?_)
    | (simp only [Dev.without, h_hbm, if_true]; done)
    | (simp only [foldl_keep, apply_ite (Dev.without · pts), ite_self, h_hbm, Dev.hbmW_keep]))
theorem Dev.tellCommit_keep {pts : List Part} (d : Dev) (c : Nat) (h_pipe : pts.contains .pipe = true) :
    (Dev.tellCommit d c).without pts = d.without pts := by
  unfold Dev.tellCommit
  simp only [h_pipe, Dev.raise_keep, Dev.setPcam_keep]
theorem Dev.commitIdle_keep {pts : List Part} (d : Dev) (c job : Nat) (h_pipe : pts.contains .pipe = true) : (Dev.commitIdle d c job).without pts =
    d.without pts := by
  unfold Dev.commitIdle
  repeat' (first
    | (with_reducible rfl)
    | (simp only [apply_ite (Dev.without · pts), ite_self, h_pipe, Dev.jobDecided_keep, Dev.switchGen_keep, Dev.tellCommit_keep]; done)
    | (intro _)
    | split
    | (with_reducible refine (foldl_keep _ _ _ ?_).trans ?_)
    | (simp only [Dev.without, h_pipe, if_true]; done)
    | (simp only [foldl_keep, apply_ite (Dev.without · pts), ite_self, h_pipe, Dev.jobDecided_keep, Dev.switchGen_keep, Dev.tellCommit_keep]))
theorem Dev.setsWait_keep {pts : List Part} (d : Dev) (c : Nat) (h_pipe : pts.contains .pipe = true) : (Dev.setsWait d c).without pts = d.without
    pts := by
  unfold Dev.setsWait
  repeat' (first
    | (with_reducible rfl)
    | (simp only [apply_ite (Dev.without · pts), ite_self, h_pipe, Dev.setPcam_keep]; done)
    | (intro _)
    | split
    | (with_reducible refine (foldl_keep _ _ _ ?_).trans ?_)
    | (simp only [Dev.without, h_pipe, if_true]; done)
    | (simp only [foldl_keep, apply_ite (Dev.without · pts), ite_self, h_pipe, Dev.setPcam_keep]))
theorem Dev.camHalt_keep {pts : List Part} (d : Dev) (c : Nat) (h_ing : pts.contains .ing = true) (h_pipe : pts.contains .pipe = true) :
    (Dev.camHalt d c).without pts = d.without pts := by
  unfold Dev.camHalt
  simp only [apply_ite (Dev.without · pts), ite_self, h_ing, Dev.modCam_keep, Dev.raise_keep, Dev.fs_keep, h_pipe, Dev.commitIdle_keep, Dev.setsWait_keep]
theorem Dev.tellFlags_keep {pts : List Part} (d : Dev) (c n flags : Nat) : (Dev.tellFlags d c n flags).without pts = d.without pts := by
  unfold Dev.tellFlags
  simp only [apply_ite (Dev.without · pts), ite_self, Dev.fadd_keep, Dev.raiseOnce_keep]
theorem Dev.closeFrame_keep {pts : List Part} (d : Dev) (c : Nat) (timeout : Bool) (h_hbm : pts.contains .hbm = true) (h_ing : pts.contains .ing =
    true) (h_ps : pts.contains .ps = true) (h_md : pts.contains .md = true) (h_pipe : pts.contains .pipe = true) : (Dev.closeFrame d c
    timeout).without pts = d.without pts := by
  unfold Dev.closeFrame
  split
  · rfl
  · extract_lets d1 d2 d3 d4 s stop slot d5 rep coded i0 p0 d6 d7 d8 d9 d10 d11
    have h1 : d1.without pts = d.without pts := by
      refine foldl_keep _ _ _ (fun e x => ?_)
      split
      · simp only [Dev.closeSource_keep, h_ing, h_pipe, h_hbm, upd_ing_keep, Dev.camHalt_keep, Dev.fillGaps_keep, Dev.frameFlag_keep, Dev.fs_keep,
    Dev.hbmW_keep, Dev.missAll_keep, Dev.raise_keep, Dev.setCam_keep, Dev.tellFlags_keep]
      · rfl
    have h3 : d3.without pts = d.without pts := by
      simp only [d3, d2, apply_ite (Dev.without · pts), Dev.frameFlag_keep, Dev.missAll_keep, ite_self, h_ing, h_pipe, h_hbm, upd_ing_keep,
    Dev.camHalt_keep, Dev.closeSource_keep, Dev.fillGaps_keep, Dev.fs_keep, Dev.hbmW_keep, Dev.raise_keep, Dev.setCam_keep, Dev.tellFlags_keep]
      exact h1
    have h5 : d5.without pts = d.without pts := by
      simp only [d5, Dev.hbmW_keep, h_hbm, h_ing, h_pipe, upd_ing_keep, Dev.camHalt_keep, Dev.closeSource_keep, Dev.fillGaps_keep,
    Dev.frameFlag_keep, Dev.fs_keep, Dev.missAll_keep, Dev.raise_keep, Dev.setCam_keep, Dev.tellFlags_keep]
      exact (Dev.fillGaps_keep d3 c h_hbm).trans h3
    have h6 : d6.without pts = d.without pts := by
      refine Eq.trans ?_ h5
      simp only [d6, Dev.without, h_hbm, h_ing, h_ps, h_md, if_true]
    have h10 : d10.without pts = d.without pts := by
      simp only [d10, d9, d8, d7, Dev.tellFlags_keep, Dev.fs_keep, Dev.setCam_keep, h_ing, h_pipe, h_hbm, upd_ing_keep, Dev.camHalt_keep,
    Dev.closeSource_keep, Dev.fillGaps_keep, Dev.frameFlag_keep, Dev.hbmW_keep, Dev.missAll_keep, Dev.raise_keep]
      exact h6
    have h11 : d11.without pts = d.without pts := by
      simp only [d11, apply_ite (Dev.without · pts), Dev.raise_keep, ite_self, h_ing, h_pipe, h_hbm, upd_ing_keep, Dev.camHalt_keep,
    Dev.closeSource_keep, Dev.fillGaps_keep, Dev.frameFlag_keep, Dev.fs_keep, Dev.hbmW_keep, Dev.missAll_keep, Dev.setCam_keep, Dev.tellFlags_keep]
      exact h10
    split
    · exact (Dev.camHalt_keep d11 c h_ing h_pipe).trans h11
    · exact h11
theorem Dev.openFrame_keep {pts : List Part} (d : Dev) (c : Nat) (h_bank : pts.contains .bank = true) (h_hl : pts.contains .hl = true) (h_ing :
    pts.contains .ing = true) (h_pipe : pts.contains .pipe = true) : (Dev.openFrame d c).without pts = d.without pts := by
  unfold Dev.openFrame
  simp only [h_bank, h_hl, h_ing, h_pipe, Dev.setCam_keep, Dev.atOpen_keep, Dev.fs_keep]
theorem Dev.joinMember_keep {pts : List Part} (d : Dev) (x : SrcId) (h : FrameHead) (was : Option Nat) (h_ing : pts.contains .ing = true) :
    (Dev.joinMember d x h was).without pts = d.without pts := by
  unfold Dev.joinMember
  simp only [apply_ite (Dev.without · pts), ite_self, h_ing, Dev.setSrc_keep, Dev.modMem_keep, Dev.frameFlag_keep]
theorem Dev.frameStart_keep {pts : List Part} (d : Dev) (x : SrcId) (h : FrameHead) (h_hbm : pts.contains .hbm = true) (h_bank :
    pts.contains .bank = true) (h_hl : pts.contains .hl = true) (h_ing : pts.contains .ing = true) (h_pipe : pts.contains .pipe = true) (h_ps :
    pts.contains .ps = true) (h_md : pts.contains .md = true) : (Dev.frameStart d x h).without pts = d.without pts := by
  unfold Dev.frameStart
  simp only [apply_ite (Dev.without · pts), ite_self, h_hbm, h_bank, h_hl, h_ing, h_pipe, h_ps, h_md, Dev.closeSource_keep, Dev.setSrc_keep,
      Dev.closeFrame_keep, Dev.srcDrop_keep, Dev.modMem_keep, Dev.frameFlag_keep, Dev.joinMember_keep, Dev.openFrame_keep]
theorem Dev.closeIfDone_keep {pts : List Part} (d : Dev) (c : Nat) (h_hbm : pts.contains .hbm = true) (h_ing : pts.contains .ing = true) (h_ps :
    pts.contains .ps = true) (h_md : pts.contains .md = true) (h_pipe : pts.contains .pipe = true) : (Dev.closeIfDone d c).without pts = d.without
    pts := by
  unfold Dev.closeIfDone
  simp only [apply_ite (Dev.without · pts), ite_self, h_hbm, h_ing, h_ps, h_md, Dev.closeFrame_keep, h_pipe]
theorem Dev.frameEnd_keep {pts : List Part} (d : Dev) (x : SrcId) (frame : Nat) (h_hbm : pts.contains .hbm = true) (h_ing : pts.contains .ing =
    true) (h_ps : pts.contains .ps = true) (h_md : pts.contains .md = true) (h_pipe : pts.contains .pipe = true) : (Dev.frameEnd d x frame).without
    pts = d.without pts := by
  unfold Dev.frameEnd
  simp only [apply_ite (Dev.without · pts), ite_self, h_hbm, h_ing, h_ps, h_md, Dev.srcDrop_keep, Dev.setSrc_keep, Dev.frameFlag_keep,
    Dev.closeIfDone_keep, Dev.closeSource_keep, h_pipe]
theorem Dev.segIn_keep {pts : List Part} (d : Dev) (x : SrcId) (h : SegHead) (px : List Nat) (good : Bool) (h_ing : pts.contains .ing = true) :
    (Dev.segIn d x h px good).without pts = d.without pts := by
  unfold Dev.segIn
  simp only [apply_ite (Dev.without · pts), ite_self, h_ing, Dev.setSrc_keep, Dev.srcDrop_keep, Dev.closeLine_keep]
theorem Dev.lineIn_keep {pts : List Part} (d : Dev) (x : SrcId) (h : SegHead) (px : List Nat) (good : Bool) (h_ing : pts.contains .ing = true) :
    (Dev.lineIn d x h px good).without pts = d.without pts := by
  unfold Dev.lineIn
  (try simp only [apply_ite (Dev.without · pts), h_ing, Dev.srcDrop_keep, Dev.frameFlag_keep])
  repeat' (first
    | (with_reducible rfl)
    | (simp only [apply_ite (Dev.without · pts), ite_self, h_ing, upd_ing_keep, Dev.srcDrop_keep, Dev.frameFlag_keep, Dev.segIn_keep,
        Dev.closeLine_keep, Dev.fillLines_keep]; done)
    | (intro _)
    | split
    | (with_reducible refine (foldl_keep _ _ _ ?_).trans ?_)
    | (simp only [Dev.without, h_ing, if_true]; done)
    | (simp only [foldl_keep, apply_ite (Dev.without · pts), ite_self, h_ing, upd_ing_keep, Dev.srcDrop_keep, Dev.frameFlag_keep, Dev.segIn_keep,
        Dev.closeLine_keep, Dev.fillLines_keep]))
theorem Dev.levelsAtFrame_keep {pts : List Part} (d : Dev) (c : Nat) (h_bank : pts.contains .bank = true) :
    (Dev.levelsAtFrame d c).without pts = d.without pts := by
  unfold Dev.levelsAtFrame
  repeat' (first
    | (with_reducible rfl)
    | (simp only [h_bank, upd_bank_keep, Dev.applyLevel_keep]; done)
    | (intro _)
    | split
    | (with_reducible refine (foldl_keep _ _ _ ?_).trans ?_)
    | (simp only [Dev.without, h_bank, if_true]; done)
    | (simp only [foldl_keep, apply_ite (Dev.without · pts), ite_self, h_bank, upd_bank_keep, Dev.applyLevel_keep]))
theorem Dev.linePkt_keep {pts : List Part} (d : Dev) (x : SrcId) (crcOk room : Bool) (h : SegHead) (px : List Nat) (h_ing :
    pts.contains .ing = true) : (Dev.linePkt d x crcOk room h px).without pts = d.without pts := by
  unfold Dev.linePkt
  simp only [apply_ite (Dev.without · pts), ite_self, h_ing, Dev.c0Risk_keep, Dev.raise_keep, Dev.ptErr_keep, Dev.pktIn_keep, Dev.crcErr_keep,
      Dev.lineIn_keep]
theorem Dev.startPkt_keep {pts : List Part} (d : Dev) (x : SrcId) (crcOk : Bool) (h : FrameHead) (h_hbm : pts.contains .hbm = true) (h_bank :
    pts.contains .bank = true) (h_hl : pts.contains .hl = true) (h_ing : pts.contains .ing = true) (h_pipe : pts.contains .pipe = true) (h_ps :
    pts.contains .ps = true) (h_md : pts.contains .md = true) : (Dev.startPkt d x crcOk h).without pts = d.without pts := by
  unfold Dev.startPkt
  (try simp only [foldl_keep, apply_ite (Dev.without · pts), ite_self, h_hbm, h_bank, h_hl, h_ing, h_pipe, h_ps, h_md, Dev.upPacket_keep,
      Dev.frameStart_keep, Dev.levelsAtFrame_keep])
  repeat' (first
    | (with_reducible rfl)
    | (simp only [h_hbm, h_bank, h_hl, h_ing, h_pipe, h_ps, h_md, Dev.frameStart_keep, Dev.levelsAtFrame_keep]; done)
    | (intro _)
    | split
    | (with_reducible refine (foldl_keep _ _ _ ?_).trans ?_)
    | (simp only [Dev.without, h_hbm, h_bank, h_hl, h_ing, h_pipe, h_ps, h_md, if_true]; done)
    | (with_reducible refine (Dev.upPacket_keep _ _ _ _ ?_ h_ing).trans ?_)
    | (simp only [foldl_keep, apply_ite (Dev.without · pts), ite_self, h_hbm, h_bank, h_hl, h_ing, h_pipe, h_ps, h_md, Dev.upPacket_keep,
        Dev.frameStart_keep, Dev.levelsAtFrame_keep]))
theorem Dev.metaIn_keep {pts : List Part} (d : Dev) (x : SrcId) (typ : Nat) (bs : List Byte) (h_hbm : pts.contains .hbm = true) (h_ing :
    pts.contains .ing = true) : (Dev.metaIn d x typ bs).without pts = d.without pts := by
  unfold Dev.metaIn
  simp only [apply_ite (Dev.without · pts), ite_self, h_hbm, h_ing, Dev.srcDrop_keep, Dev.frameFlag_keep, Dev.hbmW_keep, Dev.modCam_keep]
theorem Dev.inCfg_keep {pts : List Part} (d : Dev) (m obj : Nat) : (Dev.inCfg d m obj).without pts = d.without pts := by
  unfold Dev.inCfg
  simp only [Dev.raise_keep]
theorem Dev.camStart_keep {pts : List Part} (d : Dev) (c : Nat) (h_ing : pts.contains .ing = true) (h_pipe : pts.contains .pipe = true) :
    (Dev.camStart d c).without pts = d.without pts := by
  unfold Dev.camStart
  simp only [h_ing, h_pipe, Dev.pipeRestart_keep, Dev.setCam_keep, Dev.fs_keep]
theorem Dev.camStop_keep {pts : List Part} (d : Dev) (c : Nat) (h_ing : pts.contains .ing = true) (h_pipe : pts.contains .pipe = true) :
    (Dev.camStop d c).without pts = d.without pts := by
  unfold Dev.camStop
  simp only [apply_ite (Dev.without · pts), ite_self, h_ing, Dev.fs_keep, Dev.modCam_keep, Dev.camHalt_keep, h_pipe]
theorem Dev.effCamReg_keep {pts : List Part} (d : Dev) (m c : Nat) (r : Reg) (v : Word) (h_fab : pts.contains .fab = true) (h_ing :
    pts.contains .ing = true) (h_pipe : pts.contains .pipe = true) : (Dev.effCamReg d m c r v).without pts = d.without pts := by
  unfold Dev.effCamReg
  simp only [apply_ite (Dev.without · pts), ite_self, h_fab, h_ing, h_pipe, Dev.inCfg_keep, Dev.camStop_keep, Dev.wr_keep, Dev.cfgWritten_keep,
      Dev.camStart_keep, Dev.putFields_keep]
theorem Dev.camCfgBy_keep {pts : List Part} (d : Dev) (m c : Nat) (v : Word) (h_fab : pts.contains .fab = true) (h_qf : pts.contains .qf = true)
    (h_hbm : pts.contains .hbm = true) (h_host : pts.contains .host = true) (h_ing : pts.contains .ing = true) (h_pipe :
    pts.contains .pipe = true) : (Dev.camCfgBy d m c v).without pts = d.without pts := by
  unfold Dev.camCfgBy
  (try simp only [foldl_keep, apply_ite (Dev.without · pts), ite_self, h_fab, h_qf, h_hbm, h_host, h_ing, h_pipe, Dev.gated_keep, Dev.effCamReg_keep])
  repeat' (first
    | (with_reducible rfl)
    | (simp only [h_fab, h_ing, h_pipe, Dev.effCamReg_keep]; done)
    | (intro _)
    | split
    | (with_reducible refine (foldl_keep _ _ _ ?_).trans ?_)
    | (simp only [Dev.without, h_fab, h_qf, h_hbm, h_host, h_ing, h_pipe, if_true]; done)
    | (with_reducible refine (Dev.gated_keep _ _ _ _ _ _ _ h_fab h_qf h_hbm h_host ?_).trans ?_)
    | (simp only [foldl_keep, apply_ite (Dev.without · pts), ite_self, h_fab, h_qf, h_hbm, h_host, h_ing, h_pipe, Dev.gated_keep,
        Dev.effCamReg_keep]))
theorem Dev.sendBack_keep {pts : List Part} (d : Dev) (link : Nat) (bs : List Byte) (h_ing : pts.contains .ing = true) :
    (Dev.sendBack d link bs).without pts = d.without pts := by
  unfold Dev.sendBack
  simp only [h_ing, upd_ing_keep]
theorem Dev.bcPump_keep {pts : List Part} (d : Dev) (link : Nat) (h_ing : pts.contains .ing = true) :
    (Dev.bcPump d link).without pts = d.without pts := by
  unfold Dev.bcPump
  (try simp only [apply_ite (Dev.without · pts)])
  repeat' (first
    | (with_reducible rfl)
    | (simp only [h_ing, upd_ing_keep, Dev.sendBack_keep]; done)
    | (intro _)
    | split
    | (with_reducible refine (foldl_keep _ _ _ ?_).trans ?_)
    | (simp only [Dev.without, h_ing, if_true]; done)
    | (simp only [foldl_keep, apply_ite (Dev.without · pts), ite_self, h_ing, upd_ing_keep, Dev.sendBack_keep]))
theorem Dev.sendTrigger_keep {pts : List Part} (d : Dev) (link src : Nat) (all : Bool) (code launch : Nat) (h_ing : pts.contains .ing = true) :
    (Dev.sendTrigger d link src all code launch).without pts = d.without pts := by
  unfold Dev.sendTrigger
  simp only [h_ing, upd_ing_keep, Dev.sendBack_keep]
theorem Dev.jobReply_keep {pts : List Part} (d : Dev) (job : Nat) (bs : List Byte) (h_hbm : pts.contains .hbm = true) (h_host :
    pts.contains .host = true) : (Dev.jobReply d job bs).without pts = d.without pts := by
  unfold Dev.jobReply
  repeat' (first
    | (with_reducible rfl)
    | (simp only [apply_ite (Dev.without · pts), ite_self, h_hbm, h_host, Dev.hbmW_keep, Dev.hostW_keep]; done)
    | (intro _)
    | split
    | (with_reducible refine (foldl_keep _ _ _ ?_).trans ?_)
    | (simp only [Dev.without, h_hbm, h_host, if_true]; done)
    | (simp only [foldl_keep, apply_ite (Dev.without · pts), ite_self, h_hbm, h_host, Dev.hbmW_keep, Dev.hostW_keep]))
theorem Dev.regResp_keep {pts : List Part} (d : Dev) (link src tid status : Nat) (bs : List Byte) (h_hbm : pts.contains .hbm = true) (h_host :
    pts.contains .host = true) (h_ing : pts.contains .ing = true) : (Dev.regResp d link src tid status bs).without pts = d.without pts := by
  unfold Dev.regResp
  repeat' (first
    | (with_reducible rfl)
    | (simp only [apply_ite (Dev.without · pts), ite_self, h_hbm, h_host, h_ing, upd_ing_keep, Dev.ptErr_keep, Dev.jobDecided_keep, Dev.raise_keep,
        Dev.jobReply_keep, Dev.bcPump_keep]; done)
    | (intro _)
    | split
    | (with_reducible refine (foldl_keep _ _ _ ?_).trans ?_)
    | (simp only [Dev.without, h_hbm, h_host, h_ing, if_true]; done)
    | (simp only [foldl_keep, apply_ite (Dev.without · pts), ite_self, h_hbm, h_host, h_ing, upd_ing_keep, Dev.ptErr_keep, Dev.jobDecided_keep,
        Dev.raise_keep, Dev.jobReply_keep, Dev.bcPump_keep]))
theorem Dev.dfOn_keep {pts : List Part} (d : Dev) (link : Nat) (on : Bool) (h_fab : pts.contains .fab = true) : (Dev.dfOn d link on).without pts =
    d.without pts := by
  unfold Dev.dfOn
  repeat' (first
    | (with_reducible rfl)
    | (simp only [apply_ite (Dev.without · pts), ite_self, h_fab, Dev.cfgWritten_keep, Dev.fs_keep]; done)
    | (intro _)
    | split
    | (with_reducible refine (foldl_keep _ _ _ ?_).trans ?_)
    | (simp only [Dev.without, h_fab, if_true]; done)
    | (simp only [foldl_keep, apply_ite (Dev.without · pts), ite_self, h_fab, Dev.cfgWritten_keep, Dev.fs_keep]))
theorem Dev.ingLinkSet_keep {pts : List Part} (d : Dev) (r : Req) (h_fab : pts.contains .fab = true) (h_tw : pts.contains .tw = true) (h_ln :
    pts.contains .ln = true) (h_md : pts.contains .md = true) : VKeeps pts d (Dev.ingLinkSet d r) := by
  unfold Dev.ingLinkSet
  repeat' (first
    | (with_reducible refine vk_ite _ _ ?_)
    | (simp only [vk_job, apply_ite (Dev.without · pts), ite_self, h_fab, h_tw, h_ln, h_md, Dev.effLnkMap_keep, Dev.effQuadCfg_keep,
        Dev.dfOn_keep]; done)
    | (intro _)
    | split
    | (extract_lets)
    | (with_reducible refine (foldl_keep _ _ _ ?_).trans ?_)
    | (simp only []; done)
    | (simp only [vk_job, h_fab, h_tw, h_ln, h_md, Dev.effLnkMap_keep, Dev.dfOn_keep, Dev.effQuadCfg_keep])
    | (simp +zetaDelta only [vk_err, vk_turned, vk_ok, vk_job, foldl_keep, apply_ite (Dev.without · pts), ite_self, h_fab, h_tw, h_ln, h_md,
        Dev.effLnkMap_keep, Dev.effQuadCfg_keep, Dev.dfOn_keep]; done)
    | (simp +zetaDelta only [vk_err, vk_turned, vk_ok, vk_job, foldl_keep, apply_ite (Dev.without · pts), ite_self, h_fab, h_tw, h_ln, h_md,
        Dev.effLnkMap_keep, Dev.effQuadCfg_keep, Dev.dfOn_keep]))
theorem Dev.ingSourceSet_keep {pts : List Part} (d : Dev) (r : Req) (h_fab : pts.contains .fab = true) : VKeeps pts d (Dev.ingSourceSet d r) := by
  unfold Dev.ingSourceSet
  repeat' (first
    | (with_reducible refine vk_ite _ _ ?_)
    | (simp only [vk_ok, h_fab, Dev.putFields_keep]; done)
    | (intro _)
    | split
    | (extract_lets)
    | (with_reducible refine (foldl_keep _ _ _ ?_).trans ?_)
    | (simp only [Dev.without, h_fab, if_true]; done)
    | (simp only [vk_err, vk_turned, vk_ok, vk_job, foldl_keep, apply_ite (Dev.without · pts), ite_self, h_fab, Dev.putFields_keep])
    | (simp +zetaDelta only [vk_err, vk_turned, vk_ok, vk_job, foldl_keep, apply_ite (Dev.without · pts), ite_self, h_fab, Dev.putFields_keep]; done)
    | (simp +zetaDelta only [vk_err, vk_turned, vk_ok, vk_job, foldl_keep, apply_ite (Dev.without · pts), ite_self, h_fab, Dev.putFields_keep]))
theorem Dev.ingCameraSet_keep {pts : List Part} (d : Dev) (r : Req) (h_hbm : pts.contains .hbm = true) (h_fab : pts.contains .fab = true) : VKeeps
    pts d (Dev.ingCameraSet d r) := by
  unfold Dev.ingCameraSet
  repeat' (first
    | (with_reducible refine vk_ite _ _ ?_)
    | (simp only [vk_err, vk_ok, h_hbm]; done)
    | (intro _)
    | split
    | (extract_lets)
    | (with_reducible refine (foldl_keep _ _ _ ?_).trans ?_)
    | (simp only [Dev.without, h_fab, h_hbm, if_true]; done)
    | (with_reducible refine (Dev.alloc_keep _ _ _ _ h_hbm (by assumption)).trans ?_)
    | (simp only [vk_ok, h_hbm])
    | (simp +zetaDelta only [h_hbm, Dev.freeArea_keep, Dev.wr_keep, h_fab, Dev.alloc_keep, Dev.cfgWritten_keep]; done)
    | (simp +zetaDelta only [h_hbm, Dev.wr_keep, h_fab, Dev.alloc_keep, Dev.cfgWritten_keep, Dev.freeArea_keep]))
theorem Dev.ingCameraStart_keep {pts : List Part} (d : Dev) (r : Req) (h_hbm : pts.contains .hbm = true) (h_ing : pts.contains .ing = true)
    (h_pipe : pts.contains .pipe = true) : VKeeps pts d (Dev.ingCameraStart d r) := by
  unfold Dev.ingCameraStart
  extract_lets c size links g
  refine vk_ite _ _ (vk_ite _ _ ?_)
  split
  · rw [vk_err]; trivial
  · have hg : ∀ e, g = some e → e.without pts = d.without pts := by
      intro e he
      refine foldl_keepO (pts := pts) _ _ _ (fun _ => rfl) (fun a l b hb => ?_) he
      simp only at hb
      cases hx : a.grantRgn 0x3FF (0x80 + l) (d.camBase c) size false true with
      | none => rw [hx] at hb; cases hb
      | some y => rw [hx] at hb; cases hb; exact Dev.grantRgn_keep a _ _ _ _ _ _ h_hbm hx
    clear_value g
    split
    · rw [vk_err]; trivial
    · rename_i e
      rw [vk_ok]
      exact (Dev.camStart_keep e c h_ing h_pipe).trans (hg e rfl)
theorem Dev.ingFrameInfo_keep {pts : List Part} (d : Dev) (r : Req) : VKeeps pts d (Dev.ingFrameInfo d r) := by
  unfold Dev.ingFrameInfo
  repeat' (first
    | (with_reducible refine vk_ite _ _ ?_)
    | (simp only [vk_ok]; done)
    | (intro _)
    | split
    | (extract_lets)
    | (with_reducible refine (foldl_keep _ _ _ ?_).trans ?_)
    | (simp only [vk_err, vk_turned, vk_ok, vk_job, foldl_keep, apply_ite (Dev.without · pts), ite_self])
    | (simp +zetaDelta only [vk_err, vk_turned, vk_ok, vk_job, foldl_keep, apply_ite (Dev.without · pts), ite_self]; done)
    | (simp +zetaDelta only [vk_err, vk_turned, vk_ok, vk_job, foldl_keep, apply_ite (Dev.without · pts), ite_self]))
theorem Dev.headXfer_keep {pts : List Part} (d : Dev) (r : Req) (wr : Bool) (n : Nat) (tail : List Byte) (h_ing : pts.contains .ing = true) :
    VKeeps pts d (Dev.headXfer d r wr n tail) := by
  unfold Dev.headXfer
  repeat' (first
    | (with_reducible refine vk_ite _ _ ?_)
    | (simp only [vk_job, h_ing, upd_ing_keep, Dev.bcPump_keep]; done)
    | (intro _)
    | split
    | (extract_lets)
    | (with_reducible refine (foldl_keep _ _ _ ?_).trans ?_)
    | (simp only [Dev.without, h_ing, if_true]; done)
    | (simp only [vk_err, vk_turned, vk_ok, vk_job, foldl_keep, apply_ite (Dev.without · pts), ite_self, h_ing, upd_ing_keep, Dev.bcPump_keep])
    | (simp +zetaDelta only [vk_err, vk_turned, vk_ok, vk_job, foldl_keep, apply_ite (Dev.without · pts), ite_self, h_ing, upd_ing_keep,
        Dev.bcPump_keep]; done)
    | (simp +zetaDelta only [vk_err, vk_turned, vk_ok, vk_job, foldl_keep, apply_ite (Dev.without · pts), ite_self, h_ing, upd_ing_keep,
        Dev.bcPump_keep]))
theorem Dev.ingStats_keep {pts : List Part} (d : Dev) (r : Req) : VKeeps pts d (Dev.ingStats d r) := by
  unfold Dev.ingStats
  repeat' (first
    | (with_reducible refine vk_ite _ _ ?_)
    | (simp only [vk_ok, Dev.fs_keep]; done)
    | (intro _)
    | split
    | (extract_lets)
    | (with_reducible refine (foldl_keep _ _ _ ?_).trans ?_)
    | (simp only [vk_ok])
    | (simp +zetaDelta only [Dev.fs_keep]; done)
    | (simp +zetaDelta only [vk_err, vk_turned, vk_ok, vk_job, foldl_keep, apply_ite (Dev.without · pts), ite_self, Dev.fs_keep]))
theorem Dev.mismatch_keep {pts : List Part} (d : Dev) (p sev unit obj d1 d2 : Nat) :
    (Dev.mismatch d p sev unit obj d1 d2).without pts = d.without pts := by
  unfold Dev.mismatch
  simp only [Dev.raise_keep, Dev.fadd_keep]
theorem Dev.commitJob_keep {pts : List Part} (d : Dev) (j : LineJob) (bs : List Byte) (h_hbm : pts.contains .hbm = true) :
    (Dev.commitJob d j bs).without pts = d.without pts := by
  unfold Dev.commitJob
  simp only [apply_ite (Dev.without · pts), ite_self, h_hbm, Dev.mismatch_keep, Dev.hbmW_keep, Dev.fadd_keep]
theorem Dev.commitLine_keep {pts : List Part} (d : Dev) (seen : Option (List Byte)) (h_hbm : pts.contains .hbm = true) (h_ing :
    pts.contains .ing = true) : (Dev.commitLine d seen).without pts = d.without pts := by
  unfold Dev.commitLine
  repeat' (first
    | (with_reducible rfl)
    | (simp only [h_hbm, h_ing, upd_ing_keep, Dev.commitJob_keep]; done)
    | (intro _)
    | split
    | (with_reducible refine (foldl_keep _ _ _ ?_).trans ?_)
    | (simp only [Dev.without, h_hbm, h_ing, if_true]; done)
    | (simp only [foldl_keep, apply_ite (Dev.without · pts), ite_self, h_hbm, h_ing, upd_ing_keep, Dev.commitJob_keep]))
theorem Dev.cvuEv_keep {pts : List Part} (d : Dev) (code sev n tag d2 : Nat) : (Dev.cvuEv d code sev n tag d2).without pts = d.without pts := by
  unfold Dev.cvuEv
  simp only [Dev.raise_keep]
theorem Dev.cvuEnd_keep {pts : List Part} (d : Dev) (n tag status : Nat) (body : List Byte) (h_qf : pts.contains .qf = true) (h_hbm :
    pts.contains .hbm = true) (h_host : pts.contains .host = true) : (Dev.cvuEnd d n tag status body).without pts = d.without pts := by
  unfold Dev.cvuEnd
  simp only [h_qf, h_hbm, h_host, Dev.endOp_keep, Dev.fadd_keep]
theorem Dev.cvuRefuse_keep {pts : List Part} (d : Dev) (n tag : Nat) (h_qf : pts.contains .qf = true) (h_hbm : pts.contains .hbm = true) (h_host :
    pts.contains .host = true) : (Dev.cvuRefuse d n tag).without pts = d.without pts := by
  unfold Dev.cvuRefuse
  simp only [h_qf, h_hbm, h_host, Dev.cvuEnd_keep, Dev.cvuEv_keep]
theorem Dev.cvuCheck_keep {pts : List Part} (d : Dev) (n : Nat) (o : Op) (host : List Byte) (h_fab : pts.contains .fab = true) (h_qf :
    pts.contains .qf = true) (h_hbm : pts.contains .hbm = true) (h_host : pts.contains .host = true) (h_boot : pts.contains .boot = true) :
    (Dev.cvuCheck d n o host).without pts = d.without pts := by
  unfold Dev.cvuCheck
  simp only [apply_ite (Dev.without · pts), ite_self, h_fab, h_qf, h_hbm, h_host, h_boot, Dev.cvuRefuse_keep, Dev.endOp_keep, Dev.dmaOutside_keep,
      Dev.eccRead_keep, Dev.set64_keep, Dev.cvuEnd_keep, Dev.cvuEv_keep, Dev.fadd_keep]
theorem Dev.cvuAlive_keep {pts : List Part} (d : Dev) (n : Nat) (o : Op) (h_qf : pts.contains .qf = true) (h_hbm : pts.contains .hbm = true)
    (h_host : pts.contains .host = true) (h_integ : pts.contains .integ = true) : (Dev.cvuAlive d n o).without pts = d.without pts := by
  unfold Dev.cvuAlive
  simp only [apply_ite (Dev.without · pts), ite_self, h_qf, h_hbm, h_host, h_integ, upd_integ_keep, Dev.cvuRefuse_keep, Dev.fs_keep, Dev.cvuEnd_keep,
      Dev.cvuEv_keep, Dev.fadd_keep]
theorem Dev.effCvuCtl_keep {pts : List Part} (d : Dev) (m n : Nat) (v : Word) (h_fab : pts.contains .fab = true) (h_integ :
    pts.contains .integ = true) : (Dev.effCvuCtl d m n v).without pts = d.without pts := by
  unfold Dev.effCvuCtl
  simp only [apply_ite (Dev.without · pts), ite_self, h_fab, h_integ, upd_integ_keep, Dev.raise_keep, Dev.putFields_keep]
theorem Dev.setStr_keep {pts : List Part} (d : Dev) (s : Nat) (v : StrSt) (h_pipe : pts.contains .pipe = true) :
    (Dev.setStr d s v).without pts = d.without pts := by
  unfold Dev.setStr
  simp only [h_pipe, upd_pipe_keep]
theorem Dev.modStr_keep {pts : List Part} (d : Dev) (s : Nat) (f : StrSt → StrSt) (h_pipe : pts.contains .pipe = true) :
    (Dev.modStr d s f).without pts = d.without pts := by
  unfold Dev.modStr
  simp only [h_pipe, Dev.setStr_keep]
theorem Dev.bufW_keep {pts : List Part} (d : Dev) (b : StrFrame) (a : Nat) (bs : List Byte) (h_hbm : pts.contains .hbm = true) (h_host :
    pts.contains .host = true) : (Dev.bufW d b a bs).without pts = d.without pts := by
  unfold Dev.bufW
  simp only [apply_ite (Dev.without · pts), ite_self, h_hbm, h_host, Dev.hbmW_keep, Dev.hostW_keep]
theorem Dev.writeOut_keep {pts : List Part} (d : Dev) (s : Nat) (b : StrFrame) (n i : Nat) (h_hbm : pts.contains .hbm = true) (h_host :
    pts.contains .host = true) : (Dev.writeOut d s b n i).without pts = d.without pts := by
  unfold Dev.writeOut
  repeat' (first
    | (with_reducible rfl)
    | (simp only [h_hbm, h_host, Dev.bufW_keep]; done)
    | (intro _)
    | split
    | (with_reducible refine (foldl_keep _ _ _ ?_).trans ?_)
    | (simp only [Dev.without, h_hbm, h_host, if_true]; done)
    | (simp only [foldl_keep, apply_ite (Dev.without · pts), ite_self, h_hbm, h_host, Dev.bufW_keep]))
theorem Dev.writeHist_keep {pts : List Part} (d : Dev) (t : TabGen) (s : FrameSet) (c n i : Nat) (src7 : Nat → Nat → Px7) (h_hbm :
    pts.contains .hbm = true) (h_pipe : pts.contains .pipe = true) : (Dev.writeHist d t s c n i src7).without pts = d.without pts := by
  unfold Dev.writeHist
  (try simp only [apply_ite (Dev.without · pts), h_pipe, Dev.setPcam_keep])
  repeat' (first
    | (with_reducible rfl)
    | (simp only [h_hbm, Dev.hbmW_keep]; done)
    | (intro _)
    | split
    | (with_reducible refine (foldl_keep _ _ _ ?_).trans ?_)
    | (simp only [Dev.without, h_hbm, h_pipe, if_true]; done)
    | (simp only [foldl_keep, apply_ite (Dev.without · pts), ite_self, h_hbm, h_pipe, Dev.hbmW_keep, Dev.setPcam_keep]))
theorem Dev.writeStat_keep {pts : List Part} (d : Dev) (c n i : Nat) (a : StripeSum) (h_hbm : pts.contains .hbm = true) (h_pipe :
    pts.contains .pipe = true) : (Dev.writeStat d c n i a).without pts = d.without pts := by
  unfold Dev.writeStat
  simp only [h_hbm, h_pipe, Dev.setPcam_keep, Dev.hbmW_keep]
theorem Dev.tnrTell_keep {pts : List Part} (d : Dev) (t : TabGen) (c n i tile : Nat) : (Dev.tnrTell d t c n i tile).without pts = d.without pts := by
  unfold Dev.tnrTell
  simp only [apply_ite (Dev.without · pts), ite_self, Dev.fadd_keep, Dev.raiseOnce_keep]
theorem Dev.setPend_keep {pts : List Part} (d : Dev) (c : Nat) (t : TabGen) (h_pipe : pts.contains .pipe = true) :
    (Dev.setPend d c t).without pts = d.without pts := by
  unfold Dev.setPend
  simp only [h_pipe, Dev.fs_keep, Dev.setPcam_keep]
theorem Dev.onCam_keep {pts : List Part} (d : Dev) (r : Req) (f : Nat → VRes Dev) (hf : ∀ (y0 : Nat), VKeeps pts d (f y0)) :
    VKeeps pts d (Dev.onCam d r f) := by
  unfold Dev.onCam
  repeat' (first
    | (with_reducible refine vk_ite _ _ ?_)
    | (simp only [hf]; done)
    | (intro _)
    | split
    | (extract_lets)
    | (apply hf)
    | (with_reducible refine (foldl_keep _ _ _ ?_).trans ?_)
    | (apply hf)
    | (simp only [vk_err, vk_turned, vk_ok, vk_job, foldl_keep, apply_ite (Dev.without · pts), ite_self, hf])
    | (simp +zetaDelta only [vk_err, vk_turned, vk_ok, vk_job, foldl_keep, apply_ite (Dev.without · pts), ite_self, hf]; done)
    | (simp +zetaDelta only [vk_err, vk_turned, vk_ok, vk_job, foldl_keep, apply_ite (Dev.without · pts), ite_self, hf]))
theorem Dev.failJob_keep {pts : List Part} (d : Dev) (code obj d2 : Nat) : VKeeps pts d (Dev.failJob d code obj d2) := by
  unfold Dev.failJob
  repeat' (first
    | (with_reducible refine vk_ite _ _ ?_)
    | (simp only [vk_job, Dev.raise_keep]; done)
    | (intro _)
    | split
    | (extract_lets)
    | (with_reducible refine (foldl_keep _ _ _ ?_).trans ?_)
    | (simp only [vk_err, vk_turned, vk_ok, vk_job, foldl_keep, apply_ite (Dev.without · pts), ite_self, Dev.raise_keep])
    | (simp +zetaDelta only [vk_err, vk_turned, vk_ok, vk_job, foldl_keep, apply_ite (Dev.without · pts), ite_self, Dev.raise_keep]; done)
    | (simp +zetaDelta only [vk_err, vk_turned, vk_ok, vk_job, foldl_keep, apply_ite (Dev.without · pts), ite_self, Dev.raise_keep]))
theorem Dev.pipeSensorSet_keep {pts : List Part} (d : Dev) (r : Req) (c : Nat) (h_pipe : pts.contains .pipe = true) :
    VKeeps pts d (Dev.pipeSensorSet d r c) := by
  unfold Dev.pipeSensorSet
  repeat' (first
    | (with_reducible refine vk_ite _ _ ?_)
    | (simp only [vk_err, vk_ok, h_pipe, Dev.setPend_keep]; done)
    | (intro _)
    | split
    | (extract_lets)
    | (with_reducible refine (foldl_keep _ _ _ ?_).trans ?_)
    | (simp only [Dev.without, h_pipe, if_true]; done)
    | (simp only [vk_err, vk_turned, vk_ok, vk_job, foldl_keep, apply_ite (Dev.without · pts), ite_self, h_pipe, Dev.setPend_keep])
    | (simp +zetaDelta only [vk_err, vk_turned, vk_ok, vk_job, foldl_keep, apply_ite (Dev.without · pts), ite_self, h_pipe, Dev.setPend_keep]; done)
    | (simp +zetaDelta only [vk_err, vk_turned, vk_ok, vk_job, foldl_keep, apply_ite (Dev.without · pts), ite_self, h_pipe, Dev.setPend_keep]))
theorem Dev.pipeMosaicSet_keep {pts : List Part} (d : Dev) (r : Req) (c : Nat) (h_pipe : pts.contains .pipe = true) :
    VKeeps pts d (Dev.pipeMosaicSet d r c) := by
  unfold Dev.pipeMosaicSet
  repeat' (first
    | (with_reducible refine vk_ite _ _ ?_)
    | (simp only [vk_err, vk_ok, h_pipe, Dev.setPend_keep]; done)
    | (intro _)
    | split
    | (extract_lets)
    | (with_reducible refine (foldl_keep _ _ _ ?_).trans ?_)
    | (simp only [Dev.without, h_pipe, if_true]; done)
    | (simp only [vk_err, vk_turned, vk_ok, vk_job, foldl_keep, apply_ite (Dev.without · pts), ite_self, h_pipe, Dev.setPend_keep])
    | (simp +zetaDelta only [vk_err, vk_turned, vk_ok, vk_job, foldl_keep, apply_ite (Dev.without · pts), ite_self, h_pipe, Dev.setPend_keep]; done)
    | (simp +zetaDelta only [vk_err, vk_turned, vk_ok, vk_job, foldl_keep, apply_ite (Dev.without · pts), ite_self, h_pipe, Dev.setPend_keep]))
theorem Dev.pipeDefectLoad_keep {pts : List Part} (d : Dev) (r : Req) (c : Nat) (h_pipe : pts.contains .pipe = true) :
    VKeeps pts d (Dev.pipeDefectLoad d r c) := by
  unfold Dev.pipeDefectLoad
  repeat' (first
    | (with_reducible refine vk_ite _ _ ?_)
    | (simp only [vk_job, h_pipe, Dev.failJob_keep, Dev.setPend_keep]; done)
    | (intro _)
    | split
    | (extract_lets)
    | (apply Dev.failJob_keep)
    | (with_reducible refine (foldl_keep _ _ _ ?_).trans ?_)
    | (simp only [Dev.without, h_pipe, if_true]; done)
    | (simp only [vk_err, vk_turned, vk_ok, vk_job, foldl_keep, apply_ite (Dev.without · pts), ite_self, h_pipe, Dev.failJob_keep, Dev.setPend_keep])
    | (simp +zetaDelta only [vk_err, vk_turned, vk_ok, vk_job, foldl_keep, apply_ite (Dev.without · pts), ite_self, h_pipe, Dev.failJob_keep,
        Dev.setPend_keep]; done)
    | (simp +zetaDelta only [vk_err, vk_turned, vk_ok, vk_job, foldl_keep, apply_ite (Dev.without · pts), ite_self, h_pipe, Dev.failJob_keep,
        Dev.setPend_keep]))
theorem Dev.pipeFlatLoad_keep {pts : List Part} (d : Dev) (r : Req) (c : Nat) (h_pipe : pts.contains .pipe = true) :
    VKeeps pts d (Dev.pipeFlatLoad d r c) := by
  unfold Dev.pipeFlatLoad
  repeat' (first
    | (with_reducible refine vk_ite _ _ ?_)
    | (simp only [vk_job, h_pipe, Dev.setPend_keep]; done)
    | (intro _)
    | split
    | (extract_lets)
    | (with_reducible refine (foldl_keep _ _ _ ?_).trans ?_)
    | (simp only [Dev.without, h_pipe, if_true]; done)
    | (simp only [vk_err, vk_turned, vk_ok, vk_job, foldl_keep, apply_ite (Dev.without · pts), ite_self, h_pipe, Dev.setPend_keep])
    | (simp +zetaDelta only [vk_err, vk_turned, vk_ok, vk_job, foldl_keep, apply_ite (Dev.without · pts), ite_self, h_pipe, Dev.setPend_keep]; done)
    | (simp +zetaDelta only [vk_err, vk_turned, vk_ok, vk_job, foldl_keep, apply_ite (Dev.without · pts), ite_self, h_pipe, Dev.setPend_keep]))
theorem Dev.pipeSpectralLoad_keep {pts : List Part} (d : Dev) (r : Req) (c : Nat) (h_pipe : pts.contains .pipe = true) :
    VKeeps pts d (Dev.pipeSpectralLoad d r c) := by
  unfold Dev.pipeSpectralLoad
  repeat' (first
    | (with_reducible refine vk_ite _ _ ?_)
    | (simp only [vk_job, h_pipe, Dev.failJob_keep, Dev.setPend_keep]; done)
    | (intro _)
    | split
    | (extract_lets)
    | (apply Dev.failJob_keep)
    | (with_reducible refine (foldl_keep _ _ _ ?_).trans ?_)
    | (simp only [Dev.without, h_pipe, if_true]; done)
    | (simp only [vk_err, vk_turned, vk_ok, vk_job, foldl_keep, apply_ite (Dev.without · pts), ite_self, h_pipe, Dev.failJob_keep, Dev.setPend_keep])
    | (simp +zetaDelta only [vk_err, vk_turned, vk_ok, vk_job, foldl_keep, apply_ite (Dev.without · pts), ite_self, h_pipe, Dev.failJob_keep,
        Dev.setPend_keep]; done)
    | (simp +zetaDelta only [vk_err, vk_turned, vk_ok, vk_job, foldl_keep, apply_ite (Dev.without · pts), ite_self, h_pipe, Dev.failJob_keep,
        Dev.setPend_keep]))
theorem Dev.pipeMatrixLoad_keep {pts : List Part} (d : Dev) (r : Req) (c : Nat) (h_pipe : pts.contains .pipe = true) :
    VKeeps pts d (Dev.pipeMatrixLoad d r c) := by
  unfold Dev.pipeMatrixLoad
  extract_lets b l t
  split
  · rw [vk_err]; trivial
  · split
    · rw [vk_err]; trivial
    · split
      · exact Dev.failJob_keep d _ _ _
      · rw [vk_job]
        exact Dev.setPend_keep d _ _ h_pipe
theorem Dev.pipeIrSet_keep {pts : List Part} (d : Dev) (r : Req) (c : Nat) (h_pipe : pts.contains .pipe = true) :
    VKeeps pts d (Dev.pipeIrSet d r c) := by
  unfold Dev.pipeIrSet
  repeat' (first
    | (with_reducible refine vk_ite _ _ ?_)
    | (simp only [vk_err, vk_ok, h_pipe, Dev.setPend_keep]; done)
    | (intro _)
    | split
    | (extract_lets)
    | (with_reducible refine (foldl_keep _ _ _ ?_).trans ?_)
    | (simp only [Dev.without, h_pipe, if_true]; done)
    | (simp only [vk_err, vk_turned, vk_ok, vk_job, foldl_keep, apply_ite (Dev.without · pts), ite_self, h_pipe, Dev.setPend_keep])
    | (simp +zetaDelta only [vk_err, vk_turned, vk_ok, vk_job, foldl_keep, apply_ite (Dev.without · pts), ite_self, h_pipe, Dev.setPend_keep]; done)
    | (simp +zetaDelta only [vk_err, vk_turned, vk_ok, vk_job, foldl_keep, apply_ite (Dev.without · pts), ite_self, h_pipe, Dev.setPend_keep]))
theorem Dev.pipeCommit_keep {pts : List Part} (d : Dev) (c : Nat) (h_pipe : pts.contains .pipe = true) : VKeeps pts d (Dev.pipeCommit d c) := by
  unfold Dev.pipeCommit
  repeat' (first
    | (with_reducible refine vk_ite _ _ ?_)
    | (simp only [vk_err, vk_job, h_pipe, Dev.failJob_keep, Dev.setPcam_keep, Dev.commitIdle_keep]; done)
    | (intro _)
    | split
    | (extract_lets)
    | (apply Dev.failJob_keep)
    | (with_reducible refine (foldl_keep _ _ _ ?_).trans ?_)
    | (simp only [Dev.without, h_pipe, if_true]; done)
    | (simp only [vk_err, vk_turned, vk_ok, vk_job, foldl_keep, apply_ite (Dev.without · pts), ite_self, h_pipe, Dev.failJob_keep, Dev.setPcam_keep,
        Dev.commitIdle_keep])
    | (simp +zetaDelta only [vk_err, vk_turned, vk_ok, vk_job, foldl_keep, apply_ite (Dev.without · pts), ite_self, h_pipe, Dev.failJob_keep,
        Dev.setPcam_keep, Dev.commitIdle_keep]; done)
    | (simp +zetaDelta only [vk_err, vk_turned, vk_ok, vk_job, foldl_keep, apply_ite (Dev.without · pts), ite_self, h_pipe, Dev.failJob_keep,
        Dev.setPcam_keep, Dev.commitIdle_keep]))
theorem Dev.tileStats_keep {pts : List Part} (d : Dev) (r : Req) (regs : List Reg) (clear : List Fld) :
    VKeeps pts d (Dev.tileStats d r regs clear) := by
  unfold Dev.tileStats
  repeat' (first
    | (with_reducible refine vk_ite _ _ ?_)
    | (simp only [vk_ok, Dev.fs_keep]; done)
    | (intro _)
    | split
    | (extract_lets)
    | (with_reducible refine (foldl_keep _ _ _ ?_).trans ?_)
    | (simp only [vk_ok])
    | (simp +zetaDelta only [vk_err, vk_turned, vk_ok, vk_job, foldl_keep, apply_ite (Dev.without · pts), ite_self, Dev.fs_keep]; done)
    | (simp +zetaDelta only [vk_err, vk_turned, vk_ok, vk_job, foldl_keep, apply_ite (Dev.without · pts), ite_self, Dev.fs_keep]))
theorem camOnly_keep {pts : List Part} (d : Dev) (r : Req) (f : Nat → VRes Dev) (hf : ∀ c, VKeeps pts d (f c)) :
    VKeeps pts d (camOnly r f) := by
  unfold camOnly
  split
  · trivial
  · exact hf _
theorem Dev.colourOtSet_keep {pts : List Part} (d : Dev) (r : Req) (c : Nat) (h_pipe : pts.contains .pipe = true) :
    VKeeps pts d (Dev.colourOtSet d r c) := by
  unfold Dev.colourOtSet
  repeat' (first
    | (with_reducible refine vk_ite _ _ ?_)
    | (simp only [vk_err, vk_ok, h_pipe, Dev.setPend_keep]; done)
    | (intro _)
    | split
    | (extract_lets)
    | (with_reducible refine (foldl_keep _ _ _ ?_).trans ?_)
    | (simp only [Dev.without, h_pipe, if_true]; done)
    | (simp only [vk_err, vk_turned, vk_ok, vk_job, foldl_keep, apply_ite (Dev.without · pts), ite_self, h_pipe, Dev.setPend_keep])
    | (simp +zetaDelta only [vk_err, vk_turned, vk_ok, vk_job, foldl_keep, apply_ite (Dev.without · pts), ite_self, h_pipe, Dev.setPend_keep]; done)
    | (simp +zetaDelta only [vk_err, vk_turned, vk_ok, vk_job, foldl_keep, apply_ite (Dev.without · pts), ite_self, h_pipe, Dev.setPend_keep]))
theorem Dev.colourShaperLoad_keep {pts : List Part} (d : Dev) (r : Req) (c : Nat) (h_pipe : pts.contains .pipe = true) :
    VKeeps pts d (Dev.colourShaperLoad d r c) := by
  unfold Dev.colourShaperLoad
  extract_lets b l t
  split
  · rw [vk_err]; trivial
  · split
    · rw [vk_err]; trivial
    · split
      · exact Dev.failJob_keep d _ _ _
      · rw [vk_job]
        exact Dev.setPend_keep d _ _ h_pipe
theorem Dev.colourLutLoad_keep {pts : List Part} (d : Dev) (r : Req) (c : Nat) (h_pipe : pts.contains .pipe = true) :
    VKeeps pts d (Dev.colourLutLoad d r c) := by
  unfold Dev.colourLutLoad
  repeat' (first
    | (with_reducible refine vk_ite _ _ ?_)
    | (simp only [vk_job, h_pipe, Dev.failJob_keep, Dev.setPend_keep]; done)
    | (intro _)
    | split
    | (extract_lets)
    | (apply Dev.failJob_keep)
    | (with_reducible refine (foldl_keep _ _ _ ?_).trans ?_)
    | (simp only [Dev.without, h_pipe, if_true]; done)
    | (simp only [vk_err, vk_turned, vk_ok, vk_job, foldl_keep, apply_ite (Dev.without · pts), ite_self, h_pipe, Dev.failJob_keep, Dev.setPend_keep])
    | (simp +zetaDelta only [vk_err, vk_turned, vk_ok, vk_job, foldl_keep, apply_ite (Dev.without · pts), ite_self, h_pipe, Dev.failJob_keep,
        Dev.setPend_keep]; done)
    | (simp +zetaDelta only [vk_err, vk_turned, vk_ok, vk_job, foldl_keep, apply_ite (Dev.without · pts), ite_self, h_pipe, Dev.failJob_keep,
        Dev.setPend_keep]))
theorem Dev.colourTnrSet_keep {pts : List Part} (d : Dev) (r : Req) (c : Nat) (h_hbm : pts.contains .hbm = true) (h_pipe :
    pts.contains .pipe = true) : VKeeps pts d (Dev.colourTnrSet d r c) := by
  unfold Dev.colourTnrSet
  repeat' (first
    | (with_reducible refine vk_ite _ _ ?_)
    | (simp only [vk_err, vk_ok, h_hbm, h_pipe, Dev.setPend_keep, Dev.freeArea_keep]; done)
    | (intro _)
    | split
    | (extract_lets)
    | (with_reducible refine (foldl_keep _ _ _ ?_).trans ?_)
    | (simp only [Dev.without, h_hbm, h_pipe, if_true]; done)
    | (with_reducible refine (Dev.alloc_keep _ _ _ _ h_hbm (by assumption)).trans ?_)
    | (simp only [vk_ok, h_hbm, h_pipe, Dev.setPend_keep])
    | (simp +zetaDelta only [vk_err, vk_turned, vk_ok, vk_job, foldl_keep, apply_ite (Dev.without · pts), ite_self, h_hbm, h_pipe, Dev.setPend_keep,
        Dev.alloc_keep, Dev.freeArea_keep]; done)
    | (simp +zetaDelta only [vk_err, vk_turned, vk_ok, vk_job, foldl_keep, apply_ite (Dev.without · pts), ite_self, h_hbm, h_pipe, Dev.setPend_keep,
        Dev.alloc_keep, Dev.freeArea_keep]))
theorem Dev.putSet_keep {pts : List Part} (d : Dev) (c mask : Nat) (v : FrameSet) (effect : Nat) (h_pipe : pts.contains .pipe = true) :
    (Dev.putSet d c mask v effect).without pts = d.without pts := by
  unfold Dev.putSet
  simp only [apply_ite (Dev.without · pts), ite_self, h_pipe, Dev.setPcam_keep, Dev.useFree_keep, Dev.applySets_keep]
theorem Dev.colourFrameSet_keep {pts : List Part} (d : Dev) (r : Req) (c : Nat) (h_pipe : pts.contains .pipe = true) :
    VKeeps pts d (Dev.colourFrameSet d r c) := by
  unfold Dev.colourFrameSet
  repeat' (first
    | (with_reducible refine vk_ite _ _ ?_)
    | (simp only [vk_err, vk_ok, h_pipe, Dev.putSet_keep]; done)
    | (intro _)
    | split
    | (extract_lets)
    | (with_reducible refine (foldl_keep _ _ _ ?_).trans ?_)
    | (simp only [Dev.without, h_pipe, if_true]; done)
    | (simp only [vk_err, vk_turned, vk_ok, vk_job, foldl_keep, apply_ite (Dev.without · pts), ite_self, h_pipe, Dev.putSet_keep])
    | (simp +zetaDelta only [vk_err, vk_turned, vk_ok, vk_job, foldl_keep, apply_ite (Dev.without · pts), ite_self, h_pipe, Dev.putSet_keep]; done)
    | (simp +zetaDelta only [vk_err, vk_turned, vk_ok, vk_job, foldl_keep, apply_ite (Dev.without · pts), ite_self, h_pipe, Dev.putSet_keep]))
theorem Dev.autoRun_keep {pts : List Part} (d : Dev) (c n : Nat) (h_pipe : pts.contains .pipe = true) :
    (Dev.autoRun d c n).without pts = d.without pts := by
  unfold Dev.autoRun
  repeat' (first
    | (with_reducible rfl)
    | (simp only [apply_ite (Dev.without · pts), ite_self, h_pipe, Dev.putSet_keep, Dev.setPcam_keep]; done)
    | (intro _)
    | split
    | (with_reducible refine (foldl_keep _ _ _ ?_).trans ?_)
    | (simp only [Dev.without, h_pipe, if_true]; done)
    | (simp only [foldl_keep, apply_ite (Dev.without · pts), ite_self, h_pipe, Dev.putSet_keep, Dev.setPcam_keep]))
theorem Dev.freeAlloc_keep {pts : List Part} (d : Dev) (c : Nat) (h_bank : pts.contains .bank = true) (h_pipe : pts.contains .pipe = true) :
    (Dev.freeAlloc d c).without pts = d.without pts := by
  unfold Dev.freeAlloc
  (try simp only [h_pipe, upd_pipe_keep, Dev.syncPool_keep, Dev.wr_keep])
  repeat' (first
    | (with_reducible rfl)
    | (simp only [apply_ite (Dev.without · pts), ite_self, h_bank, h_pipe, Dev.setRole_keep]; done)
    | (intro _)
    | split
    | (with_reducible refine (foldl_keep _ _ _ ?_).trans ?_)
    | (simp only [Dev.without, h_bank, h_pipe, if_true]; done)
    | (simp only [foldl_keep, apply_ite (Dev.without · pts), ite_self, h_bank, h_pipe, upd_pipe_keep, Dev.setRole_keep, Dev.syncPool_keep,
        Dev.wr_keep]))
theorem Dev.showAlloc_keep {pts : List Part} (d : Dev) (c : Nat) : (Dev.showAlloc d c).without pts = d.without pts := by
  unfold Dev.showAlloc
  simp only [Dev.fs_keep]
theorem Dev.putAlloc_keep {pts : List Part} (d : Dev) (c : Nat) (a : CamAlloc) (h_hbm : pts.contains .hbm = true) (h_pipe :
    pts.contains .pipe = true) {e0 : Dev} (h : Dev.putAlloc d c a = some e0) : e0.without pts = d.without pts := by
  unfold Dev.putAlloc at h
  extract_lets old at h
  split at h
  · cases h
  · rename_i bs e1 hx1
    have h1 := (Dev.alloc_keep (pts := pts) _ _ _ _ h_hbm hx1).trans (Dev.freeArea_keep d _ h_hbm)
    extract_lets e at h
    have he : ∀ x, e = some x → x.without pts = d.without pts := by
      intro x hx
      simp only [e] at hx
      split at hx
      · cases ha : (e1.freeArea (tagOf 12 c)).alloc rgDevelop 65536 (tagOf 12 c) with
        | none => rw [ha] at hx; cases hx
        | some y =>
          rw [ha] at hx; cases hx
          exact (Dev.alloc_keep _ _ _ _ h_hbm ha).trans ((Dev.freeArea_keep e1 _ h_hbm).trans h1)
      · cases hx; exact h1
    clear_value e
    split at h
    · cases h
    · rename_i e2
      obtain rfl := Option.some.inj h
      refine (Dev.showAlloc_keep _ _).trans ((upd_pipe_keep _ _ h_pipe).trans ((Dev.setPcam_keep e2 _ _ h_pipe).trans ?_))
      exact he e2 rfl
theorem Dev.placeInline_keep {pts : List Part} (d : Dev) (c n : Nat) (gs : List Nat) (h_bank : pts.contains .bank = true) (h_pipe :
    pts.contains .pipe = true) : (Dev.placeInline d c n gs).without pts = d.without pts := by
  unfold Dev.placeInline
  (try simp only [h_pipe, Dev.syncPool_keep])
  repeat' (first
    | (with_reducible rfl)
    | (simp only [h_bank, h_pipe, Dev.setRole_keep]; done)
    | (intro _)
    | split
    | (with_reducible refine (foldl_keep _ _ _ ?_).trans ?_)
    | (simp only [Dev.without, h_bank, h_pipe, if_true]; done)
    | (simp only [foldl_keep, apply_ite (Dev.without · pts), ite_self, h_bank, h_pipe, Dev.syncPool_keep, Dev.setRole_keep]))
theorem Dev.capacityErr_keep {pts : List Part} (d : Dev) : VKeeps pts d Dev.capacityErr := True.intro
theorem Dev.outCameraAlloc_keep {pts : List Part} (d : Dev) (r : Req) (h_hbm : pts.contains .hbm = true) (h_bank : pts.contains .bank = true)
    (h_pipe : pts.contains .pipe = true) : VKeeps pts d (Dev.outCameraAlloc d r) := by
  unfold Dev.outCameraAlloc
  extract_lets c w n rate sw part d1 t fail gs s1 y1 y2
  refine vk_ite _ _ (vk_ite _ _ (vk_ite _ _ (vk_ite _ _ (vk_ite _ _ (vk_ite _ _ ?_)))))
  have h1 : d1.without pts = d.without pts := Dev.freeAlloc_keep d c h_bank h_pipe
  have hf : ∀ bad k, (∀ e : Dev, (k e).without pts = e.without pts) → VKeeps pts d (fail bad k) := by
    intro bad k hk
    simp only [fail]
    split
    · exact Dev.capacityErr_keep d
    · split
      · rw [vk_err]; trivial
      · rename_i e hx
        rw [vk_ok]
        exact (Dev.syncPool_keep _ h_pipe).trans ((hk e).trans ((Dev.putAlloc_keep _ _ _ h_hbm h_pipe hx).trans h1))
  clear_value fail
  refine vk_ite _ _ ?_
  · split
    · exact hf _ _ (fun e => Dev.placeInline_keep e _ _ _ h_bank h_pipe)
    · split
      · exact hf _ _ (fun e => rfl)
      · exact hf _ _ (fun e => rfl)
theorem Dev.outPoolSet_keep {pts : List Part} (d : Dev) (r : Req) (h_bank : pts.contains .bank = true) (h_pipe : pts.contains .pipe = true) :
    VKeeps pts d (Dev.outPoolSet d r) := by
  unfold Dev.outPoolSet
  repeat' (first
    | (with_reducible refine vk_ite _ _ ?_)
    | (simp only [vk_err, vk_job, apply_ite (Dev.without · pts), ite_self, h_bank, h_pipe, Dev.syncPool_keep, Dev.setRole_keep]; done)
    | (intro _)
    | split
    | (extract_lets)
    | (with_reducible refine (foldl_keep _ _ _ ?_).trans ?_)
    | (simp only []; done)
    | (simp only [vk_job, h_pipe, Dev.syncPool_keep])
    | (simp +zetaDelta only []; done)
    | (simp +zetaDelta only []))
theorem Dev.outCompatSet_keep {pts : List Part} (d : Dev) (r : Req) (h_bank : pts.contains .bank = true) (h_pipe : pts.contains .pipe = true) :
    VKeeps pts d (Dev.outCompatSet d r) := by
  unfold Dev.outCompatSet
  extract_lets b slots cams gs isCpt mine d1 d2 d3
  iterate 6 refine vk_ite _ _ ?_
  split
  · exact Dev.capacityErr_keep d
  · rw [vk_job]
    have h1 : d1.without pts = d.without pts := by
      refine foldl_keep _ _ _ (fun e g => ?_)
      split
      · exact foldl_keep _ _ _ (fun a u => Dev.setRole_keep a u _ h_bank h_pipe)
      · split
        · exact foldl_keep _ _ _ (fun a u => Dev.setRole_keep a u _ h_bank h_pipe)
        · rfl
    have h3 : d3.without pts = d.without pts := by
      simp only [d3, d2, Dev.wr_keep, Dev.fs_keep]
      exact h1
    exact (Dev.syncPool_keep _ h_pipe).trans ((upd_pipe_keep d3 _ h_pipe).trans h3)
theorem Dev.outRotate_keep {pts : List Part} (d : Dev) (r : Req) (h_bank : pts.contains .bank = true) (h_hl : pts.contains .hl = true) (h_pipe :
    pts.contains .pipe = true) : VKeeps pts d (Dev.outRotate d r) := by
  unfold Dev.outRotate
  repeat' (first
    | (with_reducible refine vk_ite _ _ ?_)
    | (simp only [vk_err, vk_job, h_bank, h_hl, h_pipe, upd_pipe_keep, Dev.prepare_keep, Dev.swapRole_keep]; done)
    | (intro _)
    | split
    | (extract_lets)
    | (with_reducible refine (foldl_keep _ _ _ ?_).trans ?_)
    | (simp only [Dev.without, h_bank, h_hl, h_pipe, if_true]; done)
    | (simp only [vk_err, vk_turned, vk_ok, vk_job, foldl_keep, apply_ite (Dev.without · pts), ite_self, h_bank, h_hl, h_pipe, upd_pipe_keep,
        Dev.prepare_keep, Dev.swapRole_keep])
    | (simp +zetaDelta only [vk_err, vk_turned, vk_ok, vk_job, foldl_keep, apply_ite (Dev.without · pts), ite_self, h_bank, h_hl, h_pipe,
        upd_pipe_keep, Dev.prepare_keep, Dev.swapRole_keep]; done)
    | (simp +zetaDelta only [vk_err, vk_turned, vk_ok, vk_job, foldl_keep, apply_ite (Dev.without · pts), ite_self, h_bank, h_hl, h_pipe,
        upd_pipe_keep, Dev.prepare_keep, Dev.swapRole_keep]))
theorem Dev.syncJobs_keep {pts : List Part} (d : Dev) : (Dev.syncJobs d).without pts = d.without pts := by
  unfold Dev.syncJobs
  simp only [Dev.fs_keep]
theorem Dev.modFrame_keep {pts : List Part} (d : Dev) (c n : Nat) (g : FrameDev → FrameDev) (h_pipe : pts.contains .pipe = true) :
    (Dev.modFrame d c n g).without pts = d.without pts := by
  unfold Dev.modFrame
  simp only [h_pipe, upd_pipe_keep]
theorem Dev.queueRedo_keep {pts : List Part} (d : Dev) (c n i part : Nat) (h_pipe : pts.contains .pipe = true) :
    (Dev.queueRedo d c n i part).without pts = d.without pts := by
  unfold Dev.queueRedo
  simp only [apply_ite (Dev.without · pts), ite_self, h_pipe, upd_pipe_keep, Dev.modFrame_keep, Dev.syncJobs_keep, Dev.fadd_keep]
theorem Dev.admitFrame_keep {pts : List Part} (d : Dev) (rep : FrameRep) (h_pipe : pts.contains .pipe = true) :
    (Dev.admitFrame d rep).without pts = d.without pts := by
  unfold Dev.admitFrame
  (try simp only [apply_ite (Dev.without · pts), ite_self, h_pipe, upd_pipe_keep, Dev.modFrame_keep, Dev.syncJobs_keep])
  repeat' (first
    | (with_reducible rfl)
    | (simp only [apply_ite (Dev.without · pts), ite_self, h_pipe, upd_pipe_keep, Dev.modFrame_keep, Dev.queueRedo_keep]; done)
    | (intro _)
    | split
    | (with_reducible refine (foldl_keep _ _ _ ?_).trans ?_)
    | (simp only [Dev.without, h_pipe, if_true]; done)
    | (simp only [foldl_keep, apply_ite (Dev.without · pts), ite_self, h_pipe, upd_pipe_keep, Dev.modFrame_keep, Dev.queueRedo_keep,
        Dev.syncJobs_keep]))
theorem Dev.takeJobs_keep {pts : List Part} (d : Dev) (h_ing : pts.contains .ing = true) (h_pipe : pts.contains .pipe = true) :
    (Dev.takeJobs d).without pts = d.without pts := by
  unfold Dev.takeJobs
  repeat' (first
    | (with_reducible rfl)
    | (simp only [apply_ite (Dev.without · pts), ite_self, h_ing, h_pipe, upd_ing_keep, Dev.admitFrame_keep]; done)
    | (intro _)
    | split
    | (with_reducible refine (foldl_keep _ _ _ ?_).trans ?_)
    | (simp only [Dev.without, h_ing, h_pipe, if_true]; done)
    | (simp only [foldl_keep, apply_ite (Dev.without · pts), ite_self, h_ing, h_pipe, upd_ing_keep, Dev.admitFrame_keep]))
theorem Dev.nextSlot_keep {pts : List Part} (d : Dev) (h_pipe : pts.contains .pipe = true) : (Dev.nextSlot d).without pts = d.without pts := by
  unfold Dev.nextSlot
  simp only [h_pipe, upd_pipe_keep]
theorem Dev.dispatchJob_keep {pts : List Part} (d : Dev) (k : Nat) (h_ing : pts.contains .ing = true) (h_pipe : pts.contains .pipe = true) :
    (Dev.dispatchJob d k).without pts = d.without pts := by
  unfold Dev.dispatchJob
  repeat' (first
    | (with_reducible rfl)
    | (simp only [apply_ite (Dev.without · pts), ite_self, h_ing, h_pipe, upd_pipe_keep, Dev.takeJobs_keep, Dev.useFree_keep, Dev.syncJobs_keep,
        Dev.firstOp_keep, Dev.nextSlot_keep]; done)
    | (intro _)
    | split
    | (with_reducible refine (foldl_keep _ _ _ ?_).trans ?_)
    | (simp only [Dev.without, h_ing, h_pipe, if_true]; done)
    | (simp only [foldl_keep, apply_ite (Dev.without · pts), ite_self, h_ing, h_pipe, upd_pipe_keep, Dev.takeJobs_keep, Dev.useFree_keep,
        Dev.syncJobs_keep, Dev.firstOp_keep, Dev.nextSlot_keep]))
theorem Dev.replaceInline_keep {pts : List Part} (d : Dev) (u cam : Nat) (h_bank : pts.contains .bank = true) (h_hl : pts.contains .hl = true)
    (h_pipe : pts.contains .pipe = true) : (Dev.replaceInline d u cam).without pts = d.without pts := by
  unfold Dev.replaceInline
  (try simp only [apply_ite (Dev.without · pts)])
  repeat' (first
    | (with_reducible rfl)
    | (simp only [h_bank, h_hl, h_pipe, upd_pipe_keep, Dev.rollTaken_keep, Dev.prepare_keep, Dev.raise_keep]; done)
    | (intro _)
    | split
    | (with_reducible refine (foldl_keep _ _ _ ?_).trans ?_)
    | (simp only [Dev.without, h_bank, h_hl, h_pipe, if_true]; done)
    | (simp only [foldl_keep, apply_ite (Dev.without · pts), ite_self, h_bank, h_hl, h_pipe, upd_pipe_keep, Dev.rollTaken_keep, Dev.prepare_keep,
        Dev.raise_keep]))
theorem Dev.replacePart_keep {pts : List Part} (d : Dev) (u : Nat) (h_bank : pts.contains .bank = true) (h_hl : pts.contains .hl = true) (h_pipe :
    pts.contains .pipe = true) : (Dev.replacePart d u).without pts = d.without pts := by
  unfold Dev.replacePart
  repeat' (first
    | (with_reducible rfl)
    | (simp only [apply_ite (Dev.without · pts), ite_self, h_bank, h_hl, h_pipe, Dev.syncPool_keep, Dev.setRole_keep, Dev.prepare_keep,
        Dev.rollTaken_keep]; done)
    | (intro _)
    | split
    | (with_reducible refine (foldl_keep _ _ _ ?_).trans ?_)
    | (simp only [Dev.without, h_bank, h_hl, h_pipe, if_true]; done)
    | (simp only [foldl_keep, apply_ite (Dev.without · pts), ite_self, h_bank, h_hl, h_pipe, Dev.syncPool_keep, Dev.setRole_keep, Dev.prepare_keep,
        Dev.rollTaken_keep]))
theorem Dev.failTile_keep {pts : List Part} (d : Dev) (u : Nat) (h_bank : pts.contains .bank = true) (h_hl : pts.contains .hl = true) (h_pipe :
    pts.contains .pipe = true) : (Dev.failTile d u).without pts = d.without pts := by
  unfold Dev.failTile
  repeat' (first
    | (with_reducible rfl)
    | (simp only [apply_ite (Dev.without · pts), ite_self, h_bank, h_hl, h_pipe, upd_pipe_keep, Dev.fs_keep, Dev.raise_keep, Dev.queueRedo_keep,
        Dev.replaceInline_keep, Dev.replacePart_keep, Dev.drainTile_keep]; done)
    | (intro _)
    | split
    | (with_reducible refine (foldl_keep _ _ _ ?_).trans ?_)
    | (simp only [Dev.without, h_bank, h_hl, h_pipe, if_true]; done)
    | (simp only [foldl_keep, apply_ite (Dev.without · pts), ite_self, h_bank, h_hl, h_pipe, upd_pipe_keep, Dev.fs_keep, Dev.raise_keep,
        Dev.queueRedo_keep, Dev.replaceInline_keep, Dev.replacePart_keep, Dev.drainTile_keep]))
theorem Dev.syncLut_keep {pts : List Part} (d : Dev) (g : Nat) : (Dev.syncLut d g).without pts = d.without pts := by
  unfold Dev.syncLut
  simp only [Dev.fs_keep]
theorem Dev.putStream_keep {pts : List Part} (d : Dev) (s : Nat) (b : List Byte) (k : StrCfg) :
    (Dev.putStream d s b k).without pts = d.without pts := by
  unfold Dev.putStream
  repeat' (first
    | (with_reducible rfl)
    | (simp only [Dev.fs_keep]; done)
    | (intro _)
    | split
    | (with_reducible refine (foldl_keep _ _ _ ?_).trans ?_)
    | (simp only [foldl_keep, apply_ite (Dev.without · pts), ite_self, Dev.fs_keep]))
theorem Dev.putBufq_keep {pts : List Part} (d : Dev) (s owner cls depthLog2 errQid : Nat) (h_qf : pts.contains .qf = true) (h_hbm :
    pts.contains .hbm = true) (h_host : pts.contains .host = true) (h_pipe : pts.contains .pipe = true) :
    (Dev.putBufq d s owner cls depthLog2 errQid).without pts = d.without pts := by
  unfold Dev.putBufq
  (try simp only [h_qf, h_pipe, Dev.setStr_keep, Dev.setQ_keep])
  repeat' (first
    | (with_reducible rfl)
    | (simp only [h_qf, h_hbm, h_host, upd_oz_keep, Dev.fs_keep, Dev.returnRole_keep, Dev.closeTag_keep]; done)
    | (intro _)
    | split
    | (with_reducible refine (foldl_keep _ _ _ ?_).trans ?_)
    | (simp only [Dev.without, h_qf, h_hbm, h_host, h_pipe, if_true]; done)
    | (simp only [foldl_keep, apply_ite (Dev.without · pts), ite_self, h_qf, h_hbm, h_host, h_pipe, upd_oz_keep, Dev.fs_keep, Dev.returnRole_keep,
        Dev.closeTag_keep, Dev.setStr_keep, Dev.setQ_keep]))
theorem Dev.outStreamSet_keep {pts : List Part} (d : Dev) (r : Req) (h_qf : pts.contains .qf = true) (h_hbm : pts.contains .hbm = true) (h_host :
    pts.contains .host = true) (h_pipe : pts.contains .pipe = true) : VKeeps pts d (Dev.outStreamSet d r) := by
  unfold Dev.outStreamSet
  extract_lets s b k cls e1 internal e2 e3
  split
  · rw [vk_err]; trivial
  · split
    · rw [vk_err]; trivial
    · split
      · rw [vk_err]; trivial
      · split
        · exact Dev.capacityErr_keep d
        · split
          · exact Dev.capacityErr_keep d
          · rw [vk_ok]
            simp only [e3, e2, e1, Dev.modStr_keep, Dev.putBufq_keep, Dev.putStream_keep, h_pipe, h_qf, h_hbm, h_host]
theorem Dev.outStreamStart_keep {pts : List Part} (d : Dev) (r : Req) (h_pipe : pts.contains .pipe = true) :
    VKeeps pts d (Dev.outStreamStart d r) := by
  unfold Dev.outStreamStart
  repeat' (first
    | (with_reducible refine vk_ite _ _ ?_)
    | (simp only [vk_ok, h_pipe, Dev.modStr_keep, Dev.fs_keep]; done)
    | (intro _)
    | split
    | (extract_lets)
    | (with_reducible refine (foldl_keep _ _ _ ?_).trans ?_)
    | (simp only [Dev.without, h_pipe, if_true]; done)
    | (simp only [vk_err, vk_turned, vk_ok, vk_job, foldl_keep, apply_ite (Dev.without · pts), ite_self, h_pipe, Dev.modStr_keep, Dev.fs_keep])
    | (simp +zetaDelta only [vk_err, vk_turned, vk_ok, vk_job, foldl_keep, apply_ite (Dev.without · pts), ite_self, h_pipe, Dev.modStr_keep,
        Dev.fs_keep]; done)
    | (simp +zetaDelta only [vk_err, vk_turned, vk_ok, vk_job, foldl_keep, apply_ite (Dev.without · pts), ite_self, h_pipe, Dev.modStr_keep,
        Dev.fs_keep]))
theorem Dev.unmember_keep {pts : List Part} (d : Dev) (g s : Nat) : (Dev.unmember d g s).without pts = d.without pts := by
  unfold Dev.unmember
  simp only [Dev.fs_keep]
theorem Dev.strStopNow_keep {pts : List Part} (d : Dev) (s : Nat) (h_qf : pts.contains .qf = true) (h_hbm : pts.contains .hbm = true) (h_host :
    pts.contains .host = true) (h_pipe : pts.contains .pipe = true) : (Dev.strStopNow d s).without pts = d.without pts := by
  unfold Dev.strStopNow
  (try simp only [h_qf, h_hbm, h_host, Dev.closeWaiting_keep, h_pipe, Dev.endOp_keep, Dev.fs_keep, Dev.modStr_keep, Dev.unmember_keep])
  repeat' (first
    | (with_reducible rfl)
    | (simp only [h_qf, h_hbm, h_host, h_pipe, Dev.modStr_keep, Dev.fs_keep, Dev.endOp_keep, Dev.closeWaiting_keep, Dev.unmember_keep]; done)
    | (intro _)
    | split
    | (with_reducible refine (foldl_keep _ _ _ ?_).trans ?_)
    | (simp only [Dev.without, h_qf, h_hbm, h_host, h_pipe, if_true]; done)
    | (simp only [foldl_keep, apply_ite (Dev.without · pts), ite_self, h_qf, h_hbm, h_host, h_pipe, Dev.modStr_keep, Dev.fs_keep, Dev.endOp_keep,
        Dev.closeWaiting_keep, Dev.unmember_keep]))
theorem Dev.settleStops_keep {pts : List Part} (d : Dev) (h_qf : pts.contains .qf = true) (h_hbm : pts.contains .hbm = true) (h_host :
    pts.contains .host = true) (h_pipe : pts.contains .pipe = true) : (Dev.settleStops d).without pts = d.without pts := by
  unfold Dev.settleStops
  (try simp only [foldl_keep, apply_ite (Dev.without · pts), ite_self, h_qf, h_hbm, h_host, h_pipe, Dev.strStopNow_keep])
  repeat' (first
    | (with_reducible rfl)
    | (simp only [apply_ite (Dev.without · pts), ite_self, h_qf, h_hbm, h_host, h_pipe, Dev.strStopNow_keep]; done)
    | (intro _)
    | split
    | (with_reducible refine (foldl_keep _ _ _ ?_).trans ?_)
    | (simp only [Dev.without, h_qf, h_hbm, h_host, h_pipe, if_true]; done)
    | (simp only [foldl_keep, apply_ite (Dev.without · pts), ite_self, h_qf, h_hbm, h_host, h_pipe, Dev.strStopNow_keep]))
theorem Dev.outCoefLoad_keep {pts : List Part} (d : Dev) (r : Req) (h_pipe : pts.contains .pipe = true) : VKeeps pts d (Dev.outCoefLoad d r) := by
  unfold Dev.outCoefLoad
  repeat' (first
    | (with_reducible refine vk_ite _ _ ?_)
    | (simp only [vk_ok, h_pipe, Dev.modStr_keep]; done)
    | (intro _)
    | split
    | (extract_lets)
    | (with_reducible refine (foldl_keep _ _ _ ?_).trans ?_)
    | (simp only [Dev.without, h_pipe, if_true]; done)
    | (simp only [vk_err, vk_turned, vk_ok, vk_job, foldl_keep, apply_ite (Dev.without · pts), ite_self, h_pipe, Dev.modStr_keep])
    | (simp +zetaDelta only [vk_err, vk_turned, vk_ok, vk_job, foldl_keep, apply_ite (Dev.without · pts), ite_self, h_pipe, Dev.modStr_keep]; done)
    | (simp +zetaDelta only [vk_err, vk_turned, vk_ok, vk_job, foldl_keep, apply_ite (Dev.without · pts), ite_self, h_pipe, Dev.modStr_keep]))
theorem Dev.member_keep {pts : List Part} (d : Dev) (g s : Nat) (h_pipe : pts.contains .pipe = true) :
    (Dev.member d g s).without pts = d.without pts := by
  unfold Dev.member
  simp only [h_pipe, Dev.fs_keep, Dev.modStr_keep]
theorem Dev.outAlignSet_keep {pts : List Part} (d : Dev) (r : Req) (h_pipe : pts.contains .pipe = true) : VKeeps pts d (Dev.outAlignSet d r) := by
  unfold Dev.outAlignSet
  repeat' (first
    | (with_reducible refine vk_ite _ _ ?_)
    | (simp only [vk_ok, apply_ite (Dev.without · pts), ite_self, h_pipe, Dev.unmember_keep, Dev.fs_keep, Dev.wr_keep, Dev.member_keep]; done)
    | (intro _)
    | split
    | (extract_lets)
    | (with_reducible refine (foldl_keep _ _ _ ?_).trans ?_)
    | (simp only [Dev.without, h_pipe, if_true]; done)
    | (simp only [vk_ok])
    | (simp +zetaDelta only [Dev.fs_keep, Dev.wr_keep]; done)
    | (simp +zetaDelta only [Dev.fs_keep, Dev.wr_keep]))
theorem Dev.bufDispatched_keep {pts : List Part} (d : Dev) (o : Op) (h_qf : pts.contains .qf = true) (h_hbm : pts.contains .hbm = true) (h_host :
    pts.contains .host = true) : (Dev.bufDispatched d o).without pts = d.without pts := by
  unfold Dev.bufDispatched
  repeat' (first
    | (with_reducible rfl)
    | (simp only [apply_ite (Dev.without · pts), ite_self, h_qf, h_hbm, h_host, Dev.endOp_keep, Dev.raise_keep]; done)
    | (intro _)
    | split
    | (with_reducible refine (foldl_keep _ _ _ ?_).trans ?_)
    | (simp only [Dev.without, h_qf, h_hbm, h_host, if_true]; done)
    | (simp only [foldl_keep, apply_ite (Dev.without · pts), ite_self, h_qf, h_hbm, h_host, Dev.endOp_keep, Dev.raise_keep]))
theorem Dev.takeBuf_keep {pts : List Part} (d : Dev) (s n out : Nat) (o : Op) (h_fab : pts.contains .fab = true) (h_qf : pts.contains .qf = true)
    (h_hbm : pts.contains .hbm = true) (h_host : pts.contains .host = true) (h_pipe : pts.contains .pipe = true) :
    (Dev.takeBuf d s n out o).without pts = d.without pts := by
  unfold Dev.takeBuf
  simp only [apply_ite (Dev.without · pts), ite_self, h_fab, h_qf, h_hbm, h_host, h_pipe, Dev.endOp_keep, Dev.dmaOutside_keep, Dev.modStr_keep]
theorem Dev.rejoin_keep {pts : List Part} (d : Dev) (s n : Nat) (h_pipe : pts.contains .pipe = true) :
    (Dev.rejoin d s n).without pts = d.without pts := by
  unfold Dev.rejoin
  (try simp only [foldl_keep, apply_ite (Dev.without · pts), ite_self, h_pipe, Dev.member_keep])
  repeat' (first
    | (with_reducible rfl)
    | (simp only [apply_ite (Dev.without · pts), ite_self, h_pipe, Dev.member_keep]; done)
    | (intro _)
    | split
    | (with_reducible refine (foldl_keep _ _ _ ?_).trans ?_)
    | (simp only [Dev.without, h_pipe, if_true]; done)
    | (simp only [foldl_keep, apply_ite (Dev.without · pts), ite_self, h_pipe, Dev.member_keep]))
theorem Dev.strFirst_keep {pts : List Part} (d : Dev) (s n : Nat) (h_fab : pts.contains .fab = true) (h_qf : pts.contains .qf = true) (h_hbm :
    pts.contains .hbm = true) (h_host : pts.contains .host = true) (h_pipe : pts.contains .pipe = true) :
    (Dev.strFirst d s n).without pts = d.without pts := by
  unfold Dev.strFirst
  (try simp only [apply_ite (Dev.without · pts), h_pipe, Dev.rejoin_keep])
  repeat' (first
    | (with_reducible rfl)
    | (simp only [apply_ite (Dev.without · pts), h_fab, h_qf, h_hbm, h_host, h_pipe, Dev.rejoin_keep, Dev.raiseOnce_keep, Dev.fadd_keep,
        Dev.takeBuf_keep, Dev.modStr_keep]; done)
    | (intro _)
    | split
    | (with_reducible refine (foldl_keep _ _ _ ?_).trans ?_)
    | (simp only [Dev.without, h_fab, h_qf, h_hbm, h_host, h_pipe, if_true]; done)
    | (simp only [foldl_keep, apply_ite (Dev.without · pts), ite_self, h_fab, h_qf, h_hbm, h_host, h_pipe, Dev.rejoin_keep, Dev.raiseOnce_keep,
        Dev.fadd_keep, Dev.takeBuf_keep, Dev.modStr_keep]))
theorem Dev.pruneStr_keep {pts : List Part} (d : Dev) (s : Nat) (h_pipe : pts.contains .pipe = true) : (Dev.pruneStr d s).without pts = d.without
    pts := by
  unfold Dev.pruneStr
  repeat' (first
    | (with_reducible rfl)
    | (simp only [apply_ite (Dev.without · pts), ite_self, h_pipe, Dev.fadd_keep, Dev.modStr_keep, Dev.raiseOnce_keep]; done)
    | (intro _)
    | split
    | (with_reducible refine (foldl_keep _ _ _ ?_).trans ?_)
    | (simp only [Dev.without, h_pipe, if_true]; done)
    | (simp only [foldl_keep, apply_ite (Dev.without · pts), ite_self, h_pipe, Dev.fadd_keep, Dev.modStr_keep, Dev.raiseOnce_keep]))
theorem Dev.pruneBufs_keep {pts : List Part} (d : Dev) (h_pipe : pts.contains .pipe = true) : (Dev.pruneBufs d).without pts = d.without pts := by
  unfold Dev.pruneBufs
  repeat' (first
    | (with_reducible rfl)
    | (simp only [apply_ite (Dev.without · pts), ite_self, h_pipe, Dev.pruneStr_keep]; done)
    | (intro _)
    | split
    | (with_reducible refine (foldl_keep _ _ _ ?_).trans ?_)
    | (simp only [Dev.without, h_pipe, if_true]; done)
    | (simp only [foldl_keep, apply_ite (Dev.without · pts), ite_self, h_pipe, Dev.pruneStr_keep]))
theorem Dev.streamsFirst_keep {pts : List Part} (d : Dev) (c n : Nat) (h_fab : pts.contains .fab = true) (h_qf : pts.contains .qf = true) (h_hbm :
    pts.contains .hbm = true) (h_host : pts.contains .host = true) (h_pipe : pts.contains .pipe = true) : (Dev.streamsFirst d c n).without pts =
    d.without pts := by
  unfold Dev.streamsFirst
  (try simp only [foldl_keep, apply_ite (Dev.without · pts), ite_self, h_fab, h_qf, h_hbm, h_host, h_pipe, Dev.strFirst_keep, Dev.pruneBufs_keep])
  repeat' (first
    | (with_reducible rfl)
    | (simp only [h_fab, h_qf, h_hbm, h_host, h_pipe, Dev.strFirst_keep, Dev.pruneBufs_keep]; done)
    | (intro _)
    | split
    | (with_reducible refine (foldl_keep _ _ _ ?_).trans ?_)
    | (simp only [Dev.without, h_fab, h_qf, h_hbm, h_host, h_pipe, if_true]; done)
    | (simp only [foldl_keep, apply_ite (Dev.without · pts), ite_self, h_fab, h_qf, h_hbm, h_host, h_pipe, Dev.strFirst_keep, Dev.pruneBufs_keep]))
theorem Dev.ringOut_keep {pts : List Part} (d : Dev) (s : Nat) (b : StrFrame) (rows : Nat) (h_hbm : pts.contains .hbm = true) :
    (Dev.ringOut d s b rows).without pts = d.without pts := by
  unfold Dev.ringOut
  simp only [h_hbm, Dev.hbmW_keep]
theorem Dev.strPost_keep {pts : List Part} (d : Dev) (s : Nat) (b : StrFrame) (inF outF last : Nat) (h_qf : pts.contains .qf = true) (h_hbm :
    pts.contains .hbm = true) (h_host : pts.contains .host = true) (h_pipe : pts.contains .pipe = true) :
    (Dev.strPost d s b inF outF last).without pts = d.without pts := by
  unfold Dev.strPost
  simp only [h_qf, h_hbm, h_host, h_pipe, Dev.useFree_keep, Dev.endOp_keep, Dev.modStr_keep, Dev.wr_keep]
theorem Dev.reap_keep {pts : List Part} (d : Dev) (h_ing : pts.contains .ing = true) (h_pipe : pts.contains .pipe = true) :
    (Dev.reap d).without pts = d.without pts := by
  unfold Dev.reap
  simp only [h_ing, h_pipe, upd_ing_pipe_keep]
theorem Dev.strDone_keep {pts : List Part} (d : Dev) (s n : Nat) (hostBad : Bool) (h_qf : pts.contains .qf = true) (h_hbm : pts.contains .hbm =
    true) (h_host : pts.contains .host = true) (h_ing : pts.contains .ing = true) (h_pipe : pts.contains .pipe = true) : (Dev.strDone d s n
    hostBad).without pts = d.without pts := by
  unfold Dev.strDone
  repeat' (first
    | (with_reducible rfl)
    | (simp only [apply_ite (Dev.without · pts), ite_self, h_qf, h_hbm, h_host, h_ing, h_pipe, Dev.takeJobs_keep, Dev.ringOut_keep,
        Dev.mismatch_keep, Dev.strPost_keep, Dev.fs_keep, Dev.modStr_keep, Dev.wr_keep, Dev.reap_keep, Dev.settleStops_keep, Dev.pruneBufs_keep];
        done)
    | (intro _)
    | split
    | (with_reducible refine (foldl_keep _ _ _ ?_).trans ?_)
    | (simp only [Dev.without, h_qf, h_hbm, h_host, h_ing, h_pipe, if_true]; done)
    | (simp only [foldl_keep, apply_ite (Dev.without · pts), ite_self, h_qf, h_hbm, h_host, h_ing, h_pipe, Dev.takeJobs_keep, Dev.ringOut_keep,
        Dev.mismatch_keep, Dev.strPost_keep, Dev.fs_keep, Dev.modStr_keep, Dev.wr_keep, Dev.reap_keep, Dev.settleStops_keep, Dev.pruneBufs_keep]))
theorem Dev.fillBuf_keep {pts : List Part} (d : Dev) (s : Nat) (b : StrFrame) (h_hbm : pts.contains .hbm = true) (h_host :
    pts.contains .host = true) : (Dev.fillBuf d s b).without pts = d.without pts := by
  unfold Dev.fillBuf
  repeat' (first
    | (with_reducible rfl)
    | (simp only [h_hbm, h_host, Dev.bufW_keep]; done)
    | (intro _)
    | split
    | (with_reducible refine (foldl_keep _ _ _ ?_).trans ?_)
    | (simp only [Dev.without, h_hbm, h_host, if_true]; done)
    | (simp only [foldl_keep, apply_ite (Dev.without · pts), ite_self, h_hbm, h_host, Dev.bufW_keep]))
theorem Dev.blurBuf_keep {pts : List Part} (d : Dev) (s : Nat) (b : StrFrame) (h_hbm : pts.contains .hbm = true) (h_host : pts.contains .host =
    true) : (Dev.blurBuf d s b).without pts = d.without pts := by
  unfold Dev.blurBuf
  repeat' (first
    | (with_reducible rfl)
    | (simp only [apply_ite (Dev.without · pts), ite_self, h_hbm, h_host, Dev.bufW_keep, Dev.useFree_keep]; done)
    | (intro _)
    | split
    | (with_reducible refine (foldl_keep _ _ _ ?_).trans ?_)
    | (simp only [Dev.without, h_hbm, h_host, if_true]; done)
    | (simp only [foldl_keep, apply_ite (Dev.without · pts), ite_self, h_hbm, h_host, Dev.bufW_keep, Dev.useFree_keep]))
theorem Dev.substitute_keep {pts : List Part} (d : Dev) (s : Nat) (b : StrFrame) (h_qf : pts.contains .qf = true) (h_hbm : pts.contains .hbm =
    true) (h_host : pts.contains .host = true) (h_pipe : pts.contains .pipe = true) : (Dev.substitute d s b).without pts = d.without pts := by
  unfold Dev.substitute
  simp only [apply_ite (Dev.without · pts), ite_self, h_qf, h_hbm, h_host, h_pipe, Dev.fadd_keep, Dev.strPost_keep, Dev.ringOut_keep,
    Dev.fillBuf_keep, Dev.blurBuf_keep]
theorem Dev.lateMember_keep {pts : List Part} (d : Dev) (g ref s : Nat) (h_fab : pts.contains .fab = true) (h_qf : pts.contains .qf = true) (h_hbm :
    pts.contains .hbm = true) (h_host : pts.contains .host = true) (h_pipe : pts.contains .pipe = true) :
    (Dev.lateMember d g ref s).without pts = d.without pts := by
  unfold Dev.lateMember
  (try simp only [apply_ite (Dev.without · pts), ite_self, h_pipe, Dev.fadd_keep, Dev.modStr_keep, Dev.raise_keep, Dev.useFree_keep,
      Dev.unmember_keep])
  repeat' (first
    | (with_reducible rfl)
    | (simp only [h_fab, h_qf, h_hbm, h_host, h_pipe, Dev.substitute_keep, Dev.takeBuf_keep, Dev.fadd_keep, Dev.modStr_keep]; done)
    | (intro _)
    | split
    | (with_reducible refine (foldl_keep _ _ _ ?_).trans ?_)
    | (simp only [Dev.without, h_fab, h_qf, h_hbm, h_host, h_pipe, if_true]; done)
    | (simp only [foldl_keep, apply_ite (Dev.without · pts), ite_self, h_fab, h_qf, h_hbm, h_host, h_pipe, Dev.substitute_keep, Dev.takeBuf_keep,
        Dev.fadd_keep, Dev.modStr_keep, Dev.raise_keep, Dev.useFree_keep, Dev.unmember_keep]))
theorem Dev.alignDeadline_keep {pts : List Part} (d : Dev) (g ref : Nat) (h_fab : pts.contains .fab = true) (h_qf : pts.contains .qf = true) (h_hbm
    : pts.contains .hbm = true) (h_host : pts.contains .host = true) (h_ing : pts.contains .ing = true) (h_pipe : pts.contains .pipe = true) :
    (Dev.alignDeadline d g ref).without pts = d.without pts := by
  unfold Dev.alignDeadline
  (try simp only [apply_ite (Dev.without · pts), h_qf, h_hbm, h_host, h_ing, h_pipe, Dev.takeJobs_keep, Dev.reap_keep, Dev.settleStops_keep, h_fab,
    Dev.lateMember_keep, Dev.pruneBufs_keep])
  repeat' (first
    | (with_reducible rfl)
    | (simp only [h_fab, h_qf, h_hbm, h_host, h_ing, h_pipe, Dev.takeJobs_keep, Dev.lateMember_keep, Dev.pruneBufs_keep, Dev.reap_keep,
        Dev.settleStops_keep]; done)
    | (intro _)
    | split
    | (with_reducible refine (foldl_keep _ _ _ ?_).trans ?_)
    | (simp only [Dev.without, h_fab, h_qf, h_hbm, h_host, h_ing, h_pipe, if_true]; done)
    | (simp only [foldl_keep, apply_ite (Dev.without · pts), ite_self, h_fab, h_qf, h_hbm, h_host, h_ing, h_pipe, Dev.takeJobs_keep, Dev.reap_keep,
        Dev.settleStops_keep, Dev.lateMember_keep, Dev.pruneBufs_keep]))
theorem Dev.inlineRun_keep {pts : List Part} (d : Dev) (u c i : Nat) (h_pipe : pts.contains .pipe = true) :
    (Dev.inlineRun d u c i).without pts = d.without pts := by
  unfold Dev.inlineRun
  repeat' (first
    | (with_reducible rfl)
    | (simp only [h_pipe, upd_pipe_keep, Dev.firstOp_keep]; done)
    | (intro _)
    | split
    | (with_reducible refine (foldl_keep _ _ _ ?_).trans ?_)
    | (simp only [Dev.without, h_pipe, if_true]; done)
    | (simp only [foldl_keep, apply_ite (Dev.without · pts), ite_self, h_pipe, upd_pipe_keep, Dev.firstOp_keep]))
theorem Dev.cptSwitch_keep {pts : List Part} (d : Dev) (u c : Nat) (h_hbm : pts.contains .hbm = true) (h_pipe : pts.contains .pipe = true) :
    (Dev.cptSwitch d u c).without pts = d.without pts := by
  unfold Dev.cptSwitch
  (try simp only [apply_ite (Dev.without · pts), h_pipe, upd_pipe_keep])
  repeat' (first
    | (with_reducible rfl)
    | (simp only [apply_ite (Dev.without · pts), h_hbm, Dev.fadd_keep, Dev.hbmW_keep]; done)
    | (intro _)
    | split
    | (with_reducible refine (foldl_keep _ _ _ ?_).trans ?_)
    | (simp only [Dev.without, h_hbm, h_pipe, if_true]; done)
    | (simp only [foldl_keep, apply_ite (Dev.without · pts), ite_self, h_hbm, h_pipe, upd_pipe_keep, Dev.fadd_keep, Dev.hbmW_keep]))
theorem Dev.latchTile_keep {pts : List Part} (d : Dev) (u : Nat) (r : TileRun) : (Dev.latchTile d u r).without pts = d.without pts := by
  unfold Dev.latchTile
  repeat' (first
    | (with_reducible rfl)
    | (simp only [Dev.fs_keep]; done)
    | (intro _)
    | split
    | (with_reducible refine (foldl_keep _ _ _ ?_).trans ?_)
    | (simp only [foldl_keep, apply_ite (Dev.without · pts), ite_self, Dev.fs_keep]))
theorem Dev.firstStripe_keep {pts : List Part} (d : Dev) (c n : Nat) (h_fab : pts.contains .fab = true) (h_qf : pts.contains .qf = true) (h_hbm :
    pts.contains .hbm = true) (h_host : pts.contains .host = true) (h_pipe : pts.contains .pipe = true) :
    (Dev.firstStripe d c n).without pts = d.without pts := by
  unfold Dev.firstStripe
  repeat' (first
    | (with_reducible rfl)
    | (simp only [apply_ite (Dev.without · pts), ite_self, h_fab, h_qf, h_hbm, h_host, h_pipe, Dev.modFrame_keep, Dev.jobDecided_keep,
        Dev.tellCommit_keep, Dev.streamsFirst_keep]; done)
    | (intro _)
    | split
    | (with_reducible refine (foldl_keep _ _ _ ?_).trans ?_)
    | (simp only [Dev.without, h_fab, h_qf, h_hbm, h_host, h_pipe, if_true]; done)
    | (simp only [foldl_keep, apply_ite (Dev.without · pts), ite_self, h_fab, h_qf, h_hbm, h_host, h_pipe, Dev.modFrame_keep, Dev.jobDecided_keep,
        Dev.tellCommit_keep, Dev.streamsFirst_keep]))
theorem Dev.stripeStart_keep {pts : List Part} (d : Dev) (u : Nat) (h_fab : pts.contains .fab = true) (h_qf : pts.contains .qf = true) (h_hbm :
    pts.contains .hbm = true) (h_host : pts.contains .host = true) (h_ing : pts.contains .ing = true) (h_pipe : pts.contains .pipe = true) :
    (Dev.stripeStart d u).without pts = d.without pts := by
  unfold Dev.stripeStart
  repeat' (first
    | (with_reducible rfl)
    | (simp only [apply_ite (Dev.without · pts), ite_self, h_fab, h_qf, h_hbm, h_host, h_ing, h_pipe, upd_pipe_keep, Dev.takeJobs_keep,
        Dev.inlineRun_keep, Dev.syncLut_keep, Dev.latchTile_keep, Dev.cptSwitch_keep, Dev.tnrTell_keep, Dev.firstStripe_keep]; done)
    | (intro _)
    | split
    | (with_reducible refine (foldl_keep _ _ _ ?_).trans ?_)
    | (simp only [Dev.without, h_fab, h_qf, h_hbm, h_host, h_ing, h_pipe, if_true]; done)
    | (simp only [foldl_keep, apply_ite (Dev.without · pts), ite_self, h_fab, h_qf, h_hbm, h_host, h_ing, h_pipe, upd_pipe_keep, Dev.takeJobs_keep,
        Dev.inlineRun_keep, Dev.syncLut_keep, Dev.latchTile_keep, Dev.cptSwitch_keep, Dev.tnrTell_keep, Dev.firstStripe_keep]))
theorem Dev.overrunRun_keep {pts : List Part} (d : Dev) (u : Nat) (r : TileRun) (h_pipe : pts.contains .pipe = true) :
    (Dev.overrunRun d u r).without pts = d.without pts := by
  unfold Dev.overrunRun
  simp only [apply_ite (Dev.without · pts), ite_self, h_pipe, upd_pipe_keep, Dev.fs_keep, Dev.syncJobs_keep, Dev.raise_keep, Dev.streamsLose_keep,
      Dev.fadd_keep]
theorem Dev.countStripe_keep {pts : List Part} (d : Dev) (u c n : Nat) (a : StripeSum) : (Dev.countStripe d u c n a).without pts = d.without pts := by
  unfold Dev.countStripe
  (try simp only [apply_ite (Dev.without · pts), ite_self, Dev.raiseOnce_keep])
  repeat' (first
    | (with_reducible rfl)
    | (simp only [Dev.fadd_keep]; done)
    | (intro _)
    | split
    | (with_reducible refine (foldl_keep _ _ _ ?_).trans ?_)
    | (simp only [foldl_keep, apply_ite (Dev.without · pts), ite_self, Dev.fadd_keep, Dev.raiseOnce_keep]))
theorem Dev.lateReplace_keep {pts : List Part} (d : Dev) (u : Nat) (h_bank : pts.contains .bank = true) (h_pipe : pts.contains .pipe = true) :
    (Dev.lateReplace d u).without pts = d.without pts := by
  unfold Dev.lateReplace
  repeat' (first
    | (with_reducible rfl)
    | (simp only [apply_ite (Dev.without · pts), ite_self, h_bank, h_pipe, upd_pipe_keep, Dev.prepare_keep]; done)
    | (intro _)
    | split
    | (with_reducible refine (foldl_keep _ _ _ ?_).trans ?_)
    | (simp only [Dev.without, h_bank, h_pipe, if_true]; done)
    | (simp only [foldl_keep, apply_ite (Dev.without · pts), ite_self, h_bank, h_pipe, upd_pipe_keep, Dev.prepare_keep]))
theorem Dev.developStripe_keep {pts : List Part} (d : Dev) (u : Nat) (r : TileRun) (h_hbm : pts.contains .hbm = true) (h_host :
    pts.contains .host = true) (h_pipe : pts.contains .pipe = true) : (Dev.developStripe d u r).without pts = d.without pts := by
  unfold Dev.developStripe
  (try simp only [h_hbm, h_pipe, Dev.writeStat_keep, Dev.writeHist_keep, Dev.countStripe_keep])
  repeat' (first
    | (with_reducible rfl)
    | (simp only [h_hbm, h_host, Dev.writeOut_keep]; done)
    | (intro _)
    | split
    | (with_reducible refine (foldl_keep _ _ _ ?_).trans ?_)
    | (simp only [Dev.without, h_hbm, h_host, h_pipe, if_true]; done)
    | (simp only [foldl_keep, apply_ite (Dev.without · pts), ite_self, h_hbm, h_host, h_pipe, Dev.writeOut_keep, Dev.writeStat_keep,
        Dev.writeHist_keep, Dev.countStripe_keep]))
theorem Dev.stripeEnd_keep {pts : List Part} (d : Dev) (u : Nat) (h_hbm : pts.contains .hbm = true) (h_host : pts.contains .host = true) (h_bank :
    pts.contains .bank = true) (h_ing : pts.contains .ing = true) (h_pipe : pts.contains .pipe = true) : (Dev.stripeEnd d u).without pts =
    d.without pts := by
  unfold Dev.stripeEnd
  repeat' (first
    | (with_reducible rfl)
    | (simp only [apply_ite (Dev.without · pts), ite_self, h_hbm, h_host, h_bank, h_ing, h_pipe, upd_pipe_keep, Dev.takeJobs_keep, Dev.fadd_keep,
        Dev.useFree_keep, Dev.overrunRun_keep, Dev.developStripe_keep, Dev.fs_keep, Dev.modFrame_keep, Dev.reap_keep, Dev.lateReplace_keep,
        Dev.pruneBufs_keep]; done)
    | (intro _)
    | split
    | (with_reducible refine (foldl_keep _ _ _ ?_).trans ?_)
    | (simp only [Dev.without, h_hbm, h_host, h_bank, h_ing, h_pipe, if_true]; done)
    | (simp only [foldl_keep, apply_ite (Dev.without · pts), ite_self, h_hbm, h_host, h_bank, h_ing, h_pipe, upd_pipe_keep, Dev.takeJobs_keep,
        Dev.fadd_keep, Dev.useFree_keep, Dev.overrunRun_keep, Dev.developStripe_keep, Dev.fs_keep, Dev.modFrame_keep, Dev.reap_keep,
        Dev.lateReplace_keep, Dev.pruneBufs_keep]))
theorem Dev.verdictC_keep {pts : List Part} (d : Dev) (c n m line : Nat) (seen : Option (List Byte)) (h_ing : pts.contains .ing = true) (h_pipe :
    pts.contains .pipe = true) : (Dev.verdictC d c n m line seen).without pts = d.without pts := by
  unfold Dev.verdictC
  split
  · rename_i f x hf hx
    extract_lets bs key put d1 d2 part todo
    have hp : ∀ e : Dev, (put e).without pts = e.without pts := fun e => by simp only [put, Dev.modFrame_keep, h_pipe]
    have h2 : d2.without pts = d.without pts := by
      simp only [d2, d1, Dev.modFrame_keep, Dev.mismatch_keep, h_pipe]
    split
    · exact (Dev.reap_keep _ h_ing h_pipe).trans (hp d)
    · split
      · refine (Dev.reap_keep _ h_ing h_pipe).trans ?_
        simp only [Dev.mismatch_keep]
        exact hp d
      · refine (Dev.modFrame_keep _ _ _ _ h_pipe).trans ?_
        exact (foldl_keep _ _ _ (fun e i => Dev.queueRedo_keep e _ _ _ _ h_pipe)).trans h2
  · rfl
theorem Dev.setPs_keep {pts : List Part} (d : Dev) (n : Nat) (v : PsStream) (h_ps : pts.contains .ps = true) :
    (Dev.setPs d n v).without pts = d.without pts := by
  unfold Dev.setPs
  simp only [h_ps, upd_ps_keep]
theorem Dev.modPs_keep {pts : List Part} (d : Dev) (n : Nat) (f : PsStream → PsStream) (h_ps : pts.contains .ps = true) :
    (Dev.modPs d n f).without pts = d.without pts := by
  unfold Dev.modPs
  simp only [h_ps, Dev.setPs_keep]
theorem Dev.setEng_keep {pts : List Part} (d : Dev) (e : Nat) (v : EngineSt) (h_ps : pts.contains .ps = true) :
    (Dev.setEng d e v).without pts = d.without pts := by
  unfold Dev.setEng
  simp only [h_ps, upd_ps_keep]
theorem Dev.syncEngine_keep {pts : List Part} (d : Dev) (e : Nat) (h_bank : pts.contains .bank = true) :
    (Dev.syncEngine d e).without pts = d.without pts := by
  unfold Dev.syncEngine
  simp only [h_bank, upd_bank_keep, Dev.fs_keep]
theorem Dev.syncEngines_keep {pts : List Part} (d : Dev) (h_bank : pts.contains .bank = true) : (Dev.syncEngines d).without pts = d.without pts := by
  unfold Dev.syncEngines
  (try simp only [foldl_keep, apply_ite (Dev.without · pts), ite_self, h_bank, Dev.syncEngine_keep])
  repeat' (first
    | (with_reducible rfl)
    | (simp only [h_bank, Dev.syncEngine_keep]; done)
    | (intro _)
    | split
    | (with_reducible refine (foldl_keep _ _ _ ?_).trans ?_)
    | (simp only [Dev.without, h_bank, if_true]; done)
    | (simp only [foldl_keep, apply_ite (Dev.without · pts), ite_self, h_bank, Dev.syncEngine_keep]))
theorem Dev.initEngines_keep {pts : List Part} (d : Dev) (h_bank : pts.contains .bank = true) (h_ps : pts.contains .ps = true) :
    (Dev.initEngines d).without pts = d.without pts := by
  unfold Dev.initEngines
  (try simp only [h_bank, Dev.syncEngines_keep])
  repeat' (first
    | (with_reducible rfl)
    | (simp only [h_ps, Dev.setEng_keep]; done)
    | (intro _)
    | split
    | (with_reducible refine (foldl_keep _ _ _ ?_).trans ?_)
    | (simp only [Dev.without, h_bank, h_ps, if_true]; done)
    | (simp only [foldl_keep, apply_ite (Dev.without · pts), ite_self, h_bank, h_ps, Dev.syncEngines_keep, Dev.setEng_keep]))
theorem Dev.syncCst_keep {pts : List Part} (d : Dev) (n : Nat) : (Dev.syncCst d n).without pts = d.without pts := by
  unfold Dev.syncCst
  simp only [Dev.fs_keep]
theorem Dev.psQueue_keep {pts : List Part} (d : Dev) (n owner depthLog2 cls errQid : Nat) (h_qf : pts.contains .qf = true) (h_hbm :
    pts.contains .hbm = true) (h_host : pts.contains .host = true) (h_ps : pts.contains .ps = true) :
    (Dev.psQueue d n owner depthLog2 cls errQid).without pts = d.without pts := by
  unfold Dev.psQueue
  (try simp only [h_qf, h_ps, Dev.modPs_keep, Dev.setQ_keep])
  repeat' (first
    | (with_reducible rfl)
    | (simp only [h_qf, h_hbm, h_host, upd_oz_keep, Dev.fs_keep, Dev.returnRole_keep, Dev.closeTag_keep]; done)
    | (intro _)
    | split
    | (with_reducible refine (foldl_keep _ _ _ ?_).trans ?_)
    | (simp only [Dev.without, h_qf, h_hbm, h_host, h_ps, if_true]; done)
    | (simp only [foldl_keep, apply_ite (Dev.without · pts), ite_self, h_qf, h_hbm, h_host, h_ps, upd_oz_keep, Dev.fs_keep, Dev.returnRole_keep,
        Dev.closeTag_keep, Dev.modPs_keep, Dev.setQ_keep]))
theorem Dev.codecStreamSet_keep {pts : List Part} (d : Dev) (r : Req) (h_qf : pts.contains .qf = true) (h_hbm : pts.contains .hbm = true) (h_host :
    pts.contains .host = true) (h_ps : pts.contains .ps = true) : VKeeps pts d (Dev.codecStreamSet d r) := by
  unfold Dev.codecStreamSet
  repeat' (first
    | (with_reducible refine vk_ite _ _ ?_)
    | (simp only [vk_err, vk_ok, h_qf, h_hbm, h_host, h_ps, Dev.freeArea_keep, Dev.psQueue_keep, Dev.modPs_keep, Dev.syncCst_keep]; done)
    | (intro _)
    | split
    | (extract_lets)
    | (with_reducible refine (foldl_keep _ _ _ ?_).trans ?_)
    | (simp only [Dev.without, h_qf, h_hbm, h_host, h_ps, if_true]; done)
    | (with_reducible refine (Dev.alloc_keep _ _ _ _ h_hbm (by assumption)).trans ?_)
    | (simp only [vk_ok, h_hbm, Dev.syncCst_keep])
    | (simp +zetaDelta only [h_qf, h_hbm, h_host, h_ps, Dev.psQueue_keep, Dev.modPs_keep]; done)
    | (simp +zetaDelta only [h_qf, h_hbm, h_host, h_ps, Dev.psQueue_keep, Dev.modPs_keep]))
theorem Dev.psFeed_keep {pts : List Part} (d : Dev) (n j : Nat) (h_qf : pts.contains .qf = true) (h_hbm : pts.contains .hbm = true) (h_host :
    pts.contains .host = true) : (Dev.psFeed d n j).without pts = d.without pts := by
  unfold Dev.psFeed
  repeat' (first
    | (with_reducible rfl)
    | (simp only [apply_ite (Dev.without · pts), ite_self, h_qf, h_hbm, h_host, Dev.enqueue_keep]; done)
    | (intro _)
    | split
    | (with_reducible refine (foldl_keep _ _ _ ?_).trans ?_)
    | (simp only [Dev.without, h_qf, h_hbm, h_host, if_true]; done)
    | (simp only [foldl_keep, apply_ite (Dev.without · pts), ite_self, h_qf, h_hbm, h_host, Dev.enqueue_keep]))
theorem Dev.psBind_keep {pts : List Part} (d : Dev) (n : Nat) (r : Req) (h_qf : pts.contains .qf = true) (h_hbm : pts.contains .hbm = true)
    (h_host : pts.contains .host = true) (h_pipe : pts.contains .pipe = true) (h_ps : pts.contains .ps = true) {e0 : Dev} (h :
    Dev.psBind d n r = some e0) : e0.without pts = d.without pts := by
  unfold Dev.psBind at h
  extract_lets s size at h
  split at h
  · cases h
  · rename_i a e1 ha
    have h1 : e1.without pts = d.without pts :=
      (Dev.alloc_keep _ _ _ _ h_hbm ha).trans (Dev.freeArea_keep d _ h_hbm)
    extract_lets q rq o1 e2 e3 at h
    have h3 : e3.without pts = d.without pts := by
      simp only [e3, e2, Dev.modPs_keep, Dev.setQ_keep, h_ps, h_qf]
      exact (upd_oz_keep e1 _).trans h1
    have h5 := Dev.outStreamStart_keep (pts := pts) e3 { r with object := s } h_pipe
    split at h
    · rename_i e b c f heq
      rw [heq, vk_ok] at h5
      obtain rfl := Option.some.inj h
      exact (foldl_keep _ _ _ (fun x j => Dev.psFeed_keep x _ _ h_qf h_hbm h_host)).trans (h5.trans h3)
    · cases h
theorem Dev.codecStreamStart_keep {pts : List Part} (d : Dev) (r : Req) (h_qf : pts.contains .qf = true) (h_hbm : pts.contains .hbm = true)
    (h_host : pts.contains .host = true) (h_bank : pts.contains .bank = true) (h_pipe : pts.contains .pipe = true) (h_ps :
    pts.contains .ps = true) : VKeeps pts d (Dev.codecStreamStart d r) := by
  unfold Dev.codecStreamStart
  extract_lets n st
  refine vk_ite _ _ (vk_ite _ _ ?_)
  split
  · rw [vk_err]; trivial
  · split
    · rw [vk_err]; trivial
    · rename_i hs es hes
      extract_lets e1 e2
      have h1 : e1.without pts = d.without pts := by
        simp only [e1, Dev.modPs_keep, Dev.useFree_keep, h_ps]
      have h2 : ∀ x, e2 = some x → x.without pts = d.without pts := by
        intro x hx
        simp only [e2] at hx
        split at hx
        · exact (Dev.psBind_keep _ _ _ h_qf h_hbm h_host h_pipe h_ps hx).trans h1
        · cases hx
          exact h1
      clear_value e2
      split
      · rw [vk_err]; trivial
      · rename_i x
        rw [vk_ok]
        simp only [Dev.syncEngines_keep, Dev.syncCst_keep, h_bank]
        exact h2 x rfl
theorem Dev.psEnd_keep {pts : List Part} (d : Dev) (n : Nat) (h_qf : pts.contains .qf = true) (h_hbm : pts.contains .hbm = true) (h_host :
    pts.contains .host = true) (h_bank : pts.contains .bank = true) (h_pipe : pts.contains .pipe = true) (h_ps : pts.contains .ps = true) :
    (Dev.psEnd d n).without pts = d.without pts := by
  unfold Dev.psEnd
  simp only [apply_ite (Dev.without · pts), ite_self, h_qf, h_hbm, h_host, h_bank, h_pipe, h_ps, Dev.settleStops_keep, Dev.modStr_keep,
      Dev.modPs_keep, Dev.jobDecided_keep, Dev.syncEngines_keep, Dev.syncCst_keep]
theorem Dev.psSettle_keep {pts : List Part} (d : Dev) (n : Nat) (h_qf : pts.contains .qf = true) (h_hbm : pts.contains .hbm = true) (h_host :
    pts.contains .host = true) (h_bank : pts.contains .bank = true) (h_pipe : pts.contains .pipe = true) (h_ps : pts.contains .ps = true) :
    (Dev.psSettle d n).without pts = d.without pts := by
  unfold Dev.psSettle
  simp only [apply_ite (Dev.without · pts), ite_self, h_qf, h_hbm, h_host, h_bank, h_pipe, h_ps, Dev.modPs_keep, Dev.psEnd_keep]
theorem Dev.offerRaw_keep {pts : List Part} (d : Dev) (rep : FrameRep) (h_ps : pts.contains .ps = true) :
    (Dev.offerRaw d rep).without pts = d.without pts := by
  unfold Dev.offerRaw
  (try simp only [foldl_keep, apply_ite (Dev.without · pts), ite_self, h_ps, Dev.modPs_keep])
  repeat' (first
    | (with_reducible rfl)
    | (simp only [h_ps, Dev.modPs_keep]; done)
    | (intro _)
    | split
    | (with_reducible refine (foldl_keep _ _ _ ?_).trans ?_)
    | (simp only [Dev.without, h_ps, if_true]; done)
    | (simp only [foldl_keep, apply_ite (Dev.without · pts), ite_self, h_ps, Dev.modPs_keep]))
theorem Dev.offerOut_keep {pts : List Part} (d : Dev) (n : Nat) (c : Entry) (h_ps : pts.contains .ps = true) :
    (Dev.offerOut d n c).without pts = d.without pts := by
  unfold Dev.offerOut
  (try simp only [apply_ite (Dev.without · pts)])
  repeat' (first
    | (with_reducible rfl)
    | (simp only [h_ps, Dev.modPs_keep]; done)
    | (intro _)
    | split
    | (with_reducible refine (foldl_keep _ _ _ ?_).trans ?_)
    | (simp only [Dev.without, h_ps, if_true]; done)
    | (simp only [foldl_keep, apply_ite (Dev.without · pts), ite_self, h_ps, Dev.modPs_keep]))
theorem Dev.psAdmit_keep {pts : List Part} (d : Dev) (h_qf : pts.contains .qf = true) (h_ps : pts.contains .ps = true) :
    (Dev.psAdmit d).without pts = d.without pts := by
  unfold Dev.psAdmit
  repeat' (first
    | (with_reducible rfl)
    | (simp only [h_qf, h_ps, upd_ps_keep, Dev.offerRaw_keep, Dev.setQ_keep, Dev.offerOut_keep]; done)
    | (intro _)
    | split
    | (with_reducible refine (foldl_keep _ _ _ ?_).trans ?_)
    | (simp only [Dev.without, h_qf, h_ps, if_true]; done)
    | (simp only [foldl_keep, apply_ite (Dev.without · pts), ite_self, h_qf, h_ps, upd_ps_keep, Dev.offerRaw_keep, Dev.setQ_keep, Dev.offerOut_keep]))
theorem Dev.cbufDispatched_keep {pts : List Part} (d : Dev) (o : Op) (h_qf : pts.contains .qf = true) (h_hbm : pts.contains .hbm = true) (h_host :
    pts.contains .host = true) : (Dev.cbufDispatched d o).without pts = d.without pts := by
  unfold Dev.cbufDispatched
  repeat' (first
    | (with_reducible rfl)
    | (simp only [apply_ite (Dev.without · pts), ite_self, h_qf, h_hbm, h_host, Dev.endOp_keep, Dev.raise_keep]; done)
    | (intro _)
    | split
    | (with_reducible refine (foldl_keep _ _ _ ?_).trans ?_)
    | (simp only [Dev.without, h_qf, h_hbm, h_host, if_true]; done)
    | (simp only [foldl_keep, apply_ite (Dev.without · pts), ite_self, h_qf, h_hbm, h_host, Dev.endOp_keep, Dev.raise_keep]))
theorem Dev.unitW_keep {pts : List Part} (d : Dev) (space owner base : Nat) (bs : List Byte) (h_hbm : pts.contains .hbm = true) (h_host :
    pts.contains .host = true) : (Dev.unitW d space owner base bs).without pts = d.without pts := by
  unfold Dev.unitW
  simp only [apply_ite (Dev.without · pts), ite_self, h_hbm, h_host, Dev.hbmW_keep, Dev.hostW_keep]
theorem Dev.cbufBreach_keep {pts : List Part} (d : Dev) (o : Op) (h_fab : pts.contains .fab = true) (h_qf : pts.contains .qf = true) (h_hbm :
    pts.contains .hbm = true) (h_host : pts.contains .host = true) : (Dev.cbufBreach d o).without pts = d.without pts := by
  unfold Dev.cbufBreach
  simp only [h_fab, h_qf, h_hbm, h_host, Dev.endOp_keep, Dev.dmaOutside_keep]
theorem Dev.modPsFrame_keep {pts : List Part} (d : Dev) (n no cam : Nat) (g : PsFrame → PsFrame) (h_ps : pts.contains .ps = true) :
    (Dev.modPsFrame d n no cam g).without pts = d.without pts := by
  unfold Dev.modPsFrame
  simp only [h_ps, Dev.modPs_keep]
theorem Dev.psHeader_keep {pts : List Part} (d : Dev) (n : Nat) (s : PsSrc) (f : PsFrame) (o : Op) (h_qf : pts.contains .qf = true) (h_hbm :
    pts.contains .hbm = true) (h_host : pts.contains .host = true) (h_ps : pts.contains .ps = true) :
    (Dev.psHeader d n s f o).without pts = d.without pts := by
  unfold Dev.psHeader
  simp only [h_qf, h_hbm, h_host, h_ps, Dev.unitW_keep, Dev.modPs_keep, Dev.endOp_keep]
theorem Dev.psSave_keep {pts : List Part} (d : Dev) (n i dest : Nat) (h_hbm : pts.contains .hbm = true) :
    (Dev.psSave d n i dest).without pts = d.without pts := by
  unfold Dev.psSave
  repeat' (first
    | (with_reducible rfl)
    | (simp only [apply_ite (Dev.without · pts), ite_self, h_hbm, Dev.hbmW_keep]; done)
    | (intro _)
    | split
    | (with_reducible refine (foldl_keep _ _ _ ?_).trans ?_)
    | (simp only [Dev.without, h_hbm, if_true]; done)
    | (simp only [foldl_keep, apply_ite (Dev.without · pts), ite_self, h_hbm, Dev.hbmW_keep]))
theorem Dev.modPart_keep {pts : List Part} (d : Dev) (n i : Nat) (f : PsSlice → PsSlice) (h_ps : pts.contains .ps = true) :
    (Dev.modPart d n i f).without pts = d.without pts := by
  unfold Dev.modPart
  simp only [h_ps, Dev.modPs_keep]
theorem Dev.psLose_keep {pts : List Part} (d : Dev) (n i : Nat) (f : PsFrame) (h : Nat) (h_ps : pts.contains .ps = true) :
    (Dev.psLose d n i f h).without pts = d.without pts := by
  unfold Dev.psLose
  simp only [apply_ite (Dev.without · pts), ite_self, h_ps, Dev.modPart_keep, Dev.modPsFrame_keep, Dev.modPs_keep, Dev.raise_keep]
theorem Dev.evacuate_keep {pts : List Part} (d : Dev) (e : Nat) (h_ps : pts.contains .ps = true) :
    (Dev.evacuate d e).without pts = d.without pts := by
  unfold Dev.evacuate
  (try simp only [foldl_keep, apply_ite (Dev.without · pts), ite_self, h_ps, Dev.modPart_keep])
  repeat' (first
    | (with_reducible rfl)
    | (simp only [h_ps, Dev.modPart_keep]; done)
    | (intro _)
    | split
    | (with_reducible refine (foldl_keep _ _ _ ?_).trans ?_)
    | (simp only [Dev.without, h_ps, if_true]; done)
    | (simp only [foldl_keep, apply_ite (Dev.without · pts), ite_self, h_ps, Dev.modPart_keep]))
theorem Dev.frameCoded_keep {pts : List Part} (d : Dev) (n : Nat) (f : PsFrame) (h_ps : pts.contains .ps = true) :
    (Dev.frameCoded d n f).without pts = d.without pts := by
  unfold Dev.frameCoded
  simp only [apply_ite (Dev.without · pts), ite_self, h_ps, Dev.modPs_keep, Dev.raise_keep]
theorem Dev.commitChunk_keep {pts : List Part} (d : Dev) (e n i : Nat) (s : PsSrc) (f : PsFrame) (p : PsSlice) (k : Coded) (o : Op) (h_hbm :
    pts.contains .hbm = true) (h_host : pts.contains .host = true) (h_ps : pts.contains .ps = true) :
    (Dev.commitChunk d e n i s f p k o).without pts = d.without pts := by
  unfold Dev.commitChunk
  repeat' (first
    | (with_reducible rfl)
    | (simp only [apply_ite (Dev.without · pts), ite_self, h_hbm, h_host, h_ps, Dev.useFree_keep, Dev.unitW_keep, Dev.modPart_keep,
        Dev.modPsFrame_keep, Dev.fadd_keep, Dev.syncCst_keep, Dev.fs_keep, Dev.frameCoded_keep]; done)
    | (intro _)
    | split
    | (with_reducible refine (foldl_keep _ _ _ ?_).trans ?_)
    | (simp only [Dev.without, h_hbm, h_host, h_ps, if_true]; done)
    | (simp only [foldl_keep, apply_ite (Dev.without · pts), ite_self, h_hbm, h_host, h_ps, Dev.useFree_keep, Dev.unitW_keep, Dev.modPart_keep,
        Dev.modPsFrame_keep, Dev.fadd_keep, Dev.syncCst_keep, Dev.fs_keep, Dev.frameCoded_keep]))
theorem Dev.spareCheck_keep {pts : List Part} (d : Dev) (e : Nat) : (Dev.spareCheck d e).without pts = d.without pts := by
  unfold Dev.spareCheck
  simp only [apply_ite (Dev.without · pts), ite_self, Dev.raise_keep]
theorem Dev.testFreed_keep {pts : List Part} (d : Dev) (e : Nat) (h_bank : pts.contains .bank = true) (h_hl : pts.contains .hl = true) (h_ps :
    pts.contains .ps = true) : (Dev.testFreed d e).without pts = d.without pts := by
  unfold Dev.testFreed
  (try simp only [apply_ite (Dev.without · pts)])
  repeat' (first
    | (with_reducible rfl)
    | (simp only [apply_ite (Dev.without · pts), ite_self, h_bank, h_hl, h_ps, Dev.setEng_keep, Dev.rollMoved_keep, Dev.testDrained_keep]; done)
    | (intro _)
    | split
    | (with_reducible refine (foldl_keep _ _ _ ?_).trans ?_)
    | (simp only [Dev.without, h_bank, h_hl, h_ps, if_true]; done)
    | (simp only [foldl_keep, apply_ite (Dev.without · pts), ite_self, h_bank, h_hl, h_ps, Dev.setEng_keep, Dev.rollMoved_keep,
        Dev.testDrained_keep]))
theorem Dev.engineFail_keep {pts : List Part} (d : Dev) (e : Nat) (hit : Option (Nat × Nat)) (h_bank : pts.contains .bank = true) (h_hl :
    pts.contains .hl = true) (h_pipe : pts.contains .pipe = true) (h_ps : pts.contains .ps = true) :
    (Dev.engineFail d e hit).without pts = d.without pts := by
  unfold Dev.engineFail
  (try simp only [h_bank, h_hl, h_ps, Dev.setEng_keep, Dev.raise_keep, Dev.syncEngines_keep, Dev.testFreed_keep, Dev.spareCheck_keep])
  repeat' (first
    | (with_reducible rfl)
    | (simp only [h_hl, h_pipe, h_ps, Dev.rollTaken_keep, Dev.setEng_keep, Dev.raise_keep, Dev.modPart_keep]; done)
    | (intro _)
    | split
    | (with_reducible refine (foldl_keep _ _ _ ?_).trans ?_)
    | (simp only [Dev.without, h_bank, h_hl, h_pipe, h_ps, if_true]; done)
    | (simp only [h_ps, Dev.modPart_keep]))
theorem Dev.codeInto_keep {pts : List Part} (d : Dev) (e n i : Nat) (s : PsSrc) (f : PsFrame) (fault : Nat) (h_fab : pts.contains .fab = true)
    (h_qf : pts.contains .qf = true) (h_hbm : pts.contains .hbm = true) (h_host : pts.contains .host = true) (h_bank : pts.contains .bank = true)
    (h_hl : pts.contains .hl = true) (h_pipe : pts.contains .pipe = true) (h_ps : pts.contains .ps = true) :
    (Dev.codeInto d e n i s f fault).without pts = d.without pts := by
  unfold Dev.codeInto
  repeat' (first
    | (with_reducible rfl)
    | (simp only [apply_ite (Dev.without · pts), ite_self, h_fab, h_qf, h_hbm, h_host, h_bank, h_hl, h_pipe, h_ps, Dev.cbufBreach_keep,
        Dev.commitChunk_keep, Dev.raise_keep, Dev.fadd_keep, Dev.setEng_keep, Dev.engineFail_keep, Dev.evacuate_keep]; done)
    | (intro _)
    | split
    | (with_reducible refine (foldl_keep _ _ _ ?_).trans ?_)
    | (simp only [Dev.without, h_fab, h_qf, h_hbm, h_host, h_bank, h_hl, h_pipe, h_ps, if_true]; done)
    | (simp only [foldl_keep, apply_ite (Dev.without · pts), ite_self, h_fab, h_qf, h_hbm, h_host, h_bank, h_hl, h_pipe, h_ps, Dev.cbufBreach_keep,
        Dev.commitChunk_keep, Dev.raise_keep, Dev.fadd_keep, Dev.setEng_keep, Dev.engineFail_keep, Dev.evacuate_keep]))
theorem Dev.chunkCode_keep {pts : List Part} (d : Dev) (e fault : Nat) (h_fab : pts.contains .fab = true) (h_qf : pts.contains .qf = true) (h_hbm :
    pts.contains .hbm = true) (h_host : pts.contains .host = true) (h_bank : pts.contains .bank = true) (h_hl : pts.contains .hl = true) (h_pipe :
    pts.contains .pipe = true) (h_ps : pts.contains .ps = true) : (Dev.chunkCode d e fault).without pts = d.without pts := by
  unfold Dev.chunkCode
  repeat' (first
    | (with_reducible rfl)
    | (simp only [apply_ite (Dev.without · pts), h_fab, h_qf, h_hbm, h_host, h_bank, h_hl, h_pipe, h_ps, Dev.psAdmit_keep, Dev.psLose_keep,
        Dev.firstOp_keep, Dev.codeInto_keep, Dev.cbufBreach_keep, Dev.psHeader_keep]; done)
    | (intro _)
    | split
    | (with_reducible refine (foldl_keep _ _ _ ?_).trans ?_)
    | (simp only [Dev.without, h_fab, h_qf, h_hbm, h_host, h_bank, h_hl, h_pipe, h_ps, if_true]; done)
    | (simp only [foldl_keep, apply_ite (Dev.without · pts), ite_self, h_fab, h_qf, h_hbm, h_host, h_bank, h_hl, h_pipe, h_ps, Dev.psAdmit_keep,
        Dev.psLose_keep, Dev.firstOp_keep, Dev.codeInto_keep, Dev.cbufBreach_keep, Dev.psHeader_keep]))
theorem Dev.reflag_keep {pts : List Part} (d : Dev) (c : PsChunk) (flags : Nat) (h_hbm : pts.contains .hbm = true) (h_host :
    pts.contains .host = true) : (Dev.reflag d c flags).without pts = d.without pts := by
  unfold Dev.reflag
  simp only [h_hbm, h_host, Dev.unitW_keep]
theorem Dev.saveNow_keep {pts : List Part} (d : Dev) (n : Nat) (h_hbm : pts.contains .hbm = true) (h_ps : pts.contains .ps = true) :
    (Dev.saveNow d n).without pts = d.without pts := by
  unfold Dev.saveNow
  repeat' (first
    | (with_reducible rfl)
    | (simp only [apply_ite (Dev.without · pts), h_hbm, h_ps, Dev.psSave_keep, Dev.jobDecided_keep, Dev.modPs_keep]; done)
    | (intro _)
    | split
    | (with_reducible refine (foldl_keep _ _ _ ?_).trans ?_)
    | (simp only [Dev.without, h_hbm, h_ps, if_true]; done)
    | (simp only [h_ps, Dev.jobDecided_keep, Dev.modPs_keep]))
theorem Dev.psPost_keep {pts : List Part} (d : Dev) (n : Nat) (h_qf : pts.contains .qf = true) (h_hbm : pts.contains .hbm = true) (h_host :
    pts.contains .host = true) (h_bank : pts.contains .bank = true) (h_pipe : pts.contains .pipe = true) (h_ps : pts.contains .ps = true) :
    (Dev.psPost d n).without pts = d.without pts := by
  unfold Dev.psPost
  (try simp only [apply_ite (Dev.without · pts), h_qf, h_hbm, h_host, h_bank, h_pipe, h_ps, Dev.modPs_keep, Dev.psSettle_keep, Dev.saveNow_keep])
  repeat' (first
    | (with_reducible rfl)
    | (simp only [h_qf, h_hbm, h_host, h_ps, Dev.endOp_keep, Dev.modPsFrame_keep, Dev.modPs_keep, Dev.psFeed_keep]; done)
    | (intro _)
    | split
    | (with_reducible refine (foldl_keep _ _ _ ?_).trans ?_)
    | (simp only [Dev.without, h_qf, h_hbm, h_host, h_bank, h_pipe, h_ps, if_true]; done)
    | (simp only [h_ps, Dev.modPs_keep]))
theorem Dev.srcVerdict_keep {pts : List Part} (d : Dev) (n frame y : Nat) (good : Bool) (h_qf : pts.contains .qf = true) (h_hbm :
    pts.contains .hbm = true) (h_host : pts.contains .host = true) (h_bank : pts.contains .bank = true) (h_pipe : pts.contains .pipe = true) (h_ps :
    pts.contains .ps = true) : (Dev.srcVerdict d n frame y good).without pts = d.without pts := by
  unfold Dev.srcVerdict
  extract_lets st
  split
  · rfl
  · extract_lets made passed
    split
    · rfl
    · rename_i hold whole bad add d1 d2 hc
      have h1 : d1.without pts = d.without pts := by
        simp only [d1]
        split
        · rfl
        · exact foldl_keep _ _ _ (fun e x => by simp only [Dev.modPsFrame_keep, Dev.reflag_keep, h_ps, h_hbm, h_host])
      have h2 : d2.without pts = d.without pts := by
        simp only [d2, apply_ite (Dev.without · pts), Dev.raise_keep, Dev.fadd_keep, ite_self]
        exact h1
      refine (Dev.psPost_keep _ n h_qf h_hbm h_host h_bank h_pipe h_ps).trans ?_
      simp only [Dev.modPsFrame_keep, h_ps]
      exact h2
theorem Dev.sliceMove_keep {pts : List Part} (d : Dev) (n i : Nat) (h_qf : pts.contains .qf = true) (h_hbm : pts.contains .hbm = true) (h_host :
    pts.contains .host = true) (h_bank : pts.contains .bank = true) (h_hl : pts.contains .hl = true) (h_pipe : pts.contains .pipe = true) (h_ps :
    pts.contains .ps = true) : (Dev.sliceMove d n i).without pts = d.without pts := by
  unfold Dev.sliceMove
  repeat' (first
    | (with_reducible rfl)
    | (simp only [apply_ite (Dev.without · pts), ite_self, h_qf, h_hbm, h_host, h_bank, h_hl, h_pipe, h_ps, Dev.psSave_keep, Dev.modPart_keep,
        Dev.setEng_keep, Dev.fadd_keep, Dev.jobDecided_keep, Dev.raise_keep, Dev.psSettle_keep, Dev.syncEngines_keep, Dev.spareCheck_keep,
        Dev.testFreed_keep]; done)
    | (intro _)
    | split
    | (with_reducible refine (foldl_keep _ _ _ ?_).trans ?_)
    | (simp only [Dev.without, h_qf, h_hbm, h_host, h_bank, h_hl, h_pipe, h_ps, if_true]; done)
    | (simp only [foldl_keep, apply_ite (Dev.without · pts), ite_self, h_qf, h_hbm, h_host, h_bank, h_hl, h_pipe, h_ps, Dev.psSave_keep,
        Dev.modPart_keep, Dev.setEng_keep, Dev.fadd_keep, Dev.jobDecided_keep, Dev.raise_keep, Dev.psSettle_keep, Dev.syncEngines_keep,
        Dev.spareCheck_keep, Dev.testFreed_keep]))
theorem Dev.codecMove_keep {pts : List Part} (d : Dev) (r : Req) (h_ps : pts.contains .ps = true) : VKeeps pts d (Dev.codecMove d r) := by
  unfold Dev.codecMove
  repeat' (first
    | (with_reducible refine vk_ite _ _ ?_)
    | (simp only [vk_err, vk_job, h_ps, Dev.modPart_keep]; done)
    | (intro _)
    | split
    | (extract_lets)
    | (with_reducible refine (foldl_keep _ _ _ ?_).trans ?_)
    | (simp only [Dev.without, h_ps, if_true]; done)
    | (simp only [vk_err, vk_turned, vk_ok, vk_job, foldl_keep, apply_ite (Dev.without · pts), ite_self, h_ps, Dev.modPart_keep])
    | (simp +zetaDelta only [vk_err, vk_turned, vk_ok, vk_job, foldl_keep, apply_ite (Dev.without · pts), ite_self, h_ps, Dev.modPart_keep]; done)
    | (simp +zetaDelta only [vk_err, vk_turned, vk_ok, vk_job, foldl_keep, apply_ite (Dev.without · pts), ite_self, h_ps, Dev.modPart_keep]))
theorem Dev.ctxOnto_keep {pts : List Part} (d : Dev) (r : Req) (n addr : Nat) (st : PsStream) (s : PsSrc) (es : List Nat)
    (h_bank : pts.contains .bank = true) (h_ps : pts.contains .ps = true) (h_qf : pts.contains .qf = true)
    (h_hbm : pts.contains .hbm = true) (h_host : pts.contains .host = true) (h_pipe : pts.contains .pipe = true) : VKeeps pts d (Dev.ctxOnto d r n addr st s es) := by
  unfold Dev.ctxOnto
  extract_lets fresh got bad good frame d1 d2
  have h1 : d1.without pts = d.without pts := by
    simp only [d1, h_ps, Dev.modPs_keep, Dev.useFree_keep]
  have h2 : d2.without pts = d.without pts := by
    simp only [d2, apply_ite (Dev.without · pts), Dev.raise_keep, ite_self, h1]
  clear_value d2
  split
  · rw [vk_err]
    trivial
  · rename_i e he
    simp only [vk_job, h_bank, h_ps, Dev.syncEngines_keep, Dev.syncCst_keep]
    split at he
    · exact (Dev.psBind_keep _ _ _ h_qf h_hbm h_host h_pipe h_ps he).trans h2
    · obtain rfl := Option.some.inj he
      exact h2
theorem Dev.codecCtxLoad_keep {pts : List Part} (d : Dev) (r : Req) (h_bank : pts.contains .bank = true) (h_ps : pts.contains .ps = true) (h_qf :
    pts.contains .qf = true) (h_hbm : pts.contains .hbm = true) (h_host : pts.contains .host = true) (h_pipe : pts.contains .pipe = true) : VKeeps
    pts d (Dev.codecCtxLoad d r) := by
  unfold Dev.codecCtxLoad
  extract_lets n addr st
  have hk : ∀ s es, VKeeps pts d (Dev.ctxOnto d r n addr st s es) :=
    fun s es => Dev.ctxOnto_keep d r n addr st s es h_bank h_ps h_qf h_hbm h_host h_pipe
  split
  · split <;> exact True.intro
  · rename_i s hs
    refine vk_ite _ _ ?_
    refine vk_ite _ _ ?_
    split
    · extract_lets es
      clear_value es
      split
      · exact True.intro
      · exact hk _ _
    · exact hk _ _
theorem Dev.planeW_keep {pts : List Part} (d : Dev) (base hgt wc fmt : Nat) (h : ChunkHdr) (rows : Tab (List Nat)) (upTo : Nat) (h_hbm :
    pts.contains .hbm = true) : (Dev.planeW d base hgt wc fmt h rows upTo).without pts = d.without pts := by
  unfold Dev.planeW
  repeat' (first
    | (with_reducible rfl)
    | (simp only [h_hbm, Dev.hbmW_keep]; done)
    | (intro _)
    | split
    | (with_reducible refine (foldl_keep _ _ _ ?_).trans ?_)
    | (simp only [Dev.without, h_hbm, if_true]; done)
    | (simp only [foldl_keep, apply_ite (Dev.without · pts), ite_self, h_hbm, Dev.hbmW_keep]))
theorem Dev.decErr_keep {pts : List Part} (d : Dev) (j : DecJob) (job stream seq code off : Nat) :
    (Dev.decErr d j job stream seq code off).1.without pts = d.without pts := by
  unfold Dev.decErr
  simp only [Dev.raiseOnce_keep]
theorem Dev.decChunk_keep {pts : List Part} (d : Dev) (j : DecJob) (job base : Nat) (u : List Byte) (h_hbm : pts.contains .hbm = true) :
    (Dev.decChunk d j job base u).1.without pts = d.without pts := by
  unfold Dev.decChunk
  repeat' (first
    | (with_reducible rfl)
    | (simp only [apply_ite (Dev.without · pts), ite_self, h_hbm, Dev.decErr_keep, Dev.planeW_keep, Dev.raise_keep]; done)
    | (intro _)
    | split
    | (with_reducible refine (foldl_keep _ _ _ ?_).trans ?_)
    | (simp only [Dev.without, h_hbm, if_true]; done)
    | (simp only [foldl_keep, apply_ite (Dev.without · pts), ite_self, h_hbm, Dev.decErr_keep, Dev.planeW_keep, Dev.raise_keep]))
theorem Dev.decUnit_keep {pts : List Part} (job base : Nat) (s : Dev × DecJob) (u : List Byte) (h_hbm : pts.contains .hbm = true) :
    (Dev.decUnit job base s u).1.without pts = s.1.without pts := by
  unfold Dev.decUnit
  split
  · split
    · exact Dev.decErr_keep s.1 _ _ _ _ _ _
    · rfl
  · exact Dev.decChunk_keep s.1 _ _ _ _ h_hbm
theorem Dev.codecDecode_keep {pts : List Part} (d : Dev) (r : Req) (h_hbm : pts.contains .hbm = true) : VKeeps pts d (Dev.codecDecode d r) := by
  unfold Dev.codecDecode
  extract_lets b n base ents
  refine vk_ite _ _ (vk_ite _ _ ?_)
  extract_lets us
  refine vk_ite _ _ ?_
  extract_lets x
  rw [vk_job]
  exact foldl_keep1 _ _ (d, {}) (fun q u => Dev.decUnit_keep _ _ q u h_hbm)
theorem Dev.setAud_keep {pts : List Part} (d : Dev) (n : Nat) (p : AudPort) (h_au : pts.contains .au = true) :
    (Dev.setAud d n p).without pts = d.without pts := by
  unfold Dev.setAud
  simp only [h_au, upd_au_keep]
theorem Dev.modAud_keep {pts : List Part} (d : Dev) (n : Nat) (f : AudPort → AudPort) (h_au : pts.contains .au = true) :
    (Dev.modAud d n f).without pts = d.without pts := by
  unfold Dev.modAud
  simp only [h_au, Dev.setAud_keep]
theorem Dev.audFs_keep {pts : List Part} (d : Dev) (f : Fld) (v n : Nat) : (Dev.audFs d f v n).without pts = d.without pts := by
  unfold Dev.audFs
  simp only [Dev.fs_keep]
theorem Dev.abufDispatched_keep {pts : List Part} (d : Dev) (o : Op) (h_qf : pts.contains .qf = true) (h_hbm : pts.contains .hbm = true) (h_host :
    pts.contains .host = true) : (Dev.abufDispatched d o).without pts = d.without pts := by
  unfold Dev.abufDispatched
  repeat' (first
    | (with_reducible rfl)
    | (simp only [apply_ite (Dev.without · pts), ite_self, h_qf, h_hbm, h_host, Dev.endOp_keep, Dev.raise_keep]; done)
    | (intro _)
    | split
    | (with_reducible refine (foldl_keep _ _ _ ?_).trans ?_)
    | (simp only [Dev.without, h_qf, h_hbm, h_host, if_true]; done)
    | (simp only [foldl_keep, apply_ite (Dev.without · pts), ite_self, h_qf, h_hbm, h_host, Dev.endOp_keep, Dev.raise_keep]))
theorem Dev.audLost_keep {pts : List Part} (d : Dev) (n : Nat) (h_au : pts.contains .au = true) : (Dev.audLost d n).without pts = d.without pts := by
  unfold Dev.audLost
  simp only [h_au, Dev.modAud_keep, Dev.fadd_keep, Dev.raiseOnce_keep]
theorem Dev.audDeliver_keep {pts : List Part} (d : Dev) (n time : Nat) (bs : List Byte) (h_fab : pts.contains .fab = true) (h_qf :
    pts.contains .qf = true) (h_hbm : pts.contains .hbm = true) (h_host : pts.contains .host = true) (h_au : pts.contains .au = true) :
    (Dev.audDeliver d n time bs).without pts = d.without pts := by
  unfold Dev.audDeliver
  repeat' (first
    | (with_reducible rfl)
    | (simp only [apply_ite (Dev.without · pts), ite_self, h_fab, h_qf, h_hbm, h_host, h_au, Dev.audLost_keep, Dev.cbufBreach_keep, Dev.unitW_keep,
        Dev.endOp_keep, Dev.modAud_keep]; done)
    | (intro _)
    | split
    | (with_reducible refine (foldl_keep _ _ _ ?_).trans ?_)
    | (simp only [Dev.without, h_fab, h_qf, h_hbm, h_host, h_au, if_true]; done)
    | (simp only [foldl_keep, apply_ite (Dev.without · pts), ite_self, h_fab, h_qf, h_hbm, h_host, h_au, Dev.audLost_keep, Dev.cbufBreach_keep,
        Dev.unitW_keep, Dev.endOp_keep, Dev.modAud_keep]))
theorem Dev.syncMute_keep {pts : List Part} (d : Dev) (n : Nat) : (Dev.syncMute d n).without pts = d.without pts := by
  unfold Dev.syncMute
  simp only [Dev.audFs_keep]
theorem Dev.audGather_keep {pts : List Part} (d : Dev) (n time : Nat) (frames : List (List Nat)) (rate : Bool) (h_fab : pts.contains .fab = true)
    (h_qf : pts.contains .qf = true) (h_hbm : pts.contains .hbm = true) (h_host : pts.contains .host = true) (h_au : pts.contains .au = true) :
    (Dev.audGather d n time frames rate).without pts = d.without pts := by
  unfold Dev.audGather
  simp only [apply_ite (Dev.without · pts), ite_self, h_fab, h_qf, h_hbm, h_host, h_au, Dev.fadd_keep, Dev.setAud_keep, Dev.modAud_keep,
      Dev.audDeliver_keep, Dev.syncMute_keep, Dev.jobDecided_keep, Dev.audFs_keep]
theorem Dev.audNote_keep {pts : List Part} (d : Dev) (n at_ : Nat) (e : AudEv) (h_au : pts.contains .au = true) :
    (Dev.audNote d n at_ e).without pts = d.without pts := by
  unfold Dev.audNote
  simp only [h_au, Dev.modAud_keep]
theorem Dev.audHold_keep {pts : List Part} (d : Dev) (n : Nat) (h_au : pts.contains .au = true) : (Dev.audHold d n).without pts = d.without pts := by
  unfold Dev.audHold
  simp only [apply_ite (Dev.without · pts), ite_self, h_au, Dev.audFs_keep, Dev.audNote_keep]
theorem Dev.audRelease_keep {pts : List Part} (d : Dev) (n : Nat) (h_au : pts.contains .au = true) :
    (Dev.audRelease d n).without pts = d.without pts := by
  unfold Dev.audRelease
  simp only [apply_ite (Dev.without · pts), ite_self, h_au, Dev.audNote_keep]
theorem Dev.audRateChange_keep {pts : List Part} (d : Dev) (n time : Nat) (frames : List (List Nat)) (h_fab : pts.contains .fab = true) (h_qf :
    pts.contains .qf = true) (h_hbm : pts.contains .hbm = true) (h_host : pts.contains .host = true) (h_au : pts.contains .au = true) :
    (Dev.audRateChange d n time frames).without pts = d.without pts := by
  unfold Dev.audRateChange
  simp only [apply_ite (Dev.without · pts), ite_self, h_fab, h_qf, h_hbm, h_host, h_au, Dev.modAud_keep, Dev.audGather_keep, Dev.audFs_keep,
      Dev.raise_keep]
theorem Dev.audQueue_keep {pts : List Part} (d : Dev) (n owner depthLog2 cls errQid : Nat) (internal : Bool) (h_qf : pts.contains .qf = true)
    (h_hbm : pts.contains .hbm = true) (h_host : pts.contains .host = true) (h_au : pts.contains .au = true) :
    (Dev.audQueue d n owner depthLog2 cls errQid internal).without pts = d.without pts := by
  unfold Dev.audQueue
  (try simp only [h_qf, h_au, Dev.modAud_keep, Dev.setQ_keep])
  repeat' (first
    | (with_reducible rfl)
    | (simp only [h_qf, h_hbm, h_host, upd_oz_keep, Dev.audFs_keep, Dev.returnRole_keep, Dev.closeTag_keep]; done)
    | (intro _)
    | split
    | (with_reducible refine (foldl_keep _ _ _ ?_).trans ?_)
    | (simp only [Dev.without, h_qf, h_hbm, h_host, h_au, if_true]; done)
    | (simp only [foldl_keep, apply_ite (Dev.without · pts), ite_self, h_qf, h_hbm, h_host, h_au, upd_oz_keep, Dev.audFs_keep, Dev.returnRole_keep,
        Dev.closeTag_keep, Dev.modAud_keep, Dev.setQ_keep]))
theorem Dev.audPortSet_keep {pts : List Part} (d : Dev) (r : Req) (h_qf : pts.contains .qf = true) (h_hbm : pts.contains .hbm = true) (h_host :
    pts.contains .host = true) (h_au : pts.contains .au = true) : VKeeps pts d (Dev.audPortSet d r) := by
  unfold Dev.audPortSet
  extract_lets n w mask
  split
  · rw [vk_err]; trivial
  · split
    · rw [vk_err]; trivial
    · split
      · rw [vk_err]; trivial
      · split
        · rw [vk_err]; trivial
        · rw [vk_ok]
          simp +zetaDelta only [Dev.audQueue_keep, Dev.audFs_keep, Dev.wr_keep, h_au, h_qf, h_hbm, h_host]
theorem Dev.audStart_keep {pts : List Part} (d : Dev) (r : Req) (h_au : pts.contains .au = true) : VKeeps pts d (Dev.audStart d r) := by
  unfold Dev.audStart
  repeat' (first
    | (with_reducible refine vk_ite _ _ ?_)
    | (simp only [vk_ok, h_au, Dev.modAud_keep, Dev.audFs_keep, Dev.useFree_keep, Dev.syncMute_keep]; done)
    | (intro _)
    | split
    | (extract_lets)
    | (with_reducible refine (foldl_keep _ _ _ ?_).trans ?_)
    | (simp only [Dev.without, h_au, if_true]; done)
    | (simp only [vk_err, vk_turned, vk_ok, vk_job, foldl_keep, apply_ite (Dev.without · pts), ite_self, h_au, Dev.modAud_keep, Dev.audFs_keep,
        Dev.useFree_keep, Dev.syncMute_keep])
    | (simp +zetaDelta only [vk_err, vk_turned, vk_ok, vk_job, foldl_keep, apply_ite (Dev.without · pts), ite_self, h_au, Dev.modAud_keep,
        Dev.audFs_keep, Dev.useFree_keep, Dev.syncMute_keep]; done)
    | (simp +zetaDelta only [vk_err, vk_turned, vk_ok, vk_job, foldl_keep, apply_ite (Dev.without · pts), ite_self, h_au, Dev.modAud_keep,
        Dev.audFs_keep, Dev.useFree_keep, Dev.syncMute_keep]))
theorem Dev.modTm_keep {pts : List Part} (d : Dev) (f : TimeSt → TimeSt) (h_tm : pts.contains .tm = true) :
    (Dev.modTm d f).without pts = d.without pts := by
  unfold Dev.modTm
  simp only [h_tm, upd_tm_keep]
theorem Dev.syncTm_keep {pts : List Part} (d : Dev) : (Dev.syncTm d).without pts = d.without pts := by
  unfold Dev.syncTm
  simp only [Dev.fs_keep]
theorem Dev.syncActs_keep {pts : List Part} (d : Dev) : (Dev.syncActs d).without pts = d.without pts := by
  unfold Dev.syncActs
  simp only [Dev.fs_keep]
theorem Dev.arm_keep {pts : List Part} (d : Dev) (a : Act) (h_tm : pts.contains .tm = true) {a0 : Nat} {e0 : Dev} (h : Dev.arm d a = some (a0,
    e0)) : e0.without pts = d.without pts := by
  unfold Dev.arm at h
  try simp only at h
  repeat' split at h
  all_goals first
    | (cases h; done)
    | (first
      | obtain rfl := Option.some.inj h
      | (simp only [Option.some.injEq, Prod.mk.injEq] at h; obtain ⟨rfl, rfl⟩ := h)
      | (simp only [Option.some.injEq, Prod.mk.injEq] at h; obtain ⟨rfl, rfl, rfl⟩ := h)
      | skip); (try simp only [h_tm, Dev.syncActs_keep, Dev.modTm_keep, Dev.useFree_keep]); repeat' (first
        | (with_reducible rfl)
        | (simp only [foldl_keep, apply_ite (Dev.without · pts), ite_self, h_tm, Dev.syncActs_keep, Dev.modTm_keep, Dev.useFree_keep]; done)
        | (intro _)
        | split
        | (with_reducible refine (foldl_keep _ _ _ ?_).trans ?_)
        | (simp only [Dev.without, h_tm, if_true]; done)
        | (simp only [foldl_keep, apply_ite (Dev.without · pts), ite_self, h_tm, Dev.syncActs_keep, Dev.modTm_keep, Dev.useFree_keep]))
theorem Dev.disarm_keep {pts : List Part} (d : Dev) (k : Nat) (h_tm : pts.contains .tm = true) : (Dev.disarm d k).without pts = d.without pts := by
  unfold Dev.disarm
  simp only [h_tm, Dev.syncActs_keep, Dev.modTm_keep]
theorem Dev.disarmClip_keep {pts : List Part} (d : Dev) (clip : Nat) (h_tm : pts.contains .tm = true) :
    (Dev.disarmClip d clip).without pts = d.without pts := by
  unfold Dev.disarmClip
  simp only [h_tm, Dev.syncActs_keep, Dev.modTm_keep]

end Sys2Proof.Machine
end

