-- ==== Sys2Proof/Laws/FrameMedia.lean ====
section
/-! SUPPORT. Which parts of the device an operation may change: packs, volumes, recording and sessions. -/
namespace Sys2Proof.Machine
set_option linter.all false

theorem Dev.modMd_keep {pts : List Part} (d : Dev) (f : MediaSt → MediaSt) (h_md : pts.contains .md = true) :
    (Dev.modMd d f).without pts = d.without pts := by
  unfold Dev.modMd
  simp only [h_md, upd_md_keep]
theorem Dev.modPport_keep {pts : List Part} (d : Dev) (n : Nat) (f : PackPort → PackPort) (h_md : pts.contains .md = true) :
    (Dev.modPport d n f).without pts = d.without pts := by
  unfold Dev.modPport
  simp only [h_md, Dev.modMd_keep]
theorem Dev.setPk_keep {pts : List Part} (d : Dev) (n st : Nat) : (Dev.setPk d n st).without pts = d.without pts := by
  unfold Dev.setPk
  simp only [Dev.fs_keep]
theorem Dev.chSend_keep {pts : List Part} (d : Dev) (k pt dest : Nat) (body : List Byte) (h_ch : pts.contains .ch = true) :
    (Dev.chSend d k pt dest body).without pts = d.without pts := by
  unfold Dev.chSend
  simp only [h_ch, upd_ch_keep]
theorem Dev.chCfg_keep {pts : List Part} (d : Dev) (obj : Nat) : (Dev.chCfg d obj).without pts = d.without pts := by
  unfold Dev.chCfg
  simp only [Dev.raise_keep]
theorem Dev.mdSend_keep {pts : List Part} (d : Dev) (key : Nat) (bs : List Byte) (h_ch : pts.contains .ch = true) (h_md : pts.contains .md = true) :
    (Dev.mdSend d key bs).without pts = d.without pts := by
  unfold Dev.mdSend
  (try simp only [apply_ite (Dev.without · pts), h_md, Dev.modMd_keep])
  repeat' (first
    | (with_reducible rfl)
    | (simp only [h_ch, h_md, Dev.modMd_keep, Dev.chCfg_keep, Dev.chSend_keep]; done)
    | (intro _)
    | split
    | (with_reducible refine (foldl_keep _ _ _ ?_).trans ?_)
    | (simp only [Dev.without, h_ch, h_md, if_true]; done)
    | (simp only [foldl_keep, apply_ite (Dev.without · pts), ite_self, h_ch, h_md, Dev.modMd_keep, Dev.chCfg_keep, Dev.chSend_keep]))
theorem Dev.pkBytes_keep {pts : List Part} (d : Dev) (n k : Nat) : (Dev.pkBytes d n k).without pts = d.without pts := by
  unfold Dev.pkBytes
  simp only [apply_ite (Dev.without · pts), ite_self, Dev.add64_keep]
theorem Dev.syncOut_keep {pts : List Part} (d : Dev) (n : Nat) : (Dev.syncOut d n).without pts = d.without pts := by
  unfold Dev.syncOut
  simp only [Dev.fs_keep]
theorem Dev.pkIssue_keep {pts : List Part} (d : Dev) (c : PCmd) (q : Nat) (h_ch : pts.contains .ch = true) (h_md : pts.contains .md = true) :
    (Dev.pkIssue d c q).without pts = d.without pts := by
  unfold Dev.pkIssue
  simp only [h_ch, h_md, Dev.modMd_keep, Dev.mdSend_keep]
theorem Dev.pump_keep {pts : List Part} (d : Dev) (n : Nat) (h_ch : pts.contains .ch = true) (h_md : pts.contains .md = true) :
    (Dev.pump d n).without pts = d.without pts := by
  unfold Dev.pump
  (try simp only [apply_ite (Dev.without · pts), Dev.syncOut_keep])
  repeat' (first
    | (with_reducible rfl)
    | (simp only [apply_ite (Dev.without · pts), h_ch, h_md, Dev.pkIssue_keep]; done)
    | (intro _)
    | split
    | (with_reducible refine (foldl_keep _ _ _ ?_).trans ?_)
    | (simp only [Dev.without, h_ch, h_md, if_true]; done)
    | (simp only [foldl_keep, apply_ite (Dev.without · pts), ite_self, h_ch, h_md, Dev.syncOut_keep, Dev.pkIssue_keep]))
theorem Dev.pumpAll_keep {pts : List Part} (d : Dev) (h_ch : pts.contains .ch = true) (h_md : pts.contains .md = true) :
    (Dev.pumpAll d).without pts = d.without pts := by
  unfold Dev.pumpAll
  (try simp only [foldl_keep, apply_ite (Dev.without · pts), ite_self, h_ch, h_md, Dev.pump_keep])
  repeat' (first
    | (with_reducible rfl)
    | (simp only [h_ch, h_md, Dev.pump_keep]; done)
    | (intro _)
    | split
    | (with_reducible refine (foldl_keep _ _ _ ?_).trans ?_)
    | (simp only [Dev.without, h_ch, h_md, if_true]; done)
    | (simp only [foldl_keep, apply_ite (Dev.without · pts), ite_self, h_ch, h_md, Dev.pump_keep]))
theorem Dev.pkWake_keep {pts : List Part} (d : Dev) (n : Nat) (h_ch : pts.contains .ch = true) (h_ln : pts.contains .ln = true) (h_md :
    pts.contains .md = true) : (Dev.pkWake d n).without pts = d.without pts := by
  unfold Dev.pkWake
  (try simp only [foldl_keep, apply_ite (Dev.without · pts), ite_self, h_ch, h_ln, h_md, Dev.mdSend_keep, Dev.train_keep, Dev.setLinkSt_keep])
  repeat' (first
    | (with_reducible rfl)
    | (simp only [apply_ite (Dev.without · pts), ite_self, h_ch, h_ln, h_md, Dev.mdSend_keep, Dev.train_keep, Dev.setLinkSt_keep]; done)
    | (intro _)
    | split
    | (with_reducible refine (foldl_keep _ _ _ ?_).trans ?_)
    | (simp only [Dev.without, h_ch, h_ln, h_md, if_true]; done)
    | (simp only [foldl_keep, apply_ite (Dev.without · pts), ite_self, h_ch, h_ln, h_md, Dev.mdSend_keep, Dev.train_keep, Dev.setLinkSt_keep]))
theorem Dev.modQp_keep {pts : List Part} (d : Dev) (n : Nat) (f : QPair → QPair) (h_md : pts.contains .md = true) :
    (Dev.modQp d n f).without pts = d.without pts := by
  unfold Dev.modQp
  simp only [h_md, Dev.modMd_keep]
theorem Dev.cqWrite_keep {pts : List Part} (d : Dev) (n : Nat) (p : QPair) (e : List Byte) (h_qf : pts.contains .qf = true) (h_host :
    pts.contains .host = true) (h_md : pts.contains .md = true) : (Dev.cqWrite d n p e).without pts = d.without pts := by
  unfold Dev.cqWrite
  simp only [h_qf, h_host, h_md, Dev.hostW_keep, Dev.modQp_keep, Dev.signal_keep]
theorem Dev.cqPost_keep {pts : List Part} (d : Dev) (n result flags cid status : Nat) (h_qf : pts.contains .qf = true) (h_host :
    pts.contains .host = true) (h_md : pts.contains .md = true) : (Dev.cqPost d n result flags cid status).without pts = d.without pts := by
  unfold Dev.cqPost
  repeat' (first
    | (with_reducible rfl)
    | (simp only [apply_ite (Dev.without · pts), ite_self, h_qf, h_host, h_md, upd_qf_keep, Dev.cqWrite_keep, Dev.modQp_keep]; done)
    | (intro _)
    | split
    | (with_reducible refine (foldl_keep _ _ _ ?_).trans ?_)
    | (simp only [Dev.without, h_qf, h_host, h_md, if_true]; done)
    | (simp only [foldl_keep, apply_ite (Dev.without · pts), ite_self, h_qf, h_host, h_md, upd_qf_keep, Dev.cqWrite_keep, Dev.modQp_keep]))
theorem Dev.cqDrain_keep {pts : List Part} (d : Dev) (n : Nat) (z0 : Nat) (h_qf : pts.contains .qf = true) (h_host : pts.contains .host = true)
    (h_md : pts.contains .md = true) : (Dev.cqDrain d n z0).without pts = d.without pts := by
  induction z0 generalizing d with
  | zero => first | rfl | (unfold Dev.cqDrain; simp only [foldl_keep, apply_ite (Dev.without · pts), ite_self, h_qf, h_host, h_md, upd_qf_keep,
      Dev.cqWrite_keep, Dev.modQp_keep])
  | succ n ih =>
    unfold Dev.cqDrain; repeat' (first
      | (with_reducible rfl)
      | (simp only [apply_ite (Dev.without · pts), ite_self, h_qf, h_host, h_md, upd_qf_keep, Dev.cqWrite_keep, Dev.modQp_keep, ih]; done)
      | (intro _)
      | split
      | (with_reducible refine (foldl_keep _ _ _ ?_).trans ?_)
      | (simp only [foldl_keep, apply_ite (Dev.without · pts), ite_self, h_qf, h_host, h_md, upd_qf_keep, Dev.cqWrite_keep, Dev.modQp_keep, ih]))
theorem Dev.qpSettle_keep {pts : List Part} (d : Dev) (n : Nat) (h_qf : pts.contains .qf = true) (h_md : pts.contains .md = true) :
    (Dev.qpSettle d n).without pts = d.without pts := by
  unfold Dev.qpSettle
  repeat' (first
    | (with_reducible rfl)
    | (simp only [apply_ite (Dev.without · pts), ite_self, h_qf, h_md, Dev.modMd_keep, Dev.destroyQ_keep, Dev.fs_keep, Dev.jobDecided_keep]; done)
    | (intro _)
    | split
    | (with_reducible refine (foldl_keep _ _ _ ?_).trans ?_)
    | (simp only [Dev.without, h_qf, h_md, if_true]; done)
    | (simp only [foldl_keep, apply_ite (Dev.without · pts), ite_self, h_qf, h_md, Dev.modMd_keep, Dev.destroyQ_keep, Dev.fs_keep,
        Dev.jobDecided_keep]))
theorem Dev.hostEnd_keep {pts : List Part} (d : Dev) (n tag status result : Nat) (h_qf : pts.contains .qf = true) (h_hbm :
    pts.contains .hbm = true) (h_host : pts.contains .host = true) (h_md : pts.contains .md = true) :
    (Dev.hostEnd d n tag status result).without pts = d.without pts := by
  unfold Dev.hostEnd
  repeat' (first
    | (with_reducible rfl)
    | (simp only [h_qf, h_hbm, h_host, h_md, Dev.cqPost_keep, Dev.flushFifo_keep, Dev.closeTag_keep, Dev.qpSettle_keep]; done)
    | (intro _)
    | split
    | (with_reducible refine (foldl_keep _ _ _ ?_).trans ?_)
    | (simp only [Dev.without, h_qf, h_hbm, h_host, h_md, if_true]; done)
    | (simp only [foldl_keep, apply_ite (Dev.without · pts), ite_self, h_qf, h_hbm, h_host, h_md, Dev.cqPost_keep, Dev.flushFifo_keep,
        Dev.closeTag_keep, Dev.qpSettle_keep]))
theorem Dev.qpErrors_keep {pts : List Part} (d : Dev) (n : Nat) (h_qf : pts.contains .qf = true) (h_host : pts.contains .host = true) (h_md :
    pts.contains .md = true) : (Dev.qpErrors d n).without pts = d.without pts := by
  unfold Dev.qpErrors
  repeat' (first
    | (with_reducible rfl)
    | (simp only [apply_ite (Dev.without · pts), ite_self, h_qf, h_host, h_md, Dev.setQ_keep, Dev.cqPost_keep, Dev.raise_keep]; done)
    | (intro _)
    | split
    | (with_reducible refine (foldl_keep _ _ _ ?_).trans ?_)
    | (simp only [Dev.without, h_qf, h_host, h_md, if_true]; done)
    | (simp only [foldl_keep, apply_ite (Dev.without · pts), ite_self, h_qf, h_host, h_md, Dev.setQ_keep, Dev.cqPost_keep, Dev.raise_keep]))
theorem Dev.mdErrors_keep {pts : List Part} (d : Dev) (h_qf : pts.contains .qf = true) (h_host : pts.contains .host = true) (h_md :
    pts.contains .md = true) : (Dev.mdErrors d).without pts = d.without pts := by
  unfold Dev.mdErrors
  (try simp only [foldl_keep, apply_ite (Dev.without · pts), ite_self, h_qf, h_host, h_md, Dev.qpSettle_keep, Dev.qpErrors_keep])
  repeat' (first
    | (with_reducible rfl)
    | (simp only [h_qf, h_host, h_md, Dev.qpSettle_keep, Dev.qpErrors_keep]; done)
    | (intro _)
    | split
    | (with_reducible refine (foldl_keep _ _ _ ?_).trans ?_)
    | (simp only [Dev.without, h_qf, h_host, h_md, if_true]; done)
    | (simp only [foldl_keep, apply_ite (Dev.without · pts), ite_self, h_qf, h_host, h_md, Dev.qpSettle_keep, Dev.qpErrors_keep]))
theorem Dev.tgtResp_keep {pts : List Part} (d : Dev) (key q ctag status result : Nat) (h_ch : pts.contains .ch = true) (h_md :
    pts.contains .md = true) : (Dev.tgtResp d key q ctag status result).without pts = d.without pts := by
  unfold Dev.tgtResp
  simp only [h_ch, h_md, Dev.mdSend_keep]
theorem Dev.tgtData_keep {pts : List Part} (d : Dev) (key q ctag : Nat) (bs : List Byte) (h_ch : pts.contains .ch = true) (h_md :
    pts.contains .md = true) : (Dev.tgtData d key q ctag bs).without pts = d.without pts := by
  unfold Dev.tgtData
  (try simp only [Dev.pkBytes_keep])
  repeat' (first
    | (with_reducible rfl)
    | (simp only [h_ch, h_md, Dev.mdSend_keep]; done)
    | (intro _)
    | split
    | (with_reducible refine (foldl_keep _ _ _ ?_).trans ?_)
    | (simp only [Dev.without, h_ch, h_md, if_true]; done)
    | (simp only [foldl_keep, apply_ite (Dev.without · pts), ite_self, h_ch, h_md, Dev.pkBytes_keep, Dev.mdSend_keep]))
theorem Dev.modRec_keep {pts : List Part} (d : Dev) (clip : Nat) (f : Rec → Rec) (h_md : pts.contains .md = true) :
    (Dev.modRec d clip f).without pts = d.without pts := by
  unfold Dev.modRec
  simp only [h_md, Dev.modMd_keep]
theorem Dev.mcmdEnd_keep {pts : List Part} (d : Dev) (m : MCmd) (h_qf : pts.contains .qf = true) (h_hbm : pts.contains .hbm = true) (h_host :
    pts.contains .host = true) (h_ch : pts.contains .ch = true) (h_md : pts.contains .md = true) : (Dev.mcmdEnd d m).without pts = d.without pts := by
  unfold Dev.mcmdEnd
  repeat' (first
    | (with_reducible rfl)
    | (simp only [apply_ite (Dev.without · pts), ite_self, h_qf, h_hbm, h_host, h_ch, h_md, Dev.modMd_keep, Dev.hostEnd_keep, Dev.tgtData_keep,
        Dev.tgtResp_keep, Dev.modRec_keep, Dev.jobDecided_keep, Dev.setPk_keep]; done)
    | (intro _)
    | split
    | (with_reducible refine (foldl_keep _ _ _ ?_).trans ?_)
    | (simp only [Dev.without, h_qf, h_hbm, h_host, h_ch, h_md, if_true]; done)
    | (simp only [foldl_keep, apply_ite (Dev.without · pts), ite_self, h_qf, h_hbm, h_host, h_ch, h_md, Dev.modMd_keep, Dev.hostEnd_keep,
        Dev.tgtData_keep, Dev.tgtResp_keep, Dev.modRec_keep, Dev.jobDecided_keep, Dev.setPk_keep]))
theorem Dev.pcmdEnd_keep {pts : List Part} (d : Dev) (c : PCmd) (status : Nat) (h_qf : pts.contains .qf = true) (h_hbm : pts.contains .hbm = true)
    (h_host : pts.contains .host = true) (h_ch : pts.contains .ch = true) (h_md : pts.contains .md = true) :
    (Dev.pcmdEnd d c status).without pts = d.without pts := by
  unfold Dev.pcmdEnd
  repeat' (first
    | (with_reducible rfl)
    | (simp only [apply_ite (Dev.without · pts), ite_self, h_qf, h_hbm, h_host, h_ch, h_md, Dev.syncOut_keep, Dev.modMd_keep, Dev.mcmdEnd_keep]; done)
    | (intro _)
    | split
    | (with_reducible refine (foldl_keep _ _ _ ?_).trans ?_)
    | (simp only [Dev.without, h_qf, h_hbm, h_host, h_ch, h_md, if_true]; done)
    | (simp only [foldl_keep, apply_ite (Dev.without · pts), ite_self, h_qf, h_hbm, h_host, h_ch, h_md, Dev.syncOut_keep, Dev.modMd_keep,
        Dev.mcmdEnd_keep]))
theorem Dev.pkEndAll_keep {pts : List Part} (d : Dev) (n status : Nat) (h_qf : pts.contains .qf = true) (h_hbm : pts.contains .hbm = true) (h_host :
    pts.contains .host = true) (h_ch : pts.contains .ch = true) (h_md : pts.contains .md = true) :
    (Dev.pkEndAll d n status).without pts = d.without pts := by
  unfold Dev.pkEndAll
  (try simp only [foldl_keep, apply_ite (Dev.without · pts), ite_self, h_qf, h_hbm, h_host, h_ch, h_md, Dev.pcmdEnd_keep])
  repeat' (first
    | (with_reducible rfl)
    | (simp only [h_qf, h_hbm, h_host, h_ch, h_md, Dev.pcmdEnd_keep]; done)
    | (intro _)
    | split
    | (with_reducible refine (foldl_keep _ _ _ ?_).trans ?_)
    | (simp only [Dev.without, h_qf, h_hbm, h_host, h_ch, h_md, if_true]; done)
    | (simp only [foldl_keep, apply_ite (Dev.without · pts), ite_self, h_qf, h_hbm, h_host, h_ch, h_md, Dev.pcmdEnd_keep]))
theorem Dev.mdBegin_keep {pts : List Part} (d : Dev) (m : MCmd) (ps : List PCmd) (h_qf : pts.contains .qf = true) (h_hbm :
    pts.contains .hbm = true) (h_host : pts.contains .host = true) (h_ch : pts.contains .ch = true) (h_ln : pts.contains .ln = true) (h_md :
    pts.contains .md = true) : (Dev.mdBegin d m ps).without pts = d.without pts := by
  unfold Dev.mdBegin
  (try simp only [apply_ite (Dev.without · pts), h_qf, h_hbm, h_host, h_ch, h_md, Dev.modMd_keep, Dev.mcmdEnd_keep, Dev.pumpAll_keep])
  repeat' (first
    | (with_reducible rfl)
    | (simp only [h_qf, h_hbm, h_host, h_ch, h_ln, h_md, Dev.modMd_keep, Dev.pcmdEnd_keep, Dev.pkWake_keep]; done)
    | (intro _)
    | split
    | (with_reducible refine (foldl_keep _ _ _ ?_).trans ?_)
    | (simp only [Dev.without, h_qf, h_hbm, h_host, h_ch, h_ln, h_md, if_true]; done)
    | (simp only [foldl_keep, apply_ite (Dev.without · pts), ite_self, h_qf, h_hbm, h_host, h_ch, h_ln, h_md, Dev.modMd_keep, Dev.mcmdEnd_keep,
        Dev.pcmdEnd_keep, Dev.pkWake_keep, Dev.pumpAll_keep]))
theorem Dev.fencePort_keep {pts : List Part} (d : Dev) (n : Nat) (h_qf : pts.contains .qf = true) (h_hbm : pts.contains .hbm = true) (h_host :
    pts.contains .host = true) (h_ch : pts.contains .ch = true) (h_ln : pts.contains .ln = true) (h_md : pts.contains .md = true) :
    (Dev.fencePort d n).without pts = d.without pts := by
  unfold Dev.fencePort
  simp only [h_qf, h_hbm, h_host, h_ch, h_ln, h_md, Dev.mdBegin_keep]
theorem Dev.mdRun_keep {pts : List Part} (d : Dev) (key : Nat) (m : MCmd) (cdw0 : Nat) (bs : List Byte) (h_qf : pts.contains .qf = true) (h_hbm :
    pts.contains .hbm = true) (h_host : pts.contains .host = true) (h_ch : pts.contains .ch = true) (h_ln : pts.contains .ln = true) (h_md :
    pts.contains .md = true) : (Dev.mdRun d key m cdw0 bs).without pts = d.without pts := by
  unfold Dev.mdRun
  repeat' (first
    | (with_reducible rfl)
    | (simp only [h_qf, h_hbm, h_host, h_ch, h_ln, h_md, Dev.mdBegin_keep, Dev.modMd_keep, Dev.useFree_keep, Dev.hostW_keep]; done)
    | (intro _)
    | split
    | (with_reducible refine (foldl_keep _ _ _ ?_).trans ?_)
    | (simp only [Dev.without, h_qf, h_hbm, h_host, h_ch, h_ln, h_md, if_true]; done)
    | (simp only [foldl_keep, apply_ite (Dev.without · pts), ite_self, h_qf, h_hbm, h_host, h_ch, h_ln, h_md, Dev.mdBegin_keep, Dev.modMd_keep,
        Dev.useFree_keep, Dev.hostW_keep]))
theorem Dev.mdTell_keep {pts : List Part} (d : Dev) (code obj d1 : Nat) : (Dev.mdTell d code obj d1).without pts = d.without pts := by
  unfold Dev.mdTell
  simp only [apply_ite (Dev.without · pts), ite_self, Dev.raise_keep]
theorem Dev.hostSubmit_keep {pts : List Part} (d : Dev) (tag : Nat) (host : List Byte) (h_qf : pts.contains .qf = true) (h_hbm :
    pts.contains .hbm = true) (h_host : pts.contains .host = true) (h_ch : pts.contains .ch = true) (h_ln : pts.contains .ln = true) (h_md :
    pts.contains .md = true) : (Dev.hostSubmit d tag host).without pts = d.without pts := by
  unfold Dev.hostSubmit
  repeat' (first
    | (with_reducible rfl)
    | (simp only [apply_ite (Dev.without · pts), h_qf, h_hbm, h_host, h_ch, h_ln, h_md, Dev.hostEnd_keep, Dev.raise_keep, Dev.mdRun_keep,
        Dev.mdTell_keep]; done)
    | (intro _)
    | split
    | (with_reducible refine (foldl_keep _ _ _ ?_).trans ?_)
    | (simp only [Dev.without, h_qf, h_hbm, h_host, h_ch, h_ln, h_md, if_true]; done)
    | (simp only [foldl_keep, apply_ite (Dev.without · pts), ite_self, h_qf, h_hbm, h_host, h_ch, h_ln, h_md, Dev.hostEnd_keep, Dev.raise_keep,
        Dev.mdRun_keep, Dev.mdTell_keep]))
theorem Dev.effMqCqh_keep {pts : List Part} (d : Dev) (m n : Nat) (v : Word) (h_qf : pts.contains .qf = true) (h_host : pts.contains .host = true)
    (h_md : pts.contains .md = true) : (Dev.effMqCqh d m n v).without pts = d.without pts := by
  unfold Dev.effMqCqh
  repeat' (first
    | (with_reducible rfl)
    | (simp only [apply_ite (Dev.without · pts), ite_self, h_qf, h_host, h_md, Dev.raise_keep, Dev.qpSettle_keep, Dev.cqDrain_keep,
        Dev.fs_keep]; done)
    | (intro _)
    | split
    | (with_reducible refine (foldl_keep _ _ _ ?_).trans ?_)
    | (simp only [Dev.without, h_qf, h_host, h_md, if_true]; done)
    | (simp only [foldl_keep, apply_ite (Dev.without · pts), ite_self, h_qf, h_host, h_md, Dev.raise_keep, Dev.qpSettle_keep, Dev.cqDrain_keep,
        Dev.fs_keep]))
theorem Dev.mqCqhBy_keep {pts : List Part} (d : Dev) (m n : Nat) (v : Word) (h_fab : pts.contains .fab = true) (h_qf : pts.contains .qf = true)
    (h_hbm : pts.contains .hbm = true) (h_host : pts.contains .host = true) (h_md : pts.contains .md = true) :
    (Dev.mqCqhBy d m n v).without pts = d.without pts := by
  unfold Dev.mqCqhBy
  (try simp only [apply_ite (Dev.without · pts), h_fab, h_qf, h_hbm, h_host])
  repeat' (first
    | (with_reducible rfl)
    | (simp only [h_qf, h_host, h_md, Dev.effMqCqh_keep]; done)
    | (intro _)
    | split
    | (with_reducible refine (foldl_keep _ _ _ ?_).trans ?_)
    | (simp only [Dev.without, h_fab, h_qf, h_hbm, h_host, h_md, if_true]; done)
    | (with_reducible refine (Dev.gated_keep _ _ _ _ _ _ _ h_fab h_qf h_hbm h_host ?_).trans ?_)
    | (with_reducible refine (Dev.unlessHeld_keep _ _ _ h_fab ?_).trans ?_)
    | (simp only [foldl_keep, apply_ite (Dev.without · pts), ite_self, h_fab, h_qf, h_hbm, h_host, h_md, Dev.gated_keep, Dev.effMqCqh_keep,
        Dev.unlessHeld_keep]))
theorem Dev.resetDoneMd_keep {pts : List Part} (d : Dev) (qid : Nat) (done : List (Nat × Nat × List Byte)) (h_qf : pts.contains .qf = true) (h_hbm :
    pts.contains .hbm = true) (h_host : pts.contains .host = true) (h_md : pts.contains .md = true) :
    (Dev.resetDoneMd d qid done).without pts = d.without pts := by
  unfold Dev.resetDoneMd
  repeat' (first
    | (with_reducible rfl)
    | (simp only [apply_ite (Dev.without · pts), ite_self, h_qf, h_hbm, h_host, h_md, Dev.resetDone_keep, Dev.modMd_keep, Dev.mdErrors_keep]; done)
    | (intro _)
    | split
    | (with_reducible refine (foldl_keep _ _ _ ?_).trans ?_)
    | (simp only [Dev.without, h_qf, h_hbm, h_host, h_md, if_true]; done)
    | (simp only [foldl_keep, apply_ite (Dev.without · pts), ite_self, h_qf, h_hbm, h_host, h_md, Dev.resetDone_keep, Dev.modMd_keep,
        Dev.mdErrors_keep]))
theorem Dev.setMcmd_keep {pts : List Part} (d : Dev) (m : MCmd) (h_md : pts.contains .md = true) : (Dev.setMcmd d m).without pts = d.without pts := by
  unfold Dev.setMcmd
  simp only [h_md, Dev.modMd_keep]
theorem Dev.tgtGo_keep {pts : List Part} (d : Dev) (key q ctag : Nat) (m : MCmd) (h_qf : pts.contains .qf = true) (h_hbm :
    pts.contains .hbm = true) (h_host : pts.contains .host = true) (h_ch : pts.contains .ch = true) (h_ln : pts.contains .ln = true) (h_md :
    pts.contains .md = true) : (Dev.tgtGo d key q ctag m).without pts = d.without pts := by
  unfold Dev.tgtGo
  simp only [apply_ite (Dev.without · pts), ite_self, h_qf, h_hbm, h_host, h_ch, h_ln, h_md, Dev.mdSend_keep, Dev.setMcmd_keep, Dev.mdRun_keep]
theorem Dev.tgtPump_keep {pts : List Part} (d : Dev) (key q : Nat) (h_qf : pts.contains .qf = true) (h_hbm : pts.contains .hbm = true) (h_host :
    pts.contains .host = true) (h_ch : pts.contains .ch = true) (h_ln : pts.contains .ln = true) (h_md : pts.contains .md = true) :
    (Dev.tgtPump d key q).without pts = d.without pts := by
  unfold Dev.tgtPump
  repeat' (first
    | (with_reducible rfl)
    | (simp only [apply_ite (Dev.without · pts), ite_self, h_qf, h_hbm, h_host, h_ch, h_ln, h_md, Dev.tgtGo_keep]; done)
    | (intro _)
    | split
    | (with_reducible refine (foldl_keep _ _ _ ?_).trans ?_)
    | (simp only [Dev.without, h_qf, h_hbm, h_host, h_ch, h_ln, h_md, if_true]; done)
    | (simp only [foldl_keep, apply_ite (Dev.without · pts), ite_self, h_qf, h_hbm, h_host, h_ch, h_ln, h_md, Dev.tgtGo_keep]))
theorem Dev.tgtPumpAll_keep {pts : List Part} (d : Dev) (h_qf : pts.contains .qf = true) (h_hbm : pts.contains .hbm = true) (h_host :
    pts.contains .host = true) (h_ch : pts.contains .ch = true) (h_ln : pts.contains .ln = true) (h_md : pts.contains .md = true) :
    (Dev.tgtPumpAll d).without pts = d.without pts := by
  unfold Dev.tgtPumpAll
  (try simp only [foldl_keep, apply_ite (Dev.without · pts), ite_self, h_qf, h_hbm, h_host, h_ch, h_ln, h_md, Dev.tgtPump_keep])
  repeat' (first
    | (with_reducible rfl)
    | (simp only [h_qf, h_hbm, h_host, h_ch, h_ln, h_md, Dev.tgtPump_keep]; done)
    | (intro _)
    | split
    | (with_reducible refine (foldl_keep _ _ _ ?_).trans ?_)
    | (simp only [Dev.without, h_qf, h_hbm, h_host, h_ch, h_ln, h_md, if_true]; done)
    | (simp only [foldl_keep, apply_ite (Dev.without · pts), ite_self, h_qf, h_hbm, h_host, h_ch, h_ln, h_md, Dev.tgtPump_keep]))
theorem Dev.tgtFail_keep {pts : List Part} (d : Dev) (key q ctag status cid : Nat) (h_ch : pts.contains .ch = true) (h_md :
    pts.contains .md = true) : (Dev.tgtFail d key q ctag status cid).without pts = d.without pts := by
  unfold Dev.tgtFail
  simp only [h_ch, h_md, Dev.tgtResp_keep, Dev.mdTell_keep]
theorem Dev.tgtCmd_keep {pts : List Part} (d : Dev) (key q ctag : Nat) (u : List Byte) (h_qf : pts.contains .qf = true) (h_hbm :
    pts.contains .hbm = true) (h_host : pts.contains .host = true) (h_ch : pts.contains .ch = true) (h_ln : pts.contains .ln = true) (h_md :
    pts.contains .md = true) : (Dev.tgtCmd d key q ctag u).without pts = d.without pts := by
  unfold Dev.tgtCmd
  repeat' (first
    | (with_reducible rfl)
    | (simp only [apply_ite (Dev.without · pts), ite_self, h_qf, h_hbm, h_host, h_ch, h_ln, h_md, Dev.fs_keep, Dev.tgtFail_keep, Dev.tgtPump_keep,
        Dev.modMd_keep]; done)
    | (intro _)
    | split
    | (with_reducible refine (foldl_keep _ _ _ ?_).trans ?_)
    | (simp only [Dev.without, h_qf, h_hbm, h_host, h_ch, h_ln, h_md, if_true]; done)
    | (simp only [foldl_keep, apply_ite (Dev.without · pts), ite_self, h_qf, h_hbm, h_host, h_ch, h_ln, h_md, Dev.fs_keep, Dev.tgtFail_keep,
        Dev.tgtPump_keep, Dev.modMd_keep]))
theorem Dev.tgtXfer_keep {pts : List Part} (d : Dev) (key q ctag : Nat) (m : MCmd) (h_qf : pts.contains .qf = true) (h_hbm :
    pts.contains .hbm = true) (h_host : pts.contains .host = true) (h_ch : pts.contains .ch = true) (h_ln : pts.contains .ln = true) (h_md :
    pts.contains .md = true) : (Dev.tgtXfer d key q ctag m).without pts = d.without pts := by
  unfold Dev.tgtXfer
  simp only [h_qf, h_hbm, h_host, h_ch, h_ln, h_md, Dev.tgtPumpAll_keep, Dev.tgtFail_keep, Dev.modMd_keep]
theorem Dev.tgtDataOut_keep {pts : List Part} (d : Dev) (key q ctag off : Nat) (bs : List Byte) (h_qf : pts.contains .qf = true) (h_hbm :
    pts.contains .hbm = true) (h_host : pts.contains .host = true) (h_ch : pts.contains .ch = true) (h_ln : pts.contains .ln = true) (h_md :
    pts.contains .md = true) : (Dev.tgtDataOut d key q ctag off bs).without pts = d.without pts := by
  unfold Dev.tgtDataOut
  repeat' (first
    | (with_reducible rfl)
    | (simp only [apply_ite (Dev.without · pts), ite_self, h_qf, h_hbm, h_host, h_ch, h_ln, h_md, Dev.tgtXfer_keep, Dev.pkBytes_keep,
        Dev.setMcmd_keep, Dev.tgtPump_keep]; done)
    | (intro _)
    | split
    | (with_reducible refine (foldl_keep _ _ _ ?_).trans ?_)
    | (simp only [Dev.without, h_qf, h_hbm, h_host, h_ch, h_ln, h_md, if_true]; done)
    | (simp only [foldl_keep, apply_ite (Dev.without · pts), ite_self, h_qf, h_hbm, h_host, h_ch, h_ln, h_md, Dev.tgtXfer_keep, Dev.pkBytes_keep,
        Dev.setMcmd_keep, Dev.tgtPump_keep]))
theorem Dev.tgtTimeout_keep {pts : List Part} (d : Dev) (key q ctag : Nat) (h_qf : pts.contains .qf = true) (h_hbm : pts.contains .hbm = true)
    (h_host : pts.contains .host = true) (h_ch : pts.contains .ch = true) (h_ln : pts.contains .ln = true) (h_md : pts.contains .md = true) :
    (Dev.tgtTimeout d key q ctag).without pts = d.without pts := by
  unfold Dev.tgtTimeout
  (try simp only [foldl_keep, apply_ite (Dev.without · pts), ite_self, h_qf, h_hbm, h_host, h_ch, h_ln, h_md, Dev.tgtXfer_keep])
  repeat' (first
    | (with_reducible rfl)
    | (simp only [apply_ite (Dev.without · pts), ite_self, h_qf, h_hbm, h_host, h_ch, h_ln, h_md, Dev.tgtXfer_keep]; done)
    | (intro _)
    | split
    | (with_reducible refine (foldl_keep _ _ _ ?_).trans ?_)
    | (simp only [Dev.without, h_qf, h_hbm, h_host, h_ch, h_ln, h_md, if_true]; done)
    | (simp only [foldl_keep, apply_ite (Dev.without · pts), ite_self, h_qf, h_hbm, h_host, h_ch, h_ln, h_md, Dev.tgtXfer_keep]))
theorem Dev.tgtReset_keep {pts : List Part} (d : Dev) (key q : Nat) (h_ch : pts.contains .ch = true) (h_md : pts.contains .md = true) :
    (Dev.tgtReset d key q).without pts = d.without pts := by
  unfold Dev.tgtReset
  repeat' (first
    | (with_reducible rfl)
    | (simp only [apply_ite (Dev.without · pts), ite_self, h_ch, h_md, Dev.mdSend_keep, Dev.raise_keep, Dev.modMd_keep]; done)
    | (intro _)
    | split
    | (with_reducible refine (foldl_keep _ _ _ ?_).trans ?_)
    | (simp only [Dev.without, h_ch, h_md, if_true]; done)
    | (simp only [foldl_keep, apply_ite (Dev.without · pts), ite_self, h_ch, h_md, Dev.mdSend_keep, Dev.raise_keep, Dev.modMd_keep]))
theorem Dev.tgtConnect_keep {pts : List Part} (d : Dev) (key serial queues : Nat) (h_ch : pts.contains .ch = true) (h_md :
    pts.contains .md = true) : (Dev.tgtConnect d key serial queues).without pts = d.without pts := by
  unfold Dev.tgtConnect
  simp only [apply_ite (Dev.without · pts), ite_self, h_ch, h_md, Dev.dropConn_keep, Dev.modMd_keep, Dev.useFree_keep, Dev.fs_keep, Dev.setPk_keep,
      Dev.jobDecided_keep, Dev.modPport_keep, Dev.mdSend_keep]
theorem Dev.tgtPm_keep {pts : List Part} (d : Dev) (key st : Nat) (h_ch : pts.contains .ch = true) (h_md : pts.contains .md = true) :
    (Dev.tgtPm d key st).without pts = d.without pts := by
  unfold Dev.tgtPm
  (try simp only [foldl_keep, apply_ite (Dev.without · pts), ite_self, h_ch, h_md, Dev.mdSend_keep, Dev.fs_keep])
  repeat' (first
    | (with_reducible rfl)
    | (simp only [apply_ite (Dev.without · pts), ite_self, h_ch, h_md, Dev.mdSend_keep, Dev.fs_keep]; done)
    | (intro _)
    | split
    | (with_reducible refine (foldl_keep _ _ _ ?_).trans ?_)
    | (simp only [Dev.without, h_ch, h_md, if_true]; done)
    | (simp only [foldl_keep, apply_ite (Dev.without · pts), ite_self, h_ch, h_md, Dev.mdSend_keep, Dev.fs_keep]))
theorem Dev.tgtPacket_keep {pts : List Part} (d : Dev) (key pt q ctag p1 : Nat) (bs : List Byte) (h_qf : pts.contains .qf = true) (h_hbm :
    pts.contains .hbm = true) (h_host : pts.contains .host = true) (h_ch : pts.contains .ch = true) (h_ln : pts.contains .ln = true) (h_md :
    pts.contains .md = true) : (Dev.tgtPacket d key pt q ctag p1 bs).without pts = d.without pts := by
  unfold Dev.tgtPacket
  (try simp only [foldl_keep, apply_ite (Dev.without · pts), ite_self, h_qf, h_hbm, h_host, h_ch, h_ln, h_md, Dev.tgtCmd_keep, Dev.tgtDataOut_keep,
      Dev.tgtReset_keep, Dev.tgtConnect_keep, Dev.tgtPm_keep])
  repeat' (first
    | (with_reducible rfl)
    | (simp only [h_qf, h_hbm, h_host, h_ch, h_ln, h_md, Dev.tgtCmd_keep, Dev.tgtDataOut_keep, Dev.tgtReset_keep, Dev.tgtConnect_keep,
        Dev.tgtPm_keep]; done)
    | (intro _)
    | split
    | (with_reducible refine (foldl_keep _ _ _ ?_).trans ?_)
    | (simp only [Dev.without, h_qf, h_hbm, h_host, h_ch, h_ln, h_md, if_true]; done)
    | (simp only [foldl_keep, apply_ite (Dev.without · pts), ite_self, h_qf, h_hbm, h_host, h_ch, h_ln, h_md, Dev.tgtCmd_keep, Dev.tgtDataOut_keep,
        Dev.tgtReset_keep, Dev.tgtConnect_keep, Dev.tgtPm_keep]))
theorem Dev.iniXferRdy_keep {pts : List Part} (d : Dev) (n q ctag off len : Nat) (h_ch : pts.contains .ch = true) (h_md : pts.contains .md = true) :
    (Dev.iniXferRdy d n q ctag off len).without pts = d.without pts := by
  unfold Dev.iniXferRdy
  repeat' (first
    | (with_reducible rfl)
    | (simp only [h_ch, h_md, Dev.pkBytes_keep, Dev.mdSend_keep]; done)
    | (intro _)
    | split
    | (with_reducible refine (foldl_keep _ _ _ ?_).trans ?_)
    | (simp only [Dev.without, h_ch, h_md, if_true]; done)
    | (simp only [Dev.pkBytes_keep]))
theorem Dev.iniDataIn_keep {pts : List Part} (d : Dev) (n q ctag off : Nat) (bs : List Byte) (h_host : pts.contains .host = true) (h_md :
    pts.contains .md = true) : (Dev.iniDataIn d n q ctag off bs).without pts = d.without pts := by
  unfold Dev.iniDataIn
  repeat' (first
    | (with_reducible rfl)
    | (simp only [h_host, h_md, Dev.pkBytes_keep, Dev.hostW_keep, Dev.setMcmd_keep]; done)
    | (intro _)
    | split
    | (with_reducible refine (foldl_keep _ _ _ ?_).trans ?_)
    | (simp only [Dev.without, h_host, h_md, if_true]; done)
    | (simp only [foldl_keep, apply_ite (Dev.without · pts), ite_self, h_host, h_md, Dev.pkBytes_keep, Dev.hostW_keep, Dev.setMcmd_keep]))
theorem Dev.isolate_keep {pts : List Part} (d : Dev) (h_pins : pts.contains .pins = true) (h_tw : pts.contains .tw = true) (h_pipe : pts.contains
    .pipe = true) (h_qf : pts.contains .qf = true) (h_hbm : pts.contains .hbm = true) (h_host : pts.contains .host = true) : (Dev.isolate
    d).without pts = d.without pts := by
  unfold Dev.isolate
  (try simp only [Dev.raise_keep, h_pipe, h_qf, h_hbm, h_host, h_pins, upd_pins_keep, Dev.fs_keep, Dev.modStr_keep, Dev.strStopNow_keep])
  repeat' (first
    | (with_reducible rfl)
    | (simp only [h_pins, h_tw, upd_pins_tw_keep, Dev.fs_keep, h_pipe, h_qf, h_hbm, h_host, upd_pins_keep, Dev.modStr_keep, Dev.raise_keep,
        Dev.strStopNow_keep]; done)
    | (intro _)
    | split
    | (with_reducible refine (foldl_keep _ _ _ ?_).trans ?_)
    | (simp only [Dev.without, h_host, h_hbm, h_qf, h_pipe, h_pins, h_tw, if_true]; done)
    | (simp only [foldl_keep, apply_ite (Dev.without · pts), ite_self, h_pins, h_tw, upd_pins_keep, upd_tw_keep, upd_pins_tw_keep, Dev.fs_keep,
        Dev.raise_keep, h_pipe, h_qf, h_hbm, h_host, Dev.modStr_keep, Dev.strStopNow_keep]))
theorem Dev.iniResp_keep {pts : List Part} (d : Dev) (n q ctag status : Nat) (h_qf : pts.contains .qf = true) (h_hbm : pts.contains .hbm = true)
    (h_host : pts.contains .host = true) (h_pins : pts.contains .pins = true) (h_tw : pts.contains .tw = true) (h_ch : pts.contains .ch = true)
    (h_ln : pts.contains .ln = true) (h_md : pts.contains .md = true) (h_pipe : pts.contains .pipe = true) : (Dev.iniResp d n q ctag
    status).without pts = d.without pts := by
  unfold Dev.iniResp
  repeat' (first
    | (with_reducible rfl)
    | (simp only [apply_ite (Dev.without · pts), ite_self, h_qf, h_hbm, h_host, h_pins, h_tw, h_ch, h_ln, h_md, Dev.modPport_keep, Dev.fadd_keep,
        Dev.setPk_keep, Dev.raise_keep, Dev.isolate_keep, Dev.tgtPumpAll_keep, Dev.pumpAll_keep, Dev.pcmdEnd_keep, h_pipe]; done)
    | (intro _)
    | split
    | (with_reducible refine (foldl_keep _ _ _ ?_).trans ?_)
    | (simp only [Dev.without, h_pipe, h_qf, h_hbm, h_host, h_pins, h_tw, h_ch, h_ln, h_md, if_true]; done)
    | (simp only [foldl_keep, apply_ite (Dev.without · pts), ite_self, h_qf, h_hbm, h_host, h_pins, h_tw, h_ch, h_ln, h_md, Dev.modPport_keep,
        Dev.fadd_keep, Dev.setPk_keep, Dev.raise_keep, Dev.isolate_keep, Dev.tgtPumpAll_keep, Dev.pumpAll_keep, Dev.pcmdEnd_keep, h_pipe]))
theorem Dev.volFails_keep {pts : List Part} (d : Dev) (n : Nat) (h_md : pts.contains .md = true) :
    (Dev.volFails d n).without pts = d.without pts := by
  unfold Dev.volFails
  simp only [apply_ite (Dev.without · pts), ite_self, h_md, Dev.modMd_keep]
theorem Dev.packFails_keep {pts : List Part} (d : Dev) (n : Nat) (h_qf : pts.contains .qf = true) (h_hbm : pts.contains .hbm = true) (h_host :
    pts.contains .host = true) (h_tw : pts.contains .tw = true) (h_ch : pts.contains .ch = true) (h_ln : pts.contains .ln = true) (h_md :
    pts.contains .md = true) : (Dev.packFails d n).without pts = d.without pts := by
  unfold Dev.packFails
  simp only [h_qf, h_hbm, h_host, h_tw, h_ch, h_ln, h_md, Dev.raise_keep, Dev.setLstate_keep, Dev.setLinkSt_keep, Dev.leaveUp_keep,
      Dev.modPport_keep, Dev.setPk_keep, Dev.volFails_keep, Dev.tgtPumpAll_keep, Dev.pumpAll_keep, Dev.jobDecided_keep, Dev.pkEndAll_keep]
theorem Dev.pkConnectNow_keep {pts : List Part} (d : Dev) (n : Nat) (h_ch : pts.contains .ch = true) (h_md : pts.contains .md = true) :
    (Dev.pkConnectNow d n).without pts = d.without pts := by
  unfold Dev.pkConnectNow
  simp only [h_ch, h_md, Dev.mdSend_keep, Dev.setPk_keep]
theorem Dev.pkReconnect_keep {pts : List Part} (d : Dev) (n : Nat) (h_qf : pts.contains .qf = true) (h_hbm : pts.contains .hbm = true) (h_host :
    pts.contains .host = true) (h_tw : pts.contains .tw = true) (h_ch : pts.contains .ch = true) (h_ln : pts.contains .ln = true) (h_md :
    pts.contains .md = true) : (Dev.pkReconnect d n).without pts = d.without pts := by
  unfold Dev.pkReconnect
  simp only [apply_ite (Dev.without · pts), ite_self, h_qf, h_hbm, h_host, h_tw, h_ch, h_ln, h_md, Dev.packFails_keep, Dev.raise_keep,
      Dev.pkConnectNow_keep, Dev.modPport_keep]
theorem Dev.fenceFirst_keep {pts : List Part} (d : Dev) (n : Nat) (h_qf : pts.contains .qf = true) (h_hbm : pts.contains .hbm = true) (h_host :
    pts.contains .host = true) (h_ch : pts.contains .ch = true) (h_ln : pts.contains .ln = true) (h_md : pts.contains .md = true) :
    (Dev.fenceFirst d n).without pts = d.without pts := by
  unfold Dev.fenceFirst
  simp only [h_qf, h_hbm, h_host, h_ch, h_ln, h_md, Dev.fencePort_keep, Dev.modMd_keep]
theorem Dev.connectAck_keep {pts : List Part} (d : Dev) (n queues depth burst : Nat) (page : List Byte) (h_qf : pts.contains .qf = true) (h_hbm :
    pts.contains .hbm = true) (h_host : pts.contains .host = true) (h_ch : pts.contains .ch = true) (h_ln : pts.contains .ln = true) (h_md :
    pts.contains .md = true) : (Dev.connectAck d n queues depth burst page).without pts = d.without pts := by
  unfold Dev.connectAck
  simp only [apply_ite (Dev.without · pts), ite_self, h_qf, h_hbm, h_host, h_ch, h_ln, h_md, Dev.modPport_keep, Dev.mdSend_keep, Dev.setPk_keep,
      Dev.raise_keep, Dev.jobDecided_keep, Dev.pkEndAll_keep, Dev.fenceFirst_keep, Dev.fadd_keep, Dev.fs_keep, Dev.pump_keep]
theorem Dev.pmAck_keep {pts : List Part} (d : Dev) (n st : Nat) (late : Bool) (h_ch : pts.contains .ch = true) (h_ln : pts.contains .ln = true)
    (h_md : pts.contains .md = true) : (Dev.pmAck d n st late).without pts = d.without pts := by
  unfold Dev.pmAck
  simp only [apply_ite (Dev.without · pts), ite_self, h_ch, h_ln, h_md, Dev.raise_keep, Dev.fs_keep, Dev.modPport_keep, Dev.setLstate_keep,
      Dev.setLinkSt_keep, Dev.pump_keep, Dev.pkWake_keep]
theorem Dev.auCmd_keep {pts : List Part} (d : Dev) (v : Vol) (orig : MOrig) (au after : Nat) (data : MData) (h_qf : pts.contains .qf = true)
    (h_hbm : pts.contains .hbm = true) (h_host : pts.contains .host = true) (h_ch : pts.contains .ch = true) (h_ln : pts.contains .ln = true)
    (h_md : pts.contains .md = true) : (Dev.auCmd d v orig au after data).1.without pts = d.without pts := by
  unfold Dev.auCmd
  simp only [h_qf, h_hbm, h_host, h_ch, h_ln, h_md, Dev.mdBegin_keep]
theorem Dev.metaWrite_keep {pts : List Part} (d : Dev) (orig : MOrig) (au after : Nat) (mk : Nat → Vol → MData) (h_qf : pts.contains .qf = true)
    (h_hbm : pts.contains .hbm = true) (h_host : pts.contains .host = true) (h_ch : pts.contains .ch = true) (h_ln : pts.contains .ln = true)
    (h_md : pts.contains .md = true) : (Dev.metaWrite d orig au after mk).1.without pts = d.without pts := by
  unfold Dev.metaWrite
  repeat' (first
    | (with_reducible rfl)
    | (simp only [h_qf, h_hbm, h_host, h_ch, h_ln, h_md, Dev.auCmd_keep, Dev.modMd_keep]; done)
    | (intro _)
    | split
    | (with_reducible refine (foldl_keep _ _ _ ?_).trans ?_)
    | (simp only [Dev.without, h_qf, h_hbm, h_host, h_ch, h_ln, h_md, if_true]; done)
    | (simp only [foldl_keep, apply_ite (Dev.without · pts), ite_self, h_qf, h_hbm, h_host, h_ch, h_ln, h_md, Dev.auCmd_keep, Dev.modMd_keep]))
theorem Dev.writeEntry_keep {pts : List Part} (d : Dev) (orig : MOrig) (clip after : Nat) (h_qf : pts.contains .qf = true) (h_hbm :
    pts.contains .hbm = true) (h_host : pts.contains .host = true) (h_ch : pts.contains .ch = true) (h_ln : pts.contains .ln = true) (h_md :
    pts.contains .md = true) : (Dev.writeEntry d orig clip after).1.without pts = d.without pts := by
  unfold Dev.writeEntry
  (try simp only [foldl_keep, apply_ite (Dev.without · pts), ite_self, h_qf, h_hbm, h_host, h_ch, h_ln, h_md, Dev.metaWrite_keep])
  repeat' (first
    | (with_reducible rfl)
    | (simp only [h_qf, h_hbm, h_host, h_ch, h_ln, h_md, Dev.metaWrite_keep]; done)
    | (intro _)
    | split
    | (with_reducible refine (foldl_keep _ _ _ ?_).trans ?_)
    | (simp only [Dev.without, h_qf, h_hbm, h_host, h_ch, h_ln, h_md, if_true]; done)
    | (simp only [foldl_keep, apply_ite (Dev.without · pts), ite_self, h_qf, h_hbm, h_host, h_ch, h_ln, h_md, Dev.metaWrite_keep]))
theorem Dev.writeRuns_keep {pts : List Part} (d : Dev) (orig : MOrig) (runs : List Nat) (after : Nat) (h_qf : pts.contains .qf = true) (h_hbm :
    pts.contains .hbm = true) (h_host : pts.contains .host = true) (h_ch : pts.contains .ch = true) (h_ln : pts.contains .ln = true) (h_md :
    pts.contains .md = true) : (Dev.writeRuns d orig runs after).1.without pts = d.without pts := by
  unfold Dev.writeRuns
  refine foldl_keep1 _ _ _ (fun q x => ?_)
  split
  · rfl
  · exact Dev.metaWrite_keep _ _ _ _ _ h_qf h_hbm h_host h_ch h_ln h_md
theorem Dev.modClip_keep {pts : List Part} (d : Dev) (clip : Nat) (f : Clip → Clip) (h_md : pts.contains .md = true) :
    (Dev.modClip d clip f).without pts = d.without pts := by
  unfold Dev.modClip
  simp only [h_md, Dev.modMd_keep]
theorem Dev.extendRuns_keep {pts : List Part} (d : Dev) (clip n : Nat) (h_qf : pts.contains .qf = true) (h_hbm : pts.contains .hbm = true) (h_host :
    pts.contains .host = true) (h_ch : pts.contains .ch = true) (h_ln : pts.contains .ln = true) (h_md : pts.contains .md = true) {a0 : Nat} {e0 :
    Dev} (h : Dev.extendRuns d clip n = some (e0, a0)) : e0.without pts = d.without pts := by
  unfold Dev.extendRuns at h
  split at h
  · split at h
    · cases h
    · extract_lets old t t2 e at h
      have hx : e.without pts = d.without pts := by
        simp only [e, Dev.modMd_keep, Dev.useFree_keep, h_md]
      have h2 := Option.some.inj h
      have h3 := congrArg (fun p => p.1.without pts) h2
      exact h3.symm.trans ((Dev.writeRuns_keep e _ _ _ h_qf h_hbm h_host h_ch h_ln h_md).trans hx)
  · cases h
theorem Dev.feedTrack_keep {pts : List Part} (d : Dev) (clip i : Nat) (t : Track) (z0 : Nat) (h_qf : pts.contains .qf = true) (h_hbm :
    pts.contains .hbm = true) (h_host : pts.contains .host = true) (h_md : pts.contains .md = true) :
    (Dev.feedTrack d clip i t z0).without pts = d.without pts := by
  induction z0 generalizing d with
  | zero => rfl
  | succ n ih =>
    rw [Dev.feedTrack]
    split
    · split
      · rfl
      · split
        · rfl
        · exact (ih _).trans ((Dev.enqueue_keep _ _ _ h_qf h_hbm h_host).trans (Dev.modRec_keep d _ _ h_md))
    · rfl
theorem Dev.feedRec_keep {pts : List Part} (d : Dev) (clip : Nat) (h_qf : pts.contains .qf = true) (h_hbm : pts.contains .hbm = true) (h_host :
    pts.contains .host = true) (h_md : pts.contains .md = true) : (Dev.feedRec d clip).without pts = d.without pts := by
  unfold Dev.feedRec
  (try simp only [foldl_keep, apply_ite (Dev.without · pts), ite_self, h_qf, h_hbm, h_host, h_md, Dev.feedTrack_keep])
  repeat' (first
    | (with_reducible rfl)
    | (simp only [apply_ite (Dev.without · pts), h_qf, h_hbm, h_host, h_md, Dev.feedTrack_keep]; done)
    | (intro _)
    | split
    | (with_reducible refine (foldl_keep _ _ _ ?_).trans ?_)
    | (simp only [Dev.without, h_qf, h_hbm, h_host, h_md, if_true]; done)
    | (simp only [foldl_keep, apply_ite (Dev.without · pts), ite_self, h_qf, h_hbm, h_host, h_md, Dev.feedTrack_keep]))
theorem Dev.recLoss_keep {pts : List Part} (d : Dev) (clip track first count reason : Nat) (h_md : pts.contains .md = true) :
    (Dev.recLoss d clip track first count reason).without pts = d.without pts := by
  unfold Dev.recLoss
  simp only [h_md, Dev.modRec_keep, Dev.raiseOnce_keep]
theorem Dev.stash_keep {pts : List Part} (i time frame : Nat) (l : List (Nat × List Byte × List (Nat × Nat × Nat))) (d : Dev) (r : Rec) (y :
    Dev × Rec)
    (h_hbm : pts.contains .hbm = true) (h : d.stash r i time frame l = some y) : y.1.without pts = d.without pts := by
  induction l generalizing d r with
  | nil => rw [Dev.stash] at h; rw [← Option.some.inj h]
  | cons x xs ih =>
    obtain ⟨typ, bs, chk⟩ := x
    rw [Dev.stash] at h
    cases ht : r.take bs.length with
    | none => rw [ht] at h; cases h
    | some w =>
      obtain ⟨b, a, r2⟩ := w
      rw [ht] at h
      exact (ih _ _ h).trans (Dev.hbmW_keep d _ _ h_hbm)
theorem Dev.stashFrame_keep {pts : List Part} (d : Dev) (r : Rec) (rep : FrameRep) (h_hbm : pts.contains .hbm = true) {a0 : Rec} {e0 : Dev} (h :
    Dev.stashFrame d r rep = some (e0, a0)) : e0.without pts = d.without pts := by
  unfold Dev.stashFrame at h
  refine foldl_keepP (pts := pts) _ _ (d, r) (e := (e0, a0)) (fun _ => rfl) (fun a p b hb => ?_) h
  simp only at hb
  split at hb
  · cases hx : a.1.stash a.2 p.2 rep.start rep.frame (a.1.frameRecs p.1.kind rep.cam rep.frame) with
    | none => rw [hx] at hb; cases hb
    | some y => rw [hx] at hb; cases hb; exact Dev.stash_keep _ _ _ _ a.1 a.2 y h_hbm hx
  · cases hb; rfl
theorem Dev.intakeRaw_keep {pts : List Part} (d : Dev) (clip : Nat) (z0 : Nat) (h_hbm : pts.contains .hbm = true) (h_md : pts.contains .md = true) :
    (Dev.intakeRaw d clip z0).without pts = d.without pts := by
  induction z0 generalizing d with
  | zero => rfl
  | succ n ih =>
    unfold Dev.intakeRaw
    split
    · rfl
    · split
      · rfl
      · extract_lets drop mine
        have hd : ∀ e : Dev, (drop e).without pts = e.without pts := fun e => Dev.modRec_keep e _ _ h_md
        clear_value drop
        split
        · exact (ih _).trans (hd d)
        · split
          · refine (ih _).trans (Eq.trans (foldl_keep _ _ _ (fun e p => Dev.recLoss_keep e _ _ _ _ _ h_md)) (hd d))
          · split
            · rfl
            · split
              · rfl
              · rename_i e r2 hx
                exact (ih _).trans ((Dev.modRec_keep e _ _ h_md).trans (Dev.stashFrame_keep _ _ _ h_hbm hx))
theorem Dev.intakePs_keep {pts : List Part} (d : Dev) (clip i : Nat) (r : Rec) (a : Area) (c : Entry) (h_md : pts.contains .md = true) :
    (Dev.intakePs d clip i r a c).without pts = d.without pts := by
  unfold Dev.intakePs
  (try simp only [apply_ite (Dev.without · pts), ite_self, h_md, Dev.modRec_keep, Dev.recLoss_keep])
  repeat' (first
    | (with_reducible rfl)
    | (simp only [h_md, Dev.modRec_keep]; done)
    | (intro _)
    | split
    | (with_reducible refine (foldl_keep _ _ _ ?_).trans ?_)
    | (simp only [Dev.without, h_md, if_true]; done)
    | (simp only [foldl_keep, apply_ite (Dev.without · pts), ite_self, h_md, Dev.modRec_keep, Dev.recLoss_keep]))
theorem Dev.intakeAu_keep {pts : List Part} (d : Dev) (clip i : Nat) (r : Rec) (a : Area) (c : Entry) (h_md : pts.contains .md = true) :
    (Dev.intakeAu d clip i r a c).without pts = d.without pts := by
  unfold Dev.intakeAu
  (try simp only [apply_ite (Dev.without · pts), ite_self, h_md, Dev.modRec_keep, Dev.recLoss_keep])
  repeat' (first
    | (with_reducible rfl)
    | (simp only [foldl_keep, apply_ite (Dev.without · pts), ite_self, h_md, Dev.modRec_keep, Dev.recLoss_keep]; done)
    | (intro _)
    | split
    | (with_reducible refine (foldl_keep _ _ _ ?_).trans ?_)
    | (simp only [Dev.without, h_md, if_true]; done)
    | (simp only [foldl_keep, apply_ite (Dev.without · pts), ite_self, h_md, Dev.modRec_keep, Dev.recLoss_keep]))
theorem Dev.intakeDone_keep {pts : List Part} (d : Dev) (clip : Nat) (h_qf : pts.contains .qf = true) (h_md : pts.contains .md = true) :
    (Dev.intakeDone d clip).without pts = d.without pts := by
  unfold Dev.intakeDone
  repeat' (first
    | (with_reducible rfl)
    | (simp only [apply_ite (Dev.without · pts), ite_self, h_qf, h_md, Dev.setQ_keep, Dev.modRec_keep, Dev.intakePs_keep, Dev.intakeAu_keep]; done)
    | (intro _)
    | split
    | (with_reducible refine (foldl_keep _ _ _ ?_).trans ?_)
    | (simp only [Dev.without, h_qf, h_md, if_true]; done)
    | (simp only [foldl_keep, apply_ite (Dev.without · pts), ite_self, h_qf, h_md, Dev.setQ_keep, Dev.modRec_keep, Dev.intakePs_keep,
        Dev.intakeAu_keep]))
theorem Dev.takeItem_keep {pts : List Part} (d : Dev) (clip : Nat) (reads : Reads) (r : Rec) (it : RecItem) :
    (Dev.takeItem d clip reads r it).1.without pts = d.without pts := by
  unfold Dev.takeItem
  simp only [apply_ite (Dev.without · pts), ite_self, Dev.mismatch_keep]
theorem Dev.takeItems_keep {pts : List Part} (d : Dev) (clip : Nat) (reads : Reads) (r : Rec) (l : List RecItem) :
    (d.takeItems clip reads r l).1.without pts = d.without pts := by
  induction l generalizing d r with
  | nil => rfl
  | cons x xs ih =>
    unfold Dev.takeItems
    split
    · rfl
    · exact (ih _ _).trans (Dev.takeItem_keep d _ _ _ _)
theorem Dev.issueAu_keep {pts : List Part} (d : Dev) (r : Rec) (used : List Byte) (sha : List Nat) (h_qf : pts.contains .qf = true) (h_hbm :
    pts.contains .hbm = true) (h_host : pts.contains .host = true) (h_ch : pts.contains .ch = true) (h_ln : pts.contains .ln = true) (h_md :
    pts.contains .md = true) {a0 : Rec} {e0 : Dev} (h : Dev.issueAu d r used sha = some (e0, a0)) : e0.without pts = d.without pts := by
  unfold Dev.issueAu at h
  split at h
  · extract_lets short at h
    split at h
    · cases h
    · rename_i hm
      extract_lets v run g e at h
      have h1 := (Prod.mk.inj (Option.some.inj h)).1
      rw [← h1]
      refine (Dev.auCmd_keep _ _ _ _ _ _ h_qf h_hbm h_host h_ch h_ln h_md).trans ?_
      clear h1 h
      clear_value short
      cases short
      · have := (Prod.mk.inj (Option.some.inj hm)).1
        rw [← this]
      · exact Dev.extendRuns_keep _ _ _ h_qf h_hbm h_host h_ch h_ln h_md hm
  · cases h
theorem Dev.recFull_keep {pts : List Part} (d : Dev) (clip : Nat) (h_md : pts.contains .md = true) :
    (Dev.recFull d clip).without pts = d.without pts := by
  unfold Dev.recFull
  simp only [h_md, Dev.modRec_keep, Dev.raise_keep]
theorem Dev.cutAu_keep {pts : List Part} (d : Dev) (r : Rec) (h_qf : pts.contains .qf = true) (h_hbm : pts.contains .hbm = true) (h_host :
    pts.contains .host = true) (h_ch : pts.contains .ch = true) (h_ln : pts.contains .ln = true) (h_md : pts.contains .md = true) :
    (Dev.cutAu d r).without pts = d.without pts := by
  unfold Dev.cutAu
  split
  · exact Dev.modRec_keep d _ _ h_md
  · extract_lets b sha
    split
    · exact (Dev.recFull_keep _ _ h_md).trans (Dev.modRec_keep d _ _ h_md)
    · rename_i e r2 hx
      exact (Dev.modRec_keep e _ _ h_md).trans (Dev.issueAu_keep _ _ _ _ h_qf h_hbm h_host h_ch h_ln h_md hx)
theorem Dev.flushAu_keep {pts : List Part} (d : Dev) (r : Rec) (h_qf : pts.contains .qf = true) (h_hbm : pts.contains .hbm = true) (h_host :
    pts.contains .host = true) (h_ch : pts.contains .ch = true) (h_ln : pts.contains .ln = true) (h_md : pts.contains .md = true) :
    (Dev.flushAu d r).without pts = d.without pts := by
  unfold Dev.flushAu
  split
  · rfl
  · split
    · exact Dev.recFull_keep d _ h_md
    · rename_i e r2 hx
      exact (Dev.modRec_keep e _ _ h_md).trans (Dev.issueAu_keep _ _ _ _ h_qf h_hbm h_host h_ch h_ln h_md hx)
theorem Dev.stopStreams_keep {pts : List Part} (d : Dev) (r : Rec) (h_qf : pts.contains .qf = true) (h_hbm : pts.contains .hbm = true) (h_host :
    pts.contains .host = true) (h_bank : pts.contains .bank = true) (h_pipe : pts.contains .pipe = true) (h_ps : pts.contains .ps = true) :
    (Dev.stopStreams d r).without pts = d.without pts := by
  unfold Dev.stopStreams
  (try simp only [foldl_keep, apply_ite (Dev.without · pts), ite_self, h_qf, h_hbm, h_host, h_bank, h_pipe, h_ps, Dev.psSettle_keep, Dev.modPs_keep])
  repeat' (first
    | (with_reducible rfl)
    | (simp only [apply_ite (Dev.without · pts), ite_self, h_qf, h_hbm, h_host, h_bank, h_pipe, h_ps, Dev.psSettle_keep, Dev.modPs_keep]; done)
    | (intro _)
    | split
    | (with_reducible refine (foldl_keep _ _ _ ?_).trans ?_)
    | (simp only [Dev.without, h_qf, h_hbm, h_host, h_bank, h_pipe, h_ps, if_true]; done)
    | (simp only [foldl_keep, apply_ite (Dev.without · pts), ite_self, h_qf, h_hbm, h_host, h_bank, h_pipe, h_ps, Dev.psSettle_keep, Dev.modPs_keep]))
theorem Dev.closeClip_keep {pts : List Part} (d : Dev) (r : Rec) (h_qf : pts.contains .qf = true) (h_hbm : pts.contains .hbm = true) (h_host :
    pts.contains .host = true) (h_tm : pts.contains .tm = true) (h_ch : pts.contains .ch = true) (h_ln : pts.contains .ln = true) (h_md :
    pts.contains .md = true) : (Dev.closeClip d r).without pts = d.without pts := by
  unfold Dev.closeClip
  simp only [apply_ite (Dev.without · pts), ite_self, h_qf, h_hbm, h_host, h_tm, h_ch, h_ln, h_md, Dev.modClip_keep, Dev.modMd_keep,
      Dev.destroyQ_keep, Dev.freeArea_keep, Dev.writeEntry_keep, Dev.disarmClip_keep]
theorem Dev.syncClips_keep {pts : List Part} (d : Dev) : (Dev.syncClips d).without pts = d.without pts := by
  unfold Dev.syncClips
  simp only [Dev.fs_keep]
theorem Dev.recSettle_keep {pts : List Part} (d : Dev) (clip : Nat) (h_qf : pts.contains .qf = true) (h_hbm : pts.contains .hbm = true) (h_host :
    pts.contains .host = true) (h_bank : pts.contains .bank = true) (h_tm : pts.contains .tm = true) (h_ch : pts.contains .ch = true) (h_ln :
    pts.contains .ln = true) (h_pipe : pts.contains .pipe = true) (h_ps : pts.contains .ps = true) (h_md : pts.contains .md = true) :
    (Dev.recSettle d clip).without pts = d.without pts := by
  unfold Dev.recSettle
  repeat' (first
    | (with_reducible rfl)
    | (simp only [apply_ite (Dev.without · pts), ite_self, h_qf, h_hbm, h_host, h_bank, h_tm, h_ch, h_ln, h_pipe, h_ps, h_md, Dev.stopStreams_keep,
        Dev.modRec_keep, Dev.flushAu_keep, Dev.syncClips_keep, Dev.closeClip_keep]; done)
    | (intro _)
    | split
    | (with_reducible refine (foldl_keep _ _ _ ?_).trans ?_)
    | (simp only [Dev.without, h_qf, h_hbm, h_host, h_bank, h_tm, h_ch, h_ln, h_pipe, h_ps, h_md, if_true]; done)
    | (simp only [foldl_keep, apply_ite (Dev.without · pts), ite_self, h_qf, h_hbm, h_host, h_bank, h_tm, h_ch, h_ln, h_pipe, h_ps, h_md,
        Dev.stopStreams_keep, Dev.modRec_keep, Dev.flushAu_keep, Dev.syncClips_keep, Dev.closeClip_keep]))
theorem Dev.recStop_keep {pts : List Part} (d : Dev) (clip stop : Nat) (h_qf : pts.contains .qf = true) (h_hbm : pts.contains .hbm = true) (h_host :
    pts.contains .host = true) (h_bank : pts.contains .bank = true) (h_tm : pts.contains .tm = true) (h_ch : pts.contains .ch = true) (h_ln :
    pts.contains .ln = true) (h_pipe : pts.contains .pipe = true) (h_ps : pts.contains .ps = true) (h_md : pts.contains .md = true) :
    (Dev.recStop d clip stop).without pts = d.without pts := by
  unfold Dev.recStop
  simp only [h_qf, h_hbm, h_host, h_bank, h_tm, h_ch, h_ln, h_pipe, h_ps, h_md, Dev.recSettle_keep, Dev.modRec_keep]
theorem Dev.pointE_keep {pts : List Part} (d : Dev) (clip : Nat) (reads : Reads) (h_qf : pts.contains .qf = true) (h_hbm :
    pts.contains .hbm = true) (h_host : pts.contains .host = true) (h_bank : pts.contains .bank = true) (h_tm : pts.contains .tm = true) (h_ch :
    pts.contains .ch = true) (h_ln : pts.contains .ln = true) (h_pipe : pts.contains .pipe = true) (h_ps : pts.contains .ps = true) (h_md :
    pts.contains .md = true) : (Dev.pointE d clip reads).without pts = d.without pts := by
  unfold Dev.pointE
  extract_lets d1 d2
  have h1 : d1.without pts = d.without pts := (Dev.intakeRaw_keep _ _ _ h_hbm h_md).trans (Dev.intakeDone_keep d _ h_qf h_md)
  have h2 : d2.without pts = d.without pts := by
    simp only [d2]
    split
    · split
      · exact h1
      · split
        · exact h1
        · exact (Dev.cutAu_keep _ _ h_qf h_hbm h_host h_ch h_ln h_md).trans ((Dev.takeItems_keep d1 _ _ _ _).trans h1)
    · exact h1
  exact (Dev.recSettle_keep _ _ h_qf h_hbm h_host h_bank h_tm h_ch h_ln h_pipe h_ps h_md).trans ((Dev.feedRec_keep d2 _ h_qf h_hbm h_host h_md).trans h2)
theorem Dev.clipSync_keep {pts : List Part} (d : Dev) (r : Rec) (au bytes : Nat) (sha : List Nat) (h_tw : pts.contains .tw = true) :
    (Dev.clipSync d r au bytes sha).without pts = d.without pts := by
  unfold Dev.clipSync
  simp only [apply_ite (Dev.without · pts), ite_self, h_tw, Dev.twSend_keep]
theorem Dev.auDone_keep {pts : List Part} (d : Dev) (clip au : Nat) (h_qf : pts.contains .qf = true) (h_hbm : pts.contains .hbm = true) (h_host :
    pts.contains .host = true) (h_bank : pts.contains .bank = true) (h_tm : pts.contains .tm = true) (h_tw : pts.contains .tw = true) (h_ch :
    pts.contains .ch = true) (h_ln : pts.contains .ln = true) (h_pipe : pts.contains .pipe = true) (h_ps : pts.contains .ps = true) (h_md :
    pts.contains .md = true) : (Dev.auDone d clip au).without pts = d.without pts := by
  unfold Dev.auDone
  repeat' (first
    | (with_reducible rfl)
    | (simp only [apply_ite (Dev.without · pts), h_qf, h_hbm, h_host, h_bank, h_tm, h_tw, h_ch, h_ln, h_pipe, h_ps, h_md, Dev.modRec_keep,
        Dev.recSettle_keep, Dev.clipSync_keep, Dev.feedRec_keep]; done)
    | (intro _)
    | split
    | (with_reducible refine (foldl_keep _ _ _ ?_).trans ?_)
    | (simp only [Dev.without, h_qf, h_hbm, h_host, h_bank, h_tm, h_tw, h_ch, h_ln, h_pipe, h_ps, h_md, if_true]; done)
    | (simp only [foldl_keep, apply_ite (Dev.without · pts), ite_self, h_qf, h_hbm, h_host, h_bank, h_tm, h_tw, h_ch, h_ln, h_pipe, h_ps, h_md,
        Dev.modRec_keep, Dev.recSettle_keep, Dev.clipSync_keep, Dev.feedRec_keep]))
theorem Dev.openClip_keep {pts : List Part} (d : Dev) (kind start nruns : Nat) (tracks : List (List Byte)) (name : List Byte) (h_qf :
    pts.contains .qf = true) (h_hbm : pts.contains .hbm = true) (h_host : pts.contains .host = true) (h_ch : pts.contains .ch = true) (h_ln :
    pts.contains .ln = true) (h_md : pts.contains .md = true) {a0 b0 : Nat} {e0 : Dev} (h : Dev.openClip d kind start nruns tracks name = some (e0,
    a0, b0)) : e0.without pts = d.without pts := by
  unfold Dev.openClip at h
  try simp only at h
  repeat' split at h
  all_goals first
    | (cases h; done)
    | (first
      | obtain rfl := Option.some.inj h
      | (simp only [Option.some.injEq, Prod.mk.injEq] at h; obtain ⟨rfl, rfl⟩ := h)
      | (simp only [Option.some.injEq, Prod.mk.injEq] at h; obtain ⟨rfl, rfl, rfl⟩ := h)
      | skip); (try simp only [h_qf, h_hbm, h_host, h_ch, h_ln, h_md, Dev.modMd_keep, Dev.useFree_keep, Dev.writeRuns_keep,
          Dev.writeEntry_keep]); repeat' (first
        | (with_reducible rfl)
        | (simp only [foldl_keep, apply_ite (Dev.without · pts), ite_self, h_qf, h_hbm, h_host, h_ch, h_ln, h_md, Dev.modMd_keep, Dev.useFree_keep,
            Dev.writeRuns_keep, Dev.writeEntry_keep]; done)
        | (intro _)
        | split
        | (with_reducible refine (foldl_keep _ _ _ ?_).trans ?_)
        | (simp only [Dev.without, h_qf, h_hbm, h_host, h_ch, h_ln, h_md, if_true]; done)
        | (simp only [foldl_keep, apply_ite (Dev.without · pts), ite_self, h_qf, h_hbm, h_host, h_ch, h_ln, h_md, Dev.modMd_keep, Dev.useFree_keep,
            Dev.writeRuns_keep, Dev.writeEntry_keep]))
theorem Dev.modRing_keep {pts : List Part} (d : Dev) (k : Nat) (f : Ring → Ring) (h_md : pts.contains .md = true) :
    (Dev.modRing d k f).without pts = d.without pts := by
  unfold Dev.modRing
  simp only [h_md, Dev.modMd_keep]
theorem Dev.slotRecs_keep {pts : List Part} (d : Dev) (a time frame : Nat) (l : List (Nat × Nat × List Byte × List (Nat × Nat × Nat))) (h_hbm :
    pts.contains .hbm = true) :
    (d.slotRecs a time frame l).1.without pts = d.without pts := by
  induction l generalizing d a with
  | nil => rfl
  | cons x xs ih => exact (ih _ _).trans (Dev.hbmW_keep d _ _ h_hbm)
theorem Dev.startDrain_keep {pts : List Part} (d : Dev) (k : Nat) (h_qf : pts.contains .qf = true) (h_hbm : pts.contains .hbm = true) (h_host :
    pts.contains .host = true) (h_ch : pts.contains .ch = true) (h_ln : pts.contains .ln = true) (h_md : pts.contains .md = true) :
    (Dev.startDrain d k).without pts = d.without pts := by
  unfold Dev.startDrain
  split
  · rfl
  · split
    · rfl
    · split
      · rfl
      · extract_lets kept sp its bytes start
        split
        · exact Dev.raiseOnce_keep d _ _ _
        · rename_i e i after hx
          extract_lets flags rc
          simp only [Dev.modRing_keep, Dev.modMd_keep, h_md]
          exact Dev.openClip_keep _ _ _ _ _ _ h_qf h_hbm h_host h_ch h_ln h_md hx
theorem Dev.ringCheck_keep {pts : List Part} (d : Dev) (k : Nat) (h_qf : pts.contains .qf = true) (h_hbm : pts.contains .hbm = true) (h_host :
    pts.contains .host = true) (h_ch : pts.contains .ch = true) (h_ln : pts.contains .ln = true) (h_md : pts.contains .md = true) :
    (Dev.ringCheck d k).without pts = d.without pts := by
  unfold Dev.ringCheck
  (try simp only [foldl_keep, apply_ite (Dev.without · pts), ite_self, h_qf, h_hbm, h_host, h_ch, h_ln, h_md, Dev.startDrain_keep, Dev.raise_keep,
      Dev.modRing_keep])
  repeat' (first
    | (with_reducible rfl)
    | (simp only [apply_ite (Dev.without · pts), ite_self, h_qf, h_hbm, h_host, h_ch, h_ln, h_md, Dev.startDrain_keep, Dev.raise_keep,
        Dev.modRing_keep]; done)
    | (intro _)
    | split
    | (with_reducible refine (foldl_keep _ _ _ ?_).trans ?_)
    | (simp only [Dev.without, h_qf, h_hbm, h_host, h_ch, h_ln, h_md, if_true]; done)
    | (simp only [foldl_keep, apply_ite (Dev.without · pts), ite_self, h_qf, h_hbm, h_host, h_ch, h_ln, h_md, Dev.startDrain_keep, Dev.raise_keep,
        Dev.modRing_keep]))
theorem Dev.burstCopy_keep {pts : List Part} (d : Dev) (k : Nat) (h_qf : pts.contains .qf = true) (h_hbm : pts.contains .hbm = true) (h_host :
    pts.contains .host = true) (h_ch : pts.contains .ch = true) (h_ln : pts.contains .ln = true) (h_md : pts.contains .md = true) :
    (Dev.burstCopy d k).without pts = d.without pts := by
  unfold Dev.burstCopy
  split
  · rfl
  · split
    · exact Dev.ringCheck_keep d k h_qf h_hbm h_host h_ch h_ln h_md
    · split
      · exact Dev.ringCheck_keep d k h_qf h_hbm h_host h_ch h_ln h_md
      · split
        · exact (Dev.ringCheck_keep _ k h_qf h_hbm h_host h_ch h_ln h_md).trans (Dev.modRing_keep d k _ h_md)
        · split
          · rfl
          · extract_lets recs x
            refine (Dev.ringCheck_keep _ k h_qf h_hbm h_host h_ch h_ln h_md).trans ((Dev.modRing_keep x.1 k _ h_md).trans ?_)
            exact Dev.slotRecs_keep d _ _ _ _ h_hbm
theorem Dev.burstTrigger_keep {pts : List Part} (d : Dev) (k ns : Nat) (h_qf : pts.contains .qf = true) (h_hbm : pts.contains .hbm = true) (h_host :
    pts.contains .host = true) (h_ch : pts.contains .ch = true) (h_ln : pts.contains .ln = true) (h_md : pts.contains .md = true) :
    (Dev.burstTrigger d k ns).without pts = d.without pts := by
  unfold Dev.burstTrigger
  repeat' (first
    | (with_reducible rfl)
    | (simp only [apply_ite (Dev.without · pts), h_qf, h_hbm, h_host, h_ch, h_ln, h_md, Dev.raise_keep, Dev.modRing_keep, Dev.ringCheck_keep]; done)
    | (intro _)
    | split
    | (with_reducible refine (foldl_keep _ _ _ ?_).trans ?_)
    | (simp only [Dev.without, h_qf, h_hbm, h_host, h_ch, h_ln, h_md, if_true]; done)
    | (simp only [foldl_keep, apply_ite (Dev.without · pts), ite_self, h_qf, h_hbm, h_host, h_ch, h_ln, h_md, Dev.raise_keep, Dev.modRing_keep,
        Dev.ringCheck_keep]))
theorem Dev.drainDone_keep {pts : List Part} (d : Dev) (k : Nat) (h_hbm : pts.contains .hbm = true) (h_md : pts.contains .md = true) :
    (Dev.drainDone d k).without pts = d.without pts := by
  unfold Dev.drainDone
  (try simp only [foldl_keep, apply_ite (Dev.without · pts), ite_self, h_hbm, h_md, Dev.modRing_keep, Dev.syncClips_keep, Dev.freeArea_keep,
      Dev.modMd_keep])
  repeat' (first
    | (with_reducible rfl)
    | (simp only [apply_ite (Dev.without · pts), ite_self, h_hbm, h_md, Dev.modRing_keep, Dev.syncClips_keep, Dev.freeArea_keep,
        Dev.modMd_keep]; done)
    | (intro _)
    | split
    | (with_reducible refine (foldl_keep _ _ _ ?_).trans ?_)
    | (simp only [Dev.without, h_hbm, h_md, if_true]; done)
    | (simp only [foldl_keep, apply_ite (Dev.without · pts), ite_self, h_hbm, h_md, Dev.modRing_keep, Dev.syncClips_keep, Dev.freeArea_keep,
        Dev.modMd_keep]))
theorem Dev.mdPortSet_keep {pts : List Part} (d : Dev) (r : Req) (h_ch : pts.contains .ch = true) (h_md : pts.contains .md = true) :
    VKeeps pts d (Dev.mdPortSet d r) := by
  unfold Dev.mdPortSet
  repeat' (first
    | (with_reducible refine vk_ite _ _ ?_)
    | (simp only [vk_job, apply_ite (Dev.without · pts), ite_self, h_ch, h_md, Dev.wr_keep, Dev.fs_keep, Dev.modPport_keep, Dev.setPk_keep,
        Dev.pkConnectNow_keep]; done)
    | (intro _)
    | split
    | (extract_lets)
    | (with_reducible refine (foldl_keep _ _ _ ?_).trans ?_)
    | (simp only [Dev.without, h_ch, h_md, if_true]; done)
    | (simp only [vk_err, vk_turned, vk_ok, vk_job, foldl_keep, apply_ite (Dev.without · pts), ite_self, h_ch, h_md, Dev.wr_keep, Dev.fs_keep,
        Dev.modPport_keep, Dev.setPk_keep, Dev.pkConnectNow_keep])
    | (simp +zetaDelta only [vk_err, vk_turned, vk_ok, vk_job, foldl_keep, apply_ite (Dev.without · pts), ite_self, h_ch, h_md, Dev.wr_keep,
        Dev.fs_keep, Dev.modPport_keep, Dev.setPk_keep, Dev.pkConnectNow_keep]; done)
    | (simp +zetaDelta only [vk_err, vk_turned, vk_ok, vk_job, foldl_keep, apply_ite (Dev.without · pts), ite_self, h_ch, h_md, Dev.wr_keep,
        Dev.fs_keep, Dev.modPport_keep, Dev.setPk_keep, Dev.pkConnectNow_keep]))
theorem Dev.mdQpCreate_keep {pts : List Part} (d : Dev) (r : Req) (h_qf : pts.contains .qf = true) (h_md : pts.contains .md = true) :
    VKeeps pts d (Dev.mdQpCreate d r) := by
  unfold Dev.mdQpCreate
  extract_lets b sq cq cls vec q ep q0 s x p e1 o1 e2
  iterate 8 refine vk_ite _ _ ?_
  split
  · rw [vk_err]; trivial
  · refine vk_ite _ _ ?_
    rw [vk_ok]
    simp only [Dev.fs_keep]
    simp +zetaDelta only [upd_oz_keep, Dev.modMd_keep, Dev.setQ_keep, h_md, h_qf]
theorem Dev.mdNsCreate_keep {pts : List Part} (d : Dev) (r : Req) (h_md : pts.contains .md = true) : VKeeps pts d (Dev.mdNsCreate d r) := by
  unfold Dev.mdNsCreate
  repeat' (first
    | (with_reducible refine vk_ite _ _ ?_)
    | (simp only [vk_err, vk_ok, h_md, Dev.modMd_keep]; done)
    | (intro _)
    | split
    | (extract_lets)
    | (with_reducible refine (foldl_keep _ _ _ ?_).trans ?_)
    | (simp only [Dev.without, h_md, if_true]; done)
    | (simp only [vk_err, vk_turned, vk_ok, vk_job, foldl_keep, apply_ite (Dev.without · pts), ite_self, h_md, Dev.modMd_keep])
    | (simp +zetaDelta only [vk_err, vk_turned, vk_ok, vk_job, foldl_keep, apply_ite (Dev.without · pts), ite_self, h_md, Dev.modMd_keep]; done)
    | (simp +zetaDelta only [vk_err, vk_turned, vk_ok, vk_job, foldl_keep, apply_ite (Dev.without · pts), ite_self, h_md, Dev.modMd_keep]))
theorem Dev.mdFormat_keep {pts : List Part} (d : Dev) (r : Req) (h_qf : pts.contains .qf = true) (h_hbm : pts.contains .hbm = true) (h_host :
    pts.contains .host = true) (h_ch : pts.contains .ch = true) (h_ln : pts.contains .ln = true) (h_md : pts.contains .md = true) :
    VKeeps pts d (Dev.mdFormat d r) := by
  unfold Dev.mdFormat
  repeat' (first
    | (with_reducible refine vk_ite _ _ ?_)
    | (simp only [vk_job, h_qf, h_hbm, h_host, h_ch, h_ln, h_md, Dev.mdBegin_keep, Dev.useFree_keep]; done)
    | (intro _)
    | split
    | (extract_lets)
    | (with_reducible refine (foldl_keep _ _ _ ?_).trans ?_)
    | (simp only [Dev.without, h_qf, h_hbm, h_host, h_ch, h_ln, h_md, if_true]; done)
    | (simp only [vk_err, vk_turned, vk_ok, vk_job, foldl_keep, apply_ite (Dev.without · pts), ite_self, h_qf, h_hbm, h_host, h_ch, h_ln, h_md,
        Dev.mdBegin_keep, Dev.useFree_keep])
    | (simp +zetaDelta only [vk_err, vk_turned, vk_ok, vk_job, foldl_keep, apply_ite (Dev.without · pts), ite_self, h_qf, h_hbm, h_host, h_ch, h_ln,
        h_md, Dev.mdBegin_keep, Dev.useFree_keep]; done)
    | (simp +zetaDelta only [vk_err, vk_turned, vk_ok, vk_job, foldl_keep, apply_ite (Dev.without · pts), ite_self, h_qf, h_hbm, h_host, h_ch, h_ln,
        h_md, Dev.mdBegin_keep, Dev.useFree_keep]))
theorem Dev.recoverClip_keep {pts : List Part} (d : Dev) (x : PackData) (i : Nat) (after : Nat) (job : Nat) (h_qf : pts.contains .qf = true)
    (h_hbm : pts.contains .hbm = true) (h_host : pts.contains .host = true) (h_ch : pts.contains .ch = true) (h_ln : pts.contains .ln = true)
    (h_md : pts.contains .md = true) : (Dev.recoverClip d x i after job).1.without pts = d.without pts := by
  unfold Dev.recoverClip
  split
  · extract_lets chain bs recs len stop aus keep gone t v2 c2 d1 d2 y
    have h1 : d1.without pts = d.without pts := Dev.modMd_keep d _ h_md
    clear_value d1
    have h2 : d2.without pts = d.without pts := (Dev.raise_keep d1 _).trans h1
    clear_value d2
    have h3 : y.1.without pts = d.without pts := (Dev.writeRuns_keep d2 _ _ _ h_qf h_hbm h_host h_ch h_ln h_md).trans h2
    clear_value y
    exact (Dev.writeEntry_keep y.1 _ _ _ h_qf h_hbm h_host h_ch h_ln h_md).trans h3
  · rfl
theorem Dev.mdMount_keep {pts : List Part} (d : Dev) (r : Req) (packs : PackData) (h_qf : pts.contains .qf = true) (h_hbm :
    pts.contains .hbm = true) (h_host : pts.contains .host = true) (h_ch : pts.contains .ch = true) (h_ln : pts.contains .ln = true) (h_md :
    pts.contains .md = true) : VKeeps pts d (Dev.mdMount d r packs) := by
  unfold Dev.mdMount
  extract_lets ps fail
  have hf : VKeeps pts d fail := by
    simp only [fail]
    rw [vk_job]
    exact Dev.raise_keep d _
  clear_value fail
  refine vk_ite _ _ ?_
  split
  · exact hf
  · split
    · exact hf
    · extract_lets v e o y
      rw [vk_job]
      refine (foldl_keep1 _ _ _ (fun q p => Dev.recoverClip_keep q.1 _ _ _ _ h_qf h_hbm h_host h_ch h_ln h_md)).trans ?_
      exact Dev.modMd_keep d _ h_md
theorem Dev.trackSet_keep {pts : List Part} (d : Dev) (r : Req) (t : Track) (h_qf : pts.contains .qf = true) (h_hbm : pts.contains .hbm = true)
    (h_host : pts.contains .host = true) (h_ps : pts.contains .ps = true) {e0 : Dev} (h : Dev.trackSet d r t = some e0) :
    e0.without pts = d.without pts := by
  unfold Dev.trackSet at h
  split at h
  · cases h; rfl
  · have hs := Dev.codecStreamSet_keep (pts := pts) d { r with object := t.obj, master := 0x40, range0 := 0, arg := sliceB t.desc 4 32, argLen := 32 } h_qf h_hbm h_host h_ps
    split at h
    · rename_i e a b c hx
      rw [hx, vk_ok] at hs
      cases h
      exact hs
    · cases h
theorem Dev.startTracks_keep {pts : List Part} (d : Dev) (r : Req) (tracks : List Track) (h_qf : pts.contains .qf = true) (h_hbm :
    pts.contains .hbm = true) (h_host : pts.contains .host = true) (h_bank : pts.contains .bank = true) (h_pipe : pts.contains .pipe = true) (h_ps :
    pts.contains .ps = true) {e0 : Dev} (h : Dev.startTracks d r tracks = some e0) : e0.without pts = d.without pts := by
  unfold Dev.startTracks at h
  refine foldl_keepO (pts := pts) _ _ d (fun _ => rfl) (fun a t b hb => ?_) h
  simp only at hb
  split at hb
  · cases hb; rfl
  · have hs := Dev.codecStreamStart_keep (pts := pts) a { r with object := t.obj } h_qf h_hbm h_host h_bank h_pipe h_ps
    split at hb
    · rename_i e x y z hx
      rw [hx, vk_ok] at hs
      cases hb
      exact hs
    · cases hb
theorem Dev.recFire_keep {pts : List Part} (d : Dev) (clip : Nat) (h_qf : pts.contains .qf = true) (h_hbm : pts.contains .hbm = true) (h_host :
    pts.contains .host = true) (h_bank : pts.contains .bank = true) (h_pipe : pts.contains .pipe = true) (h_ps : pts.contains .ps = true) (h_md :
    pts.contains .md = true) : (Dev.recFire d clip).without pts = d.without pts := by
  unfold Dev.recFire
  split
  · rfl
  · split
    · rfl
    · extract_lets d1
      have h1 : d1.without pts = d.without pts := Dev.modRec_keep d _ _ h_md
      refine (Dev.feedRec_keep _ _ h_qf h_hbm h_host h_md).trans ?_
      rename_i r _ _
      cases hx : d1.startTracks ozReq r.tracks with
      | none => exact h1
      | some e => exact (Dev.startTracks_keep _ _ _ h_qf h_hbm h_host h_bank h_pipe h_ps hx).trans h1
theorem Dev.wakeVol_keep {pts : List Part} (d : Dev) (v : Vol) (h_ch : pts.contains .ch = true) (h_ln : pts.contains .ln = true) (h_md :
    pts.contains .md = true) : (Dev.wakeVol d v).without pts = d.without pts := by
  unfold Dev.wakeVol
  (try simp only [foldl_keep, apply_ite (Dev.without · pts), ite_self, h_ch, h_ln, h_md, Dev.pkWake_keep])
  repeat' (first
    | (with_reducible rfl)
    | (simp only [h_ch, h_ln, h_md, Dev.pkWake_keep]; done)
    | (intro _)
    | split
    | (with_reducible refine (foldl_keep _ _ _ ?_).trans ?_)
    | (simp only [Dev.without, h_ch, h_ln, h_md, if_true]; done)
    | (simp only [foldl_keep, apply_ite (Dev.without · pts), ite_self, h_ch, h_ln, h_md, Dev.pkWake_keep]))
theorem Dev.mdRecordStart_keep {pts : List Part} (d : Dev) (r : Req) (h_qf : pts.contains .qf = true) (h_hbm : pts.contains .hbm = true) (h_host :
    pts.contains .host = true) (h_bank : pts.contains .bank = true) (h_tm : pts.contains .tm = true) (h_ch : pts.contains .ch = true) (h_ln :
    pts.contains .ln = true) (h_pipe : pts.contains .pipe = true) (h_ps : pts.contains .ps = true) (h_md : pts.contains .md = true) :
    VKeeps pts d (Dev.mdRecordStart d r) := by
  unfold Dev.mdRecordStart
  extract_lets b n descs tracks rq late at0 s0
  split
  · rw [vk_err]; trivial
  · refine vk_ite _ _ (vk_ite _ _ (vk_ite _ _ ?_))
    split
    · rw [vk_err]; trivial
    · refine vk_ite _ _ (vk_ite _ _ ?_)
      split
      · rw [vk_err]; trivial
      · rename_i e1 hx1
        have h1 := foldl_keepO (pts := pts) _ _ _ (fun _ => rfl) (fun a c b hb => Dev.trackSet_keep a r c h_qf h_hbm h_host h_ps hb) hx1
        split
        · rw [vk_err]; trivial
        · rename_i e2 i af hx2
          have h2 := (Dev.openClip_keep _ _ _ _ _ _ h_qf h_hbm h_host h_ch h_ln h_md hx2).trans h1
          split
          · rw [vk_err]; trivial
          · rename_i bs e3 hx3
            have h3 := (Dev.alloc_keep _ _ _ _ h_hbm hx3).trans h2
            extract_lets q qu s1 e4 x e5
            have h5 : e5.without pts = d.without pts := by
              refine (Dev.wakeVol_keep _ _ h_ch h_ln h_md).trans ((Dev.syncClips_keep _).trans ((Dev.modMd_keep _ _ h_md).trans ?_))
              exact (Dev.setQ_keep _ _ _ h_qf).trans ((upd_oz_keep e3 _).trans h3)
            clear_value e5
            split
            · split
              · rw [vk_err]; trivial
              · rename_i k e6 hx6
                rw [vk_ok]
                exact (Dev.arm_keep _ _ h_tm hx6).trans h5
            · split
              · rw [vk_err]; trivial
              · rename_i e6 hx6
                rw [vk_ok]
                exact (Dev.feedRec_keep e6 _ h_qf h_hbm h_host h_md).trans ((Dev.startTracks_keep _ _ _ h_qf h_hbm h_host h_bank h_pipe h_ps hx6).trans h5)
theorem Dev.mdRecordStop_keep {pts : List Part} (d : Dev) (r : Req) (h_qf : pts.contains .qf = true) (h_hbm : pts.contains .hbm = true) (h_host :
    pts.contains .host = true) (h_bank : pts.contains .bank = true) (h_tm : pts.contains .tm = true) (h_ch : pts.contains .ch = true) (h_ln :
    pts.contains .ln = true) (h_pipe : pts.contains .pipe = true) (h_ps : pts.contains .ps = true) (h_md : pts.contains .md = true) :
    VKeeps pts d (Dev.mdRecordStop d r) := by
  unfold Dev.mdRecordStop
  repeat' (first
    | (with_reducible refine vk_ite _ _ ?_)
    | (simp only [vk_err, vk_job, h_tm, h_md, Dev.modRec_keep]; done)
    | (intro _)
    | split
    | (extract_lets)
    | (with_reducible refine (foldl_keep _ _ _ ?_).trans ?_)
    | (simp only [Dev.without, h_qf, h_hbm, h_host, h_bank, h_tm, h_ch, h_ln, h_pipe, h_ps, h_md, if_true]; done)
    | (with_reducible refine (Dev.arm_keep _ _ h_tm (by assumption)).trans ?_)
    | (simp only [vk_job, h_tm, h_md, Dev.modRec_keep])
    | (simp +zetaDelta only [h_qf, h_hbm, h_host, h_bank, h_tm, h_ch, h_ln, h_pipe, h_ps, h_md, Dev.modRec_keep, Dev.recStop_keep]; done)
    | (simp +zetaDelta only [vk_err, vk_turned, vk_ok, vk_job, foldl_keep, apply_ite (Dev.without · pts), ite_self, h_qf, h_hbm, h_host, h_bank,
        h_tm, h_ch, h_ln, h_pipe, h_ps, h_md, Dev.modRec_keep, Dev.arm_keep, Dev.recStop_keep]))
theorem Dev.mdClipDelete_keep {pts : List Part} (d : Dev) (r : Req) (h_qf : pts.contains .qf = true) (h_hbm : pts.contains .hbm = true) (h_host :
    pts.contains .host = true) (h_ch : pts.contains .ch = true) (h_ln : pts.contains .ln = true) (h_md : pts.contains .md = true) :
    VKeeps pts d (Dev.mdClipDelete d r) := by
  unfold Dev.mdClipDelete
  repeat' (first
    | (with_reducible refine vk_ite _ _ ?_)
    | (simp only [vk_err, vk_job, h_qf, h_hbm, h_host, h_ch, h_ln, h_md, Dev.modMd_keep, Dev.writeRuns_keep, Dev.writeEntry_keep]; done)
    | (intro _)
    | split
    | (extract_lets)
    | (with_reducible refine (foldl_keep _ _ _ ?_).trans ?_)
    | (simp only [Dev.without, h_qf, h_hbm, h_host, h_ch, h_ln, h_md, if_true]; done)
    | (simp only [vk_err, vk_turned, vk_ok, vk_job, foldl_keep, apply_ite (Dev.without · pts), ite_self, h_qf, h_hbm, h_host, h_ch, h_ln, h_md,
        Dev.modMd_keep, Dev.writeRuns_keep, Dev.writeEntry_keep])
    | (simp +zetaDelta only [vk_err, vk_turned, vk_ok, vk_job, foldl_keep, apply_ite (Dev.without · pts), ite_self, h_qf, h_hbm, h_host, h_ch, h_ln,
        h_md, Dev.modMd_keep, Dev.writeRuns_keep, Dev.writeEntry_keep]; done)
    | (simp +zetaDelta only [vk_err, vk_turned, vk_ok, vk_job, foldl_keep, apply_ite (Dev.without · pts), ite_self, h_qf, h_hbm, h_host, h_ch, h_ln,
        h_md, Dev.modMd_keep, Dev.writeRuns_keep, Dev.writeEntry_keep]))
theorem Dev.mdBurstArm_keep {pts : List Part} (d : Dev) (r : Req) (h_hbm : pts.contains .hbm = true) (h_md : pts.contains .md = true) :
    VKeeps pts d (Dev.mdBurstArm d r) := by
  unfold Dev.mdBurstArm
  repeat' (first
    | (with_reducible refine vk_ite _ _ ?_)
    | (simp only [vk_err, vk_ok, h_hbm, h_md, Dev.syncClips_keep, Dev.modMd_keep]; done)
    | (intro _)
    | split
    | (extract_lets)
    | (with_reducible refine (foldl_keep _ _ _ ?_).trans ?_)
    | (simp only [Dev.without, h_hbm, h_md, if_true]; done)
    | (with_reducible refine (Dev.alloc_keep _ _ _ _ h_hbm (by assumption)).trans ?_)
    | (simp only [vk_ok, h_hbm, h_md, Dev.syncClips_keep, Dev.modMd_keep])
    | (simp +zetaDelta only [vk_err, vk_turned, vk_ok, vk_job, foldl_keep, apply_ite (Dev.without · pts), ite_self, h_hbm, h_md, Dev.alloc_keep,
        Dev.syncClips_keep, Dev.modMd_keep]; done)
    | (simp +zetaDelta only [vk_err, vk_turned, vk_ok, vk_job, foldl_keep, apply_ite (Dev.without · pts), ite_self, h_hbm, h_md, Dev.alloc_keep,
        Dev.syncClips_keep, Dev.modMd_keep]))
theorem Dev.mdOffload_keep {pts : List Part} (d : Dev) (r : Req) (aus : List (List Byte)) (h_qf : pts.contains .qf = true) (h_hbm :
    pts.contains .hbm = true) (h_host : pts.contains .host = true) (h_ch : pts.contains .ch = true) (h_ln : pts.contains .ln = true) (h_md :
    pts.contains .md = true) : VKeeps pts d (Dev.mdOffload d r aus) := by
  unfold Dev.mdOffload
  repeat' (first
    | (with_reducible refine vk_ite _ _ ?_)
    | (simp only [vk_err, vk_job, apply_ite (Dev.without · pts), ite_self, h_qf, h_hbm, h_host, h_ch, h_ln, h_md, Dev.raise_keep,
        Dev.mdBegin_keep]; done)
    | (intro _)
    | split
    | (extract_lets)
    | (with_reducible refine (foldl_keep _ _ _ ?_).trans ?_)
    | (simp only [Dev.without, h_qf, h_hbm, h_host, h_ch, h_ln, h_md, if_true]; done)
    | (simp only [vk_err, vk_turned, vk_ok, vk_job, foldl_keep, apply_ite (Dev.without · pts), ite_self, h_qf, h_hbm, h_host, h_ch, h_ln, h_md,
        Dev.raise_keep, Dev.mdBegin_keep])
    | (simp +zetaDelta only [vk_err, vk_turned, vk_ok, vk_job, foldl_keep, apply_ite (Dev.without · pts), ite_self, h_qf, h_hbm, h_host, h_ch, h_ln,
        h_md, Dev.raise_keep, Dev.mdBegin_keep]; done)
    | (simp +zetaDelta only [vk_err, vk_turned, vk_ok, vk_job, foldl_keep, apply_ite (Dev.without · pts), ite_self, h_qf, h_hbm, h_host, h_ch, h_ln,
        h_md, Dev.raise_keep, Dev.mdBegin_keep]))
theorem Dev.sessSave_keep {pts : List Part} (d : Dev) (r : Req) (h_hbm : pts.contains .hbm = true) (h_host : pts.contains .host = true) (h_md :
    pts.contains .md = true) : VKeeps pts d (Dev.sessSave d r) := by
  unfold Dev.sessSave
  repeat' (first
    | (with_reducible refine vk_ite _ _ ?_)
    | (simp only [vk_job, apply_ite (Dev.without · pts), ite_self, h_hbm, h_host, h_md, Dev.modMd_keep, Dev.useFree_keep, Dev.hbmW_keep,
        Dev.hostW_keep]; done)
    | (intro _)
    | split
    | (extract_lets)
    | (with_reducible refine (foldl_keep _ _ _ ?_).trans ?_)
    | (simp only [Dev.without, h_hbm, h_host, h_md, if_true]; done)
    | (simp only [vk_err, vk_turned, vk_ok, vk_job, foldl_keep, apply_ite (Dev.without · pts), ite_self, h_hbm, h_host, h_md, Dev.modMd_keep,
        Dev.useFree_keep, Dev.hbmW_keep, Dev.hostW_keep])
    | (simp +zetaDelta only [vk_err, vk_turned, vk_ok, vk_job, foldl_keep, apply_ite (Dev.without · pts), ite_self, h_hbm, h_host, h_md,
        Dev.modMd_keep, Dev.useFree_keep, Dev.hbmW_keep, Dev.hostW_keep]; done)
    | (simp +zetaDelta only [vk_err, vk_turned, vk_ok, vk_job, foldl_keep, apply_ite (Dev.without · pts), ite_self, h_hbm, h_host, h_md,
        Dev.modMd_keep, Dev.useFree_keep, Dev.hbmW_keep, Dev.hostW_keep]))
theorem Dev.restore_keep {pts : List Part} (d : Dev) (regs : Tab Word) (cams : Tab PipeCam) (codec : Tab (List Byte)) (h_pipe :
    pts.contains .pipe = true) (h_ps : pts.contains .ps = true) : (Dev.restore d regs cams codec).without pts = d.without pts := by
  unfold Dev.restore
  repeat' (first
    | (with_reducible rfl)
    | (simp only [h_pipe, h_ps, upd_regs_pipe_keep, Dev.modPs_keep]; done)
    | (intro _)
    | split
    | (with_reducible refine (foldl_keep _ _ _ ?_).trans ?_)
    | (simp only [Dev.without, h_pipe, h_ps, if_true]; done)
    | (simp only [foldl_keep, apply_ite (Dev.without · pts), ite_self, h_pipe, h_ps, upd_pipe_keep, upd_regs_keep, upd_regs_pipe_keep,
        Dev.modPs_keep]))
theorem Dev.sessLoad_keep {pts : List Part} (d : Dev) (r : Req) (regs : List (Nat × Word)) (h_pipe : pts.contains .pipe = true) (h_ps :
    pts.contains .ps = true) : VKeeps pts d (Dev.sessLoad d r regs) := by
  unfold Dev.sessLoad
  repeat' (first
    | (with_reducible refine vk_ite _ _ ?_)
    | (simp only [vk_job, h_pipe, h_ps, Dev.raise_keep, Dev.restore_keep]; done)
    | (intro _)
    | split
    | (extract_lets)
    | (with_reducible refine (foldl_keep _ _ _ ?_).trans ?_)
    | (simp only [Dev.without, h_pipe, h_ps, if_true]; done)
    | (simp only [vk_err, vk_turned, vk_ok, vk_job, foldl_keep, apply_ite (Dev.without · pts), ite_self, h_pipe, h_ps, Dev.raise_keep,
        Dev.restore_keep])
    | (simp +zetaDelta only [vk_err, vk_turned, vk_ok, vk_job, foldl_keep, apply_ite (Dev.without · pts), ite_self, h_pipe, h_ps, Dev.raise_keep,
        Dev.restore_keep]; done)
    | (simp +zetaDelta only [vk_err, vk_turned, vk_ok, vk_job, foldl_keep, apply_ite (Dev.without · pts), ite_self, h_pipe, h_ps, Dev.raise_keep,
        Dev.restore_keep]))
theorem Dev.sessStandby_keep {pts : List Part} (d : Dev) (h_qf : pts.contains .qf = true) (h_hbm : pts.contains .hbm = true) (h_host :
    pts.contains .host = true) (h_bank : pts.contains .bank = true) (h_ing : pts.contains .ing = true) (h_pipe : pts.contains .pipe = true) (h_ps :
    pts.contains .ps = true) (h_md : pts.contains .md = true) : VKeeps pts d (Dev.sessStandby d) := by
  unfold Dev.sessStandby
  repeat' (first
    | (with_reducible refine vk_ite _ _ ?_)
    | (simp only [vk_job, h_qf, h_hbm, h_host, h_bank, h_ing, h_pipe, h_ps, h_md, Dev.modMd_keep, Dev.camStop_keep, Dev.modStr_keep,
        Dev.psSettle_keep, Dev.modPs_keep]; done)
    | (intro _)
    | split
    | (extract_lets)
    | (with_reducible refine (foldl_keep _ _ _ ?_).trans ?_)
    | (simp only [Dev.without, h_qf, h_hbm, h_host, h_bank, h_ing, h_pipe, h_ps, h_md, if_true]; done)
    | (simp only [vk_job])
    | (simp +zetaDelta only [h_qf, h_hbm, h_host, h_pipe, Dev.settleStops_keep]; done)
    | (simp +zetaDelta only [h_qf, h_hbm, h_host, h_pipe, Dev.settleStops_keep]))
theorem Dev.zeroLost_keep {pts : List Part} (d : Dev) (h_hbm : pts.contains .hbm = true) : (Dev.zeroLost d).without pts = d.without pts := by
  unfold Dev.zeroLost
  simp only [h_hbm, upd_hbm_keep]
theorem Dev.enterStandby_keep {pts : List Part} (d : Dev) (h_fab : pts.contains .fab = true) (h_hbm : pts.contains .hbm = true) (h_bank :
    pts.contains .bank = true) (h_ch : pts.contains .ch = true) (h_md : pts.contains .md = true) :
    (Dev.enterStandby d).without pts = d.without pts := by
  unfold Dev.enterStandby
  extract_lets us d1 d2 d3
  clear_value us
  have h1 : d1.without pts = d.without pts := by
    refine foldl_keep _ _ _ (fun e u => ?_)
    extract_lets e1
    have h : e1.without pts = e.without pts := by
      simp only [e1, apply_ite (Dev.without · pts), Dev.setUst_keep, ite_self]
    split
    · exact (Dev.cmd1_keep e1 _ _ h_fab h_bank).trans h
    · exact h
  have h2 : d2.without pts = d.without pts :=
    (foldl_keep _ _ _ (fun e n => Dev.mdSend_keep e n _ h_ch h_md)).trans h1
  have h3 : d3.without pts = d.without pts := by
    simp only [d3, Dev.zeroLost_keep, Dev.fs_keep, h_hbm]
    exact h2
  clear_value d3
  exact (foldl_keep _ _ _ (fun e s => Dev.fs_keep e _ _ _ _)).trans ((upd_hbm_keep d3 _ h_hbm).trans h3)
theorem Dev.sessResume_keep {pts : List Part} (d : Dev) (r : Req) (h_fab : pts.contains .fab = true) (h_qf : pts.contains .qf = true) (h_hbm :
    pts.contains .hbm = true) (h_host : pts.contains .host = true) (h_bank : pts.contains .bank = true) (h_ch : pts.contains .ch = true) (h_ln :
    pts.contains .ln = true) (h_ing : pts.contains .ing = true) (h_pipe : pts.contains .pipe = true) (h_ps : pts.contains .ps = true) (h_md :
    pts.contains .md = true) : VKeeps pts d (Dev.sessResume d r) := by
  unfold Dev.sessResume
  refine vk_ite _ _ ?_
  extract_lets d1 s1 d2 d3 us d4 was d5 d6 d7
  clear_value us
  have h1 : d1.without pts = d.without pts := (Dev.zeroLost_keep _ h_hbm).trans (Dev.fs_keep d _ _ _ _)
  have h2 : d2.without pts = d.without pts :=
    (foldl_keep _ _ _ (fun e s => Dev.fs_keep e _ _ _ _)).trans ((upd_hbm_keep d1 _ h_hbm).trans h1)
  have h3 : d3.without pts = d.without pts :=
    (foldl_keep _ _ _ (fun e s => Dev.pkWake_keep e _ h_ch h_ln h_md)).trans h2
  have h4 : d4.without pts = d.without pts := by
    refine Eq.trans (foldl_keep _ _ _ (fun e u => ?_)) h3
    split
    · exact Dev.cmd1_keep e _ _ h_fab h_bank
    · rfl
  have h5 : d5.without pts = d.without pts := (Dev.modMd_keep d4 _ h_md).trans h4
  have h6 : d6.without pts = d.without pts :=
    (foldl_keep _ _ _ (fun e c => Dev.camStart_keep e c h_ing h_pipe)).trans h5
  have h7 : d7.without pts = d.without pts := by
    refine Eq.trans (foldl_keep _ _ _ (fun e n => ?_)) h6
    have hs := Dev.outStreamStart_keep (pts := pts) e { r with object := n } h_pipe
    split
    · rename_i y a b c hx
      rw [hx, vk_ok] at hs
      exact hs
    · rfl
  clear_value d7
  rw [vk_job]
  refine Eq.trans (foldl_keep _ _ _ (fun e n => ?_)) h7
  have hs := Dev.codecStreamStart_keep (pts := pts) e { r with object := n } h_qf h_hbm h_host h_bank h_pipe h_ps
  split
  · rename_i y a b c hx
    rw [hx, vk_ok] at hs
    exact hs
  · rfl

end Sys2Proof.Machine
end

