-- ==== Sys2Proof/Laws/FrameOuter.lean ====
section
/-! SUPPORT. Which parts of the device an operation may change: time, scan-out, the twin, the chain, temperature, health and the verbs. -/
namespace Sys2Proof.Machine
set_option linter.all false

theorem Dev.tmCfg_keep {pts : List Part} (d : Dev) (m obj : Nat) : (Dev.tmCfg d m obj).without pts = d.without pts := by
  unfold Dev.tmCfg
  simp only [Dev.raise_keep]
theorem Dev.drivePin_keep {pts : List Part} (d : Dev) (p : Nat) (hi : Bool) (h_tm : pts.contains .tm = true) :
    (Dev.drivePin d p hi).without pts = d.without pts := by
  unfold Dev.drivePin
  simp only [h_tm, Dev.modTm_keep]
theorem Dev.trigOp_keep {pts : List Part} (d : Dev) (p op : Nat) (h_tm : pts.contains .tm = true) :
    (Dev.trigOp d p op).without pts = d.without pts := by
  unfold Dev.trigOp
  simp only [apply_ite (Dev.without · pts), ite_self, h_tm, Dev.drivePin_keep, Dev.modTm_keep]
theorem Dev.actEffect_keep {pts : List Part} (d : Dev) (a : Act) (t : Nat) (h_qf : pts.contains .qf = true) (h_hbm : pts.contains .hbm = true)
    (h_host : pts.contains .host = true) (h_bank : pts.contains .bank = true) (h_tm : pts.contains .tm = true) (h_ch : pts.contains .ch = true)
    (h_ln : pts.contains .ln = true) (h_ing : pts.contains .ing = true) (h_pipe : pts.contains .pipe = true) (h_ps : pts.contains .ps = true)
    (h_md : pts.contains .md = true) : (Dev.actEffect d a t).without pts = d.without pts := by
  unfold Dev.actEffect
  repeat' (first
    | (with_reducible rfl)
    | (simp only [apply_ite (Dev.without · pts), ite_self, h_qf, h_hbm, h_host, h_bank, h_tm, h_ch, h_ln, h_ing, h_pipe, h_ps, h_md,
        Dev.sendTrigger_keep, Dev.trigOp_keep, Dev.recFire_keep, Dev.recStop_keep, Dev.burstTrigger_keep]; done)
    | (intro _)
    | split
    | (with_reducible refine (foldl_keep _ _ _ ?_).trans ?_)
    | (simp only [Dev.without, h_qf, h_hbm, h_host, h_bank, h_tm, h_ch, h_ln, h_ing, h_pipe, h_ps, h_md, if_true]; done)
    | (simp only [foldl_keep, apply_ite (Dev.without · pts), ite_self, h_qf, h_hbm, h_host, h_bank, h_tm, h_ch, h_ln, h_ing, h_pipe, h_ps, h_md,
        Dev.sendTrigger_keep, Dev.trigOp_keep, Dev.recFire_keep, Dev.recStop_keep, Dev.burstTrigger_keep]))
theorem Dev.afterFire_keep {pts : List Part} (d : Dev) (k : Nat) (a : Act) (now : Nat) (h_tm : pts.contains .tm = true) :
    (Dev.afterFire d k a now).without pts = d.without pts := by
  unfold Dev.afterFire
  simp only [apply_ite (Dev.without · pts), ite_self, h_tm, Dev.disarm_keep, Dev.modTm_keep]
theorem Dev.fire_keep {pts : List Part} (d : Dev) (k : Nat) (h_qf : pts.contains .qf = true) (h_hbm : pts.contains .hbm = true) (h_host :
    pts.contains .host = true) (h_bank : pts.contains .bank = true) (h_tm : pts.contains .tm = true) (h_ch : pts.contains .ch = true) (h_ln :
    pts.contains .ln = true) (h_ing : pts.contains .ing = true) (h_pipe : pts.contains .pipe = true) (h_ps : pts.contains .ps = true) (h_md :
    pts.contains .md = true) : (Dev.fire d k).without pts = d.without pts := by
  unfold Dev.fire
  repeat' (first
    | (with_reducible rfl)
    | (simp only [apply_ite (Dev.without · pts), ite_self, h_qf, h_hbm, h_host, h_bank, h_tm, h_ch, h_ln, h_ing, h_pipe, h_ps, h_md,
        Dev.afterFire_keep, Dev.modTm_keep, Dev.actEffect_keep, Dev.fadd_keep]; done)
    | (intro _)
    | split
    | (with_reducible refine (foldl_keep _ _ _ ?_).trans ?_)
    | (simp only [Dev.without, h_qf, h_hbm, h_host, h_bank, h_tm, h_ch, h_ln, h_ing, h_pipe, h_ps, h_md, if_true]; done)
    | (simp only [foldl_keep, apply_ite (Dev.without · pts), ite_self, h_qf, h_hbm, h_host, h_bank, h_tm, h_ch, h_ln, h_ing, h_pipe, h_ps, h_md,
        Dev.afterFire_keep, Dev.modTm_keep, Dev.actEffect_keep, Dev.fadd_keep]))
theorem Dev.fireStepped_keep {pts : List Part} (d : Dev) (now k : Nat) (h_qf : pts.contains .qf = true) (h_hbm : pts.contains .hbm = true) (h_host :
    pts.contains .host = true) (h_bank : pts.contains .bank = true) (h_tm : pts.contains .tm = true) (h_ch : pts.contains .ch = true) (h_ln :
    pts.contains .ln = true) (h_ing : pts.contains .ing = true) (h_pipe : pts.contains .pipe = true) (h_ps : pts.contains .ps = true) (h_md :
    pts.contains .md = true) : (Dev.fireStepped d now k).without pts = d.without pts := by
  unfold Dev.fireStepped
  repeat' (first
    | (with_reducible rfl)
    | (simp only [h_qf, h_hbm, h_host, h_bank, h_tm, h_ch, h_ln, h_ing, h_pipe, h_ps, h_md, Dev.afterFire_keep, Dev.modTm_keep, Dev.actEffect_keep,
        Dev.fadd_keep]; done)
    | (intro _)
    | split
    | (with_reducible refine (foldl_keep _ _ _ ?_).trans ?_)
    | (simp only [Dev.without, h_qf, h_hbm, h_host, h_bank, h_tm, h_ch, h_ln, h_ing, h_pipe, h_ps, h_md, if_true]; done)
    | (simp only [foldl_keep, apply_ite (Dev.without · pts), ite_self, h_qf, h_hbm, h_host, h_bank, h_tm, h_ch, h_ln, h_ing, h_pipe, h_ps, h_md,
        Dev.afterFire_keep, Dev.modTm_keep, Dev.actEffect_keep, Dev.fadd_keep]))
theorem Dev.stepActs_keep {pts : List Part} (d : Dev) (old new : Nat) (h_qf : pts.contains .qf = true) (h_hbm : pts.contains .hbm = true) (h_host :
    pts.contains .host = true) (h_bank : pts.contains .bank = true) (h_tm : pts.contains .tm = true) (h_ch : pts.contains .ch = true) (h_ln :
    pts.contains .ln = true) (h_ing : pts.contains .ing = true) (h_pipe : pts.contains .pipe = true) (h_ps : pts.contains .ps = true) (h_md :
    pts.contains .md = true) : (Dev.stepActs d old new).without pts = d.without pts := by
  unfold Dev.stepActs
  (try simp only [foldl_keep, apply_ite (Dev.without · pts), ite_self, h_qf, h_hbm, h_host, h_bank, h_tm, h_ch, h_ln, h_ing, h_pipe, h_ps, h_md,
      Dev.fireStepped_keep])
  repeat' (first
    | (with_reducible rfl)
    | (simp only [h_qf, h_hbm, h_host, h_bank, h_tm, h_ch, h_ln, h_ing, h_pipe, h_ps, h_md, Dev.fireStepped_keep]; done)
    | (intro _)
    | split
    | (with_reducible refine (foldl_keep _ _ _ ?_).trans ?_)
    | (simp only [Dev.without, h_qf, h_hbm, h_host, h_bank, h_tm, h_ch, h_ln, h_ing, h_pipe, h_ps, h_md, if_true]; done)
    | (simp only [foldl_keep, apply_ite (Dev.without · pts), ite_self, h_qf, h_hbm, h_host, h_bank, h_tm, h_ch, h_ln, h_ing, h_pipe, h_ps, h_md,
        Dev.fireStepped_keep]))
theorem Dev.tmStep_keep {pts : List Part} (d : Dev) (old : Nat) (h_qf : pts.contains .qf = true) (h_hbm : pts.contains .hbm = true) (h_host :
    pts.contains .host = true) (h_bank : pts.contains .bank = true) (h_tm : pts.contains .tm = true) (h_ch : pts.contains .ch = true) (h_ln :
    pts.contains .ln = true) (h_ing : pts.contains .ing = true) (h_pipe : pts.contains .pipe = true) (h_ps : pts.contains .ps = true) (h_md :
    pts.contains .md = true) : (Dev.tmStep d old).without pts = d.without pts := by
  unfold Dev.tmStep
  simp only [h_qf, h_hbm, h_host, h_bank, h_tm, h_ch, h_ln, h_ing, h_pipe, h_ps, h_md, Dev.syncTm_keep, Dev.modTm_keep, Dev.stepActs_keep,
      Dev.raise_keep]
theorem Dev.setDomain_keep {pts : List Part} (d : Dev) (dom : Nat) (c : Clock) (h_qf : pts.contains .qf = true) (h_hbm : pts.contains .hbm = true)
    (h_host : pts.contains .host = true) (h_bank : pts.contains .bank = true) (h_tm : pts.contains .tm = true) (h_ch : pts.contains .ch = true)
    (h_ln : pts.contains .ln = true) (h_ing : pts.contains .ing = true) (h_pipe : pts.contains .pipe = true) (h_ps : pts.contains .ps = true)
    (h_md : pts.contains .md = true) : (Dev.setDomain d dom c).without pts = d.without pts := by
  unfold Dev.setDomain
  simp only [apply_ite (Dev.without · pts), ite_self, h_qf, h_hbm, h_host, h_bank, h_tm, h_ch, h_ln, h_ing, h_pipe, h_ps, h_md, Dev.modTm_keep,
      Dev.syncTm_keep, Dev.tmStep_keep]
theorem Dev.effDInc_keep {pts : List Part} (d : Dev) (m dom : Nat) (v : Word) (h_fab : pts.contains .fab = true) (h_tm : pts.contains .tm = true) :
    (Dev.effDInc d m dom v).without pts = d.without pts := by
  unfold Dev.effDInc
  simp only [apply_ite (Dev.without · pts), ite_self, h_fab, h_tm, Dev.modTm_keep, Dev.putFields_keep, Dev.tmCfg_keep]
theorem Dev.effDSet_keep {pts : List Part} (d : Dev) (m dom : Nat) (v : Word) (h_fab : pts.contains .fab = true) (h_qf : pts.contains .qf = true)
    (h_hbm : pts.contains .hbm = true) (h_host : pts.contains .host = true) (h_bank : pts.contains .bank = true) (h_tm : pts.contains .tm = true)
    (h_ch : pts.contains .ch = true) (h_ln : pts.contains .ln = true) (h_ing : pts.contains .ing = true) (h_pipe : pts.contains .pipe = true)
    (h_ps : pts.contains .ps = true) (h_md : pts.contains .md = true) : (Dev.effDSet d m dom v).without pts = d.without pts := by
  unfold Dev.effDSet
  simp only [apply_ite (Dev.without · pts), ite_self, h_fab, h_qf, h_hbm, h_host, h_bank, h_tm, h_ch, h_ln, h_ing, h_pipe, h_ps, h_md,
      Dev.putFields_keep, Dev.tmCfg_keep, Dev.setDomain_keep]
theorem Dev.effDAdj_keep {pts : List Part} (d : Dev) (dom : Nat) (v : Word) (h_fab : pts.contains .fab = true) (h_qf : pts.contains .qf = true)
    (h_hbm : pts.contains .hbm = true) (h_host : pts.contains .host = true) (h_bank : pts.contains .bank = true) (h_tm : pts.contains .tm = true)
    (h_ch : pts.contains .ch = true) (h_ln : pts.contains .ln = true) (h_ing : pts.contains .ing = true) (h_pipe : pts.contains .pipe = true)
    (h_ps : pts.contains .ps = true) (h_md : pts.contains .md = true) : (Dev.effDAdj d dom v).without pts = d.without pts := by
  unfold Dev.effDAdj
  simp only [apply_ite (Dev.without · pts), ite_self, h_fab, h_qf, h_hbm, h_host, h_bank, h_tm, h_ch, h_ln, h_ing, h_pipe, h_ps, h_md,
      Dev.putFields_keep, Dev.setDomain_keep]
theorem Dev.snap_keep {pts : List Part} (d : Dev) : (Dev.snap d).without pts = d.without pts := by
  unfold Dev.snap
  simp only [Dev.fs_keep, Dev.wr_keep, Dev.set64_keep]
theorem Dev.tmSwitch_keep {pts : List Part} (d : Dev) (force : Bool) (h_qf : pts.contains .qf = true) (h_hbm : pts.contains .hbm = true) (h_host :
    pts.contains .host = true) (h_bank : pts.contains .bank = true) (h_tm : pts.contains .tm = true) (h_ch : pts.contains .ch = true) (h_ln :
    pts.contains .ln = true) (h_ing : pts.contains .ing = true) (h_pipe : pts.contains .pipe = true) (h_ps : pts.contains .ps = true) (h_md :
    pts.contains .md = true) {e0 : Dev} (h : Dev.tmSwitch d force = some e0) : e0.without pts = d.without pts := by
  unfold Dev.tmSwitch at h
  extract_lets old new ofs e1 e2 at h
  split at h
  · cases h
  · have h1 : e1.without pts = d.without pts := (Dev.syncTm_keep _).trans (Dev.modTm_keep d _ h_tm)
    clear_value e1
    have h2 : e2.without pts = d.without pts := (Dev.raise_keep e1 _).trans h1
    clear_value e2
    obtain rfl := Option.some.inj h
    split
    · exact (Dev.tmStep_keep e2 old h_qf h_hbm h_host h_bank h_tm h_ch h_ln h_ing h_pipe h_ps h_md).trans h2
    · exact h2
theorem Dev.effTmCtl_keep {pts : List Part} (d : Dev) (m : Nat) (v : Word) (h_fab : pts.contains .fab = true) (h_qf : pts.contains .qf = true)
    (h_hbm : pts.contains .hbm = true) (h_host : pts.contains .host = true) (h_bank : pts.contains .bank = true) (h_tm : pts.contains .tm = true)
    (h_ch : pts.contains .ch = true) (h_ln : pts.contains .ln = true) (h_ing : pts.contains .ing = true) (h_pipe : pts.contains .pipe = true)
    (h_ps : pts.contains .ps = true) (h_md : pts.contains .md = true) : (Dev.effTmCtl d m v).without pts = d.without pts := by
  unfold Dev.effTmCtl
  split
  · exact Dev.tmCfg_keep d _ _
  · extract_lets d1 d2
    have h1 : d1.without pts = d.without pts := Dev.putFields_keep d _ _ _ _ h_fab
    have h2 : d2.without pts = d.without pts := by
      simp only [d2]
      split
      · cases hx : d1.tmSwitch (decide (getF v 29 29 = 1)) with
        | none => exact (Dev.tmCfg_keep d1 _ _).trans h1
        | some e => exact (Dev.tmSwitch_keep _ _ h_qf h_hbm h_host h_bank h_tm h_ch h_ln h_ing h_pipe h_ps h_md hx).trans h1
      · exact h1
    clear_value d2
    split
    · exact (Dev.snap_keep d2).trans h2
    · exact h2
theorem Dev.tmCtlBy_keep {pts : List Part} (d : Dev) (m : Nat) (v : Word) (h_fab : pts.contains .fab = true) (h_qf : pts.contains .qf = true)
    (h_hbm : pts.contains .hbm = true) (h_host : pts.contains .host = true) (h_bank : pts.contains .bank = true) (h_tm : pts.contains .tm = true)
    (h_ch : pts.contains .ch = true) (h_ln : pts.contains .ln = true) (h_ing : pts.contains .ing = true) (h_pipe : pts.contains .pipe = true)
    (h_ps : pts.contains .ps = true) (h_md : pts.contains .md = true) : (Dev.tmCtlBy d m v).without pts = d.without pts := by
  unfold Dev.tmCtlBy
  (try simp only [foldl_keep, apply_ite (Dev.without · pts), ite_self, h_fab, h_qf, h_hbm, h_host, h_bank, h_tm, h_ch, h_ln, h_ing, h_pipe, h_ps,
      h_md, Dev.gated_keep, Dev.effTmCtl_keep])
  repeat' (first
    | (with_reducible rfl)
    | (simp only [h_fab, h_qf, h_hbm, h_host, h_bank, h_tm, h_ch, h_ln, h_ing, h_pipe, h_ps, h_md, Dev.effTmCtl_keep]; done)
    | (intro _)
    | split
    | (with_reducible refine (foldl_keep _ _ _ ?_).trans ?_)
    | (simp only [Dev.without, h_fab, h_qf, h_hbm, h_host, h_bank, h_tm, h_ch, h_ln, h_ing, h_pipe, h_ps, h_md, if_true]; done)
    | (with_reducible refine (Dev.gated_keep _ _ _ _ _ _ _ h_fab h_qf h_hbm h_host ?_).trans ?_)
    | (simp only [foldl_keep, apply_ite (Dev.without · pts), ite_self, h_fab, h_qf, h_hbm, h_host, h_bank, h_tm, h_ch, h_ln, h_ing, h_pipe, h_ps,
        h_md, Dev.gated_keep, Dev.effTmCtl_keep]))
theorem Dev.openHoldover_keep {pts : List Part} (d : Dev) (h_ing : pts.contains .ing = true) : (Dev.openHoldover d).without pts = d.without pts :=
    by
  unfold Dev.openHoldover
  repeat' (first
    | (with_reducible rfl)
    | (simp only [apply_ite (Dev.without · pts), ite_self, h_ing, Dev.frameFlag_keep]; done)
    | (intro _)
    | split
    | (with_reducible refine (foldl_keep _ _ _ ?_).trans ?_)
    | (simp only [Dev.without, h_ing, if_true]; done)
    | (simp only [foldl_keep, apply_ite (Dev.without · pts), ite_self, h_ing, Dev.frameFlag_keep]))
theorem Dev.ftStart_keep {pts : List Part} (d : Dev) (h_tm : pts.contains .tm = true) (h_ing : pts.contains .ing = true) : (Dev.ftStart d).without
    pts = d.without pts := by
  unfold Dev.ftStart
  simp only [apply_ite (Dev.without · pts), ite_self, h_tm, Dev.fs_keep, Dev.modTm_keep, h_ing, Dev.openHoldover_keep]
theorem Dev.modEth_keep {pts : List Part} (d : Dev) (p : Nat) (f : EthPort → EthPort) (h_tm : pts.contains .tm = true) :
    (Dev.modEth d p f).without pts = d.without pts := by
  unfold Dev.modEth
  simp only [h_tm, Dev.modTm_keep]
theorem Dev.tmEntryBad_keep {pts : List Part} (d : Dev) (o : Op) (obj : Nat) (h_qf : pts.contains .qf = true) (h_hbm : pts.contains .hbm = true)
    (h_host : pts.contains .host = true) : (Dev.tmEntryBad d o obj).without pts = d.without pts := by
  unfold Dev.tmEntryBad
  simp only [h_qf, h_hbm, h_host, Dev.endOp_keep, Dev.tmCfg_keep]
theorem Dev.noteHead_keep {pts : List Part} (d : Dev) (p qid : Nat) (h_tm : pts.contains .tm = true) :
    (Dev.noteHead d p qid).without pts = d.without pts := by
  unfold Dev.noteHead
  simp only [h_tm, Dev.modEth_keep]
theorem Dev.timeDispatched_keep {pts : List Part} (d : Dev) (o : Op) (h_qf : pts.contains .qf = true) (h_hbm : pts.contains .hbm = true) (h_host :
    pts.contains .host = true) (h_tm : pts.contains .tm = true) : (Dev.timeDispatched d o).without pts = d.without pts := by
  unfold Dev.timeDispatched
  (try simp only [foldl_keep, apply_ite (Dev.without · pts), ite_self, h_qf, h_hbm, h_host, h_tm, Dev.tmEntryBad_keep, Dev.noteHead_keep])
  repeat' (first
    | (with_reducible rfl)
    | (simp only [apply_ite (Dev.without · pts), ite_self, h_qf, h_hbm, h_host, h_tm, Dev.tmEntryBad_keep, Dev.noteHead_keep]; done)
    | (intro _)
    | split
    | (with_reducible refine (foldl_keep _ _ _ ?_).trans ?_)
    | (simp only [Dev.without, h_qf, h_hbm, h_host, h_tm, if_true]; done)
    | (simp only [foldl_keep, apply_ite (Dev.without · pts), ite_self, h_qf, h_hbm, h_host, h_tm, Dev.tmEntryBad_keep, Dev.noteHead_keep]))
theorem Dev.ethRx_keep {pts : List Part} (d : Dev) (p : Nat) (bytes : List Byte) (h_fab : pts.contains .fab = true) (h_qf :
    pts.contains .qf = true) (h_hbm : pts.contains .hbm = true) (h_host : pts.contains .host = true) :
    (Dev.ethRx d p bytes).without pts = d.without pts := by
  unfold Dev.ethRx
  repeat' (first
    | (with_reducible rfl)
    | (simp only [apply_ite (Dev.without · pts), ite_self, h_fab, h_qf, h_hbm, h_host, Dev.fadd_keep, Dev.cbufBreach_keep, Dev.unitW_keep,
        Dev.endOp_keep]; done)
    | (intro _)
    | split
    | (with_reducible refine (foldl_keep _ _ _ ?_).trans ?_)
    | (simp only [Dev.without, h_fab, h_qf, h_hbm, h_host, if_true]; done)
    | (simp only [foldl_keep, apply_ite (Dev.without · pts), ite_self, h_fab, h_qf, h_hbm, h_host, Dev.fadd_keep, Dev.cbufBreach_keep,
        Dev.unitW_keep, Dev.endOp_keep]))
theorem Dev.launchEnd_keep {pts : List Part} (d : Dev) (p : Nat) (h : LHead) (status : Nat) (late : Bool) (h_qf : pts.contains .qf = true) (h_hbm :
    pts.contains .hbm = true) (h_host : pts.contains .host = true) (h_tm : pts.contains .tm = true) :
    (Dev.launchEnd d p h status late).without pts = d.without pts := by
  unfold Dev.launchEnd
  simp only [h_qf, h_hbm, h_host, h_tm, Dev.noteHead_keep, Dev.endOp_keep]
theorem Dev.ethLaunch_keep {pts : List Part} (d : Dev) (p : Nat) (host : List Byte) (h_fab : pts.contains .fab = true) (h_qf : pts.contains .qf =
    true) (h_hbm : pts.contains .hbm = true) (h_host : pts.contains .host = true) (h_tm : pts.contains .tm = true) : (Dev.ethLaunch d p
    host).without pts = d.without pts := by
  unfold Dev.ethLaunch
  repeat' (first
    | (with_reducible rfl)
    | (simp only [apply_ite (Dev.without · pts), ite_self, h_fab, h_qf, h_hbm, h_host, h_tm, Dev.raiseOnce_keep, Dev.fadd_keep, Dev.launchEnd_keep,
        Dev.endOp_keep, Dev.dmaOutside_keep, Dev.modTm_keep, Dev.noteHead_keep]; done)
    | (intro _)
    | split
    | (with_reducible refine (foldl_keep _ _ _ ?_).trans ?_)
    | (simp only [Dev.without, h_fab, h_qf, h_hbm, h_host, h_tm, if_true]; done)
    | (simp only [foldl_keep, apply_ite (Dev.without · pts), ite_self, h_fab, h_qf, h_hbm, h_host, h_tm, Dev.raiseOnce_keep, Dev.fadd_keep,
        Dev.launchEnd_keep, Dev.endOp_keep, Dev.dmaOutside_keep, Dev.modTm_keep, Dev.noteHead_keep]))
theorem Dev.tmEthBind_keep {pts : List Part} (d : Dev) (r : Req) (h_qf : pts.contains .qf = true) (h_tm : pts.contains .tm = true) :
    VKeeps pts d (Dev.tmEthBind d r) := by
  unfold Dev.tmEthBind
  repeat' (first
    | (with_reducible refine vk_ite _ _ ?_)
    | (simp only [vk_ok, h_qf, h_tm, upd_oz_keep, Dev.setQ_keep, Dev.modTm_keep]; done)
    | (intro _)
    | split
    | (extract_lets)
    | (with_reducible refine (foldl_keep _ _ _ ?_).trans ?_)
    | (simp only [Dev.without, h_qf, h_tm, if_true]; done)
    | (simp only [vk_ok])
    | (simp +zetaDelta only [h_tm, Dev.modTm_keep]; done)
    | (simp +zetaDelta only [h_tm, Dev.modTm_keep]))
theorem Dev.ethEnd_keep {pts : List Part} (d : Dev) (p : Nat) (h_qf : pts.contains .qf = true) (h_hbm : pts.contains .hbm = true) (h_host :
    pts.contains .host = true) (h_tm : pts.contains .tm = true) : (Dev.ethEnd d p).without pts = d.without pts := by
  unfold Dev.ethEnd
  repeat' (first
    | (with_reducible rfl)
    | (simp only [h_qf, h_hbm, h_host, h_tm, Dev.returnRole_keep, Dev.closeTag_keep, Dev.destroyQ_keep, Dev.modTm_keep]; done)
    | (intro _)
    | split
    | (with_reducible refine (foldl_keep _ _ _ ?_).trans ?_)
    | (simp only [Dev.without, h_qf, h_hbm, h_host, h_tm, if_true]; done)
    | (simp only [h_tm, Dev.modTm_keep]))
theorem Dev.tmEthUnbind_keep {pts : List Part} (d : Dev) (r : Req) (h_tm : pts.contains .tm = true) : VKeeps pts d (Dev.tmEthUnbind d r) := by
  unfold Dev.tmEthUnbind
  repeat' (first
    | (with_reducible refine vk_ite _ _ ?_)
    | (simp only [vk_err, vk_job, h_tm, Dev.modEth_keep]; done)
    | (intro _)
    | split
    | (extract_lets)
    | (with_reducible refine (foldl_keep _ _ _ ?_).trans ?_)
    | (simp only [Dev.without, h_tm, if_true]; done)
    | (simp only [vk_err, vk_turned, vk_ok, vk_job, foldl_keep, apply_ite (Dev.without · pts), ite_self, h_tm, Dev.modEth_keep])
    | (simp +zetaDelta only [vk_err, vk_turned, vk_ok, vk_job, foldl_keep, apply_ite (Dev.without · pts), ite_self, h_tm, Dev.modEth_keep]; done)
    | (simp +zetaDelta only [vk_err, vk_turned, vk_ok, vk_job, foldl_keep, apply_ite (Dev.without · pts), ite_self, h_tm, Dev.modEth_keep]))
theorem Dev.trigEdge_keep {pts : List Part} (d : Dev) (n : Nat) (rising : Bool) (h_qf : pts.contains .qf = true) (h_hbm :
    pts.contains .hbm = true) (h_host : pts.contains .host = true) (h_tm : pts.contains .tm = true) (h_ch : pts.contains .ch = true) (h_ln :
    pts.contains .ln = true) (h_md : pts.contains .md = true) : (Dev.trigEdge d n rising).without pts = d.without pts := by
  unfold Dev.trigEdge
  (try simp only [apply_ite (Dev.without · pts), Dev.fs_keep, Dev.fadd_keep])
  repeat' (first
    | (with_reducible rfl)
    | (simp only [h_qf, h_hbm, h_host, h_tm, h_ch, h_ln, h_md, Dev.fs_keep, Dev.fadd_keep, Dev.modTm_keep, Dev.endOp_keep,
        Dev.burstTrigger_keep]; done)
    | (intro _)
    | split
    | (with_reducible refine (foldl_keep _ _ _ ?_).trans ?_)
    | (simp only [Dev.without, h_qf, h_hbm, h_host, h_tm, h_ch, h_ln, h_md, if_true]; done)
    | (simp only [foldl_keep, apply_ite (Dev.without · pts), ite_self, h_qf, h_hbm, h_host, h_tm, h_ch, h_ln, h_md, Dev.fs_keep, Dev.fadd_keep,
        Dev.modTm_keep, Dev.endOp_keep, Dev.burstTrigger_keep]))
theorem Dev.tmFrameSet_keep {pts : List Part} (d : Dev) (r : Req) (h_fab : pts.contains .fab = true) (h_tm : pts.contains .tm = true) (h_ing :
    pts.contains .ing = true) : VKeeps pts d (Dev.tmFrameSet d r) := by
  unfold Dev.tmFrameSet
  repeat' (first
    | (with_reducible refine vk_ite _ _ ?_)
    | (simp only [vk_ok, h_fab, h_tm, Dev.putFields_keep, Dev.ftStart_keep, h_ing]; done)
    | (intro _)
    | split
    | (extract_lets)
    | (with_reducible refine (foldl_keep _ _ _ ?_).trans ?_)
    | (simp only [Dev.without, h_ing, h_fab, h_tm, if_true]; done)
    | (simp only [vk_err, vk_turned, vk_ok, vk_job, foldl_keep, apply_ite (Dev.without · pts), ite_self, h_fab, h_tm, Dev.putFields_keep,
        Dev.ftStart_keep, h_ing])
    | (simp +zetaDelta only [vk_err, vk_turned, vk_ok, vk_job, foldl_keep, apply_ite (Dev.without · pts), ite_self, h_fab, h_tm,
        Dev.putFields_keep, Dev.ftStart_keep, h_ing]; done)
    | (simp +zetaDelta only [vk_err, vk_turned, vk_ok, vk_job, foldl_keep, apply_ite (Dev.without · pts), ite_self, h_fab, h_tm,
        Dev.putFields_keep, Dev.ftStart_keep, h_ing]))
theorem Dev.tmActionArm_keep {pts : List Part} (d : Dev) (r : Req) (h_qf : pts.contains .qf = true) (h_hbm : pts.contains .hbm = true) (h_host :
    pts.contains .host = true) (h_bank : pts.contains .bank = true) (h_tm : pts.contains .tm = true) (h_ch : pts.contains .ch = true) (h_ln :
    pts.contains .ln = true) (h_ing : pts.contains .ing = true) (h_pipe : pts.contains .pipe = true) (h_ps : pts.contains .ps = true) (h_md :
    pts.contains .md = true) : VKeeps pts d (Dev.tmActionArm d r) := by
  unfold Dev.tmActionArm
  repeat' (first
    | (with_reducible refine vk_ite _ _ ?_)
    | (simp only [vk_err, vk_ok, apply_ite (Dev.without · pts), ite_self, h_qf, h_hbm, h_host, h_bank, h_tm, h_ch, h_ln, h_ing, h_pipe, h_ps, h_md,
        Dev.fire_keep, Dev.fadd_keep]; done)
    | (intro _)
    | split
    | (extract_lets)
    | (with_reducible refine (foldl_keep _ _ _ ?_).trans ?_)
    | (simp only [Dev.without, h_qf, h_hbm, h_host, h_bank, h_tm, h_ch, h_ln, h_ing, h_pipe, h_ps, h_md, if_true]; done)
    | (with_reducible refine (Dev.arm_keep _ _ h_tm (by assumption)).trans ?_)
    | (simp only [vk_ok, h_tm])
    | (simp +zetaDelta only [h_qf, h_hbm, h_host, h_bank, h_tm, h_ch, h_ln, h_ing, h_pipe, h_ps, h_md, Dev.fire_keep, Dev.fadd_keep]; done)
    | (simp +zetaDelta only [h_qf, h_hbm, h_host, h_bank, h_tm, h_ch, h_ln, h_ing, h_pipe, h_ps, h_md, Dev.fire_keep, Dev.fadd_keep]))
theorem Dev.tmTrigInSet_keep {pts : List Part} (d : Dev) (r : Req) (h_fab : pts.contains .fab = true) (h_tm : pts.contains .tm = true) :
    VKeeps pts d (Dev.tmTrigInSet d r) := by
  unfold Dev.tmTrigInSet
  repeat' (first
    | (with_reducible refine vk_ite _ _ ?_)
    | (simp only [vk_ok, h_fab, h_tm, Dev.modTm_keep, Dev.putFields_keep]; done)
    | (intro _)
    | split
    | (extract_lets)
    | (with_reducible refine (foldl_keep _ _ _ ?_).trans ?_)
    | (simp only [Dev.without, h_fab, h_tm, if_true]; done)
    | (simp only [vk_err, vk_turned, vk_ok, vk_job, foldl_keep, apply_ite (Dev.without · pts), ite_self, h_fab, h_tm, Dev.modTm_keep,
        Dev.putFields_keep])
    | (simp +zetaDelta only [vk_err, vk_turned, vk_ok, vk_job, foldl_keep, apply_ite (Dev.without · pts), ite_self, h_fab, h_tm, Dev.modTm_keep,
        Dev.putFields_keep]; done)
    | (simp +zetaDelta only [vk_err, vk_turned, vk_ok, vk_job, foldl_keep, apply_ite (Dev.without · pts), ite_self, h_fab, h_tm, Dev.modTm_keep,
        Dev.putFields_keep]))
theorem Dev.modSc_keep {pts : List Part} (d : Dev) (f : ScanSt → ScanSt) (h_sc : pts.contains .sc = true) :
    (Dev.modSc d f).without pts = d.without pts := by
  unfold Dev.modSc
  simp only [h_sc, upd_sc_keep]
theorem Dev.modLayer_keep {pts : List Part} (d : Dev) (k : Nat) (f : ScanLayer → ScanLayer) (h_sc : pts.contains .sc = true) :
    (Dev.modLayer d k f).without pts = d.without pts := by
  unfold Dev.modLayer
  simp only [h_sc, Dev.modSc_keep]
theorem Dev.modSink_keep {pts : List Part} (d : Dev) (n : Nat) (f : Sink → Sink) (h_sc : pts.contains .sc = true) :
    (Dev.modSink d n f).without pts = d.without pts := by
  unfold Dev.modSink
  simp only [h_sc, Dev.modSc_keep]
theorem Dev.scCfgErr_keep {pts : List Part} (d : Dev) (m obj : Nat) : (Dev.scCfgErr d m obj).without pts = d.without pts := by
  unfold Dev.scCfgErr
  simp only [Dev.raise_keep]
theorem Dev.scCheck_keep {pts : List Part} (d : Dev) (y : Nat) (h_sc : pts.contains .sc = true) : (Dev.scCheck d y).without pts = d.without pts := by
  unfold Dev.scCheck
  repeat' (first
    | (with_reducible rfl)
    | (simp only [apply_ite (Dev.without · pts), ite_self, h_sc, Dev.fadd_keep, Dev.mismatch_keep, Dev.modSc_keep]; done)
    | (intro _)
    | split
    | (with_reducible refine (foldl_keep _ _ _ ?_).trans ?_)
    | (simp only [Dev.without, h_sc, if_true]; done)
    | (simp only [foldl_keep, apply_ite (Dev.without · pts), ite_self, h_sc, Dev.fadd_keep, Dev.mismatch_keep, Dev.modSc_keep]))
theorem Dev.scTouch_keep {pts : List Part} (d : Dev) (h_sc : pts.contains .sc = true) : (Dev.scTouch d).without pts = d.without pts := by
  unfold Dev.scTouch
  (try simp only [foldl_keep, apply_ite (Dev.without · pts), ite_self, h_sc, Dev.modLayer_keep])
  repeat' (first
    | (with_reducible rfl)
    | (simp only [apply_ite (Dev.without · pts), ite_self, h_sc, Dev.modLayer_keep]; done)
    | (intro _)
    | split
    | (with_reducible refine (foldl_keep _ _ _ ?_).trans ?_)
    | (simp only [Dev.without, h_sc, if_true]; done)
    | (simp only [foldl_keep, apply_ite (Dev.without · pts), ite_self, h_sc, Dev.modLayer_keep]))
theorem Dev.leaseCheck_keep {pts : List Part} (d : Dev) (k : Nat) (h_sc : pts.contains .sc = true) :
    (Dev.leaseCheck d k).without pts = d.without pts := by
  unfold Dev.leaseCheck
  repeat' (first
    | (with_reducible rfl)
    | (simp only [apply_ite (Dev.without · pts), ite_self, h_sc, Dev.fadd_keep, Dev.fs_keep, Dev.modLayer_keep, Dev.raiseOnce_keep]; done)
    | (intro _)
    | split
    | (with_reducible refine (foldl_keep _ _ _ ?_).trans ?_)
    | (simp only [Dev.without, h_sc, if_true]; done)
    | (simp only [foldl_keep, apply_ite (Dev.without · pts), ite_self, h_sc, Dev.fadd_keep, Dev.fs_keep, Dev.modLayer_keep, Dev.raiseOnce_keep]))
theorem Dev.drawTo_keep {pts : List Part} (d : Dev) (y : Nat) (h_sc : pts.contains .sc = true) : (Dev.drawTo d y).without pts = d.without pts := by
  unfold Dev.drawTo
  (try simp only [apply_ite (Dev.without · pts), h_sc, Dev.scTouch_keep, Dev.modSc_keep, Dev.fs_keep, Dev.leaseCheck_keep, Dev.scCheck_keep])
  repeat' (first
    | (with_reducible rfl)
    | (simp only [h_sc, Dev.scCheck_keep, Dev.fs_keep, Dev.leaseCheck_keep, Dev.modSc_keep, Dev.scTouch_keep]; done)
    | (intro _)
    | split
    | (with_reducible refine (foldl_keep _ _ _ ?_).trans ?_)
    | (simp only [Dev.without, h_sc, if_true]; done)
    | (simp only [foldl_keep, apply_ite (Dev.without · pts), ite_self, h_sc, Dev.scTouch_keep, Dev.scCheck_keep, Dev.modSc_keep, Dev.fs_keep,
        Dev.leaseCheck_keep]))
theorem Dev.drawSome_keep {pts : List Part} (d : Dev) (h_sc : pts.contains .sc = true) : (Dev.drawSome d).without pts = d.without pts := by
  unfold Dev.drawSome
  simp only [h_sc, Dev.drawTo_keep, Dev.useFree_keep]
theorem Dev.baseFeed_keep {pts : List Part} (d : Dev) (j : Nat) (h_qf : pts.contains .qf = true) (h_hbm : pts.contains .hbm = true) (h_host :
    pts.contains .host = true) : (Dev.baseFeed d j).without pts = d.without pts := by
  unfold Dev.baseFeed
  repeat' (first
    | (with_reducible rfl)
    | (simp only [apply_ite (Dev.without · pts), ite_self, h_qf, h_hbm, h_host, Dev.enqueue_keep]; done)
    | (intro _)
    | split
    | (with_reducible refine (foldl_keep _ _ _ ?_).trans ?_)
    | (simp only [Dev.without, h_qf, h_hbm, h_host, if_true]; done)
    | (simp only [foldl_keep, apply_ite (Dev.without · pts), ite_self, h_qf, h_hbm, h_host, Dev.enqueue_keep]))
theorem Dev.retire_keep {pts : List Part} (d : Dev) (k : Nat) (b : ScanBuf) (h_qf : pts.contains .qf = true) (h_hbm : pts.contains .hbm = true)
    (h_host : pts.contains .host = true) : (Dev.retire d k b).without pts = d.without pts := by
  unfold Dev.retire
  simp only [apply_ite (Dev.without · pts), ite_self, h_qf, h_hbm, h_host, Dev.baseFeed_keep, Dev.endOp_keep, Dev.useFree_keep]
theorem Dev.retireDue_keep {pts : List Part} (d : Dev) (k : Nat) (h_qf : pts.contains .qf = true) (h_hbm : pts.contains .hbm = true) (h_host :
    pts.contains .host = true) (h_sc : pts.contains .sc = true) : (Dev.retireDue d k).without pts = d.without pts := by
  unfold Dev.retireDue
  (try simp only [apply_ite (Dev.without · pts), ite_self, Dev.jobDecided_keep])
  repeat' (first
    | (with_reducible rfl)
    | (simp only [h_qf, h_hbm, h_host, h_sc, Dev.modLayer_keep, Dev.retire_keep]; done)
    | (intro _)
    | split
    | (with_reducible refine (foldl_keep _ _ _ ?_).trans ?_)
    | (simp only [Dev.without, h_qf, h_hbm, h_host, h_sc, if_true]; done)
    | (simp only [foldl_keep, apply_ite (Dev.without · pts), ite_self, h_qf, h_hbm, h_host, h_sc, Dev.modLayer_keep, Dev.retire_keep,
        Dev.jobDecided_keep]))
theorem Dev.syncLayer_keep {pts : List Part} (d : Dev) (k : Nat) : (Dev.syncLayer d k).without pts = d.without pts := by
  unfold Dev.syncLayer
  (try simp only [foldl_keep, apply_ite (Dev.without · pts), ite_self, Dev.fs_keep, Dev.set64_keep, Dev.wr_keep])
  repeat' (first
    | (with_reducible rfl)
    | (simp only [Dev.fs_keep, Dev.set64_keep, Dev.wr_keep]; done)
    | (intro _)
    | split
    | (with_reducible refine (foldl_keep _ _ _ ?_).trans ?_)
    | (simp only [foldl_keep, apply_ite (Dev.without · pts), ite_self, Dev.fs_keep, Dev.set64_keep, Dev.wr_keep]))
theorem Dev.take_keep {pts : List Part} (d : Dev) (k : Nat) (b : Option ScanBuf) (h_sc : pts.contains .sc = true) :
    (Dev.take d k b).without pts = d.without pts := by
  unfold Dev.take
  simp only [h_sc, Dev.syncLayer_keep, Dev.modLayer_keep]
theorem Dev.baseIntake_keep {pts : List Part} (d : Dev) (h_qf : pts.contains .qf = true) (h_hbm : pts.contains .hbm = true) (h_host :
    pts.contains .host = true) (h_sc : pts.contains .sc = true) : (Dev.baseIntake d).without pts = d.without pts := by
  unfold Dev.baseIntake
  repeat' (first
    | (with_reducible rfl)
    | (simp only [apply_ite (Dev.without · pts), ite_self, h_qf, h_hbm, h_host, h_sc, Dev.setQ_keep, Dev.baseFeed_keep, Dev.modSc_keep]; done)
    | (intro _)
    | split
    | (with_reducible refine (foldl_keep _ _ _ ?_).trans ?_)
    | (simp only [Dev.without, h_qf, h_hbm, h_host, h_sc, if_true]; done)
    | (simp only [foldl_keep, apply_ite (Dev.without · pts), ite_self, h_qf, h_hbm, h_host, h_sc, Dev.setQ_keep, Dev.baseFeed_keep, Dev.modSc_keep]))
theorem Dev.baseTake_keep {pts : List Part} (d : Dev) (h_qf : pts.contains .qf = true) (h_hbm : pts.contains .hbm = true) (h_host :
    pts.contains .host = true) (h_sc : pts.contains .sc = true) : (Dev.baseTake d).without pts = d.without pts := by
  unfold Dev.baseTake
  repeat' (first
    | (with_reducible rfl)
    | (simp only [h_qf, h_hbm, h_host, h_sc, Dev.fadd_keep, Dev.baseFeed_keep, Dev.modSc_keep, Dev.take_keep]; done)
    | (intro _)
    | split
    | (with_reducible refine (foldl_keep _ _ _ ?_).trans ?_)
    | (simp only [Dev.without, h_qf, h_hbm, h_host, h_sc, if_true]; done)
    | (simp only [h_sc, Dev.modSc_keep, Dev.take_keep]))
theorem Dev.skipFlip_keep {pts : List Part} (d : Dev) (o : Op) (h_qf : pts.contains .qf = true) (h_hbm : pts.contains .hbm = true) (h_host :
    pts.contains .host = true) : (Dev.skipFlip d o).without pts = d.without pts := by
  unfold Dev.skipFlip
  simp only [h_qf, h_hbm, h_host, Dev.endOp_keep, Dev.useFree_keep]
theorem Dev.flipTake_keep {pts : List Part} (d : Dev) (k : Nat) (h_qf : pts.contains .qf = true) (h_hbm : pts.contains .hbm = true) (h_host :
    pts.contains .host = true) (h_sc : pts.contains .sc = true) : (Dev.flipTake d k).without pts = d.without pts := by
  unfold Dev.flipTake
  (try simp only [apply_ite (Dev.without · pts)])
  repeat' (first
    | (with_reducible rfl)
    | (simp only [h_qf, h_hbm, h_host, h_sc, Dev.take_keep, Dev.skipFlip_keep]; done)
    | (intro _)
    | split
    | (with_reducible refine (foldl_keep _ _ _ ?_).trans ?_)
    | (simp only [Dev.without, h_qf, h_hbm, h_host, h_sc, if_true]; done)
    | (simp only [h_sc, Dev.take_keep]))
theorem Dev.scStart_keep {pts : List Part} (d : Dev) (whole : Bool) (h_qf : pts.contains .qf = true) (h_hbm : pts.contains .hbm = true) (h_host :
    pts.contains .host = true) (h_sc : pts.contains .sc = true) : (Dev.scStart d whole).without pts = d.without pts := by
  unfold Dev.scStart
  extract_lets d1 n d2 d3 vb d4 d5 d6 d7
  have h1 : d1.without pts = d.without pts := by
    simp only [d1, apply_ite (Dev.without · pts), Dev.drawTo_keep, ite_self, h_sc]
  have h3 : d3.without pts = d.without pts := by
    simp only [d3, d2, Dev.fs_keep, Dev.modSc_keep, h_sc]
    exact h1
  have h4 : d4.without pts = d.without pts := by
    simp only [d4, apply_ite (Dev.without · pts), Dev.raise_keep, Dev.fs_keep, ite_self]
    exact h3
  have h5 : d5.without pts = d.without pts := (foldl_keep _ _ _ (fun e x => by simp only [Dev.fs_keep])).trans h4
  have h6 : d6.without pts = d.without pts :=
    (foldl_keep _ _ _ (fun e x => Dev.flipTake_keep e x h_qf h_hbm h_host h_sc)).trans ((Dev.baseTake_keep d5 h_qf h_hbm h_host h_sc).trans h5)
  have h7 : d7.without pts = d.without pts := by
    simp only [d7, Dev.modSc_keep, h_sc]
    exact h6
  exact (foldl_keep _ _ _ (fun e x => by simp only [Dev.leaseCheck_keep, Dev.retireDue_keep, h_sc, h_qf, h_hbm, h_host])).trans h7
theorem Dev.scFrame_keep {pts : List Part} (d : Dev) (h_qf : pts.contains .qf = true) (h_hbm : pts.contains .hbm = true) (h_host :
    pts.contains .host = true) (h_sc : pts.contains .sc = true) : (Dev.scFrame d).without pts = d.without pts := by
  unfold Dev.scFrame
  simp only [apply_ite (Dev.without · pts), ite_self, h_qf, h_hbm, h_host, h_sc, Dev.baseIntake_keep, Dev.fs_keep, Dev.drawTo_keep, Dev.scStart_keep]
theorem Dev.scExpire_keep {pts : List Part} (d : Dev) (h_qf : pts.contains .qf = true) (h_hbm : pts.contains .hbm = true) (h_host :
    pts.contains .host = true) (h_sc : pts.contains .sc = true) : (Dev.scExpire d).without pts = d.without pts := by
  unfold Dev.scExpire
  simp only [apply_ite (Dev.without · pts), ite_self, h_qf, h_hbm, h_host, h_sc, Dev.baseIntake_keep, Dev.scStart_keep, Dev.fadd_keep]
theorem Dev.scUnderrun_keep {pts : List Part} (d : Dev) (k line : Nat) (h_sc : pts.contains .sc = true) :
    (Dev.scUnderrun d k line).without pts = d.without pts := by
  unfold Dev.scUnderrun
  simp only [apply_ite (Dev.without · pts), ite_self, h_sc, Dev.drawTo_keep, Dev.fadd_keep, Dev.fs_keep, Dev.modLayer_keep, Dev.raiseOnce_keep]
theorem Dev.dpTrain_keep {pts : List Part} (d : Dev) (n : Nat) (h_sc : pts.contains .sc = true) : (Dev.dpTrain d n).without pts = d.without pts := by
  unfold Dev.dpTrain
  simp only [h_sc, Dev.modSink_keep, Dev.fs_keep]
theorem Dev.hpdSet_keep {pts : List Part} (d : Dev) (n : Nat) (b : Bool) : (Dev.hpdSet d n b).without pts = d.without pts := by
  unfold Dev.hpdSet
  simp only [Dev.raise_keep, Dev.fs_keep]
theorem Dev.hpdChange_keep {pts : List Part} (d : Dev) (n kind : Nat) (lost : Bool) (edid dpcd : List Byte) (h_sc : pts.contains .sc = true) :
    (Dev.hpdChange d n kind lost edid dpcd).without pts = d.without pts := by
  unfold Dev.hpdChange
  repeat' (first
    | (with_reducible rfl)
    | (simp only [apply_ite (Dev.without · pts), ite_self, h_sc, Dev.hpdSet_keep, Dev.modSink_keep, Dev.dpTrain_keep, Dev.fadd_keep]; done)
    | (intro _)
    | split
    | (with_reducible refine (foldl_keep _ _ _ ?_).trans ?_)
    | (simp only [Dev.without, h_sc, if_true]; done)
    | (simp only [foldl_keep, apply_ite (Dev.without · pts), ite_self, h_sc, Dev.hpdSet_keep, Dev.modSink_keep, Dev.dpTrain_keep, Dev.fadd_keep]))
theorem Dev.dpDone_keep {pts : List Part} (d : Dev) (n : Nat) (ok : Bool) (h_sc : pts.contains .sc = true) :
    (Dev.dpDone d n ok).without pts = d.without pts := by
  unfold Dev.dpDone
  simp only [apply_ite (Dev.without · pts), ite_self, h_sc, Dev.modSink_keep, Dev.fs_keep, Dev.raise_keep]
theorem Dev.scApply_keep {pts : List Part} (d e : Dev) (h_qf : pts.contains .qf = true) (h_hbm : pts.contains .hbm = true) (h_host :
    pts.contains .host = true) (h_sc : pts.contains .sc = true) (h : d.scApply = some e) :
    e.without pts = d.without pts := by
  unfold Dev.scApply at h
  simp only at h
  split at h
  · cases h
  · obtain rfl := Option.some.inj h
    simp only [Dev.raise_keep, Dev.scStart_keep, apply_ite (Dev.without · pts), Dev.fadd_keep, Dev.baseIntake_keep, Dev.fs_keep, Dev.modSc_keep,
        Dev.drawSome_keep, ite_self, h_qf, h_hbm, h_host, h_sc]
theorem Dev.effScGo_keep {pts : List Part} (d : Dev) (m : Nat) (v : Word) (h_fab : pts.contains .fab = true) (h_qf : pts.contains .qf = true)
    (h_hbm : pts.contains .hbm = true) (h_host : pts.contains .host = true) (h_sc : pts.contains .sc = true) :
    (Dev.effScGo d m v).without pts = d.without pts := by
  unfold Dev.effScGo
  split
  · simp only [Dev.putFields_keep, h_fab]
  · split
    · rename_i e h
      exact Dev.scApply_keep d e h_qf h_hbm h_host h_sc h
    · simp only [Dev.scCfgErr_keep, Dev.fs_keep]
theorem Dev.flipDispatched_keep {pts : List Part} (d : Dev) (o : Op) (h_fab : pts.contains .fab = true) (h_qf : pts.contains .qf = true) (h_hbm :
    pts.contains .hbm = true) (h_host : pts.contains .host = true) : (Dev.flipDispatched d o).without pts = d.without pts := by
  unfold Dev.flipDispatched
  repeat' (first
    | (with_reducible rfl)
    | (simp only [apply_ite (Dev.without · pts), ite_self, h_fab, h_qf, h_hbm, h_host, Dev.endOp_keep, Dev.scCfgErr_keep, Dev.dmaOutside_keep]; done)
    | (intro _)
    | split
    | (with_reducible refine (foldl_keep _ _ _ ?_).trans ?_)
    | (simp only [Dev.without, h_fab, h_qf, h_hbm, h_host, if_true]; done)
    | (simp only [foldl_keep, apply_ite (Dev.without · pts), ite_self, h_fab, h_qf, h_hbm, h_host, Dev.endOp_keep, Dev.scCfgErr_keep,
        Dev.dmaOutside_keep]))
theorem Dev.flipEntry_keep {pts : List Part} (d : Dev) (k : Nat) (h_fab : pts.contains .fab = true) (h_qf : pts.contains .qf = true) (h_hbm :
    pts.contains .hbm = true) (h_host : pts.contains .host = true) : (Dev.flipEntry d k).without pts = d.without pts := by
  unfold Dev.flipEntry
  (try simp only [apply_ite (Dev.without · pts)])
  repeat' (first
    | (with_reducible rfl)
    | (simp only [apply_ite (Dev.without · pts), ite_self, h_fab, h_qf, h_hbm, h_host, Dev.dispatchFrom_keep, Dev.flipDispatched_keep]; done)
    | (intro _)
    | split
    | (with_reducible refine (foldl_keep _ _ _ ?_).trans ?_)
    | (simp only [Dev.without, h_fab, h_qf, h_hbm, h_host, if_true]; done)
    | (simp only [foldl_keep, apply_ite (Dev.without · pts), ite_self, h_fab, h_qf, h_hbm, h_host, Dev.dispatchFrom_keep, Dev.flipDispatched_keep]))
theorem Dev.scTimingSet_keep {pts : List Part} (d : Dev) (r : Req) (h_fab : pts.contains .fab = true) (h_qf : pts.contains .qf = true) (h_hbm :
    pts.contains .hbm = true) (h_host : pts.contains .host = true) (h_sc : pts.contains .sc = true) : VKeeps pts d (Dev.scTimingSet d r) := by
  unfold Dev.scTimingSet
  simp only
  split
  · rw [vk_err]; trivial
  · split
    · rename_i e h
      rw [vk_ok]
      exact (Dev.scApply_keep _ e h_qf h_hbm h_host h_sc h).trans (foldl_keep _ _ _ (fun a p => Dev.putFields_keep a _ _ _ _ h_fab))
    · simp only [vk_turned, Dev.fs_keep, Dev.scCfgErr_keep]
theorem Dev.scOutputSet_keep {pts : List Part} (d : Dev) (r : Req) (h_sc : pts.contains .sc = true) : VKeeps pts d (Dev.scOutputSet d r) := by
  unfold Dev.scOutputSet
  repeat' (first
    | (with_reducible refine vk_ite _ _ ?_)
    | (simp only [vk_job, apply_ite (Dev.without · pts), ite_self, h_sc, Dev.fs_keep, Dev.dpTrain_keep]; done)
    | (intro _)
    | split
    | (extract_lets)
    | (with_reducible refine (foldl_keep _ _ _ ?_).trans ?_)
    | (simp only [Dev.without, h_sc, if_true]; done)
    | (simp only [vk_job, h_sc, Dev.fs_keep, Dev.dpTrain_keep])
    | (simp +zetaDelta only [Dev.fs_keep]; done)
    | (simp +zetaDelta only [vk_err, vk_turned, vk_ok, vk_job, foldl_keep, apply_ite (Dev.without · pts), ite_self, h_sc, Dev.fs_keep,
        Dev.dpTrain_keep]))
theorem Dev.scBaseBind_keep {pts : List Part} (d : Dev) (r : Req) (h_qf : pts.contains .qf = true) (h_hbm : pts.contains .hbm = true) (h_host :
    pts.contains .host = true) (h_pipe : pts.contains .pipe = true) (h_sc : pts.contains .sc = true) : VKeeps pts d (Dev.scBaseBind d r) := by
  unfold Dev.scBaseBind
  extract_lets s n area size fmt live q q0 rq o1 e1 e2 e3 e4
  split
  · rw [vk_err]; trivial
  · split
    · rw [vk_err]; trivial
    · split
      · rw [vk_err]; trivial
      · split
        · rw [vk_err]; trivial
        · split
          · rw [vk_err]; trivial
          · have h4 : e4.without pts = d.without pts := by
              simp only [e4, e3, e2, Dev.fs_keep, Dev.modLayer_keep, Dev.take_keep, Dev.modSc_keep, h_sc]
              simp +zetaDelta only [Dev.setQ_keep, upd_oz_keep, h_qf]
            have h5 := Dev.outStreamStart_keep (pts := pts) e4 { r with object := s } h_pipe
            revert h5
            split
            · rename_i e a b c h
              intro h5
              rw [h, vk_ok] at h5
              rw [vk_ok]
              exact (foldl_keep _ _ _ (fun a p => Dev.baseFeed_keep a _ h_qf h_hbm h_host)).trans (h5.trans h4)
            · intro _
              rw [vk_err]; trivial
theorem Dev.scLayerBind_keep {pts : List Part} (d : Dev) (r : Req) (h_qf : pts.contains .qf = true) (h_sc : pts.contains .sc = true) :
    VKeeps pts d (Dev.scLayerBind d r) := by
  unfold Dev.scLayerBind
  repeat' (first
    | (with_reducible refine vk_ite _ _ ?_)
    | (simp only [vk_ok, h_qf, h_sc, upd_oz_keep, Dev.setQ_keep, Dev.fs_keep, Dev.modLayer_keep]; done)
    | (intro _)
    | split
    | (extract_lets)
    | (with_reducible refine (foldl_keep _ _ _ ?_).trans ?_)
    | (simp only [Dev.without, h_qf, h_sc, if_true]; done)
    | (simp only [vk_err, vk_turned, vk_ok, vk_job, foldl_keep, apply_ite (Dev.without · pts), ite_self, h_qf, h_sc, upd_oz_keep, Dev.setQ_keep,
        Dev.fs_keep, Dev.modLayer_keep])
    | (simp +zetaDelta only [vk_err, vk_turned, vk_ok, vk_job, foldl_keep, apply_ite (Dev.without · pts), ite_self, h_qf, h_sc, upd_oz_keep,
        Dev.setQ_keep, Dev.fs_keep, Dev.modLayer_keep]; done)
    | (simp +zetaDelta only [vk_err, vk_turned, vk_ok, vk_job, foldl_keep, apply_ite (Dev.without · pts), ite_self, h_qf, h_sc, upd_oz_keep,
        Dev.setQ_keep, Dev.fs_keep, Dev.modLayer_keep]))
theorem Dev.scLayerUnbind_keep {pts : List Part} (d : Dev) (r : Req) (h_qf : pts.contains .qf = true) (h_hbm : pts.contains .hbm = true) (h_host :
    pts.contains .host = true) (h_sc : pts.contains .sc = true) : VKeeps pts d (Dev.scLayerUnbind d r) := by
  unfold Dev.scLayerUnbind
  repeat' (first
    | (with_reducible refine vk_ite _ _ ?_)
    | (simp only [vk_job, h_qf, h_hbm, h_host, h_sc, Dev.skipFlip_keep, Dev.drawSome_keep, Dev.take_keep, Dev.modLayer_keep]; done)
    | (intro _)
    | split
    | (extract_lets)
    | (with_reducible refine (foldl_keep _ _ _ ?_).trans ?_)
    | (simp only [Dev.without, h_qf, h_hbm, h_host, h_sc, if_true]; done)
    | (simp only [vk_job])
    | (simp +zetaDelta only [h_sc, Dev.take_keep, Dev.modLayer_keep]; done)
    | (simp +zetaDelta only [h_sc, Dev.take_keep, Dev.modLayer_keep]))
theorem Dev.layerGone_keep {pts : List Part} (d : Dev) (k : Nat) (h_qf : pts.contains .qf = true) (h_hbm : pts.contains .hbm = true) (h_host :
    pts.contains .host = true) (h_sc : pts.contains .sc = true) : (Dev.layerGone d k).without pts = d.without pts := by
  unfold Dev.layerGone
  (try simp only [h_qf, h_sc, Dev.fs_keep, Dev.modLayer_keep, Dev.destroyQ_keep])
  repeat' (first
    | (with_reducible rfl)
    | (simp only [h_qf, h_hbm, h_host, Dev.returnRole_keep]; done)
    | (intro _)
    | split
    | (with_reducible refine (foldl_keep _ _ _ ?_).trans ?_)
    | (simp only [Dev.without, h_qf, h_hbm, h_host, h_sc, if_true]; done)
    | (simp only [foldl_keep, apply_ite (Dev.without · pts), ite_self, h_qf, h_hbm, h_host, h_sc, Dev.returnRole_keep, Dev.fs_keep,
        Dev.modLayer_keep, Dev.destroyQ_keep]))
theorem Dev.modTw_keep {pts : List Part} (d : Dev) (f : TwinSt → TwinSt) (h_tw : pts.contains .tw = true) :
    (Dev.modTw d f).without pts = d.without pts := by
  unfold Dev.modTw
  simp only [h_tw, upd_tw_keep]
theorem Dev.twEv_keep {pts : List Part} (d : Dev) (code sev : Nat) (d1 : Nat) : (Dev.twEv d code sev d1).without pts = d.without pts := by
  unfold Dev.twEv
  simp only [Dev.raise_keep]
theorem Dev.setTwRole_keep {pts : List Part} (d : Dev) (n : Nat) : (Dev.setTwRole d n).without pts = d.without pts := by
  unfold Dev.setTwRole
  simp only [Dev.fs_keep]
theorem Dev.setActive_keep {pts : List Part} (d : Dev) (b : Bool) (h_pins : pts.contains .pins = true) :
    (Dev.setActive d b).without pts = d.without pts := by
  unfold Dev.setActive
  simp only [h_pins, upd_pins_keep, Dev.fs_keep]
theorem Dev.setHot_keep {pts : List Part} (d : Dev) (b : Bool) : (Dev.setHot d b).without pts = d.without pts := by
  unfold Dev.setHot
  simp only [Dev.fs_keep]
theorem Dev.nextPair_keep {pts : List Part} (d : Dev) : (Dev.nextPair d).without pts = d.without pts := by
  unfold Dev.nextPair
  simp only [Dev.fs_keep]
theorem Dev.twCtrl_keep {pts : List Part} (d : Dev) (op start reason : Nat) (h_tw : pts.contains .tw = true) :
    (Dev.twCtrl d op start reason).without pts = d.without pts := by
  unfold Dev.twCtrl
  simp only [h_tw, Dev.twSend_keep]
theorem Dev.twRx_keep {pts : List Part} (d : Dev) (epoch : Nat) (crcOk : Bool) (f : Dev → Dev) (hf : ∀ (y0 : Dev),
    (f y0).without pts = y0.without pts) : (Dev.twRx d epoch crcOk f).without pts = d.without pts := by
  unfold Dev.twRx
  simp only [apply_ite (Dev.without · pts), ite_self, hf, Dev.fadd_keep]
theorem Dev.attachNow_keep {pts : List Part} (d : Dev) (h_tw : pts.contains .tw = true) : (Dev.attachNow d).without pts = d.without pts := by
  unfold Dev.attachNow
  simp only [h_tw, Dev.twCtrl_keep, Dev.modTw_keep, Dev.setHot_keep, Dev.setTwRole_keep]
theorem Dev.followClip_keep {pts : List Part} (d : Dev) (x : Nat × Nat × Nat × List (List Byte)) (h_qf : pts.contains .qf = true) (h_hbm :
    pts.contains .hbm = true) (h_host : pts.contains .host = true) (h_md : pts.contains .md = true) {e0 : Dev} (h : Dev.followClip d x = some e0) :
    e0.without pts = d.without pts := by
  unfold Dev.followClip at h
  try simp only at h
  repeat' split at h
  all_goals first
    | (cases h; done)
    | (first
      | obtain rfl := Option.some.inj h
      | (simp only [Option.some.injEq, Prod.mk.injEq] at h; obtain ⟨rfl, rfl⟩ := h)
      | (simp only [Option.some.injEq, Prod.mk.injEq] at h; obtain ⟨rfl, rfl, rfl⟩ := h)
      | skip); (try simp only [h_qf, h_hbm, h_host, h_md, upd_oz_keep, Dev.setQ_keep, Dev.feedRec_keep, Dev.syncClips_keep,
          Dev.modMd_keep]); repeat' (first
        | (with_reducible rfl)
        | (simp only [foldl_keep, apply_ite (Dev.without · pts), ite_self, h_qf, h_hbm, h_host, h_md, upd_oz_keep, Dev.alloc_keep, Dev.setQ_keep,
            Dev.feedRec_keep, Dev.syncClips_keep, Dev.modMd_keep]; done)
        | (intro _)
        | split
        | (with_reducible refine (foldl_keep _ _ _ ?_).trans ?_)
        | (simp only [Dev.without, h_qf, h_hbm, h_host, h_md, if_true]; done)
        | (with_reducible refine (Dev.alloc_keep _ _ _ _ h_hbm (by assumption)).trans ?_)
        | (simp only [foldl_keep, apply_ite (Dev.without · pts), ite_self, h_qf, h_hbm, h_host, h_md, upd_oz_keep, Dev.alloc_keep, Dev.setQ_keep,
            Dev.feedRec_keep, Dev.syncClips_keep, Dev.modMd_keep]))
theorem Dev.followRuns_keep {pts : List Part} (d : Dev) (x : TwinLoad) (h_qf : pts.contains .qf = true) (h_hbm : pts.contains .hbm = true) (h_host
    : pts.contains .host = true) (h_bank : pts.contains .bank = true) (h_ing : pts.contains .ing = true) (h_pipe : pts.contains .pipe = true) (h_ps
    : pts.contains .ps = true) : (Dev.followRuns d x).without pts = d.without pts := by
  unfold Dev.followRuns
  extract_lets d1 s1 d2
  have h1 : d1.without pts = d.without pts := by
    refine foldl_keep _ _ _ (fun e c => ?_)
    split
    · split
      · rfl
      · exact Dev.camStart_keep e c h_ing h_pipe
    · exact Dev.camStop_keep e c h_ing h_pipe
    · rfl
  have h2 : d2.without pts = d.without pts := by
    refine Eq.trans (foldl_keep _ _ _ (fun e n => ?_)) h1
    split
    · split
      · rfl
      · have hs := Dev.outStreamStart_keep (pts := pts) e { ozReq with object := n } h_pipe
        split
        · rename_i y a b c hx
          rw [hx, vk_ok] at hs
          exact hs
        · rfl
    · split
      · exact (Dev.settleStops_keep _ h_qf h_hbm h_host h_pipe).trans (Dev.modStr_keep e n _ h_pipe)
      · rfl
    · rfl
  refine Eq.trans (foldl_keep _ _ _ (fun e p => ?_)) h2
  extract_lets run
  split
  · have hs := Dev.codecStreamStart_keep (pts := pts) e { ozReq with object := p.1 } h_qf h_hbm h_host h_bank h_pipe h_ps
    split
    · rename_i y a b c hx
      rw [hx, vk_ok] at hs
      exact hs
    · rfl
  · split
    · exact (Dev.psSettle_keep _ _ h_qf h_hbm h_host h_bank h_pipe h_ps).trans (Dev.modPs_keep e _ _ h_ps)
    · rfl
theorem Dev.followCfg_keep {pts : List Part} (d : Dev) (x : TwinLoad) (h_hbm : pts.contains .hbm = true) (h_tm : pts.contains .tm = true) (h_tw :
    pts.contains .tw = true) (h_pipe : pts.contains .pipe = true) (h_ps : pts.contains .ps = true) (h_md : pts.contains .md = true) :
    (Dev.followCfg d x).without pts = d.without pts := by
  unfold Dev.followCfg
  extract_lets words cams s1 d1 d2 d3 d4 d5 boots clips
  have h1 : d1.without pts = d.without pts := upd_regs_pipe_keep d _ _ h_pipe
  have h2 : d2.without pts = d.without pts :=
    (foldl_keep _ _ _ (fun e p => Dev.modPs_keep e _ _ h_ps)).trans h1
  have h3 : d3.without pts = d.without pts := by
    simp only [d3]
    split
    · exact (Dev.modMd_keep d2 _ h_md).trans h2
    · exact h2
  have h4 : d4.without pts = d.without pts := by
    refine Eq.trans (foldl_keep _ _ _ (fun e r => ?_)) h3
    have hs := Dev.mdBurstArm_keep (pts := pts) e r h_hbm h_md
    split
    · rename_i y a b c hx
      rw [hx, vk_ok] at hs
      exact hs
    · rfl
  have h5 : d5.without pts = d.without pts := by
    refine Eq.trans (foldl_keep _ _ _ (fun e b => ?_)) h4
    cases ha : e.actOf 0x40 b with
    | none => rfl
    | some a =>
      rw [Option.bind_some]
      split
      · rename_i y hx
        exact Dev.arm_keep e a h_tm hx
      · rfl
  exact (Dev.modTw_keep d5 _ h_tw).trans h5
theorem Dev.follow_keep {pts : List Part} (d : Dev) (x : TwinLoad) (h_qf : pts.contains .qf = true) (h_hbm : pts.contains .hbm = true) (h_host :
    pts.contains .host = true) (h_bank : pts.contains .bank = true) (h_tm : pts.contains .tm = true) (h_tw : pts.contains .tw = true) (h_ch :
    pts.contains .ch = true) (h_ln : pts.contains .ln = true) (h_ing : pts.contains .ing = true) (h_pipe : pts.contains .pipe = true) (h_ps :
    pts.contains .ps = true) (h_md : pts.contains .md = true) {e0 : Dev} (h : Dev.follow d x = some e0) : e0.without pts = d.without pts := by
  unfold Dev.follow at h
  split at h
  · cases h
  · rename_i e hx
    have h1 := foldl_keepO (pts := pts) _ _ _ (fun _ => rfl) (fun a c b hb => Dev.followClip_keep a c h_qf h_hbm h_host h_md hb) hx
    obtain rfl := Option.some.inj h
    refine (foldl_keep _ _ _ (fun a p => Dev.recStop_keep a _ _ h_qf h_hbm h_host h_bank h_tm h_ch h_ln h_pipe h_ps h_md)).trans (h1.trans ?_)
    exact (Dev.followRuns_keep _ x h_qf h_hbm h_host h_bank h_ing h_pipe h_ps).trans (Dev.followCfg_keep d x h_hbm h_tm h_tw h_pipe h_ps h_md)
theorem Dev.twState_keep {pts : List Part} (d : Dev) (seg off : Nat) (bs : List Byte) (h_qf : pts.contains .qf = true) (h_hbm :
    pts.contains .hbm = true) (h_host : pts.contains .host = true) (h_bank : pts.contains .bank = true) (h_tm : pts.contains .tm = true) (h_tw :
    pts.contains .tw = true) (h_ch : pts.contains .ch = true) (h_ln : pts.contains .ln = true) (h_ing : pts.contains .ing = true) (h_pipe :
    pts.contains .pipe = true) (h_ps : pts.contains .ps = true) (h_md : pts.contains .md = true) :
    (Dev.twState d seg off bs).without pts = d.without pts := by
  unfold Dev.twState
  split
  · extract_lets rx d1
    have h1 : d1.without pts = d.without pts := (Dev.twSend_keep _ _ _ _ _ h_tw).trans (Dev.modTw_keep d _ h_tw)
    clear_value d1
    split
    · exact h1
    · split
      · exact (Dev.attachFails_keep d1 h_tw).trans h1
      · split
        · exact (Dev.attachFails_keep d1 h_tw).trans h1
        · rename_i e hx
          refine (Dev.modTw_keep _ _ h_tw).trans ((Dev.setTwRole_keep e _).trans ?_)
          exact (Dev.follow_keep _ _ h_qf h_hbm h_host h_bank h_tm h_tw h_ch h_ln h_ing h_pipe h_ps h_md hx).trans h1
  · split
    · split
      · rfl
      · rename_i e hx
        exact (Dev.modTw_keep e _ h_tw).trans (Dev.follow_keep _ _ h_qf h_hbm h_host h_bank h_tm h_tw h_ch h_ln h_ing h_pipe h_ps h_md hx)
    · rfl
theorem Dev.attachReq_keep {pts : List Part} (d : Dev) (major : Nat) (h_tw : pts.contains .tw = true) :
    (Dev.attachReq d major).without pts = d.without pts := by
  unfold Dev.attachReq
  simp only [apply_ite (Dev.without · pts), ite_self, h_tw, Dev.twCtrl_keep, Dev.twEv_keep, Dev.modTw_keep]
theorem Dev.freezeBase_keep {pts : List Part} (d : Dev) (h_tw : pts.contains .tw = true) : (Dev.freezeBase d).without pts = d.without pts := by
  unfold Dev.freezeBase
  (try simp only [apply_ite (Dev.without · pts)])
  repeat' (first
    | (with_reducible rfl)
    | (simp only [h_tw, Dev.useFree_keep, Dev.modTw_keep, Dev.twSend_keep]; done)
    | (intro _)
    | split
    | (with_reducible refine (foldl_keep _ _ _ ?_).trans ?_)
    | (simp only [Dev.without, h_tw, if_true]; done)
    | (simp only [foldl_keep, apply_ite (Dev.without · pts), ite_self, h_tw, Dev.useFree_keep, Dev.modTw_keep, Dev.twSend_keep]))
theorem Dev.attachRefused_keep {pts : List Part} (d : Dev) (reason : Nat) (h_tw : pts.contains .tw = true) :
    (Dev.attachRefused d reason).without pts = d.without pts := by
  unfold Dev.attachRefused
  simp only [apply_ite (Dev.without · pts), ite_self, h_tw, Dev.jobDecided_keep, Dev.modTw_keep, Dev.setTwRole_keep]
theorem Dev.becomeHot_keep {pts : List Part} (d : Dev) (h_tw : pts.contains .tw = true) : (Dev.becomeHot d).without pts = d.without pts := by
  unfold Dev.becomeHot
  simp only [h_tw, Dev.jobDecided_keep, Dev.twEv_keep, Dev.twCtrl_keep, Dev.modTw_keep, Dev.setHot_keep]
theorem Dev.hotCheck_keep {pts : List Part} (d : Dev) (ref : Nat) (h_tw : pts.contains .tw = true) :
    (Dev.hotCheck d ref).without pts = d.without pts := by
  unfold Dev.hotCheck
  (try simp only [apply_ite (Dev.without · pts)])
  repeat' (first
    | (with_reducible rfl)
    | (simp only [apply_ite (Dev.without · pts), ite_self, h_tw, Dev.becomeHot_keep, Dev.modTw_keep]; done)
    | (intro _)
    | split
    | (with_reducible refine (foldl_keep _ _ _ ?_).trans ?_)
    | (simp only [Dev.without, h_tw, if_true]; done)
    | (simp only [foldl_keep, apply_ite (Dev.without · pts), ite_self, h_tw, Dev.becomeHot_keep, Dev.modTw_keep]))
theorem Dev.partnerLost_keep {pts : List Part} (d : Dev) (cause : Nat) (h_tw : pts.contains .tw = true) :
    (Dev.partnerLost d cause).without pts = d.without pts := by
  unfold Dev.partnerLost
  simp only [apply_ite (Dev.without · pts), ite_self, h_tw, Dev.modTw_keep, Dev.jobDecided_keep, Dev.twEv_keep, Dev.setTwRole_keep,
      Dev.attachFails_keep]
theorem Dev.feedAlive_keep {pts : List Part} (d : Dev) (v : Nat) (h_integ : pts.contains .integ = true) :
    (Dev.feedAlive d v).1.without pts = d.without pts := by
  unfold Dev.feedAlive
  repeat' (first
    | (with_reducible rfl)
    | (simp only [h_integ, upd_integ_keep, Dev.fs_keep, Dev.fadd_keep, Dev.cvuEv_keep]; done)
    | (intro _)
    | split
    | (with_reducible refine (foldl_keep _ _ _ ?_).trans ?_)
    | (simp only [Dev.without, h_integ, if_true]; done)
    | (simp only [foldl_keep, apply_ite (Dev.without · pts), ite_self, h_integ, upd_integ_keep, Dev.fs_keep, Dev.fadd_keep, Dev.cvuEv_keep]))
theorem Dev.missBeats_keep {pts : List Part} (d : Dev) (n : Nat) (h_bank : pts.contains .bank = true) :
    (Dev.missBeats d n).without pts = d.without pts := by
  unfold Dev.missBeats
  simp only [apply_ite (Dev.without · pts), ite_self, h_bank, upd_bank_keep, Dev.fadd_keep, Dev.setPeerValid_keep]
theorem Dev.skewFrom_keep {pts : List Part} (d : Dev) (b : Beat) (h_tw : pts.contains .tw = true) :
    (Dev.skewFrom d b).without pts = d.without pts := by
  unfold Dev.skewFrom
  simp only [apply_ite (Dev.without · pts), ite_self, h_tw, Dev.fs_keep, Dev.modTw_keep, Dev.twEv_keep]
theorem Dev.becomeLead_keep {pts : List Part} (d : Dev) (h_qf : pts.contains .qf = true) (h_hbm : pts.contains .hbm = true) (h_host :
    pts.contains .host = true) (h_pins : pts.contains .pins = true) (h_tw : pts.contains .tw = true) (h_ch : pts.contains .ch = true) (h_ln :
    pts.contains .ln = true) (h_md : pts.contains .md = true) : (Dev.becomeLead d).without pts = d.without pts := by
  unfold Dev.becomeLead
  repeat' (first
    | (with_reducible rfl)
    | (simp only [h_qf, h_hbm, h_host, h_pins, h_tw, h_ch, h_ln, h_md, Dev.modTw_keep, Dev.setActive_keep, Dev.setTwRole_keep,
        Dev.fencePort_keep]; done)
    | (intro _)
    | split
    | (with_reducible refine (foldl_keep _ _ _ ?_).trans ?_)
    | (simp only [Dev.without, h_qf, h_hbm, h_host, h_pins, h_tw, h_ch, h_ln, h_md, if_true]; done)
    | (simp only [foldl_keep, apply_ite (Dev.without · pts), ite_self, h_qf, h_hbm, h_host, h_pins, h_tw, h_ch, h_ln, h_md, Dev.modTw_keep,
        Dev.setActive_keep, Dev.setTwRole_keep, Dev.fencePort_keep]))
theorem Dev.firstBeat_keep {pts : List Part} (d : Dev) (b : Beat) (h_qf : pts.contains .qf = true) (h_hbm : pts.contains .hbm = true) (h_host :
    pts.contains .host = true) (h_pins : pts.contains .pins = true) (h_tw : pts.contains .tw = true) (h_ch : pts.contains .ch = true) (h_ln :
    pts.contains .ln = true) (h_md : pts.contains .md = true) : (Dev.firstBeat d b).without pts = d.without pts := by
  unfold Dev.firstBeat
  simp only [apply_ite (Dev.without · pts), ite_self, h_qf, h_hbm, h_host, h_pins, h_tw, h_ch, h_ln, h_md, Dev.attachNow_keep, Dev.becomeLead_keep]
theorem Dev.validBeat_keep {pts : List Part} (d : Dev) (b : Beat) (h_qf : pts.contains .qf = true) (h_hbm : pts.contains .hbm = true) (h_host :
    pts.contains .host = true) (h_bank : pts.contains .bank = true) (h_pins : pts.contains .pins = true) (h_tw : pts.contains .tw = true) (h_ch :
    pts.contains .ch = true) (h_ln : pts.contains .ln = true) (h_md : pts.contains .md = true) : (Dev.validBeat d b).without pts = d.without pts := by
  unfold Dev.validBeat
  simp only [apply_ite (Dev.without · pts), ite_self, h_qf, h_hbm, h_host, h_bank, h_pins, h_tw, h_ch, h_ln, h_md, upd_bank_keep, Dev.fs_keep,
      Dev.setPeerValid_keep, Dev.syncEff_keep, Dev.set64_keep, Dev.skewFrom_keep, Dev.modTw_keep, Dev.partnerLost_keep, Dev.hotCheck_keep,
      Dev.firstBeat_keep]
theorem Dev.beat_keep {pts : List Part} (d : Dev) (b : Beat) (h_qf : pts.contains .qf = true) (h_hbm : pts.contains .hbm = true) (h_host :
    pts.contains .host = true) (h_bank : pts.contains .bank = true) (h_pins : pts.contains .pins = true) (h_tw : pts.contains .tw = true) (h_ch :
    pts.contains .ch = true) (h_ln : pts.contains .ln = true) (h_integ : pts.contains .integ = true) (h_md : pts.contains .md = true) :
    (Dev.beat d b).without pts = d.without pts := by
  unfold Dev.beat
  simp only [apply_ite (Dev.without · pts), ite_self, h_qf, h_hbm, h_host, h_bank, h_pins, h_tw, h_ch, h_ln, h_integ, h_md, Dev.feedAlive_keep,
      Dev.validBeat_keep, Dev.missBeats_keep]
theorem Dev.handClip_keep {pts : List Part} (d : Dev) (clip : Nat) (h_qf : pts.contains .qf = true) (h_hbm : pts.contains .hbm = true) (h_host :
    pts.contains .host = true) (h_ch : pts.contains .ch = true) (h_ln : pts.contains .ln = true) (h_md : pts.contains .md = true) :
    (Dev.handClip d clip).without pts = d.without pts := by
  unfold Dev.handClip
  split
  · rfl
  · split
    · rfl
    · extract_lets due later x d1
      have h1 : d1.without pts = d.without pts := by
        refine (Dev.modRec_keep _ _ _ h_md).trans ((Dev.cutAu_keep _ _ h_qf h_hbm h_host h_ch h_ln h_md).trans ?_)
        exact Dev.takeItems_keep d _ _ _ _
      clear_value d1
      split
      · exact h1
      · split
        · exact h1
        · exact (Dev.flushAu_keep d1 _ h_qf h_hbm h_host h_ch h_ln h_md).trans h1
theorem Dev.handStep_keep {pts : List Part} (d : Dev) (h_qf : pts.contains .qf = true) (h_hbm : pts.contains .hbm = true) (h_host :
    pts.contains .host = true) (h_pins : pts.contains .pins = true) (h_tw : pts.contains .tw = true) (h_ch : pts.contains .ch = true) (h_ln :
    pts.contains .ln = true) (h_md : pts.contains .md = true) : (Dev.handStep d).without pts = d.without pts := by
  unfold Dev.handStep
  (try simp only [apply_ite (Dev.without · pts), ite_self, h_pins, h_tw, Dev.modTw_keep, Dev.setHot_keep, Dev.setTwRole_keep, Dev.setActive_keep,
      Dev.twCtrl_keep])
  repeat' (first
    | (with_reducible rfl)
    | (simp only [h_qf, h_hbm, h_host, h_ch, h_ln, h_md, Dev.handClip_keep]; done)
    | (intro _)
    | split
    | (with_reducible refine (foldl_keep _ _ _ ?_).trans ?_)
    | (simp only [Dev.without, h_qf, h_hbm, h_host, h_pins, h_tw, h_ch, h_ln, h_md, if_true]; done)
    | (simp only [foldl_keep, apply_ite (Dev.without · pts), ite_self, h_qf, h_hbm, h_host, h_pins, h_tw, h_ch, h_ln, h_md, Dev.handClip_keep,
        Dev.modTw_keep, Dev.setHot_keep, Dev.setTwRole_keep, Dev.setActive_keep, Dev.twCtrl_keep]))
theorem Dev.beatOut_keep {pts : List Part} (d : Dev) (h_tw : pts.contains .tw = true) : (Dev.beatOut d).without pts = d.without pts := by
  unfold Dev.beatOut
  repeat' (first
    | (with_reducible rfl)
    | (simp only [apply_ite (Dev.without · pts), ite_self, h_tw, Dev.fs_keep, Dev.twSend_keep]; done)
    | (intro _)
    | split
    | (with_reducible refine (foldl_keep _ _ _ ?_).trans ?_)
    | (simp only [Dev.without, h_tw, if_true]; done)
    | (simp only [foldl_keep, apply_ite (Dev.without · pts), ite_self, h_tw, Dev.fs_keep, Dev.twSend_keep]))
theorem Dev.sendBeat_keep {pts : List Part} (d : Dev) (h_qf : pts.contains .qf = true) (h_hbm : pts.contains .hbm = true) (h_host : pts.contains
    .host = true) (h_pins : pts.contains .pins = true) (h_tw : pts.contains .tw = true) (h_ch : pts.contains .ch = true) (h_ln : pts.contains .ln =
    true) (h_md : pts.contains .md = true) : (Dev.sendBeat d).without pts = d.without pts := by
  unfold Dev.sendBeat
  simp only [apply_ite (Dev.without · pts), ite_self, h_qf, h_hbm, h_host, h_pins, h_tw, h_ch, h_ln, h_md, Dev.setActive_keep, Dev.fs_keep,
    Dev.twSend_keep, Dev.handStep_keep, Dev.beatOut_keep]
theorem Dev.takeBoot_keep {pts : List Part} (d : Dev) (f : Nat) (x : Nat × Nat × Nat × Nat) (h_qf : pts.contains .qf = true) (h_hbm :
    pts.contains .hbm = true) (h_host : pts.contains .host = true) : (Dev.takeBoot d f x).without pts = d.without pts := by
  unfold Dev.takeBoot
  (try simp only [h_qf, h_hbm, h_host, Dev.fs_keep, Dev.set64_keep, Dev.openBoot_keep, Dev.logNew_keep, Dev.postEvent_keep])
  repeat' (first
    | (with_reducible rfl)
    | (simp only [h_qf, Dev.dropMbox_keep]; done)
    | (intro _)
    | split
    | (with_reducible refine (foldl_keep _ _ _ ?_).trans ?_)
    | (simp only [Dev.without, h_qf, h_hbm, h_host, if_true]; done)
    | (simp only [foldl_keep, apply_ite (Dev.without · pts), ite_self, h_qf, h_hbm, h_host, Dev.dropMbox_keep, Dev.fs_keep, Dev.set64_keep,
        Dev.openBoot_keep, Dev.logNew_keep, Dev.postEvent_keep]))
theorem Dev.resolveTail_keep {pts : List Part} (d : Dev) (x : PackData) (clip : Nat) (h_md : pts.contains .md = true) :
    (Dev.resolveTail d x clip).without pts = d.without pts := by
  unfold Dev.resolveTail
  repeat' (first
    | (with_reducible rfl)
    | (simp only [h_md, Dev.modRec_keep]; done)
    | (intro _)
    | split
    | (with_reducible refine (foldl_keep _ _ _ ?_).trans ?_)
    | (simp only [Dev.without, h_md, if_true]; done)
    | (simp only [foldl_keep, apply_ite (Dev.without · pts), ite_self, h_md, Dev.modRec_keep]))
theorem Dev.rereadVol_keep {pts : List Part} (d : Dev) (x : PackData) (h_md : pts.contains .md = true) :
    (Dev.rereadVol d x).without pts = d.without pts := by
  unfold Dev.rereadVol
  (try simp only [foldl_keep, apply_ite (Dev.without · pts), ite_self, h_md, Dev.modMd_keep])
  repeat' (first
    | (with_reducible rfl)
    | (simp only [h_md, Dev.modMd_keep]; done)
    | (intro _)
    | split
    | (with_reducible refine (foldl_keep _ _ _ ?_).trans ?_)
    | (simp only [Dev.without, h_md, if_true]; done)
    | (simp only [foldl_keep, apply_ite (Dev.without · pts), ite_self, h_md, Dev.modMd_keep]))
theorem Dev.leadOn_keep {pts : List Part} (d : Dev) (x : PackData) (h_qf : pts.contains .qf = true) (h_hbm : pts.contains .hbm = true) (h_host :
    pts.contains .host = true) (h_ch : pts.contains .ch = true) (h_ln : pts.contains .ln = true) (h_md : pts.contains .md = true) :
    (Dev.leadOn d x).without pts = d.without pts := by
  unfold Dev.leadOn
  repeat' (first
    | (with_reducible rfl)
    | (simp only [h_qf, h_hbm, h_host, h_ch, h_ln, h_md, Dev.fencePort_keep, Dev.takeBoot_keep, Dev.rereadVol_keep, Dev.resolveTail_keep]; done)
    | (intro _)
    | split
    | (with_reducible refine (foldl_keep _ _ _ ?_).trans ?_)
    | (simp only [Dev.without, h_qf, h_hbm, h_host, h_ch, h_ln, h_md, if_true]; done)
    | (simp only [h_md, Dev.rereadVol_keep]))
theorem Dev.takeRole_keep {pts : List Part} (d : Dev) (h_pins : pts.contains .pins = true) (h_tw : pts.contains .tw = true) (h_ing :
    pts.contains .ing = true) : (Dev.takeRole d).without pts = d.without pts := by
  unfold Dev.takeRole
  (try simp only [foldl_keep, apply_ite (Dev.without · pts), ite_self, h_pins, h_tw, h_ing, Dev.bcPump_keep, Dev.modTw_keep, Dev.setActive_keep,
      Dev.setHot_keep, Dev.setTwRole_keep, Dev.nextPair_keep])
  repeat' (first
    | (with_reducible rfl)
    | (simp only [h_pins, h_tw, h_ing, Dev.bcPump_keep, Dev.modTw_keep, Dev.setActive_keep, Dev.setHot_keep, Dev.setTwRole_keep,
        Dev.nextPair_keep]; done)
    | (intro _)
    | split
    | (with_reducible refine (foldl_keep _ _ _ ?_).trans ?_)
    | (simp only [Dev.without, h_pins, h_tw, h_ing, if_true]; done)
    | (simp only [foldl_keep, apply_ite (Dev.without · pts), ite_self, h_pins, h_tw, h_ing, Dev.bcPump_keep, Dev.modTw_keep, Dev.setActive_keep,
        Dev.setHot_keep, Dev.setTwRole_keep, Dev.nextPair_keep]))
theorem Dev.handoverGo_keep {pts : List Part} (d : Dev) (x : PackData) (h_qf : pts.contains .qf = true) (h_hbm : pts.contains .hbm = true) (h_host :
    pts.contains .host = true) (h_pins : pts.contains .pins = true) (h_tw : pts.contains .tw = true) (h_ch : pts.contains .ch = true) (h_ln :
    pts.contains .ln = true) (h_ing : pts.contains .ing = true) (h_md : pts.contains .md = true) :
    (Dev.handoverGo d x).without pts = d.without pts := by
  unfold Dev.handoverGo
  simp only [apply_ite (Dev.without · pts), ite_self, h_qf, h_hbm, h_host, h_pins, h_tw, h_ch, h_ln, h_ing, h_md, Dev.modTw_keep, Dev.takeRole_keep,
      Dev.twEv_keep, Dev.twCtrl_keep, Dev.leadOn_keep]
theorem Dev.handoverDone_keep {pts : List Part} (d : Dev) (epoch : Nat) (h_tw : pts.contains .tw = true) :
    (Dev.handoverDone d epoch).without pts = d.without pts := by
  unfold Dev.handoverDone
  simp only [apply_ite (Dev.without · pts), ite_self, h_tw, Dev.jobDecided_keep, Dev.twEv_keep, Dev.modTw_keep, Dev.fs_keep, Dev.setHot_keep]
theorem Dev.clipMark_keep {pts : List Part} (d : Dev) (clip : Nat) (m : ClipMark) (h_tw : pts.contains .tw = true) (h_md :
    pts.contains .md = true) : (Dev.clipMark d clip m).without pts = d.without pts := by
  unfold Dev.clipMark
  simp only [h_tw, h_md, Dev.modTw_keep, Dev.modRec_keep]
theorem Dev.innerPkt_keep {pts : List Part} (d : Dev) (link : Nat) (z0 : Inner) (h_hbm : pts.contains .hbm = true) (h_bank :
    pts.contains .bank = true) (h_hl : pts.contains .hl = true) (h_ing : pts.contains .ing = true) (h_pipe : pts.contains .pipe = true) (h_ps :
    pts.contains .ps = true) (h_md : pts.contains .md = true) : (Dev.innerPkt d link z0).without pts = d.without pts := by
  unfold Dev.innerPkt
  (try simp only [foldl_keep, apply_ite (Dev.without · pts), ite_self, h_hbm, h_bank, h_hl, h_ing, h_pipe, h_ps, h_md, Dev.startPkt_keep,
      Dev.linePkt_keep, Dev.upPacket_keep, Dev.frameEnd_keep, Dev.metaIn_keep])
  repeat' (first
    | (with_reducible rfl)
    | (simp only [h_hbm, h_bank, h_hl, h_ing, h_pipe, h_ps, h_md, Dev.startPkt_keep, Dev.linePkt_keep, Dev.frameEnd_keep, Dev.metaIn_keep]; done)
    | (intro _)
    | split
    | (with_reducible refine (foldl_keep _ _ _ ?_).trans ?_)
    | (simp only [Dev.without, h_hbm, h_bank, h_hl, h_ing, h_pipe, h_ps, h_md, if_true]; done)
    | (with_reducible refine (Dev.upPacket_keep _ _ _ _ ?_ h_ing).trans ?_)
    | (simp only [foldl_keep, apply_ite (Dev.without · pts), ite_self, h_hbm, h_bank, h_hl, h_ing, h_pipe, h_ps, h_md, Dev.startPkt_keep,
        Dev.linePkt_keep, Dev.upPacket_keep, Dev.frameEnd_keep, Dev.metaIn_keep]))
theorem Dev.innerIn_keep {pts : List Part} (d : Dev) (link : Nat) (p : Nat × Inner) (h_hbm : pts.contains .hbm = true) (h_bank :
    pts.contains .bank = true) (h_hl : pts.contains .hl = true) (h_tm : pts.contains .tm = true) (h_ing : pts.contains .ing = true) (h_pipe :
    pts.contains .pipe = true) (h_ps : pts.contains .ps = true) (h_md : pts.contains .md = true) :
    (Dev.innerIn d link p).without pts = d.without pts := by
  unfold Dev.innerIn
  simp only [h_hbm, h_bank, h_hl, h_tm, h_ing, h_pipe, h_ps, h_md, upd_tm_keep, Dev.innerPkt_keep]
theorem Dev.mirrorIn_keep {pts : List Part} (d : Dev) (epoch : Nat) (crcOk : Bool) (mseq link : Nat) (inner : List (Nat × Inner)) (h_hbm :
    pts.contains .hbm = true) (h_bank : pts.contains .bank = true) (h_hl : pts.contains .hl = true) (h_tm : pts.contains .tm = true) (h_tw :
    pts.contains .tw = true) (h_ing : pts.contains .ing = true) (h_pipe : pts.contains .pipe = true) (h_ps : pts.contains .ps = true) (h_md :
    pts.contains .md = true) : (Dev.mirrorIn d epoch crcOk mseq link inner).without pts = d.without pts := by
  unfold Dev.mirrorIn
  (try simp only [apply_ite (Dev.without · pts), Dev.fadd_keep, Dev.raiseOnce_keep])
  repeat' (first
    | (with_reducible rfl)
    | (simp only [h_hbm, h_bank, h_hl, h_tm, h_tw, h_ing, h_pipe, h_ps, h_md, Dev.fadd_keep, Dev.raiseOnce_keep, Dev.add64_keep, Dev.modTw_keep,
        Dev.innerIn_keep]; done)
    | (intro _)
    | split
    | (with_reducible refine (foldl_keep _ _ _ ?_).trans ?_)
    | (simp only [Dev.without, h_hbm, h_bank, h_hl, h_tm, h_tw, h_ing, h_pipe, h_ps, h_md, if_true]; done)
    | (simp only [foldl_keep, apply_ite (Dev.without · pts), ite_self, h_hbm, h_bank, h_hl, h_tm, h_tw, h_ing, h_pipe, h_ps, h_md, Dev.fadd_keep,
        Dev.raiseOnce_keep, Dev.add64_keep, Dev.modTw_keep, Dev.innerIn_keep]))
theorem Dev.closeMirror_keep {pts : List Part} (d : Dev) (h_tw : pts.contains .tw = true) : (Dev.closeMirror d).without pts = d.without pts := by
  unfold Dev.closeMirror
  simp only [apply_ite (Dev.without · pts), ite_self, h_tw, Dev.modTw_keep, Dev.twSend_keep]
theorem Dev.mirrorOut_keep {pts : List Part} (d : Dev) (link : Nat) (bs : List Byte) (h_tw : pts.contains .tw = true) :
    (Dev.mirrorOut d link bs).without pts = d.without pts := by
  unfold Dev.mirrorOut
  simp only [apply_ite (Dev.without · pts), ite_self, h_tw, Dev.closeMirror_keep, Dev.add64_keep, Dev.modTw_keep]
theorem Dev.twModeSet_keep {pts : List Part} (d : Dev) (r : Req) : VKeeps pts d (Dev.twModeSet d r) := by
  unfold Dev.twModeSet
  repeat' (first
    | (with_reducible refine vk_ite _ _ ?_)
    | (simp only [vk_ok, Dev.syncEff_keep, Dev.fs_keep]; done)
    | (intro _)
    | split
    | (extract_lets)
    | (with_reducible refine (foldl_keep _ _ _ ?_).trans ?_)
    | (simp only [vk_err, vk_turned, vk_ok, vk_job, foldl_keep, apply_ite (Dev.without · pts), ite_self, Dev.syncEff_keep, Dev.fs_keep])
    | (simp +zetaDelta only [vk_err, vk_turned, vk_ok, vk_job, foldl_keep, apply_ite (Dev.without · pts), ite_self, Dev.syncEff_keep,
        Dev.fs_keep]; done)
    | (simp +zetaDelta only [vk_err, vk_turned, vk_ok, vk_job, foldl_keep, apply_ite (Dev.without · pts), ite_self, Dev.syncEff_keep, Dev.fs_keep]))
theorem Dev.twDetach_keep {pts : List Part} (d : Dev) (h_qf : pts.contains .qf = true) (h_hbm : pts.contains .hbm = true) (h_host :
    pts.contains .host = true) (h_bank : pts.contains .bank = true) (h_tw : pts.contains .tw = true) (h_ing : pts.contains .ing = true) (h_pipe :
    pts.contains .pipe = true) (h_ps : pts.contains .ps = true) : VKeeps pts d (Dev.twDetach d) := by
  unfold Dev.twDetach
  repeat' (first
    | (with_reducible refine vk_ite _ _ ?_)
    | (simp only [vk_job, h_qf, h_hbm, h_host, h_bank, h_tw, h_ing, h_pipe, h_ps, Dev.camStop_keep, Dev.modTw_keep, Dev.modStr_keep,
        Dev.psSettle_keep, Dev.modPs_keep]; done)
    | (intro _)
    | split
    | (extract_lets)
    | (with_reducible refine (foldl_keep _ _ _ ?_).trans ?_)
    | (simp only [Dev.without, h_qf, h_hbm, h_host, h_bank, h_tw, h_ing, h_pipe, h_ps, if_true]; done)
    | (simp only [vk_job])
    | (simp +zetaDelta only [h_qf, h_hbm, h_host, h_pipe, Dev.settleStops_keep]; done)
    | (simp +zetaDelta only [h_qf, h_hbm, h_host, h_pipe, Dev.settleStops_keep]))
theorem Dev.detached_keep {pts : List Part} (d : Dev) (h_tw : pts.contains .tw = true) : (Dev.detached d).without pts = d.without pts := by
  unfold Dev.detached
  simp only [apply_ite (Dev.without · pts), ite_self, h_tw, Dev.modTw_keep, Dev.setHot_keep, Dev.setTwRole_keep, Dev.twCtrl_keep]
theorem Dev.twHandover_keep {pts : List Part} (d : Dev) (r : Req) (h_tw : pts.contains .tw = true) : VKeeps pts d (Dev.twHandover d r) := by
  unfold Dev.twHandover
  repeat' (first
    | (with_reducible refine vk_ite _ _ ?_)
    | (simp only [vk_job, h_tw, Dev.twCtrl_keep, Dev.modTw_keep]; done)
    | (intro _)
    | split
    | (extract_lets)
    | (with_reducible refine (foldl_keep _ _ _ ?_).trans ?_)
    | (simp only [Dev.without, h_tw, if_true]; done)
    | (simp only [vk_err, vk_turned, vk_ok, vk_job, foldl_keep, apply_ite (Dev.without · pts), ite_self, h_tw, Dev.twCtrl_keep, Dev.modTw_keep])
    | (simp +zetaDelta only [vk_err, vk_turned, vk_ok, vk_job, foldl_keep, apply_ite (Dev.without · pts), ite_self, h_tw, Dev.twCtrl_keep,
        Dev.modTw_keep]; done)
    | (simp +zetaDelta only [vk_err, vk_turned, vk_ok, vk_job, foldl_keep, apply_ite (Dev.without · pts), ite_self, h_tw, Dev.twCtrl_keep,
        Dev.modTw_keep]))
theorem Dev.modCh_keep {pts : List Part} (d : Dev) (f : ChainSt → ChainSt) (h_ch : pts.contains .ch = true) :
    (Dev.modCh d f).without pts = d.without pts := by
  unfold Dev.modCh
  simp only [h_ch, upd_ch_keep]
theorem Dev.chRaw_keep {pts : List Part} (d : Dev) (k pt origin dest hops seq : Nat) (body : List Byte) (h_ch : pts.contains .ch = true) :
    (Dev.chRaw d k pt origin dest hops seq body).without pts = d.without pts := by
  unfold Dev.chRaw
  simp only [h_ch, Dev.modCh_keep]
theorem Dev.chNote_keep {pts : List Part} (d : Dev) (origin seq : Nat) (h_ch : pts.contains .ch = true) :
    (Dev.chNote d origin seq).without pts = d.without pts := by
  unfold Dev.chNote
  simp only [h_ch, Dev.modCh_keep]
theorem Dev.originate_keep {pts : List Part} (d : Dev) (pt dest : Nat) (body : List Byte) (h_ch : pts.contains .ch = true) :
    (Dev.originate d pt dest body).without pts = d.without pts := by
  unfold Dev.originate
  (try simp only [h_ch, Dev.modCh_keep, Dev.chNote_keep])
  repeat' (first
    | (with_reducible rfl)
    | (simp only [h_ch, Dev.chRaw_keep]; done)
    | (intro _)
    | split
    | (with_reducible refine (foldl_keep _ _ _ ?_).trans ?_)
    | (simp only [Dev.without, h_ch, if_true]; done)
    | (simp only [foldl_keep, apply_ite (Dev.without · pts), ite_self, h_ch, Dev.chRaw_keep, Dev.modCh_keep, Dev.chNote_keep]))
theorem Dev.forward_keep {pts : List Part} (d : Dev) (pt : Nat) (h : CHead) (body : List Byte) (h_ch : pts.contains .ch = true) :
    (Dev.forward d pt h body).without pts = d.without pts := by
  unfold Dev.forward
  (try simp only [apply_ite (Dev.without · pts), Dev.raiseOnce_keep, Dev.fadd_keep])
  repeat' (first
    | (with_reducible rfl)
    | (simp only [h_ch, Dev.chRaw_keep]; done)
    | (intro _)
    | split
    | (with_reducible refine (foldl_keep _ _ _ ?_).trans ?_)
    | (simp only [Dev.without, h_ch, if_true]; done)
    | (simp only [foldl_keep, apply_ite (Dev.without · pts), ite_self, h_ch, Dev.chRaw_keep, Dev.raiseOnce_keep, Dev.fadd_keep]))
theorem Dev.chRx_keep {pts : List Part} (d : Dev) (h : CHead) (f : Dev → Dev) (hf : ∀ (y0 : Dev), (f y0).without pts = y0.without pts) :
    (Dev.chRx d h f).without pts = d.without pts := by
  unfold Dev.chRx
  simp only [apply_ite (Dev.without · pts), ite_self, hf, Dev.chCfg_keep]
theorem Dev.flooded_keep {pts : List Part} (d : Dev) (pt : Nat) (h : CHead) (body : List Byte) (deliver : Dev → Dev) (h_ch :
    pts.contains .ch = true) (hdeliver : ∀ (y0 : Dev), (deliver y0).without pts = y0.without pts) :
    (Dev.flooded d pt h body deliver).without pts = d.without pts := by
  unfold Dev.flooded
  repeat' (first
    | (with_reducible rfl)
    | (simp only [apply_ite (Dev.without · pts), ite_self, h_ch, hdeliver, Dev.fadd_keep, Dev.forward_keep, Dev.chNote_keep]; done)
    | (intro _)
    | split
    | (with_reducible refine (foldl_keep _ _ _ ?_).trans ?_)
    | (simp only [Dev.without, h_ch, if_true]; done)
    | (apply hdeliver)
    | (with_reducible refine (Dev.chRx_keep _ _ _ ?_).trans ?_)
    | (simp only [foldl_keep, apply_ite (Dev.without · pts), ite_self, h_ch, hdeliver, Dev.chRx_keep, Dev.fadd_keep, Dev.forward_keep,
        Dev.chNote_keep]))
theorem Dev.syncIn_keep {pts : List Part} (d : Dev) (frame edge : Nat) (obj : Nat) (h_ch : pts.contains .ch = true) :
    (Dev.syncIn d frame edge obj).without pts = d.without pts := by
  unfold Dev.syncIn
  simp only [apply_ite (Dev.without · pts), ite_self, h_ch, Dev.raiseOnce_keep, Dev.modCh_keep]
theorem Dev.rootSync_keep {pts : List Part} (d : Dev) (h_ch : pts.contains .ch = true) : (Dev.rootSync d).without pts = d.without pts := by
  unfold Dev.rootSync
  simp only [apply_ite (Dev.without · pts), ite_self, h_ch, Dev.modCh_keep, Dev.originate_keep]
theorem Dev.actionIn_keep {pts : List Part} (d : Dev) (block : List Byte) (obj : Nat) (h_qf : pts.contains .qf = true) (h_hbm :
    pts.contains .hbm = true) (h_host : pts.contains .host = true) (h_bank : pts.contains .bank = true) (h_tm : pts.contains .tm = true) (h_ch :
    pts.contains .ch = true) (h_ln : pts.contains .ln = true) (h_ing : pts.contains .ing = true) (h_pipe : pts.contains .pipe = true) (h_ps :
    pts.contains .ps = true) (h_md : pts.contains .md = true) : (Dev.actionIn d block obj).without pts = d.without pts := by
  unfold Dev.actionIn
  split
  · exact Dev.chCfg_keep d _
  · extract_lets late d1
    have h1 : d1.without pts = d.without pts := by
      simp only [d1]
      split
      · exact (Dev.raise_keep _ _).trans (Dev.fadd_keep d _ _ _ _)
      · rfl
    clear_value d1
    split
    · exact h1
    · split
      · exact (Dev.raise_keep d1 _).trans h1
      · rename_i k e hx
        have h2 := Dev.arm_keep d1 _ h_tm hx
        split
        · exact (Dev.fire_keep _ _ h_qf h_hbm h_host h_bank h_tm h_ch h_ln h_ing h_pipe h_ps h_md).trans ((Dev.fadd_keep e _ _ _ _).trans (h2.trans h1))
        · exact h2.trans h1
theorem Dev.msgIn_keep {pts : List Part} (d : Dev) (origin seq : Nat) (entry : List Byte) (h_ch : pts.contains .ch = true) :
    (Dev.msgIn d origin seq entry).without pts = d.without pts := by
  unfold Dev.msgIn
  simp only [h_ch, Dev.raise_keep, Dev.modCh_keep]
theorem Dev.mediaHop_keep {pts : List Part} (d : Dev) (h : CHead) (pt q ctag p1 : Nat) (bs : List Byte) (h_qf : pts.contains .qf = true) (h_hbm :
    pts.contains .hbm = true) (h_host : pts.contains .host = true) (h_ch : pts.contains .ch = true) (h_ln : pts.contains .ln = true) (h_md :
    pts.contains .md = true) : (Dev.mediaHop d h pt q ctag p1 bs).without pts = d.without pts := by
  unfold Dev.mediaHop
  (try simp only [foldl_keep, apply_ite (Dev.without · pts), ite_self, h_qf, h_hbm, h_host, h_ch, h_ln, h_md, Dev.chRx_keep, Dev.tgtPacket_keep,
      Dev.chCfg_keep, Dev.chRaw_keep])
  repeat' (first
    | (with_reducible rfl)
    | (simp only [apply_ite (Dev.without · pts), ite_self, h_qf, h_hbm, h_host, h_ch, h_ln, h_md, Dev.tgtPacket_keep, Dev.chCfg_keep,
        Dev.chRaw_keep]; done)
    | (intro _)
    | split
    | (with_reducible refine (foldl_keep _ _ _ ?_).trans ?_)
    | (simp only [Dev.without, h_qf, h_hbm, h_host, h_ch, h_ln, h_md, if_true]; done)
    | (with_reducible refine (Dev.chRx_keep _ _ _ ?_).trans ?_)
    | (simp only [foldl_keep, apply_ite (Dev.without · pts), ite_self, h_qf, h_hbm, h_host, h_ch, h_ln, h_md, Dev.chRx_keep, Dev.tgtPacket_keep,
        Dev.chCfg_keep, Dev.chRaw_keep]))
theorem Dev.probeIn_keep {pts : List Part} (d : Dev) (h : CHead) (send reply : Nat) (h_ch : pts.contains .ch = true) :
    (Dev.probeIn d h send reply).without pts = d.without pts := by
  unfold Dev.probeIn
  simp only [apply_ite (Dev.without · pts), ite_self, h_ch, Dev.chSend_keep, Dev.fs_keep]
theorem Dev.sendTopo_keep {pts : List Part} (d : Dev) (k : Nat) (h_ch : pts.contains .ch = true) :
    (Dev.sendTopo d k).without pts = d.without pts := by
  unfold Dev.sendTopo
  simp only [h_ch, Dev.chSend_keep]
theorem Dev.probes_keep {pts : List Part} (d : Dev) (h_ch : pts.contains .ch = true) : (Dev.probes d).without pts = d.without pts := by
  unfold Dev.probes
  (try simp only [apply_ite (Dev.without · pts)])
  repeat' (first
    | (with_reducible rfl)
    | (simp only [h_ch, Dev.sendTopo_keep, Dev.chSend_keep]; done)
    | (intro _)
    | split
    | (with_reducible refine (foldl_keep _ _ _ ?_).trans ?_)
    | (simp only [Dev.without, h_ch, if_true]; done)
    | (simp only [foldl_keep, apply_ite (Dev.without · pts), ite_self, h_ch, Dev.sendTopo_keep, Dev.chSend_keep]))
theorem Dev.setCp_keep {pts : List Part} (d : Dev) (k st : Nat) : (Dev.setCp d k st).without pts = d.without pts := by
  unfold Dev.setCp
  simp only [apply_ite (Dev.without · pts), ite_self, Dev.fs_keep, Dev.raise_keep]
theorem Dev.topoIn_keep {pts : List Part} (d : Dev) (h : CHead) (serial : Nat) (h_ch : pts.contains .ch = true) :
    (Dev.topoIn d h serial).without pts = d.without pts := by
  unfold Dev.topoIn
  simp only [apply_ite (Dev.without · pts), ite_self, h_ch, Dev.modCh_keep, Dev.fs_keep, Dev.chCfg_keep, Dev.setCp_keep]
theorem Dev.chJoin_keep {pts : List Part} (d : Dev) (r : Req) (h_ch : pts.contains .ch = true) : VKeeps pts d (Dev.chJoin d r) := by
  unfold Dev.chJoin
  repeat' (first
    | (with_reducible refine vk_ite _ _ ?_)
    | (simp only [vk_job, h_ch, Dev.setCp_keep, Dev.sendTopo_keep, Dev.chCfg_keep]; done)
    | (intro _)
    | split
    | (extract_lets)
    | (with_reducible refine (foldl_keep _ _ _ ?_).trans ?_)
    | (simp only [Dev.without, h_ch, if_true]; done)
    | (simp only [vk_job])
    | (simp +zetaDelta only [Dev.fs_keep]; done)
    | (simp +zetaDelta only [vk_err, vk_turned, vk_ok, vk_job, foldl_keep, apply_ite (Dev.without · pts), ite_self, h_ch, Dev.fs_keep,
        Dev.setCp_keep, Dev.sendTopo_keep, Dev.chCfg_keep]))
theorem Dev.chLeave_keep {pts : List Part} (d : Dev) (h_md : pts.contains .md = true) : VKeeps pts d (Dev.chLeave d) := by
  unfold Dev.chLeave
  repeat' (first
    | (with_reducible refine vk_ite _ _ ?_)
    | (simp only [vk_ok, h_md, Dev.setCp_keep, Dev.dropConn_keep, Dev.fs_keep]; done)
    | (intro _)
    | split
    | (extract_lets)
    | (with_reducible refine (foldl_keep _ _ _ ?_).trans ?_)
    | (simp only [Dev.without, h_md, if_true]; done)
    | (simp only [vk_ok, Dev.fs_keep])
    | (simp +zetaDelta only [vk_err, vk_turned, vk_ok, vk_job, foldl_keep, apply_ite (Dev.without · pts), ite_self, h_md, Dev.setCp_keep,
        Dev.dropConn_keep, Dev.fs_keep]; done)
    | (simp +zetaDelta only [vk_err, vk_turned, vk_ok, vk_job, foldl_keep, apply_ite (Dev.without · pts), ite_self, h_md, Dev.setCp_keep,
        Dev.dropConn_keep, Dev.fs_keep]))
theorem Dev.chAction_keep {pts : List Part} (d : Dev) (r : Req) (h_tm : pts.contains .tm = true) (h_ch : pts.contains .ch = true) :
    VKeeps pts d (Dev.chAction d r) := by
  unfold Dev.chAction
  repeat' (first
    | (with_reducible refine vk_ite _ _ ?_)
    | (simp only [vk_err, vk_ok, apply_ite (Dev.without · pts), h_tm, h_ch, Dev.originate_keep, Dev.raise_keep]; done)
    | (intro _)
    | split
    | (extract_lets)
    | (with_reducible refine (foldl_keep _ _ _ ?_).trans ?_)
    | (simp only [Dev.without, h_tm, h_ch, if_true]; done)
    | (with_reducible refine (Dev.arm_keep _ _ h_tm (by assumption)).trans ?_)
    | (simp only [vk_ok, h_tm])
    | (simp +zetaDelta only [h_tm]; done)
    | (simp +zetaDelta only [h_tm]))
theorem Dev.chSendMsg_keep {pts : List Part} (d : Dev) (r : Req) (h_ch : pts.contains .ch = true) : VKeeps pts d (Dev.chSendMsg d r) := by
  unfold Dev.chSendMsg
  repeat' (first
    | (with_reducible refine vk_ite _ _ ?_)
    | (simp only [vk_ok, apply_ite (Dev.without · pts), ite_self, h_ch, Dev.originate_keep, Dev.msgIn_keep]; done)
    | (intro _)
    | split
    | (extract_lets)
    | (with_reducible refine (foldl_keep _ _ _ ?_).trans ?_)
    | (simp only [Dev.without, h_ch, if_true]; done)
    | (simp only [vk_err, vk_turned, vk_ok, vk_job, foldl_keep, apply_ite (Dev.without · pts), ite_self, h_ch, Dev.originate_keep, Dev.msgIn_keep])
    | (simp +zetaDelta only [vk_err, vk_turned, vk_ok, vk_job, foldl_keep, apply_ite (Dev.without · pts), ite_self, h_ch, Dev.originate_keep,
        Dev.msgIn_keep]; done)
    | (simp +zetaDelta only [vk_err, vk_turned, vk_ok, vk_job, foldl_keep, apply_ite (Dev.without · pts), ite_self, h_ch, Dev.originate_keep,
        Dev.msgIn_keep]))
theorem Dev.armRefs_keep {pts : List Part} (d : Dev) (ns : Nat) (h_tm : pts.contains .tm = true) :
    (Dev.armRefs d ns).without pts = d.without pts := by
  unfold Dev.armRefs
  simp only [h_tm, Dev.modTm_keep]
theorem Dev.edgeAt_keep {pts : List Part} (d : Dev) (e : Nat) (h_tm : pts.contains .tm = true) (h_ch : pts.contains .ch = true) :
    (Dev.edgeAt d e).without pts = d.without pts := by
  unfold Dev.edgeAt
  simp only [h_tm, h_ch, Dev.modTm_keep, Dev.fs_keep, Dev.rootSync_keep, Dev.armRefs_keep]
theorem Dev.frameEdge_keep {pts : List Part} (d : Dev) (h_tm : pts.contains .tm = true) (h_ch : pts.contains .ch = true) :
    (Dev.frameEdge d).without pts = d.without pts := by
  unfold Dev.frameEdge
  simp only [apply_ite (Dev.without · pts), ite_self, h_tm, h_ch, Dev.edgeAt_keep, Dev.modTm_keep, Dev.fs_keep]
theorem Dev.measureRef_keep {pts : List Part} (d : Dev) (now : Nat) (h_tm : pts.contains .tm = true) : (Dev.measureRef d now).without pts =
    d.without pts := by
  unfold Dev.measureRef
  simp only [apply_ite (Dev.without · pts), ite_self, Dev.fs_keep, Dev.raise_keep, Dev.fadd_keep, h_tm, Dev.modTm_keep]
theorem Dev.refEdge_keep {pts : List Part} (d : Dev) (h_tm : pts.contains .tm = true) (h_ch : pts.contains .ch = true) :
    (Dev.refEdge d).without pts = d.without pts := by
  unfold Dev.refEdge
  simp only [apply_ite (Dev.without · pts), ite_self, h_tm, h_ch, Dev.fs_keep, Dev.edgeAt_keep, Dev.modTm_keep, Dev.fadd_keep, Dev.measureRef_keep]
theorem Dev.loseRef_keep {pts : List Part} (d : Dev) (h_tm : pts.contains .tm = true) (h_ing : pts.contains .ing = true) : (Dev.loseRef d).without
    pts = d.without pts := by
  unfold Dev.loseRef
  repeat' (first
    | (with_reducible rfl)
    | (simp only [apply_ite (Dev.without · pts), ite_self, h_tm, h_ing, Dev.modTm_keep, Dev.fs_keep, Dev.raise_keep, Dev.fadd_keep,
        Dev.frameFlag_keep, Dev.openHoldover_keep]; done)
    | (intro _)
    | split
    | (with_reducible refine (foldl_keep _ _ _ ?_).trans ?_)
    | (simp only [Dev.without, h_tm, h_ing, if_true]; done)
    | (simp only [foldl_keep, apply_ite (Dev.without · pts), ite_self, h_tm, h_ing, Dev.modTm_keep, Dev.fs_keep, Dev.raise_keep, Dev.fadd_keep,
        Dev.frameFlag_keep, Dev.openHoldover_keep]))
theorem Dev.windowClose_keep {pts : List Part} (d : Dev) (h_tm : pts.contains .tm = true) (h_ch : pts.contains .ch = true) (h_ing :
    pts.contains .ing = true) : (Dev.windowClose d).without pts = d.without pts := by
  unfold Dev.windowClose
  simp only [apply_ite (Dev.without · pts), ite_self, h_tm, h_ch, h_ing, Dev.edgeAt_keep, Dev.modTm_keep, Dev.loseRef_keep]
theorem Dev.hlRaise_keep {pts : List Part} (d : Dev) (code sev n : Nat) (t : Int) (rate : Nat) :
    (Dev.hlRaise d code sev n t rate).without pts = d.without pts := by
  unfold Dev.hlRaise
  simp only [Dev.raise_keep]
theorem Dev.syncLevel_keep {pts : List Part} (d : Dev) (h_hl : pts.contains .hl = true) : (Dev.syncLevel d).without pts = d.without pts := by
  unfold Dev.syncLevel
  simp only [apply_ite (Dev.without · pts), ite_self, h_hl, upd_hl_keep, Dev.fs_keep, Dev.raise_keep]
theorem Dev.domainOff_keep {pts : List Part} (d : Dev) (n : Nat) (h_fab : pts.contains .fab = true) (h_bank : pts.contains .bank = true) :
    (Dev.domainOff d n).without pts = d.without pts := by
  unfold Dev.domainOff
  repeat' (first
    | (with_reducible rfl)
    | (simp only [apply_ite (Dev.without · pts), ite_self, h_fab, h_bank, upd_bank_keep, Dev.fs_keep, Dev.setUst_keep, Dev.withdraw_keep,
        Dev.loseUnit_keep]; done)
    | (intro _)
    | split
    | (with_reducible refine (foldl_keep _ _ _ ?_).trans ?_)
    | (simp only [Dev.without, h_fab, h_bank, if_true]; done)
    | (simp only [h_bank, upd_bank_keep, Dev.fs_keep]))
theorem Dev.thermShutdown_keep {pts : List Part} (d : Dev) (cause n : Nat) (t : Int) (rate : Nat) (h_fab : pts.contains .fab = true) (h_bank :
    pts.contains .bank = true) (h_boot : pts.contains .boot = true) (h_hl : pts.contains .hl = true) (h_pins : pts.contains .pins = true) (h_tw :
    pts.contains .tw = true) : (Dev.thermShutdown d cause n t rate).without pts = d.without pts := by
  unfold Dev.thermShutdown
  (try simp only [apply_ite (Dev.without · pts)])
  repeat' (first
    | (with_reducible rfl)
    | (simp only [h_fab, h_bank, h_boot, h_hl, h_pins, upd_oz_bank_hl_pins_keep, Dev.nvPut_keep, Dev.raise_keep, Dev.domainOff_keep, Dev.fs_keep,
        h_tw, upd_bank_keep, Dev.beatOut_keep]; done)
    | (intro _)
    | split
    | (with_reducible refine (foldl_keep _ _ _ ?_).trans ?_)
    | (simp only [Dev.without, h_tw, h_fab, h_bank, h_boot, h_hl, h_pins, if_true]; done)
    | (simp only [foldl_keep, apply_ite (Dev.without · pts), ite_self, h_fab, h_bank, h_boot, h_hl, h_pins, upd_bank_keep, upd_hl_keep,
        upd_oz_keep, upd_pins_keep, upd_oz_bank_keep, upd_oz_hl_keep, upd_oz_pins_keep, upd_bank_hl_keep, upd_bank_pins_keep, upd_hl_pins_keep,
        upd_oz_bank_hl_pins_keep, Dev.nvPut_keep, Dev.raise_keep, Dev.domainOff_keep, Dev.fs_keep, h_tw, Dev.beatOut_keep]))
theorem Dev.setFast_keep {pts : List Part} (d : Dev) (on : Bool) (n : Nat) (t : Int) : (Dev.setFast d on n t).without pts = d.without pts := by
  unfold Dev.setFast
  simp only [apply_ite (Dev.without · pts), ite_self, Dev.hlRaise_keep, Dev.fs_keep]
theorem Dev.putTs_keep {pts : List Part} (d : Dev) (n : Nat) (raw use : Int) (valid faulty : Bool) :
    (Dev.putTs d n raw use valid faulty).without pts = d.without pts := by
  unfold Dev.putTs
  simp only [Dev.wr_keep]
theorem Dev.setSensor_keep {pts : List Part} (d : Dev) (n : Nat) (x : Sensor) (h_hl : pts.contains .hl = true) :
    (Dev.setSensor d n x).without pts = d.without pts := by
  unfold Dev.setSensor
  simp only [h_hl, upd_hl_keep]
theorem Dev.countDisagree_keep {pts : List Part} (raw : List Int) (d : Dev) (n : Nat) (h_hl : pts.contains .hl = true) :
    (Dev.countDisagree raw d n).without pts = d.without pts := by
  unfold Dev.countDisagree
  simp only [apply_ite (Dev.without · pts), ite_self, h_hl, Dev.setSensor_keep, Dev.hlRaise_keep, Dev.fs_keep]
theorem Dev.pushHist_keep {pts : List Part} (d : Dev) (n : Nat) (h_hl : pts.contains .hl = true) :
    (Dev.pushHist d n).without pts = d.without pts := by
  unfold Dev.pushHist
  simp only [h_hl, Dev.setSensor_keep]
theorem Dev.rates_keep {pts : List Part} (d : Dev) : (Dev.rates d).without pts = d.without pts := by
  unfold Dev.rates
  repeat' (first
    | (with_reducible rfl)
    | (simp only [apply_ite (Dev.without · pts), ite_self, Dev.fs_keep, Dev.hlRaise_keep, Dev.setFast_keep]; done)
    | (intro _)
    | split
    | (with_reducible refine (foldl_keep _ _ _ ?_).trans ?_)
    | (simp only [foldl_keep, apply_ite (Dev.without · pts), ite_self, Dev.fs_keep, Dev.hlRaise_keep, Dev.setFast_keep]))
theorem Dev.warnCheck_keep {pts : List Part} (d : Dev) (n : Nat) (h_hl : pts.contains .hl = true) :
    (Dev.warnCheck d n).without pts = d.without pts := by
  unfold Dev.warnCheck
  simp only [apply_ite (Dev.without · pts), ite_self, h_hl, upd_hl_keep, Dev.hlRaise_keep, Dev.c0Risk_keep]
theorem Dev.dieLimit_keep {pts : List Part} (d : Dev) (n : Nat) (h_fab : pts.contains .fab = true) (h_bank : pts.contains .bank = true) (h_boot :
    pts.contains .boot = true) (h_hl : pts.contains .hl = true) (h_pins : pts.contains .pins = true) (h_tw : pts.contains .tw = true) :
    (Dev.dieLimit d n).without pts = d.without pts := by
  unfold Dev.dieLimit
  repeat' (first
    | (with_reducible rfl)
    | (simp only [apply_ite (Dev.without · pts), ite_self, h_fab, h_bank, h_boot, h_hl, h_pins, Dev.thermShutdown_keep, h_tw]; done)
    | (intro _)
    | split
    | (with_reducible refine (foldl_keep _ _ _ ?_).trans ?_)
    | (simp only [Dev.without, h_tw, h_fab, h_bank, h_boot, h_hl, h_pins, if_true]; done)
    | (simp only [foldl_keep, apply_ite (Dev.without · pts), ite_self, h_fab, h_bank, h_boot, h_hl, h_pins, Dev.thermShutdown_keep, h_tw]))
theorem Dev.limits_keep {pts : List Part} (d : Dev) (h_fab : pts.contains .fab = true) (h_bank : pts.contains .bank = true) (h_boot : pts.contains
    .boot = true) (h_hl : pts.contains .hl = true) (h_pins : pts.contains .pins = true) (h_tw : pts.contains .tw = true) : (Dev.limits d).without
    pts = d.without pts := by
  unfold Dev.limits
  extract_lets cnt few top d1 l0 d2 d3 d4 st l1 d5 d6 d7
  have h1 : d1.without pts = d.without pts := by
    simp only [d1, apply_ite (Dev.without · pts), Dev.hlRaise_keep, ite_self, h_bank, h_fab, h_boot, h_hl, h_pins, h_tw, upd_hl_keep,
    Dev.bandSample_keep, Dev.dieLimit_keep, Dev.fs_keep, Dev.setFast_keep, Dev.syncLevel_keep, Dev.warnCheck_keep]
  have h4 : d4.without pts = d.without pts := by
    simp only [d4, d3, Dev.fs_keep, h_bank, h_fab, h_boot, h_hl, h_pins, h_tw, upd_hl_keep, Dev.bandSample_keep, Dev.dieLimit_keep,
    Dev.hlRaise_keep, Dev.setFast_keep, Dev.syncLevel_keep, Dev.warnCheck_keep]
    exact (upd_hl_keep d1 _ h_hl).trans h1
  clear_value d4
  have h5 : d5.without pts = d.without pts := by
    simp only [d5]
    split
    · exact h4
    · rename_i n _
      have hw : ∀ x : HealthSt, ({ d4 with hl := x } : Dev).without pts = d.without pts := fun x => (upd_hl_keep d4 x h_hl).trans h4
      split
      · exact (Dev.setFast_keep _ _ _ _).trans ((Dev.warnCheck_keep _ n h_hl).trans (hw _))
      · exact (Dev.warnCheck_keep _ n h_hl).trans (hw _)
  have h7 : d7.without pts = d.without pts :=
    (foldl_keep _ _ _ (fun e g => Dev.bandSample_keep e g _ h_bank)).trans ((Dev.syncLevel_keep d5 h_hl).trans h5)
  exact (Dev.dieLimit_keep d7 _ h_fab h_bank h_boot h_hl h_pins h_tw).trans h7
theorem Dev.thermSample_keep {pts : List Part} (d : Dev) (raw : List Int) (sched : Bool) (h_fab : pts.contains .fab = true) (h_bank : pts.contains
    .bank = true) (h_boot : pts.contains .boot = true) (h_hl : pts.contains .hl = true) (h_pins : pts.contains .pins = true) (h_tw : pts.contains
    .tw = true) : (Dev.thermSample d raw sched).without pts = d.without pts := by
  unfold Dev.thermSample
  extract_lets s0 d1 d2 valid none24 free d3 d4 d5 d6
  have h1 : d1.without pts = d.without pts := by
    simp only [d1]
    split
    · exact upd_hl_keep d _ h_hl
    · rfl
  clear_value d1
  have h2 : d2.without pts = d.without pts := by
    simp only [d2]
    split
    · exact (foldl_keep _ _ _ (fun e n => Dev.countDisagree_keep _ e n h_hl)).trans h1
    · exact h1
  have h3 : d3.without pts = d.without pts := (foldl_keep _ _ _ (fun e n => Dev.putTs_keep e _ _ _ _ _)).trans h2
  clear_value d3
  have h4 : d4.without pts = d.without pts := by
    simp only [d4]
    split
    · exact (Dev.useFree_keep d3).trans h3
    · exact h3
  clear_value d4
  have h5 : d5.without pts = d.without pts := by
    simp only [d5]
    split
    · exact (Dev.rates_keep _).trans ((foldl_keep _ _ _ (fun e n => Dev.pushHist_keep e n h_hl)).trans h4)
    · exact h4
  clear_value d5
  have h6 : d6.without pts = d.without pts := (Dev.limits_keep d5 h_fab h_bank h_boot h_hl h_pins h_tw).trans h5
  clear_value d6
  split
  · split
    · exact (Dev.thermShutdown_keep d6 _ _ _ _ h_fab h_bank h_boot h_hl h_pins h_tw).trans h6
    · exact h6
  · exact h6
theorem Dev.effThCtl_keep {pts : List Part} (d : Dev) (m : Nat) (v : Word) (raw : List Int) (h_fab : pts.contains .fab = true) (h_bank :
    pts.contains .bank = true) (h_boot : pts.contains .boot = true) (h_hl : pts.contains .hl = true) (h_pins : pts.contains .pins = true) (h_tw :
    pts.contains .tw = true) : (Dev.effThCtl d m v raw).without pts = d.without pts := by
  unfold Dev.effThCtl
  simp only [apply_ite (Dev.without · pts), ite_self, h_fab, h_bank, h_boot, h_hl, h_pins, Dev.raise_keep, Dev.putFields_keep,
    Dev.thermSample_keep, h_tw]
theorem Dev.stackTemp_keep {pts : List Part} (d : Dev) (k : Nat) (t : Int) (h_fab : pts.contains .fab = true) (h_bank : pts.contains .bank = true)
    (h_boot : pts.contains .boot = true) (h_hl : pts.contains .hl = true) (h_pins : pts.contains .pins = true) (h_tw : pts.contains .tw = true) :
    (Dev.stackTemp d k t).without pts = d.without pts := by
  unfold Dev.stackTemp
  simp only [apply_ite (Dev.without · pts), ite_self, h_fab, h_bank, h_boot, h_hl, h_pins, Dev.fs_keep, Dev.raise_keep, Dev.wr_keep,
    Dev.setFast_keep, Dev.thermShutdown_keep, h_tw]
theorem Dev.healthTemp_keep {pts : List Part} (d : Dev) (r : Req) (raw : List Int) (h_fab : pts.contains .fab = true) (h_bank : pts.contains .bank
    = true) (h_boot : pts.contains .boot = true) (h_hl : pts.contains .hl = true) (h_pins : pts.contains .pins = true) (h_tw : pts.contains .tw =
    true) : VKeeps pts d (Dev.healthTemp d r raw) := by
  unfold Dev.healthTemp
  repeat' (first
    | (with_reducible refine vk_ite _ _ ?_)
    | (simp only [vk_ok, apply_ite (Dev.without · pts), ite_self, h_fab, h_bank, h_boot, h_hl, h_pins, Dev.thermSample_keep, h_tw]; done)
    | (intro _)
    | split
    | (extract_lets)
    | (with_reducible refine (foldl_keep _ _ _ ?_).trans ?_)
    | (simp only [Dev.without, h_tw, h_fab, h_bank, h_boot, h_hl, h_pins, if_true]; done)
    | (simp only [vk_err, vk_turned, vk_ok, vk_job, foldl_keep, apply_ite (Dev.without · pts), ite_self, h_fab, h_bank, h_boot, h_hl, h_pins,
        Dev.thermSample_keep, h_tw])
    | (simp +zetaDelta only [vk_err, vk_turned, vk_ok, vk_job, foldl_keep, apply_ite (Dev.without · pts), ite_self, h_fab, h_bank, h_boot, h_hl,
        h_pins, Dev.thermSample_keep, h_tw]; done)
    | (simp +zetaDelta only [vk_err, vk_turned, vk_ok, vk_job, foldl_keep, apply_ite (Dev.without · pts), ite_self, h_fab, h_bank, h_boot, h_hl,
        h_pins, Dev.thermSample_keep, h_tw]))
theorem Dev.thermAck_keep {pts : List Part} (d : Dev) (h_boot : pts.contains .boot = true) (h_hl : pts.contains .hl = true) :
    VKeeps pts d (Dev.thermAck d) := by
  unfold Dev.thermAck
  repeat' (first
    | (with_reducible refine vk_ite _ _ ?_)
    | (simp only [vk_err, vk_ok, h_boot, h_hl, upd_hl_keep, Dev.nvPut_keep, Dev.raise_keep, Dev.fs_keep]; done)
    | (intro _)
    | split
    | (extract_lets)
    | (with_reducible refine (foldl_keep _ _ _ ?_).trans ?_)
    | (simp only [Dev.without, h_boot, h_hl, if_true]; done)
    | (simp only [vk_err, vk_turned, vk_ok, vk_job, foldl_keep, apply_ite (Dev.without · pts), ite_self, h_boot, h_hl, upd_hl_keep, Dev.nvPut_keep,
        Dev.raise_keep, Dev.fs_keep])
    | (simp +zetaDelta only [vk_err, vk_turned, vk_ok, vk_job, foldl_keep, apply_ite (Dev.without · pts), ite_self, h_boot, h_hl, upd_hl_keep,
        Dev.nvPut_keep, Dev.raise_keep, Dev.fs_keep]; done)
    | (simp +zetaDelta only [vk_err, vk_turned, vk_ok, vk_job, foldl_keep, apply_ite (Dev.without · pts), ite_self, h_boot, h_hl, upd_hl_keep,
        Dev.nvPut_keep, Dev.raise_keep, Dev.fs_keep]))
theorem Dev.sensorClear_keep {pts : List Part} (d : Dev) (r : Req) (h_hl : pts.contains .hl = true) : VKeeps pts d (Dev.sensorClear d r) := by
  unfold Dev.sensorClear
  repeat' (first
    | (with_reducible refine vk_ite _ _ ?_)
    | (simp only [vk_ok, h_hl, Dev.wr_keep, Dev.setSensor_keep, Dev.fs_keep]; done)
    | (intro _)
    | split
    | (extract_lets)
    | (with_reducible refine (foldl_keep _ _ _ ?_).trans ?_)
    | (simp only [Dev.without, h_hl, if_true]; done)
    | (simp only [vk_ok])
    | (simp +zetaDelta only [Dev.fs_keep]; done)
    | (simp +zetaDelta only [Dev.fs_keep]))
theorem Dev.setHist_keep {pts : List Part} (d : Dev) (u : Nat) (h : TestHist) (h_hl : pts.contains .hl = true) :
    (Dev.setHist d u h).without pts = d.without pts := by
  unfold Dev.setHist
  simp only [h_hl, upd_hl_keep]
theorem Dev.afterTest_keep {pts : List Part} (d : Dev) (u v : Nat) (pass : Bool) (h_bank : pts.contains .bank = true) :
    (Dev.afterTest d u v pass).without pts = d.without pts := by
  unfold Dev.afterTest
  simp only [apply_ite (Dev.without · pts), ite_self, h_bank, upd_bank_keep, Dev.comeDown_keep]
theorem Dev.testPassed_keep {pts : List Part} (d : Dev) (v patterns : Nat) (h_bank : pts.contains .bank = true) (h_hl : pts.contains .hl = true) :
    (Dev.testPassed d v patterns).without pts = d.without pts := by
  unfold Dev.testPassed
  simp only [apply_ite (Dev.without · pts), ite_self, h_bank, h_hl, Dev.setHist_keep, Dev.setUst_keep, Dev.loadCtx_keep, Dev.raise_keep]
theorem Dev.testBad_keep {pts : List Part} (d : Dev) (v outcome patterns : Nat) (h_boot : pts.contains .boot = true) (h_hl :
    pts.contains .hl = true) : (Dev.testBad d v outcome patterns).without pts = d.without pts := by
  unfold Dev.testBad
  simp only [apply_ite (Dev.without · pts), ite_self, h_boot, h_hl, Dev.toUnusable_keep, Dev.setHist_keep, Dev.raise_keep, Dev.nvPut_keep]
theorem Dev.unitTested_keep {pts : List Part} (res : List (Nat × Bool × Bool × Nat)) (good : Bool) (u : Nat) (d : Dev) (v : Nat) (h_bank :
    pts.contains .bank = true) (h_boot : pts.contains .boot = true) (h_hl : pts.contains .hl = true) :
    (Dev.unitTested res good u d v).without pts = d.without pts := by
  unfold Dev.unitTested
  simp only [apply_ite (Dev.without · pts), ite_self, h_bank, h_boot, h_hl, Dev.fs_keep, Dev.testPassed_keep, Dev.testBad_keep, Dev.afterTest_keep]
theorem Dev.rollEnded_keep {pts : List Part} (d : Dev) (h_hl : pts.contains .hl = true) : (Dev.rollEnded d).without pts = d.without pts := by
  unfold Dev.rollEnded
  simp only [h_hl, upd_hl_keep, Dev.jobDecided_keep]
theorem Dev.workerTested_keep {pts : List Part} (d : Dev) (u : Nat) (h_bank : pts.contains .bank = true) (h_pipe : pts.contains .pipe = true) (h_ps
    : pts.contains .ps = true) (h_hl : pts.contains .hl = true) : (Dev.workerTested d u).without pts = d.without pts := by
  unfold Dev.workerTested
  repeat' (first
    | (with_reducible rfl)
    | (simp only [apply_ite (Dev.without · pts), ite_self, h_bank, h_pipe, h_ps, Dev.setEng_keep, Dev.setRole_keep, h_hl, Dev.replaceInline_keep,
        Dev.replacePart_keep]; done)
    | (intro _)
    | split
    | (with_reducible refine (foldl_keep _ _ _ ?_).trans ?_)
    | (simp only [Dev.without, h_hl, h_bank, h_pipe, h_ps, if_true]; done)
    | (simp only [foldl_keep, apply_ite (Dev.without · pts), ite_self, h_bank, h_pipe, h_ps, Dev.setEng_keep, Dev.setRole_keep, h_hl,
        Dev.replaceInline_keep, Dev.replacePart_keep]))
theorem Dev.judgeRun_keep {pts : List Part} (d : Dev) (u : Nat) (res : List (Nat × Bool × Bool × Nat)) (run : TestRun) (h_bank :
    pts.contains .bank = true) (h_boot : pts.contains .boot = true) (h_hl : pts.contains .hl = true) (h_pipe : pts.contains .pipe = true) (h_ps :
    pts.contains .ps = true) : (Dev.judgeRun d u res run).without pts = d.without pts := by
  unfold Dev.judgeRun
  (try simp only [apply_ite (Dev.without · pts), ite_self, h_bank, h_hl, h_pipe, upd_hl_keep, Dev.jobDecided_keep, Dev.rollEnded_keep,
      Dev.syncPool_keep, Dev.syncEngines_keep])
  repeat' (first
    | (with_reducible rfl)
    | (simp only [h_bank, h_boot, h_hl, h_pipe, h_ps, upd_hl_keep, Dev.unitTested_keep, Dev.jobDecided_keep, Dev.rollEnded_keep,
        Dev.workerTested_keep]; done)
    | (intro _)
    | split
    | (with_reducible refine (foldl_keep _ _ _ ?_).trans ?_)
    | (simp only [Dev.without, h_bank, h_boot, h_hl, h_pipe, h_ps, if_true]; done)
    | (simp only [h_hl, upd_hl_keep, Dev.jobDecided_keep, Dev.rollEnded_keep]))
theorem Dev.bringUp_keep {pts : List Part} (d : Dev) (h_fab : pts.contains .fab = true) (h_bank : pts.contains .bank = true) :
    (Dev.bringUp d).without pts = d.without pts := by
  unfold Dev.bringUp
  (try simp only [foldl_keep, apply_ite (Dev.without · pts), ite_self, h_fab, h_bank, Dev.cmd1_keep, Dev.loadCtx_keep])
  repeat' (first
    | (with_reducible rfl)
    | (simp only [h_fab, h_bank, Dev.cmd1_keep, Dev.loadCtx_keep]; done)
    | (intro _)
    | split
    | (with_reducible refine (foldl_keep _ _ _ ?_).trans ?_)
    | (simp only [Dev.without, h_fab, h_bank, if_true]; done)
    | (simp only [foldl_keep, apply_ite (Dev.without · pts), ite_self, h_fab, h_bank, Dev.cmd1_keep, Dev.loadCtx_keep]))
theorem Dev.wavesCheck_keep {pts : List Part} (d : Dev) (h_fab : pts.contains .fab = true) (h_bank : pts.contains .bank = true) :
    (Dev.wavesCheck d).without pts = d.without pts := by
  unfold Dev.wavesCheck
  (try simp only [apply_ite (Dev.without · pts), h_fab, h_bank, Dev.bringUp_keep])
  repeat' (first
    | (with_reducible rfl)
    | (simp only [Dev.setStage_keep, Dev.raise_keep]; done)
    | (intro _)
    | split
    | (with_reducible refine (foldl_keep _ _ _ ?_).trans ?_)
    | (simp only [Dev.without, h_fab, h_bank, if_true]; done)
    | (simp only [foldl_keep, apply_ite (Dev.without · pts), ite_self, h_fab, h_bank, Dev.setStage_keep, Dev.raise_keep, Dev.bringUp_keep]))
theorem Dev.selftestDone_keep {pts : List Part} (d : Dev) (u : Nat) (res : List (Nat × Bool × Bool × Nat)) (h_fab : pts.contains .fab = true)
    (h_bank : pts.contains .bank = true) (h_boot : pts.contains .boot = true) (h_hl : pts.contains .hl = true) (h_pipe :
    pts.contains .pipe = true) (h_ps : pts.contains .ps = true) : (Dev.selftestDone d u res).without pts = d.without pts := by
  unfold Dev.selftestDone
  (try simp only [foldl_keep, apply_ite (Dev.without · pts), ite_self, h_fab, h_bank, h_boot, h_hl, h_pipe, h_ps, Dev.wavesCheck_keep,
      Dev.judgeRun_keep])
  repeat' (first
    | (with_reducible rfl)
    | (simp only [h_fab, h_bank, h_boot, h_hl, h_pipe, h_ps, Dev.wavesCheck_keep, Dev.judgeRun_keep]; done)
    | (intro _)
    | split
    | (with_reducible refine (foldl_keep _ _ _ ?_).trans ?_)
    | (simp only [Dev.without, h_fab, h_bank, h_boot, h_hl, h_pipe, h_ps, if_true]; done)
    | (simp only [foldl_keep, apply_ite (Dev.without · pts), ite_self, h_fab, h_bank, h_boot, h_hl, h_pipe, h_ps, Dev.wavesCheck_keep,
        Dev.judgeRun_keep]))
theorem Dev.rollOnto_keep {pts : List Part} (d : Dev) (u b : Nat) (h_bank : pts.contains .bank = true) (h_hl : pts.contains .hl = true) (h_pipe :
    pts.contains .pipe = true) (h_ps : pts.contains .ps = true) : (Dev.rollOnto d u b).without pts = d.without pts := by
  unfold Dev.rollOnto
  (try simp only [apply_ite (Dev.without · pts), ite_self, h_bank, h_hl, h_pipe, h_ps, upd_hl_pipe_keep, Dev.setEng_keep, Dev.syncEngines_keep,
      Dev.testFreed_keep, Dev.prepare_keep, Dev.swapRole_keep])
  repeat' (first
    | (with_reducible rfl)
    | (simp only [h_hl, h_pipe, h_ps, upd_hl_pipe_keep, Dev.setEng_keep, Dev.modPart_keep]; done)
    | (intro _)
    | split
    | (with_reducible refine (foldl_keep _ _ _ ?_).trans ?_)
    | (simp only [Dev.without, h_bank, h_hl, h_pipe, h_ps, if_true]; done)
    | (simp only [foldl_keep, apply_ite (Dev.without · pts), ite_self, h_bank, h_hl, h_pipe, h_ps, upd_hl_keep, upd_pipe_keep, upd_hl_pipe_keep,
        Dev.setEng_keep, Dev.syncEngines_keep, Dev.testFreed_keep, Dev.modPart_keep, Dev.prepare_keep, Dev.swapRole_keep]))
theorem Dev.rollStep_keep {pts : List Part} (d : Dev) (h_bank : pts.contains .bank = true) (h_hl : pts.contains .hl = true) (h_pipe :
    pts.contains .pipe = true) (h_ps : pts.contains .ps = true) : (Dev.rollStep d).without pts = d.without pts := by
  unfold Dev.rollStep
  repeat' (first
    | (with_reducible rfl)
    | (simp only [h_bank, h_hl, h_pipe, h_ps, upd_hl_keep, Dev.rollSkip_keep, Dev.rollOnto_keep]; done)
    | (intro _)
    | split
    | (with_reducible refine (foldl_keep _ _ _ ?_).trans ?_)
    | (simp only [Dev.without, h_bank, h_hl, h_pipe, h_ps, if_true]; done)
    | (simp only [foldl_keep, apply_ite (Dev.without · pts), ite_self, h_bank, h_hl, h_pipe, h_ps, upd_hl_keep, Dev.rollSkip_keep,
        Dev.rollOnto_keep]))
theorem Dev.parityStep_keep {pts : List Part} (d : Dev) (u : Nat) (h_fab : pts.contains .fab = true) (h_bank : pts.contains .bank = true) (h_hl :
    pts.contains .hl = true) (h_pipe : pts.contains .pipe = true) : (Dev.parityStep d u).without pts = d.without pts := by
  unfold Dev.parityStep
  (try simp only [apply_ite (Dev.without · pts), h_fab, h_bank, Dev.parityReaction_keep])
  repeat' (first
    | (with_reducible rfl)
    | (simp only [ite_self, h_fab, h_bank, h_hl, h_pipe, Dev.parityReaction_keep, Dev.replaceInline_keep]; done)
    | (intro _)
    | split
    | (with_reducible refine (foldl_keep _ _ _ ?_).trans ?_)
    | (simp only [Dev.without, h_fab, h_bank, h_hl, h_pipe, if_true]; done)
    | (simp only [foldl_keep, apply_ite (Dev.without · pts), ite_self, h_fab, h_bank, h_hl, h_pipe, Dev.parityReaction_keep, Dev.replaceInline_keep]))
theorem Dev.react_keep {pts : List Part} (d : Dev) (r : EvRec) (h_fab : pts.contains .fab = true) (h_bank : pts.contains .bank = true) (h_hl :
    pts.contains .hl = true) (h_pipe : pts.contains .pipe = true) : (Dev.react d r).without pts = d.without pts := by
  unfold Dev.react
  simp only [apply_ite (Dev.without · pts), ite_self, h_fab, h_bank, h_hl, h_pipe, Dev.parityStep_keep, Dev.rewriteGlobal_keep]
theorem Dev.unitFault_keep {pts : List Part} (d : Dev) (u : Nat) (h_bank : pts.contains .bank = true) : (Dev.unitFault d u).without pts = d.without
    pts := by
  unfold Dev.unitFault
  repeat' (first
    | (with_reducible rfl)
    | (simp only [apply_ite (Dev.without · pts), ite_self, h_bank, Dev.comeDown_keep, Dev.toUnusable_keep, Dev.withdraw_keep]; done)
    | (intro _)
    | split
    | (with_reducible refine (foldl_keep _ _ _ ?_).trans ?_)
    | (simp only [Dev.without, h_bank, if_true]; done)
    | (simp only [foldl_keep, apply_ite (Dev.without · pts), ite_self, h_bank, Dev.comeDown_keep, Dev.toUnusable_keep, Dev.withdraw_keep]))
theorem Dev.s4_keep {pts : List Part} (d : Dev) (r : EvRec) (h_boot : pts.contains .boot = true) (h_hl : pts.contains .hl = true) (h_bank :
    pts.contains .bank = true) : (Dev.s4 d r).without pts = d.without pts := by
  unfold Dev.s4
  simp only [apply_ite (Dev.without · pts), ite_self, h_boot, h_hl, upd_hl_keep, Dev.nvPut_keep, h_bank, Dev.unitFault_keep]
theorem Dev.takeRec_keep {pts : List Part} (d : Dev) (sev : Nat) (r : EvRec) (rest : List EvRec) :
    (Dev.takeRec d sev r rest).without pts = d.without pts := by
  unfold Dev.takeRec
  simp only [upd_oz_keep]
theorem Dev.handleEvent_keep {pts : List Part} (d : Dev) (h_fab : pts.contains .fab = true) (h_qf : pts.contains .qf = true) (h_hbm :
    pts.contains .hbm = true) (h_host : pts.contains .host = true) (h_bank : pts.contains .bank = true) (h_boot : pts.contains .boot = true) (h_hl :
    pts.contains .hl = true) (h_pipe : pts.contains .pipe = true) : (Dev.handleEvent d).without pts = d.without pts := by
  unfold Dev.handleEvent
  repeat' (first
    | (with_reducible rfl)
    | (simp only [apply_ite (Dev.without · pts), ite_self, h_fab, h_qf, h_hbm, h_host, h_bank, h_boot, h_hl, h_pipe, upd_oz_keep, Dev.logRec_keep,
        Dev.takeRec_keep, Dev.react_keep, Dev.s4_keep, Dev.recovered_keep]; done)
    | (intro _)
    | split
    | (with_reducible refine (foldl_keep _ _ _ ?_).trans ?_)
    | (simp only [Dev.without, h_fab, h_qf, h_hbm, h_host, h_bank, h_boot, h_hl, h_pipe, if_true]; done)
    | (simp only [foldl_keep, apply_ite (Dev.without · pts), ite_self, h_fab, h_qf, h_hbm, h_host, h_bank, h_boot, h_hl, h_pipe, upd_oz_keep,
        Dev.logRec_keep, Dev.takeRec_keep, Dev.react_keep, Dev.s4_keep, Dev.recovered_keep]))
theorem Dev.healthSelftest_keep {pts : List Part} (d : Dev) (r : Req) (h_bank : pts.contains .bank = true) (h_hl : pts.contains .hl = true) :
    VKeeps pts d (Dev.healthSelftest d r) := by
  unfold Dev.healthSelftest
  repeat' (first
    | (with_reducible refine vk_ite _ _ ?_)
    | (simp only [vk_job, h_bank, h_hl, Dev.askTest_keep, Dev.setHist_keep]; done)
    | (intro _)
    | split
    | (extract_lets)
    | (with_reducible refine (foldl_keep _ _ _ ?_).trans ?_)
    | (simp only [Dev.without, h_bank, h_hl, if_true]; done)
    | (simp only [vk_err, vk_turned, vk_ok, vk_job, foldl_keep, apply_ite (Dev.without · pts), ite_self, h_bank, h_hl, Dev.askTest_keep,
        Dev.setHist_keep])
    | (simp +zetaDelta only [vk_err, vk_turned, vk_ok, vk_job, foldl_keep, apply_ite (Dev.without · pts), ite_self, h_bank, h_hl, Dev.askTest_keep,
        Dev.setHist_keep]; done)
    | (simp +zetaDelta only [vk_err, vk_turned, vk_ok, vk_job, foldl_keep, apply_ite (Dev.without · pts), ite_self, h_bank, h_hl, Dev.askTest_keep,
        Dev.setHist_keep]))
theorem Dev.placeRowChecks_keep {pts : List Part} (d : Dev) (h_hbm : pts.contains .hbm = true) :
    (Dev.placeRowChecks d).without pts = d.without pts := by
  unfold Dev.placeRowChecks
  split
  · rename_i b e hx
    exact (Dev.set64_keep e _ _ _ _ _).trans (Dev.alloc_keep _ _ _ _ h_hbm hx)
  · rfl
theorem Dev.openWaiting_keep {pts : List Part} (d : Dev) (f : Nat) (h_qf : pts.contains .qf = true) :
    (Dev.openWaiting d f).without pts = d.without pts := by
  unfold Dev.openWaiting
  simp only [apply_ite (Dev.without · pts), ite_self, h_qf, upd_oz_keep, Dev.fs_keep, Dev.openBoot_keep]
theorem Dev.twinAtReady_keep {pts : List Part} (d : Dev) (h_tw : pts.contains .tw = true) : (Dev.twinAtReady d).without pts = d.without pts := by
  unfold Dev.twinAtReady
  simp only [apply_ite (Dev.without · pts), ite_self, h_tw, upd_tw_keep, Dev.fs_keep]
theorem serviceReady_keep {pts : List Part} (quads : List (Fin 24 × Word)) (nv : Nv) (d : Dev) (h_fab : pts.contains .fab = true) (h_qf :
    pts.contains .qf = true) (h_hbm : pts.contains .hbm = true) (h_bank : pts.contains .bank = true) (h_hl : pts.contains .hl = true) (h_tw :
    pts.contains .tw = true) (h_ln : pts.contains .ln = true) (h_pipe : pts.contains .pipe = true) (h_ps : pts.contains .ps = true) (h_md :
    pts.contains .md = true) : (serviceReady quads nv d).without pts = d.without pts := by
  unfold serviceReady
  (try simp only [apply_ite (Dev.without · pts)])
  repeat' (first
    | (with_reducible rfl)
    | (simp only [h_fab, h_qf, h_hbm, h_bank, h_hl, h_tw, h_ln, h_pipe, h_ps, h_md, upd_hl_keep, Dev.fs_keep, Dev.effQuadCfg_keep,
        Dev.twinAtReady_keep, Dev.initEngines_keep, Dev.initRoles_keep, Dev.placeRowChecks_keep, Dev.setStage_keep, Dev.openWaiting_keep]; done)
    | (intro _)
    | split
    | (with_reducible refine (foldl_keep _ _ _ ?_).trans ?_)
    | (simp only [Dev.without, h_fab, h_qf, h_hbm, h_bank, h_hl, h_tw, h_ln, h_pipe, h_ps, h_md, if_true]; done)
    | (simp only [h_hbm, h_bank, h_tw, h_pipe, h_ps, Dev.fs_keep, Dev.twinAtReady_keep, Dev.initEngines_keep, Dev.initRoles_keep,
        Dev.placeRowChecks_keep, Dev.setStage_keep]))
theorem Dev.headerErr_keep {pts : List Part} (d : Dev) (n : Nat) (h_ln : pts.contains .ln = true) : (Dev.headerErr d n).without pts = d.without pts := by
  unfold Dev.headerErr
  simp only [h_ln, Dev.fadd_keep, Dev.setLinkSt_keep, Dev.raiseOnce_keep, upd_ln_keep]
theorem Dev.delivered_keep {pts : List Part} (d : Dev) (n : Nat) (bs : List Byte) (h_tw : pts.contains .tw = true) (h_ing : pts.contains .ing =
    true) : (Dev.delivered d n bs).without pts = d.without pts := by
  unfold Dev.delivered
  simp only [apply_ite (Dev.without · pts), ite_self, h_tw, Dev.mirrorOut_keep, Dev.ptErr_keep, h_ing]
theorem Dev.packetRx_keep {pts : List Part} (d : Dev) (n : Nat) (bs : List Byte) (h_tw : pts.contains .tw = true) (h_ln : pts.contains .ln = true)
    (h_ing : pts.contains .ing = true) (h_sc : pts.contains .sc = true) : (Dev.packetRx d n bs).without pts = d.without pts := by
  unfold Dev.packetRx
  simp only [apply_ite (Dev.without · pts), ite_self, h_tw, h_ln, Dev.delivered_keep, Dev.headerErr_keep, h_ing, h_sc, Dev.take_keep]
theorem Dev.rotateAway_keep {pts : List Part} (d : Dev) (g : Nat) (h_bank : pts.contains .bank = true) (h_hl : pts.contains .hl = true) (h_pipe :
    pts.contains .pipe = true) (h_ps : pts.contains .ps = true) : (Dev.rotateAway d g).without pts = d.without pts := by
  unfold Dev.rotateAway
  repeat' (first
    | (with_reducible rfl)
    | (simp only [apply_ite (Dev.without · pts), ite_self, h_bank, h_hl, h_pipe, h_ps, Dev.replaceInline_keep, Dev.evacuate_keep]; done)
    | (intro _)
    | split
    | (with_reducible refine (foldl_keep _ _ _ ?_).trans ?_)
    | (simp only [Dev.without, h_bank, h_hl, h_pipe, h_ps, if_true]; done)
    | (simp only [foldl_keep, apply_ite (Dev.without · pts), ite_self, h_bank, h_hl, h_pipe, h_ps, Dev.replaceInline_keep, Dev.evacuate_keep]))
theorem Dev.paceLow_keep {pts : List Part} (d : Dev) (g : Nat) (h_bank : pts.contains .bank = true) (h_hl : pts.contains .hl = true) (h_pipe :
    pts.contains .pipe = true) (h_ps : pts.contains .ps = true) : (Dev.paceLow d g).without pts = d.without pts := by
  unfold Dev.paceLow
  simp only [apply_ite (Dev.without · pts), ite_self, h_bank, h_hl, h_pipe, h_ps, upd_bank_keep, Dev.raise_keep, Dev.c0Risk_keep, Dev.rotateAway_keep]
theorem Dev.arrived_keep {pts : List Part} (d : Dev) (o : Op) (h_fab : pts.contains .fab = true) (h_qf : pts.contains .qf = true) (h_hbm :
    pts.contains .hbm = true) (h_host : pts.contains .host = true) (h_tm : pts.contains .tm = true) :
    (Dev.arrived d o).without pts = d.without pts := by
  unfold Dev.arrived
  simp only [h_fab, h_qf, h_hbm, h_host, h_tm, Dev.flipDispatched_keep, Dev.timeDispatched_keep, Dev.abufDispatched_keep, Dev.cbufDispatched_keep,
      Dev.bufDispatched_keep]
theorem Dev.queueDispatch_keep {pts : List Part} (d : Dev) (h_fab : pts.contains .fab = true) (h_qf : pts.contains .qf = true) (h_hbm :
    pts.contains .hbm = true) (h_host : pts.contains .host = true) (h_tm : pts.contains .tm = true) (h_md : pts.contains .md = true) :
    (Dev.queueDispatch d).without pts = d.without pts := by
  unfold Dev.queueDispatch
  (try simp only [h_qf, h_host, h_md, Dev.mdErrors_keep])
  repeat' (first
    | (with_reducible rfl)
    | (simp only [apply_ite (Dev.without · pts), ite_self, h_fab, h_qf, h_hbm, h_host, h_tm, Dev.dispatch_keep, Dev.arrived_keep]; done)
    | (intro _)
    | split
    | (with_reducible refine (foldl_keep _ _ _ ?_).trans ?_)
    | (simp only [Dev.without, h_fab, h_qf, h_hbm, h_host, h_tm, h_md, if_true]; done)
    | (simp only [foldl_keep, apply_ite (Dev.without · pts), ite_self, h_fab, h_qf, h_hbm, h_host, h_tm, h_md, Dev.dispatch_keep, Dev.arrived_keep,
        Dev.mdErrors_keep]))
theorem Dev.jobEffect_keep {pts : List Part} (nv : Nv) (d : Dev) (j : Job) (outcome : Nat) (h_fab : pts.contains .fab = true) (h_qf :
    pts.contains .qf = true) (h_hbm : pts.contains .hbm = true) (h_host : pts.contains .host = true) (h_bank : pts.contains .bank = true) (h_tm :
    pts.contains .tm = true) (h_tw : pts.contains .tw = true) (h_ch : pts.contains .ch = true) (h_md : pts.contains .md = true) (h_sc :
    pts.contains .sc = true) : (Dev.jobEffect nv d j outcome).without pts = d.without pts := by
  unfold Dev.jobEffect
  (try simp only [foldl_keep, apply_ite (Dev.without · pts), ite_self, h_fab, h_qf, h_hbm, h_host, h_bank, h_tm, h_tw, h_ch, h_md, h_sc,
      Dev.enterStandby_keep, Dev.layerGone_keep, Dev.ethEnd_keep, Dev.detached_keep, attReportDone_keep, Dev.openDebug_keep])
  repeat' (first
    | (with_reducible rfl)
    | (simp only [apply_ite (Dev.without · pts), ite_self, h_fab, h_qf, h_hbm, h_host, h_bank, h_tm, h_tw, h_ch, h_md, h_sc, Dev.enterStandby_keep,
        Dev.layerGone_keep, Dev.ethEnd_keep, Dev.detached_keep, attReportDone_keep, Dev.openDebug_keep]; done)
    | (intro _)
    | split
    | (with_reducible refine (foldl_keep _ _ _ ?_).trans ?_)
    | (simp only [Dev.without, h_fab, h_qf, h_hbm, h_host, h_bank, h_tm, h_tw, h_ch, h_md, h_sc, if_true]; done)
    | (simp only [foldl_keep, apply_ite (Dev.without · pts), ite_self, h_fab, h_qf, h_hbm, h_host, h_bank, h_tm, h_tw, h_ch, h_md, h_sc,
        Dev.enterStandby_keep, Dev.layerGone_keep, Dev.ethEnd_keep, Dev.detached_keep, attReportDone_keep, Dev.openDebug_keep]))
theorem Dev.finalRecord_keep {pts : List Part} (d : Dev) (j : Job) (outcome : Nat) (h_qf : pts.contains .qf = true) (h_hbm :
    pts.contains .hbm = true) (h_host : pts.contains .host = true) : (Dev.finalRecord d j outcome).without pts = d.without pts := by
  unfold Dev.finalRecord
  repeat' (first
    | (with_reducible rfl)
    | (simp only [apply_ite (Dev.without · pts), ite_self, h_qf, h_hbm, h_host, Dev.logNew_keep, Dev.postEvent_keep]; done)
    | (intro _)
    | split
    | (with_reducible refine (foldl_keep _ _ _ ?_).trans ?_)
    | (simp only [Dev.without, h_qf, h_hbm, h_host, if_true]; done)
    | (simp only [foldl_keep, apply_ite (Dev.without · pts), ite_self, h_qf, h_hbm, h_host, Dev.logNew_keep, Dev.postEvent_keep]))
theorem Dev.endJob_keep {pts : List Part} (nv : Nv) (d : Dev) (j : Job) (outcome : Nat) (h_fab : pts.contains .fab = true) (h_qf :
    pts.contains .qf = true) (h_hbm : pts.contains .hbm = true) (h_host : pts.contains .host = true) (h_bank : pts.contains .bank = true) (h_tm :
    pts.contains .tm = true) (h_tw : pts.contains .tw = true) (h_ch : pts.contains .ch = true) (h_md : pts.contains .md = true) (h_sc :
    pts.contains .sc = true) : (Dev.endJob nv d j outcome).without pts = d.without pts := by
  unfold Dev.endJob
  simp only [h_fab, h_qf, h_hbm, h_host, h_bank, h_tm, h_tw, h_ch, h_md, h_sc, upd_oz_keep, Dev.jobEffect_keep, Dev.sweep_keep, Dev.finalRecord_keep]
theorem Dev.completeJob_keep {pts : List Part} (nv : Nv) (d : Dev) (n : Nat) (h_fab : pts.contains .fab = true) (h_qf : pts.contains .qf = true)
    (h_hbm : pts.contains .hbm = true) (h_host : pts.contains .host = true) (h_bank : pts.contains .bank = true) (h_tm : pts.contains .tm = true)
    (h_tw : pts.contains .tw = true) (h_ch : pts.contains .ch = true) (h_md : pts.contains .md = true) (h_sc : pts.contains .sc = true) :
    (Dev.completeJob nv d n).without pts = d.without pts := by
  unfold Dev.completeJob
  (try simp only [foldl_keep, apply_ite (Dev.without · pts), ite_self, h_fab, h_qf, h_hbm, h_host, h_bank, h_tm, h_tw, h_ch, h_md, h_sc,
      Dev.endJob_keep])
  repeat' (first
    | (with_reducible rfl)
    | (simp only [h_fab, h_qf, h_hbm, h_host, h_bank, h_tm, h_tw, h_ch, h_md, h_sc, Dev.endJob_keep]; done)
    | (intro _)
    | split
    | (with_reducible refine (foldl_keep _ _ _ ?_).trans ?_)
    | (simp only [Dev.without, h_fab, h_qf, h_hbm, h_host, h_bank, h_tm, h_tw, h_ch, h_md, h_sc, if_true]; done)
    | (simp only [foldl_keep, apply_ite (Dev.without · pts), ite_self, h_fab, h_qf, h_hbm, h_host, h_bank, h_tm, h_tw, h_ch, h_md, h_sc,
        Dev.endJob_keep]))

end Sys2Proof.Machine
end

