-- ==== Sys2Proof/Laws/Survivors.lean ====
section
/-! SUPPORT. What each operation on the survivors of RST_N (flash banks, event NVM, fuses) can do: it keeps their canonical
form, and fuses only blow. -/
namespace Sys2Proof.Machine

theorem FuseSlot.le_refl (a : FuseSlot) : a.le a := ⟨fun _ h => h, fun h => h⟩

theorem FuseSlot.le_trans {a b c : FuseSlot} (h : a.le b) (h' : b.le c) : a.le c :=
  ⟨fun x e => h'.1 x (h.1 x e), fun e => h'.2 (h.2 e)⟩

theorem FuseSlot.le_program (h : List Byte) (a : FuseSlot) : a.le (a.program h) := by
  refine ⟨fun x e => ?_, fun e => e⟩
  simp [FuseSlot.program, e]

theorem FuseSlot.le_revoke (a : FuseSlot) : a.le a.revoke := ⟨fun _ e => e, fun _ => rfl⟩

/-- One survivor state after another: the canonical form is kept and the fuses only blow. -/
structure Nv.Grows (a b : Nv) : Prop where
  wf : a.wf = true → b.wf = true
  fuses : a.fusesLe b

theorem Nv.fusesLe_of_eq {a b : Nv} (h1 : a.ed = b.ed) (h2 : a.ml = b.ml) (h3 : a.svn = b.svn) (h4 : a.serial = b.serial) :
    a.fusesLe b := by
  refine ⟨fun n x y hx hy => ?_, fun n x y hx hy => ?_, by rw [h1], by rw [h2], by omega, h4⟩
  · rw [h1, hy] at hx
    cases hx
    exact FuseSlot.le_refl _
  · rw [h2, hy] at hx
    cases hx
    exact FuseSlot.le_refl _

theorem Nv.Grows.refl (a : Nv) : a.Grows a := ⟨id, Nv.fusesLe_of_eq rfl rfl rfl rfl⟩

theorem Nv.fusesLe_trans {a b c : Nv} (h : a.fusesLe b) (h' : b.fusesLe c) : a.fusesLe c := by
  obtain ⟨e1, m1, le1, lm1, s1, n1⟩ := h
  obtain ⟨e2, m2, le2, lm2, s2, n2⟩ := h'
  refine ⟨fun n x z hx hz => ?_, fun n x z hx hz => ?_, le1.trans le2, lm1.trans lm2, by omega, n1.trans n2⟩
  · obtain ⟨hl, -⟩ := List.getElem?_eq_some_iff.1 hx
    have hy : b.ed[n]? = some (b.ed[n]'(by omega)) := List.getElem?_eq_getElem _
    exact FuseSlot.le_trans (e1 n x _ hx hy) (e2 n _ z hy hz)
  · obtain ⟨hl, -⟩ := List.getElem?_eq_some_iff.1 hx
    have hy : b.ml[n]? = some (b.ml[n]'(by omega)) := List.getElem?_eq_getElem _
    exact FuseSlot.le_trans (m1 n x _ hx hy) (m2 n _ z hy hz)

theorem Nv.Grows.trans {a b c : Nv} (h : a.Grows b) (h' : b.Grows c) : a.Grows c :=
  ⟨fun e => h'.wf (h.wf e), Nv.fusesLe_trans h.fuses h'.fuses⟩

/-- The canonical form, part by part. -/
theorem Nv.wf_iff (a : Nv) : a.wf = true ↔
    mwf 0xFF a.flashA = true ∧ mwf 0xFF a.flashB = true ∧ tsorted a.recs = true ∧ (∀ p ∈ a.recs, p.1 < 512) ∧
    a.ed.length = 4 ∧ a.ml.length = 4 := by
  simp [Nv.wf, and_assoc]

theorem Nv.wf_flash {a : Nv} (h : a.wf = true) (b : Nat) : mwf 0xFF (a.flash b) = true := by
  obtain ⟨hA, hB, -⟩ := (Nv.wf_iff a).1 h
  unfold Nv.flash
  split <;> assumption

theorem Nv.Grows.setFlash (a : Nv) (b : Nat) (f : Tab Byte) (h : a.wf = true → mwf 0xFF f = true) : a.Grows (a.setFlash b f) := by
  unfold Nv.setFlash
  split
  · refine ⟨fun e => (Nv.wf_iff _).2 ?_, Nv.fusesLe_of_eq rfl rfl rfl rfl⟩
    obtain ⟨hA, hB, hr⟩ := (Nv.wf_iff a).1 e
    exact ⟨h e, hB, hr⟩
  · refine ⟨fun e => (Nv.wf_iff _).2 ?_, Nv.fusesLe_of_eq rfl rfl rfl rfl⟩
    obtain ⟨hA, hB, hr⟩ := (Nv.wf_iff a).1 e
    exact ⟨hA, h e, hr⟩

/-- Flash programmed (R161). -/
theorem Nv.Grows.flashW (a : Nv) (b n : Nat) (bs : List Byte) : a.Grows (a.flashW b n bs) :=
  Nv.Grows.setFlash a b _ fun h => mwrite_wf _ _ _ _ (Nv.wf_flash h b)

theorem Nv.Grows.markBad (a : Nv) (b : Nat) : a.Grows (a.markBad b) := Nv.Grows.flashW a b _ _
theorem Nv.Grows.clearAttempt (a : Nv) (b : Nat) : a.Grows (a.clearAttempt b) := Nv.Grows.flashW a b _ _

/-- Fields of the event NVM, the boot count and the sequence that a change may touch. -/
theorem Nv.Grows.ofRecs {a b : Nv} (hA : b.flashA = a.flashA) (hB : b.flashB = a.flashB) (he : b.ed = a.ed) (hm : b.ml = a.ml)
    (hs : b.svn = a.svn) (hn : b.serial = a.serial)
    (hr : tsorted a.recs = true → (∀ p ∈ a.recs, p.1 < 512) → tsorted b.recs = true ∧ ∀ p ∈ b.recs, p.1 < 512) : a.Grows b := by
  refine ⟨fun e => (Nv.wf_iff _).2 ?_, Nv.fusesLe_of_eq he.symm hm.symm hs.symm hn.symm⟩
  obtain ⟨h1, h2, h3, h4, h5, h6⟩ := (Nv.wf_iff a).1 e
  rw [hA, hB, he, hm]
  exact ⟨h1, h2, (hr h3 h4).1, (hr h3 h4).2, h5, h6⟩

theorem Dev.nvNext_lt (d : Dev) : d.nvNext < 512 := Nat.mod_lt _ (by decide)

/-- A record placed (R545). -/
theorem Nv.Grows.place (a : Nv) (d : Dev) (j : NvJob) (g : Bool) : a.Grows (nvPlace a d j g).1 := by
  refine Nv.Grows.ofRecs rfl rfl rfl rfl rfl rfl fun hs hl => ⟨tsorted_tset _ _ _ hs, fun p hp => ?_⟩
  rcases tset_mem _ _ _ p hp with e | e
  · exact e ▸ d.nvNext_lt
  · exact hl p e

/-- A change of the record sequence number or the boot count alone. -/
theorem Nv.Grows.nseq (a : Nv) (n : Nat) : a.Grows { a with nseq := n } :=
  Nv.Grows.ofRecs rfl rfl rfl rfl rfl rfl fun hs hl => ⟨hs, hl⟩
theorem Nv.Grows.boots (a : Nv) (n : Nat) : a.Grows { a with boots := n } :=
  Nv.Grows.ofRecs rfl rfl rfl rfl rfl rfl fun hs hl => ⟨hs, hl⟩

/-- A record written with its read-back checks (R547). -/
theorem Nv.Grows.write (k : Nat) (a : Nv) (d : Dev) (j : NvJob) : a.Grows (nvWrite k a d j).1 := by
  have h1 : a.Grows (if k = 0 then (a, d) else nvPlace a d j false).1 := by
    split
    · exact Nv.Grows.refl a
    · exact Nv.Grows.place a d j false
  refine h1.trans ?_
  unfold nvWrite
  generalize (if k = 0 then (a, d) else nvPlace a d j false) = p
  by_cases hk : k ≤ 1
  · simp only [hk, if_true]
    exact (Nv.Grows.place p.1 p.2 j true).trans (Nv.Grows.nseq _ _)
  · simp only [hk, if_false]
    exact (Nv.Grows.place p.1 p.2 j false).trans (Nv.Grows.nseq _ _)

/-- Every queued record written. -/
theorem Nv.Grows.flush (k : Nat) (a : Nv) (d : Dev) : a.Grows (nvFlush k a d).1 := by
  have key : ∀ (l : List (NvJob × Nat)) (p : Nv × Dev), p.1.Grows
      (l.foldl (fun p j => nvWrite (if j.2 = 0 then k else 0) p.1 p.2 j.1) p).1 := by
    intro l
    induction l with
    | nil => exact fun p => Nv.Grows.refl _
    | cons j l ih => exact fun p => (Nv.Grows.write _ p.1 p.2 j.1).trans (ih _)
  exact key d.boot.nvOut.zipIdx (a, { d with boot := { d.boot with nvOut := [] } })

/-- Key slots burnt (R175). -/
theorem Nv.Grows.burn (a : Nv) (alg n : Nat) (f : FuseSlot → FuseSlot) (hf : ∀ x : FuseSlot, x.le (f x)) : a.Grows (a.burn alg n f) := by
  have key : ∀ (l : List FuseSlot) (i : Nat) (x y : FuseSlot), l[i]? = some x → (l.modify n f)[i]? = some y → x.le y := by
    intro l i x y hx hy
    rw [List.getElem?_modify, hx] at hy
    simp only [Option.map_eq_map, Option.map_some, Option.some.injEq] at hy
    split at hy
    · exact hy ▸ hf x
    · exact hy ▸ FuseSlot.le_refl x
  have keep : ∀ (l : List FuseSlot) (i : Nat) (x y : FuseSlot), l[i]? = some x → l[i]? = some y → x.le y := by
    intro l i x y hx hy
    rw [hx] at hy
    cases hy
    exact FuseSlot.le_refl x
  unfold Nv.burn
  split
  · refine ⟨fun e => (Nv.wf_iff _).2 ?_, key a.ed, keep a.ml, by simp, rfl, Nat.le_refl _, rfl⟩
    obtain ⟨h1, h2, h3, h4, h5, h6⟩ := (Nv.wf_iff a).1 e
    exact ⟨h1, h2, h3, h4, by simpa using h5, h6⟩
  · refine ⟨fun e => (Nv.wf_iff _).2 ?_, keep a.ed, key a.ml, rfl, by simp, Nat.le_refl _, rfl⟩
    obtain ⟨h1, h2, h3, h4, h5, h6⟩ := (Nv.wf_iff a).1 e
    exact ⟨h1, h2, h3, h4, h5, by simpa using h6⟩

/-- The SVN advanced (R181). -/
theorem Nv.Grows.svn (a : Nv) (n : Nat) : a.Grows { a with svn := max a.svn n } := by
  refine ⟨fun e => (Nv.wf_iff _).2 ((Nv.wf_iff a).1 e), ?_, ?_, rfl, rfl, Nat.le_max_left _ _, rfl⟩
  · intro i x y hx hy
    rw [hx] at hy
    cases hy
    exact FuseSlot.le_refl x
  · intro i x y hx hy
    rw [hx] at hy
    cases hy
    exact FuseSlot.le_refl x

/-- The ROM's scan of the event NVM and its choice of a bank (R167, R545). -/
theorem Nv.Grows.scan (a : Nv) (d : Dev) : a.Grows (nvScan a d).1 := Nv.Grows.nseq a _

theorem Nv.Grows.expire (b : Nat) (p : Nv × Dev) : p.1.Grows (expire b p).1 := by
  unfold Sys2Proof.Machine.expire
  split
  · exact Nv.Grows.markBad _ _
  · exact Nv.Grows.refl _

theorem Nv.Grows.attempt (a : Nv) (b : Nat) : a.Grows (a.attempt b) := by
  unfold Nv.attempt
  split
  · exact Nv.Grows.clearAttempt a b
  · exact Nv.Grows.refl a

theorem Nv.Grows.tryBank (first b : Nat) (p : Nv × Dev) : p.1.Grows (tryBank first b p).1.1 := by
  unfold Sys2Proof.Machine.tryBank
  refine (Nv.Grows.attempt p.1 b).trans ?_
  simp only
  split
  · exact Nv.Grows.refl _
  · exact Nv.Grows.markBad _ b

theorem Nv.Grows.tryBanks (first : Nat) (bs : List Nat) (p : Nv × Dev) : p.1.Grows (tryBanks first bs p).1.1 := by
  induction bs generalizing p with
  | nil => exact Nv.Grows.refl p.1
  | cons b bs ih =>
    rw [Sys2Proof.Machine.tryBanks]
    split
    · exact Nv.Grows.tryBank first b p
    · exact (Nv.Grows.tryBank first b p).trans (ih _)

theorem Nv.Grows.flashBoot (sel : Nat) (p : Nv × Dev) : p.1.Grows (flashBoot sel p).1 :=
  (Nv.Grows.expire 0 p).trans ((Nv.Grows.expire 1 _).trans (Nv.Grows.tryBanks _ _ _))

theorem Nv.Grows.sourceBoot (sel : Nat) (p : Nv × Dev) : p.1.Grows (sourceBoot sel p).1 := by
  unfold Sys2Proof.Machine.sourceBoot
  split
  · exact Nv.Grows.flashBoot sel (p.1, p.2.selNote sel)
  · exact Nv.Grows.refl _

/-- From RST_N release to the ROM's end (R163, R167). -/
theorem Nv.Grows.romBoot (sel : Nat) (a : Nv) (d : Dev) : a.Grows (romBoot sel a d).1 :=
  ((Nv.Grows.boots a (a.boots + 1)).trans (Nv.Grows.scan _ _)).trans (Nv.Grows.sourceBoot sel _)

/-- A verb that may change the survivors changes them only as its body does. -/
theorem Nv.Grows.verbNv (a : Nv) (d : Dev) (r : Req) (svc verb : Nat) (priv : Bool) (body : Nv → Dev → VRes (Nv × Dev))
    (h : ∀ e, match body a e with
      | .ok p .. | .turned p _ | .job p .. => a.Grows p.1
      | .err .. => True) : a.Grows (verbNv a d r svc verb priv body).1 := by
  unfold Sys2Proof.Machine.verbNv
  split
  · exact Nv.Grows.refl a
  · have h := h d
    unfold finishVerb
    split <;> simp_all only
    · exact Nv.Grows.refl a
    · split
      · exact Nv.Grows.refl a
      · exact h
    · split
      · exact Nv.Grows.refl a
      · split
        · exact Nv.Grows.refl a
        · exact h
    · split
      · exact Nv.Grows.refl a
      · split
        · exact Nv.Grows.refl a
        · exact h

/-! ### The commands that write survivors -/

theorem State.onNvm_grows (s t : State) (k : Nat) (f : Dev → Dev) (h : s.onNvm k f = .next t) : s.nv.Grows t.nv := by
  cases h
  exact Nv.Grows.flush k s.nv (f s.dev)

theorem State.onBoth_grows (s t : State) (f : Nv → Dev → Nv × Dev) (hf : ∀ (nv : Nv) (d : Dev), nv.Grows (f nv d).1) (h : s.onBoth f = .next t) :
    s.nv.Grows t.nv := by
  cases h
  exact hf s.nv s.dev

theorem State.onDev_grows (s t : State) (f : Dev → Dev) (h : s.onDev f = .next t) : s.nv.Grows t.nv := by
  cases h
  exact Nv.Grows.refl _

theorem State.access_grows (s t : State) (m : Nat) (f : Dev → Dev) (h : s.access m f = .next t) : s.nv.Grows t.nv := by
  unfold State.access at h
  split at h
  · exact State.onDev_grows s t f h
  · cases h

theorem Nv.Grows.bootHostGo (m : Nat) (v : Word) (img : List Byte) (nv : Nv) (d : Dev) : nv.Grows (bootHostGo m v img nv d).1 := by
  unfold Sys2Proof.Machine.bootHostGo
  simp only
  split
  · exact Nv.Grows.refl nv
  · have h : ∀ e, nv.Grows (hostBoot img nv e).1 := by
      intro e
      unfold hostBoot
      simp only
      split <;> exact Nv.Grows.refl nv
    exact (h _).trans (Nv.Grows.flush 0 _ _)

theorem Nv.Grows.busWord (m a : Nat) (v : Word) (b : Bool) (x : Shown) (nv : Nv) (d : Dev) : nv.Grows (busWord m a v b x nv d).1 := by
  unfold Sys2Proof.Machine.busWord
  split
  · exact Nv.Grows.refl nv
  · split
    · exact Nv.Grows.refl nv
    · exact Nv.Grows.refl nv
    · exact Nv.Grows.flush 0 _ _
    · split
      · exact Nv.Grows.refl nv
      · split
        · exact Nv.Grows.bootHostGo _ _ _ _ _
        · exact Nv.Grows.flush 0 _ _

theorem Nv.Grows.busWords (m : Nat) (x : Shown) (ws : List (Word × Bool)) (a : Nat) (nv : Nv) (d : Dev) :
    nv.Grows (busWords m x a ws nv d).1 := by
  induction ws generalizing a nv d with
  | nil => exact Nv.Grows.refl nv
  | cons w ws ih => exact (Nv.Grows.busWord m a w.1 w.2 x nv d).trans (ih _ _ _)

theorem Nv.Grows.busWrite (m a n : Nat) (ws : List (Word × Bool)) (x : Shown) (nv : Nv) (d : Dev) :
    nv.Grows (busWrite m a n ws x nv d).1 := by
  unfold Sys2Proof.Machine.busWrite
  split
  · exact Nv.Grows.refl nv
  · exact Nv.Grows.busWords _ _ _ _ _ _
  · split
    · exact Nv.Grows.refl nv
    · split
      · exact Nv.Grows.refl nv
      · exact Nv.Grows.busWords _ _ _ _ _ _

theorem Nv.Grows.rstRelease (sel : Nat) (nv : Nv) (d : Dev) : nv.Grows (rstRelease sel nv d).1 :=
  (Nv.Grows.romBoot sel nv _).trans (Nv.Grows.flush 0 _ _)

theorem Nv.Grows.loadSegments (img : List Byte) (nv : Nv) (d : Dev) : nv.Grows (loadSegments img nv d).1 := by
  unfold Sys2Proof.Machine.loadSegments
  split
  · exact Nv.Grows.refl nv
  · split
    · exact Nv.Grows.refl nv
    · simp only
      split
      · split
        · exact Nv.Grows.refl nv
        · exact Nv.Grows.markBad _ _
      · exact Nv.Grows.refl nv

theorem Nv.Grows.upd (r : Req) (verb : Nat) (body : Nv → Dev → VRes (Nv × Dev)) (s t : State)
    (hb : ∀ nv d, match body nv d with
      | .ok p .. | .turned p _ | .job p .. => nv.Grows p.1
      | .err .. => True) (h : upd r verb body s = .next t) : s.nv.Grows t.nv := by
  refine State.onBoth_grows s t _ (fun nv d => Nv.Grows.verbNv nv d r _ _ _ _ fun e => ?_) h
  split
  all_goals try trivial
  all_goals
    rename_i heq
    split at heq
    · cases heq
    · have := hb nv e
      rw [heq] at this
      exact this

end Sys2Proof.Machine
end

