-- ==== Sys2Proof/Laws/FrameBoot.lean ====
section
/-! SUPPORT. Which parts of the device the operations may change that also work on the survivors of RST_N: the ROM, firmware's
start, the segment load, the power-fail record, and the verbs of UPDATE and ATTEST. -/
namespace Sys2Proof.Machine
set_option linter.all false

theorem Dev.syncBanks_keep {pts : List Part} (d : Dev) (nv : Nv) : (d.syncBanks nv).without pts = d.without pts := Dev.wr_keep d _ _ _ _

theorem Dev.syncFuses_keep {pts : List Part} (d : Dev) (nv : Nv) : (d.syncFuses nv).without pts = d.without pts := by
  unfold Dev.syncFuses
  simp only [Dev.wr_keep, Dev.fs_keep]

theorem Dev.setFail_keep {pts : List Part} (d : Dev) (b n : Nat) : (d.setFail b n).without pts = d.without pts := Dev.wr_keep d _ _ _ _

theorem Dev.romEvent_keep {pts : List Part} (d : Dev) (code src seg check : Nat) (h_boot : pts.contains .boot = true) :
    (d.romEvent code src seg check).without pts = d.without pts := by
  unfold Dev.romEvent
  simp only [upd_boot_keep, Dev.useFree_keep, Dev.nvPut_keep, h_boot]

theorem Dev.rejected_keep {pts : List Part} (d : Dev) (src : Nat) (p : Nat × Nat) (h_boot : pts.contains .boot = true) :
    (d.rejected src p).without pts = d.without pts := by
  unfold Dev.rejected
  simp only [apply_ite (Dev.without · pts), Dev.setFail_keep, Dev.romEvent_keep, Dev.fs_keep, h_boot, ite_self]

theorem Dev.fwStart_keep {pts : List Part} (d : Dev) (im : Image) (h_fab : pts.contains .fab = true) (h_bank : pts.contains .bank = true)
    (h_boot : pts.contains .boot = true) : (d.fwStart im).without pts = d.without pts := by
  unfold Dev.fwStart
  extract_lets evs s d1 d2 d3 d4
  have h2 : d2.without pts = d.without pts :=
    (foldl_keep _ _ _ (fun e x => Dev.raise_keep e x)).trans (upd_boot_keep d _ h_boot)
  have h3 : d3.without pts = d.without pts := by
    simp only [d3, Dev.wr_keep, Dev.setStage_keep, Dev.fs_keep]
    exact h2
  have h4 : d4.without pts = d.without pts := (foldl_keep _ _ _ (fun e u => Dev.fs_keep e _ _ _ _)).trans h3
  exact (foldl_keep _ _ _ (fun e u => (Dev.cmd1_keep _ _ _ h_fab h_bank).trans (Dev.loadCtx_keep e u h_bank))).trans h4

theorem Dev.effBootHost_keep {pts : List Part} (d : Dev) (m : Nat) (r : Reg) (v : Word) (h_fab : pts.contains .fab = true) :
    (d.effBootHost m r v).without pts = d.without pts := by
  unfold Dev.effBootHost
  simp only [apply_ite (Dev.without · pts), Dev.putFields_keep, Dev.raise_keep, h_fab, ite_self]

theorem hostBoot_keep {pts : List Part} (img : List Byte) (nv : Nv) (d : Dev) (h_fab : pts.contains .fab = true) (h_bank : pts.contains .bank = true)
    (h_boot : pts.contains .boot = true) : (hostBoot img nv d).2.without pts = d.without pts := by
  unfold hostBoot
  extract_lets d1 x
  split
  · rename_i d2 _ _
    have h2 : d2.without pts = d.without pts := by
      simp only [d2, apply_ite (Dev.without · pts), Dev.romEvent_keep, Dev.fs_keep, ite_self, d1, h_boot]
    clear_value d2
    simp only [Dev.fwStart_keep, Dev.fs_keep, h_fab, h_bank, h_boot, h2]
  · simp only [Dev.rejected_keep, Dev.fs_keep, d1, h_boot]

theorem bootHostGo_keep {pts : List Part} (m : Nat) (v : Word) (img : List Byte) (nv : Nv) (d : Dev) (h_fab : pts.contains .fab = true)
    (h_qf : pts.contains .qf = true) (h_hbm : pts.contains .hbm = true) (h_host : pts.contains .host = true) (h_bank : pts.contains .bank = true)
    (h_boot : pts.contains .boot = true) : (bootHostGo m v img nv d).2.without pts = d.without pts := by
  unfold bootHostGo
  extract_lets w e p
  have he : e.without pts = d.without pts := Dev.gated_keep d _ _ _ _ _ _ h_fab h_qf h_hbm h_host (fun y => Dev.effBootHost_keep y _ _ _ h_fab)
  split
  · exact he
  · exact (nvFlush_keep 0 p.1 p.2 h_boot).trans ((hostBoot_keep img nv e h_fab h_bank h_boot).trans he)

theorem loadSegments_keep {pts : List Part} (img : List Byte) (nv : Nv) (d : Dev) (h_hbm : pts.contains .hbm = true) (h_bank : pts.contains .bank = true)
    (h_boot : pts.contains .boot = true) (h_hl : pts.contains .hl = true) : (loadSegments img nv d).2.without pts = d.without pts := by
  unfold loadSegments
  split
  · rfl
  · split
    · rfl
    · extract_lets x hb nv2 d1
      have h1 : d1.without pts = d.without pts := foldl_keep _ _ _ (fun e p => Dev.hbmW_keep e _ _ h_hbm)
      clear_value d1
      split
      · extract_lets d2 evs s d3
        have h2 : d2.without pts = d.without pts := (Dev.setStage_keep _ _).trans (Dev.rejected_keep d _ _ h_boot)
        clear_value d2
        have h3 : d3.without pts = d2.without pts :=
          (foldl_keep _ _ _ (fun e z => Dev.raise_keep e z)).trans (upd_boot_keep d2 _ h_boot)
        exact (Dev.syncBanks_keep d3 _).trans (h3.trans h2)
      · dsimp only
        exact (foldl_keep _ _ _ (fun e u => Dev.askTest_keep e u 0 false h_bank h_hl)).trans ((Dev.setStage_keep d1 6).trans h1)

theorem pwrGoodFall_keep {pts : List Part} (cut : Bool) (nv : Nv) (d : Dev) (h_bank : pts.contains .bank = true) (h_boot : pts.contains .boot = true)
    (h_hl : pts.contains .hl = true) (h_pins : pts.contains .pins = true) : (pwrGoodFall cut nv d).2.without pts = d.without pts := by
  unfold pwrGoodFall
  extract_lets s1 s2 s3 d1 e r d2 p
  have h1 : d1.without pts = d.without pts := by
    simp only [d1, Dev.without, h_bank, h_hl, h_pins, if_true]
  have h2 : d2.without pts = d.without pts := (Dev.raise_keep d1 e).trans h1
  clear_value d2 r
  split
  · exact (nvPlace_keep nv d2 _ false).trans h2
  · exact (nvFlush_keep 0 nv _ h_boot).trans ((Dev.nvPut_keep d2 2 r [] h_boot).trans h2)

/-- A verb's answer over survivors and device leaves the device without some parts as it was. -/
def NKeeps (pts : List Part) (d : Dev) : VRes (Nv × Dev) → Prop
  | .err .. => True
  | .turned p _ => p.2.without pts = d.without pts
  | .ok p _ _ _ => p.2.without pts = d.without pts
  | .job p _ _ => p.2.without pts = d.without pts

theorem nk_ite {pts : List Part} {d : Dev} {c : Prop} [Decidable c] (n a : Nat) {v : VRes (Nv × Dev)} (h : NKeeps pts d v) :
    NKeeps pts d (if c then .err n a else v) := by
  split
  · exact True.intro
  · exact h

theorem verbNv_keep {pts : List Part} (nv : Nv) (d : Dev) (r : Req) (svc verb : Nat) (priv : Bool) (body : Nv → Dev → VRes (Nv × Dev))
    (h_fab : pts.contains .fab = true) (h_qf : pts.contains .qf = true) (h_hbm : pts.contains .hbm = true) (h_host : pts.contains .host = true)
    (h_tw : pts.contains .tw = true) (hb : NKeeps pts d (body nv d)) : (verbNv nv d r svc verb priv body).2.without pts = d.without pts := by
  unfold verbNv
  split
  · rename_i e h
    exact Dev.preGate_keep d e r svc verb _ _ _ h_fab h_qf h_hbm h_host h
  · unfold finishVerb
    revert hb
    cases body nv d with
    | err st off detail =>
      intro _
      dsimp only
      exact Dev.replyErr_keep d r svc verb st off detail h_qf h_hbm h_host
    | turned p st =>
      intro hb
      simp only
      split
      · dsimp only
        exact Dev.replyErr_keep d r svc verb st _ _ h_qf h_hbm h_host
      · dsimp only
        exact (Dev.replyErr_keep p.2 r svc verb st _ _ h_qf h_hbm h_host).trans hb
    | ok p res bytes detail =>
      intro hb
      simp only
      split
      · dsimp only
        exact Dev.reply_keep d _ _ _ _ _ _ _ _ _ h_qf h_hbm h_host
      · split
        · dsimp only
          exact Dev.replyErr_keep d _ _ _ _ _ _ h_qf h_hbm h_host
        · dsimp only
          refine (Dev.reply_keep (p.2.replicated svc verb) _ _ _ _ _ _ _ _ _ h_qf h_hbm h_host).trans ?_
          exact (Dev.replicated_keep p.2 svc verb h_tw).trans hb
    | job p decided aux =>
      intro hb
      simp only
      split
      · dsimp only
        exact Dev.reply_keep d _ _ _ _ _ _ _ _ _ h_qf h_hbm h_host
      · split
        · dsimp only
          exact Dev.replyErr_keep d _ _ _ _ _ _ h_qf h_hbm h_host
        · dsimp only
          refine (Dev.reply_keep ((p.2.replicated svc verb).openJob r svc verb decided aux) _ _ _ _ _ _ _ _ _ h_qf h_hbm h_host).trans ?_
          exact (Dev.openJob_keep (p.2.replicated svc verb) r svc verb decided aux).trans ((Dev.replicated_keep p.2 svc verb h_tw).trans hb)

theorem updBegin_keep {pts : List Part} (r : Req) (nv : Nv) (d : Dev) (h_boot : pts.contains .boot = true) : NKeeps pts d (updBegin r nv d) := by
  unfold updBegin
  extract_lets b h nv2 s d2
  exact nk_ite _ _ (nk_ite _ _ ((Dev.syncBanks_keep d2 nv2).trans (upd_boot_keep d _ h_boot)))

theorem updWrite_keep {pts : List Part} (r : Req) (nv : Nv) (d : Dev) (h_boot : pts.contains .boot = true) : NKeeps pts d (updWrite r nv d) := by
  unfold updWrite
  refine nk_ite _ _ (nk_ite _ _ ?_)
  split
  · exact True.intro
  · exact nk_ite _ _ (upd_boot_keep d _ h_boot)

theorem updVerify_keep {pts : List Part} (r : Req) (nv : Nv) (d : Dev) (h_boot : pts.contains .boot = true) : NKeeps pts d (updVerify r nv d) := by
  unfold updVerify
  split
  · exact True.intro
  · extract_lets v b d1
    have h1 : d1.without pts = d.without pts := upd_boot_keep d _ h_boot
    clear_value d1 v
    split
    · exact h1
    · exact (Dev.raise_keep d1 _).trans h1

theorem updActivate_keep {pts : List Part} (r : Req) (nv : Nv) (d : Dev) (h_boot : pts.contains .boot = true) : NKeeps pts d (updActivate r nv d) := by
  unfold updActivate
  split
  · exact True.intro
  · exact nk_ite _ _ ((Dev.syncBanks_keep _ _).trans (upd_boot_keep d _ h_boot))

theorem updConfirm_keep {pts : List Part} (nv : Nv) (d : Dev) : NKeeps pts d (updConfirm nv d) := by
  unfold updConfirm
  split
  · exact True.intro
  · split
    · exact (Dev.syncBanks_keep _ _).trans (Dev.fs_keep d _ _ _ _)
    · exact True.intro

theorem updAbort_keep {pts : List Part} (r : Req) (nv : Nv) (d : Dev) (h_boot : pts.contains .boot = true) : NKeeps pts d (updAbort r nv d) := by
  unfold updAbort
  split
  · exact True.intro
  · exact upd_boot_keep d _ h_boot

theorem updRestart_keep {pts : List Part} (r : Req) (nv : Nv) (d : Dev) (h_boot : pts.contains .boot = true) : NKeeps pts d (updRestart r nv d) := by
  unfold updRestart
  split
  · exact True.intro
  · exact upd_boot_keep d _ h_boot

theorem updSvn_keep {pts : List Part} (r : Req) (nv : Nv) (d : Dev) : NKeeps pts d (updSvn r nv d) := by
  unfold updSvn
  refine nk_ite _ _ (nk_ite _ _ ?_)
  show Dev.without (if _ then _ else _) pts = _
  split
  · exact (Dev.raise_keep _ _).trans (Dev.syncFuses_keep d _)
  · exact Dev.syncFuses_keep d _

theorem updKeyAdd_keep {pts : List Part} (r : Req) (nv : Nv) (d : Dev) : NKeeps pts d (updKeyAdd r nv d) := by
  unfold updKeyAdd
  exact nk_ite _ _ (nk_ite _ _ (nk_ite _ _ (nk_ite _ _ ((Dev.raise_keep _ _).trans (Dev.syncFuses_keep d _)))))

theorem updRevoke_keep {pts : List Part} (r : Req) (nv : Nv) (d : Dev) : NKeeps pts d (updRevoke r nv d) := by
  unfold updRevoke
  exact nk_ite _ _ (nk_ite _ _ (nk_ite _ _ ((Dev.raise_keep _ _).trans (Dev.syncFuses_keep d _))))

theorem attReport_keep {pts : List Part} (r : Req) (nv : Nv) (d : Dev) : NKeeps pts d (attReport r nv d) := by
  unfold attReport
  split
  · exact True.intro
  · exact rfl

theorem attChallenge_keep {pts : List Part} (r : Req) (nv : Nv) (d : Dev) (h_boot : pts.contains .boot = true) (h_hl : pts.contains .hl = true) :
    NKeeps pts d (attChallenge r nv d) := by
  unfold attChallenge
  refine nk_ite _ _ ?_
  show Dev.without _ pts = _
  simp only [Dev.without, h_boot, h_hl, if_true]

theorem attUnlock_keep {pts : List Part} (r : Req) (nv : Nv) (d : Dev) (h_boot : pts.contains .boot = true) : NKeeps pts d (attUnlock r nv d) := by
  unfold attUnlock
  refine nk_ite _ _ ?_
  split
  · exact upd_boot_keep d _ h_boot
  · exact Dev.raise_keep d _

theorem logNvmRead_keep {pts : List Part} (r : Req) (nv : Nv) (d : Dev) : NKeeps pts d (logNvmRead nv d r) := by
  unfold logNvmRead
  exact nk_ite _ _ (nk_ite _ _ (nk_ite _ _ rfl))

/-- The UPDATE wrapper: a shadow being attached or a handover turns every verb away. -/
theorem upd_guard_keep {pts : List Part} (c : Bool) (d : Dev) (v : VRes (Nv × Dev)) (h : NKeeps pts d v) :
    NKeeps pts d (if c = true then .err 0x0408 else v) := nk_ite _ _ h

theorem Dev.lost_keep {pts : List Part} (d : Dev) (m a : Nat) : (d.lost m a).without pts = d.without pts := Dev.raise_keep d _

theorem Dev.wakeStack_keep {pts : List Part} (d : Dev) (a : Nat) (h_hbm : pts.contains .hbm = true) :
    (d.wakeStack a).without pts = d.without pts := by
  unfold Dev.wakeStack
  split
  · extract_lets st d1
    have h1 : d1.without pts = d.without pts := Dev.fs_keep d _ _ _ _
    split
    · exact h1
    · exact (upd_hbm_keep d1 _ h_hbm).trans h1
  · rfl

theorem Dev.eccWrite_keep {pts : List Part} (d : Dev) (a : Nat) (bs : List Byte) (h_hbm : pts.contains .hbm = true)
    (h_boot : pts.contains .boot = true) : (d.eccWrite a bs).without pts = d.without pts := by
  unfold Dev.eccWrite
  exact (Dev.hbmW_keep _ _ _ h_hbm).trans (foldl_keep _ _ _ (fun e w => Dev.eccRead_keep e _ _ h_hbm h_boot))

/-- A read through the BAR1 window. -/
theorem Dev.bar1Read_keep {pts : List Part} (d : Dev) (m a n die : Nat) (h_fab : pts.contains .fab = true) (h_hbm : pts.contains .hbm = true)
    (h_boot : pts.contains .boot = true) : (d.bar1Read m a n die).without pts = d.without pts := by
  unfold Dev.bar1Read
  split
  · exact upd_fab_keep d _ h_fab
  · extract_lets below kept s0 bytes poison d1 d2 d3
    split
    · exact (Dev.useFree_keep _).trans (upd_fab_keep d _ h_fab)
    · have h1 : d1.without pts = d.without pts := by
        simp only [d1]
        split
        · rfl
        · exact (Dev.fadd_keep _ _ _ _ _).trans (Dev.wakeStack_keep d a h_hbm)
      clear_value d1
      have h2 : d2.without pts = d.without pts := (Dev.eccRead_keep d1 a kept h_hbm h_boot).trans h1
      clear_value d2
      have h3 : d3.without pts = d.without pts := by
        simp only [d3]
        split
        · exact (Dev.lost_keep d2 _ _).trans h2
        · exact h2
      exact (upd_fab_keep d3 _ h_fab).trans h3

/-- A write through the BAR1 window. -/
theorem Dev.bar1Write_keep {pts : List Part} (d : Dev) (m a : Nat) (bs : List Byte) (h_fab : pts.contains .fab = true)
    (h_qf : pts.contains .qf = true) (h_hbm : pts.contains .hbm = true) (h_host : pts.contains .host = true) (h_boot : pts.contains .boot = true) :
    (d.bar1Write m a bs).without pts = d.without pts := by
  unfold Dev.bar1Write
  refine Dev.unlessHeld_keep d m _ h_fab (fun e => ?_)
  split
  · exact Dev.violate_keep e _ _ _ h_fab h_qf h_hbm h_host
  · extract_lets below kept d1 d2
    split
    · exact Dev.violate_keep e _ _ _ h_fab h_qf h_hbm h_host
    · have h1 : d1.without pts = e.without pts := by
        simp only [d1]
        split
        · rfl
        · exact (Dev.eccWrite_keep _ _ _ h_hbm h_boot).trans (Dev.wakeStack_keep e a h_hbm)
      clear_value d1
      have h2 : d2.without pts = e.without pts := by
        simp only [d2]
        split
        · exact (Dev.lost_keep d1 _ _).trans h1
        · exact h1
      clear_value d2
      split
      · exact (Dev.unmapped_keep d2 _ _).trans h2
      · exact h2

end Sys2Proof.Machine
end

