-- ==== Sys2Proof/Laws/Memory.lean ====
section
/-! SUPPORT. HBM and host memory: reset lists nothing, every operation that writes them keeps the canonical form, and a byte reads
as it was last written. -/
namespace Sys2Proof.Machine

theorem State.reset_memory : Memory.wf State.reset.dev = true := rfl

theorem Memory.wf_iff (d : Dev) : Memory.wf d = true ↔ mwf 0 d.hbm.mem = true ∧ ∀ p ∈ d.host, mwf 0 p.2 = true := by
  simp [Memory.wf, List.all_eq_true]

/-- A device whose HBM bytes are in form and whose host memories stand. -/
theorem Memory.wf_of (d e : Dev) (h : Memory.wf d = true) (hm : mwf 0 e.hbm.mem = true) (hh : e.host = d.host) :
    Memory.wf e = true :=
  (Memory.wf_iff e).2 ⟨hm, hh.symm ▸ ((Memory.wf_iff d).1 h).2⟩

theorem Dev.hbmW_wf (d : Dev) (a : Nat) (bs : List Byte) (h : Memory.wf d = true) : Memory.wf (d.hbmW a bs) = true :=
  Memory.wf_of d _ h (mwrite_wf 0 _ a bs ((Memory.wf_iff d).1 h).1) rfl

theorem tget_mem {α : Type} (t : Tab α) (k : Nat) (a : α) (h : tget t k = some a) : (k, a) ∈ t := by
  induction t with
  | nil => exact absurd h (by simp [tget])
  | cons p t ih =>
    obtain ⟨j, b⟩ := p
    by_cases e : j = k
    · subst e
      simp [tget] at h
      exact h ▸ List.mem_cons_self ..
    · simp [tget, e] at h
      exact List.mem_cons_of_mem _ (ih h)

theorem Dev.hostW_wf (d : Dev) (f a : Nat) (bs : List Byte) (h : Memory.wf d = true) : Memory.wf (d.hostW f a bs) = true := by
  obtain ⟨hm, hh⟩ := (Memory.wf_iff d).1 h
  refine (Memory.wf_iff _).2 ⟨hm, fun p hp => ?_⟩
  rcases tset_mem _ _ _ p hp with e | e
  · rw [e]
    refine mwrite_wf 0 _ a bs ?_
    cases hg : tget d.host f with
    | none => rfl
    | some m => exact hh _ (tget_mem _ _ _ hg)
  · exact hh p e

theorem Dev.injectEcc_wf (d : Dev) (se ue : List Nat) (h : Memory.wf d = true) : Memory.wf (d.injectEcc se ue) = true := by
  unfold Dev.injectEcc
  have h0 : Memory.wf { d with hbm := { d.hbm with sbe := d.hbm.sbe ++ se.filter fun w => !d.hbm.sbe.contains w } } = true := h
  revert h0
  generalize ({ d with hbm := { d.hbm with sbe := d.hbm.sbe ++ se.filter fun w => !d.hbm.sbe.contains w } } : Dev) = e
  intro h0
  induction ue generalizing e with
  | nil => exact h0
  | cons w ws ih =>
    rw [List.foldl_cons]
    apply ih
    split
    · exact h0
    · exact Memory.wf_of e _ h0 (mwrite_wf 0 _ _ _ ((Memory.wf_iff e).1 h0).1) rfl

theorem Dev.zeroLost_wf (d : Dev) (h : Memory.wf d = true) : Memory.wf d.zeroLost = true := by
  obtain ⟨hs, hd⟩ := (mwf_iff 0 _).1 ((Memory.wf_iff d).1 h).1
  exact Memory.wf_of d _ h ((mwf_iff 0 _).2 ⟨tsorted_filter _ _ hs, fun p hp => hd p (List.mem_filter.1 hp).1⟩) rfl

/-- A byte of HBM after a write. -/
theorem Dev.hbm_after_write (d : Dev) (a j : Nat) (bs : List Byte) :
    mget 0 (d.hbmW a bs).hbm.mem j = if a ≤ j ∧ j < a + bs.length then bs.getD (j - a) 0 else mget 0 d.hbm.mem j :=
  mget_mwrite 0 bs _ a j

/-- n bytes read where n bytes were written. -/
theorem mread_mwrite (m : Tab Byte) (a : Nat) (bs : List Byte) : mread 0 (mwrite 0 m a bs) a bs.length = bs := by
  have key : ∀ (n k : Nat), k + n = bs.length → mread 0 (mwrite 0 m a bs) (a + k) n = bs.drop k := by
    intro n
    induction n with
    | zero => intro k hk; rw [mread, List.drop_of_length_le (by omega)]
    | succ n ih =>
      intro k hk
      rw [mread, show a + k + 1 = a + (k + 1) by omega, ih (k + 1) (by omega), mget_mwrite, if_pos (by omega),
        show a + k - a = k by omega, List.drop_eq_getElem_cons (by omega : k < bs.length)]
      simp [List.getElem?_eq_getElem (show k < bs.length by omega)]
  simpa using key bs.length 0 (by omega)

end Sys2Proof.Machine
end

