-- ==== Sys2Proof/WellFormed.lean ====
section
/-! DEFINITION. When a command is well formed: each operand fits the field that carries it on its bus (R74, R97, R101, R140,
R512, R526). A meaning runs on any operands; well-formedness names those that the hardware's own messages can carry. -/
namespace Sys2Proof

/-- A value of so many bits. -/
def w8 (n : Nat) : Bool := decide (n < 2 ^ 8)
def w16 (n : Nat) : Bool := decide (n < 2 ^ 16)
def w28 (n : Nat) : Bool := decide (n < 2 ^ 28)
def w32 (n : Nat) : Bool := decide (n < 2 ^ 32)
def w36 (n : Nat) : Bool := decide (n < 2 ^ 36)
def w64 (n : Nat) : Bool := decide (n < 2 ^ 64)
/-- A master ID that is issued (R74). -/
def okMaster (m : Nat) : Bool := Machine.issued m
/-- A unit index or an entity ID of 12 bits (R5, R94). -/
def okUnit (u : Nat) : Bool := decide (u < 2 ^ 12)
/-- A queue ID of 20 bits (R97). -/
def okQid (q : Nat) : Bool := decide (q < 2 ^ 20)
/-- A PCIe function (R74) and a vector of its table (R121). -/
def okFn (f : Nat) : Bool := decide (f < 64)
def okVec (v : Nat) : Bool := decide (v < 2048)
/-- A region index (R442). -/
def okRgn (n : Nat) : Bool := decide (n < 512)
/-- Failed tries of an NVM record: none, one or both of its two writes. -/
def okTries (n : Nat) : Bool := decide (n ≤ 2)

/-- A mailbox request's fields fit the entry and the header (R101, R139, R140). -/
def Req.wf (r : Req) : Bool :=
  okQid r.qid && w16 r.tag && okMaster r.master && w16 r.seq && okQid r.replyQid && w64 r.range0 && w64 r.range1 &&
  decide (r.hdrMaster < 2 ^ 10) && decide (r.ifver < 16) && w16 r.argLen && w16 r.replyMax && w32 r.object && w32 r.a0 &&
  w32 r.a1 && w32 r.a2 && w32 r.a3

/-- A chain packet's header fields fit (R526). -/
def CHead.wf (h : CHead) : Bool := okUnit h.origin && okUnit h.dest && w8 h.hops && w16 h.seq && w16 h.rig

/-- A heartbeat's fields fit (R513). -/
def Beat.wf (b : Beat) : Bool :=
  w16 b.epoch && w16 b.alive && w8 b.role && w8 b.mode && w16 b.eff && w16 b.used && w64 b.sendTime && w32 b.gen && w64 b.refStart &&
  w64 b.serial

/-- Whether a command is well formed. -/
def Instr.wf : Instr → Bool
  | .ucbWake m u => okMaster m && okUnit u
  | .ucbDrain m u => okMaster m && okUnit u
  | .ucbSleep m u => okMaster m && okUnit u
  | .ucbOff m u => okMaster m && okUnit u
  | .ucbReload m u => okMaster m && okUnit u
  | .domainPowerGood _ => true
  | .reloadComplete u _ => okUnit u
  | .drainComplete u => okUnit u
  | .domainPowerLost _ => true
  | .paceWindow u _ => okUnit u
  | .paceLowTimeout g => okUnit g
  | .paceOkTimeout g => okUnit g
  | .bandRiseDeferred g => okUnit g
  | .governorRun => true
  | .ucbPaceMinRead m u => okMaster m && okUnit u
  | .ucbEventRead m u => okMaster m && okUnit u
  | .actLevelSet m u _ => okMaster m && okUnit u
  | .bankDecide => true
  | .pipRelease u => okUnit u
  | .bankCeilWrite m _ => okMaster m
  | .bankReserveWrite m _ => okMaster m
  | .bankVoltReq m _ => okMaster m
  | .c0GrantLateTimeout u => okUnit u
  | .grantWaitTimeout u => okUnit u
  | .currentMonitorWindow _ => true
  | .overdraw _ => true
  | .overdrawOff _ => true
  | .forceShedTimeout => true
  | .peerValidLost => true
  | .bankOvrRead m => okMaster m
  | .bankPeakRead m => okMaster m
  | .pwrGoodFall _ => true
  | .rstNAssert => true
  | .rstNRelease _ => true
  | .pmbAlert statusWord vout iout => w16 statusWord && w16 vout && w16 iout
  | .regWrite m a _ _ _ => okMaster m && w28 a
  | .heldOpsClosed _ id => okUnit id
  | .bitAliasWrite m _ _ _ _ => okMaster m
  | .counter64LowRead m addr => okMaster m && w32 addr
  | .lockCtlGo m index => okMaster m && okUnit index
  | .lockCtlGlobal m _ => okMaster m
  | .privVfWrite m _ _ => okMaster m
  | .holdScanRead m => okMaster m
  | .holdReleaseWrite m _ => okMaster m
  | .accLogRead m => okMaster m
  | .parLogRead m => okMaster m
  | .scrubVisit _ _ => true
  | .perstNAssert => true
  | .pcieFlr _ => true
  | .pcieLinkDown => true
  | .pcieLinkUp width rate => w16 width && w8 rate
  | .pcieAerError _ => true
  | .bar1Access m a _ _ _ _ _ die => okMaster m && w36 a && w8 die
  | .dbTailWrite m qid off _ _ _ => okMaster m && okQid qid && w32 off
  | .dbPush m qid off _ => okMaster m && okQid qid && w32 off
  | .dbStart m qid => okMaster m && okQid qid
  | .dbStop m qid => okMaster m && okQid qid
  | .dbReset m qid => okMaster m && okQid qid
  | .queueDispatch => true
  | .operationEnd tag status _ => w16 tag && w16 status
  | .replyPostResume qid _ => okQid qid
  | .tagWaitTimeout qid => okQid qid
  | .queueResetDone qid _ => okQid qid
  | .holdoffExpiry fn vec => okFn fn && okVec vec
  | .qfRead m qid => okMaster m && okQid qid
  | .qfCreate m qid => okMaster m && okQid qid
  | .qfDestroy m qid => okMaster m && okQid qid
  | .qfRetarget m qid => okMaster m && okQid qid
  | .qfStart m qid => okMaster m && okQid qid
  | .qfStop m qid => okMaster m && okQid qid
  | .qfReset m qid => okMaster m && okQid qid
  | .qfOpUnused m qid => okMaster m && okQid qid
  | .qfRoleRead m => okMaster m
  | .ozLockstepMismatch _ => true
  | .ozWatchdogExpiry _ => true
  | .ozPairRejoin _ => true
  | .ozSramEccError _ _ => true
  | .mbBootGo m _ => okMaster m
  | .mbBootReopenDone f => okFn f
  | .mbUnknownService r svc verb => r.wf && w8 svc && w8 verb
  | .longVerbComplete _ => true
  | .sysInfo r => r.wf
  | .sysOpen r => r.wf
  | .sysClose r => r.wf
  | .sysQueueCreate r => r.wf
  | .sysQueueDestroy r => r.wf
  | .sysPrivSet r => r.wf
  | .sysBankSet r => r.wf
  | .sysHoldList r => r.wf
  | .sysHoldRelease r => r.wf
  | .sysUnitQuery r => r.wf
  | .sysUnitCmd r => r.wf
  | .sysJobStatus r => r.wf
  | .sysPing r => r.wf
  | .logInfo r => r.wf
  | .logSubscribe r => r.wf
  | .logUnsubscribe r => r.wf
  | .logRead r => r.wf
  | .logNvmRead r => r.wf
  | .logMark r => r.wf
  | .logStats r => r.wf
  | .bootHostGo m _ _ => okMaster m
  | .hbmTrainDone _ _ _ _ => true
  | .hbmSegmentLoad _ => true
  | .serviceReady _ => true
  | .updateInfo r => r.wf
  | .updateBegin r => r.wf
  | .updateWrite r => r.wf
  | .updateVerify r => r.wf
  | .updateActivate r => r.wf
  | .updateConfirm r => r.wf
  | .updateAbort r => r.wf
  | .updateRestart r => r.wf
  | .updateRestartReset => true
  | .updateSvnAdvance r => r.wf
  | .updateKeyAdd r => r.wf
  | .updateRevoke r => r.wf
  | .attestInfo r => r.wf
  | .attestReport r => r.wf
  | .attestCert r => r.wf
  | .attestDebugChallenge r => r.wf
  | .attestDebugUnlock r => r.wf
  | .debugNonceExpiry => true
  | .quadCfgWrite m _ _ => okMaster m
  | .lnkMapWrite m _ _ => okMaster m
  | .lnCtlRetrain m _ => okMaster m
  | .lnCtlFull m _ => okMaster m
  | .linkBlockRx _ far tap act seq => w8 far && w8 tap && w8 act && w8 seq
  | .alignColumnRx _ _ _ => true
  | .blockLockLost _ => true
  | .elasticOverflow _ => true
  | .remoteFaultRx _ => true
  | .refLost _ => true
  | .refRetrainTimer _ => true
  | .fastRetrainTimeout _ => true
  | .fullTrainTimeout _ => true
  | .linkFailRetry _ => true
  | .bastuPacketRx _ _ => true
  | .ethLinkChange _ _ => true
  | .lnkStatRead m _ => okMaster m
  | .lnCounterRead m _ _ => okMaster m
  | .frameStart _ _ _ frame width height _ headTime => w32 frame && w16 width && w16 height && w32 headTime
  | .line _ _ _ _ frame lineNo _ _ _ => w32 frame && w16 lineNo
  | .frameEnd _ _ _ frame => w32 frame
  | .metaPkt _ _ _ typ _ => w8 typ
  | .regResp _ _ _ tid status _ => w8 tid && w16 status
  | .bcTimeout _ tid => w8 tid
  | .lineCommit _ => true
  | .camSkewTimeout _ => true
  | .camCloseTimeout _ => true
  | .camFrameTimeout _ => true
  | .camEnable m _ _ => okMaster m
  | .camDisable m _ _ => okMaster m
  | .dfStatRead m _ => okMaster m
  | .srcStatRead m _ _ => okMaster m
  | .camFlagsRead m _ _ => okMaster m
  | .ingestInfo r => r.wf
  | .ingestLinkSet r => r.wf
  | .ingestLinkOff r => r.wf
  | .ingestSourceSet r => r.wf
  | .ingestCameraSet r => r.wf
  | .ingestCameraStart r => r.wf
  | .ingestCameraStop r => r.wf
  | .ingestFrameInfo r => r.wf
  | .ingestHeadWrite r => r.wf
  | .ingestHeadRead r => r.wf
  | .ingestHeadTrigger r => r.wf
  | .ingestStats r => r.wf
  | .stripeStart _ => true
  | .stripeEnd _ => true
  | .tileTableUe _ _ => true
  | .pxCounterRead m _ _ => okMaster m
  | .pipeInfo r => r.wf
  | .pipeSensorSet r => r.wf
  | .pipeMosaicSet r => r.wf
  | .pipeDefectLoad r => r.wf
  | .pipeFlatLoad r => r.wf
  | .pipeSpectralLoad r => r.wf
  | .pipeMatrixLoad r => r.wf
  | .pipeIrSet r => r.wf
  | .pipeCommit r => r.wf
  | .pipeDiscard r => r.wf
  | .pipeTableInfo r => r.wf
  | .pipeTileStats r => r.wf
  | .autoControlRun _ frame => w32 frame
  | .autoLimitTimeout _ => true
  | .lutSlotUe _ _ => true
  | .clCounterRead m _ _ => okMaster m
  | .colourInfo r => r.wf
  | .colourOtSet r => r.wf
  | .colourShaperLoad r => r.wf
  | .colourLutLoad r => r.wf
  | .colourTnrSet r => r.wf
  | .colourStatSet r => r.wf
  | .colourFrameSet r => r.wf
  | .colourAutoSet r => r.wf
  | .colourStats r => r.wf
  | .colourQuery r => r.wf
  | .colourTileStats r => r.wf
  | .stripeJobDispatch _ => true
  | .tileFail _ => true
  | .compatSlotWait => true
  | .streamFrameDone _ frame _ => w32 frame
  | .alignDeadline _ ref => w32 ref
  | .pointCVerdict _ frame _ lineNo _ => w32 frame && w16 lineNo
  | .outCounterRead m _ _ => okMaster m
  | .outInfo r => r.wf
  | .outCameraAlloc r => r.wf
  | .outCameraFree r => r.wf
  | .outPoolSet r => r.wf
  | .outStreamSet r => r.wf
  | .outStreamStart r => r.wf
  | .outStreamStop r => r.wf
  | .outCoefLoad r => r.wf
  | .outAlignSet r => r.wf
  | .outAlignJoin r => r.wf
  | .outCompatSet r => r.wf
  | .outRotate r => r.wf
  | .outStreamInfo r => r.wf
  | .outStats r => r.wf
  | .chunkCode _ _ => true
  | .srcVerdict _ frame row _ => w32 frame && w16 row
  | .sliceMove _ _ => true
  | .engineFail _ _ _ => true
  | .codecStarvedTimeout _ _ => true
  | .psCounterRead m _ _ => okMaster m
  | .codecInfo r => r.wf
  | .codecStreamSet r => r.wf
  | .codecStreamStart r => r.wf
  | .codecStreamStop r => r.wf
  | .codecStreamInfo r => r.wf
  | .codecDecode r => r.wf
  | .codecCtxSave r => r.wf
  | .codecCtxLoad r => r.wf
  | .codecMove r => r.wf
  | .codecKey r => r.wf
  | .codecEngineStats r => r.wf
  | .cmd _ _ ctag _ => w16 ctag
  | .xferRdy _ _ ctag off len => w16 ctag && w32 off && w32 len
  | .dataOut _ _ ctag off _ => w16 ctag && w32 off
  | .dataIn _ _ ctag off _ => w16 ctag && w32 off
  | .resp _ _ ctag status => w16 ctag && w16 status
  | .qreset _ _ => true
  | .qresetDone _ _ _ => true
  | .connect _ serial queues => w64 serial && w16 queues
  | .connectAck _ queues _ burst _ => w16 queues && w32 burst
  | .pm _ _ => true
  | .pmAck _ _ _ => true
  | .xferTimeout _ _ ctag => w16 ctag
  | .packTimeout _ => true
  | .mediaReconnect _ => true
  | .idleTimerExpiry _ _ => true
  | .hostMediaSubmit tag _ => w16 tag
  | .mqCqhWrite m _ _ => okMaster m
  | .auWriteDone clip au => w32 clip && w32 au
  | .pointEAssembly clip _ => w32 clip
  | .flushTimer => true
  | .burstFrameCopy _ => true
  | .burstDrainDone _ => true
  | .mpCntRead m _ => okMaster m
  | .mediaInfo r => r.wf
  | .mediaPortSet r => r.wf
  | .mediaPackInfo r => r.wf
  | .mediaConfigSet r => r.wf
  | .mediaQpCreate r => r.wf
  | .mediaQpDelete r => r.wf
  | .mediaNsCreate r => r.wf
  | .mediaNsDelete r => r.wf
  | .mediaVolumeFormat r => r.wf
  | .mediaVolumeMount r _ => r.wf
  | .mediaVolumeUnmount r => r.wf
  | .mediaRecordStart r => r.wf
  | .mediaRecordStop r => r.wf
  | .mediaClipList r => r.wf
  | .mediaClipInfo r _ => r.wf
  | .mediaClipMap r => r.wf
  | .mediaClipDelete r => r.wf
  | .mediaBurstArm r => r.wf
  | .mediaBurstTrigger r => r.wf
  | .mediaBurstDisarm r => r.wf
  | .mediaOffload r _ => r.wf
  | .mediaMark r => r.wf
  | .mediaStats r => r.wf
  | .sessionInfo r => r.wf
  | .sessionSave r => r.wf
  | .sessionLoad r _ => r.wf
  | .sessionStandby r => r.wf
  | .sessionResume r => r.wf
  | .cvuCheck _ tag _ => w16 tag
  | .cvuAlive _ tag => w16 tag
  | .aliveTimeout _ => true
  | .cvuCtlWrite m _ _ => okMaster m
  | .cvuCounterRead m _ _ => okMaster m
  | .rcMismRead m _ => okMaster m
  | .rgnRead m idx => okMaster m && okRgn idx
  | .rgnWrite m idx => okMaster m && okRgn idx
  | .rgnClear m idx => okMaster m && okRgn idx
  | .rgnOpUnused m idx => okMaster m && okRgn idx
  | .pcTrGo m _ _ _ => okMaster m
  | .hbmScrubStep _ _ _ => true
  | .hbmTempRead _ _ fails => okTries fails
  | .pcCounterRead m _ _ => okMaster m
  | .scanFrameStart => true
  | .vbMaxExpiry => true
  | .layerUnderrun _ lineNo => w16 lineNo
  | .hpdChange _ _ _ _ _ => true
  | .hpdLowTimeout _ => true
  | .dpTrainRetry _ => true
  | .scTimGo m _ => okMaster m
  | .flipEntry _ => true
  | .scanCounterRead m _ _ => okMaster m
  | .scanInfo r => r.wf
  | .scanTimingSet r => r.wf
  | .scanOutputSet r => r.wf
  | .scanBaseBind r => r.wf
  | .scanLayerBind r => r.wf
  | .scanLayerUnbind r => r.wf
  | .scanLayerSet r => r.wf
  | .scanPaletteSet r => r.wf
  | .scanSinkInfo r => r.wf
  | .scanStats r => r.wf
  | .audioBlockDone _ time _ _ => w64 time
  | .zcTimeout _ mask => w16 mask
  | .mclkLost _ => true
  | .mclkReturn _ _ => true
  | .audioRateChange _ _ time _ => w64 time
  | .fsGlitch _ run time _ => w16 run && w64 time
  | .aesUnlock _ => true
  | .aesRelock _ => true
  | .nonaudioDetect _ => true
  | .nonaudioClear _ => true
  | .auCntRead m _ => okMaster m
  | .audioInfo r => r.wf
  | .audioPortSet r => r.wf
  | .audioStart r => r.wf
  | .audioStop r => r.wf
  | .audioMute r => r.wf
  | .audioStatus r => r.wf
  | .audioStats r => r.wf
  | .dIncWrite m _ _ => okMaster m
  | .dSetGo m _ _ => okMaster m
  | .dAdjGo m _ _ => okMaster m
  | .tmSnap m _ => okMaster m
  | .tmSwitch m _ => okMaster m
  | .tmSwitchForce m _ => okMaster m
  | .ethFrameRx _ _ => true
  | .ethLaunch _ _ => true
  | .frameEdge => true
  | .refInEdge => true
  | .refWindowClose => true
  | .timedActionFire _ => true
  | .trigOutPulseEnd _ => true
  | .trigInEdge _ _ => true
  | .timeCounterRead m _ _ => okMaster m
  | .timeInfo r => r.wf
  | .timeNow r => r.wf
  | .timeSelect r => r.wf
  | .timeFrameSet r => r.wf
  | .timeEthBind r => r.wf
  | .timeEthUnbind r => r.wf
  | .timeActionArm r => r.wf
  | .timeActionCancel r => r.wf
  | .timeTrigInSet r => r.wf
  | .timeStats r => r.wf
  | .heartbeatSend => true
  | .heartbeat b => b.wf
  | .heartbeatTimeout => true
  | .twinPresentChange _ => true
  | .twinLinkWaitTimeout => true
  | .takeover _ => true
  | .mirror epoch _ mseq _ _ => w16 epoch && w16 mseq
  | .mirrorCloseTimeout => true
  | .state epoch _ seg off _ => w16 epoch && w16 seg && w32 off
  | .stateAck epoch _ _ => w16 epoch
  | .clipsync epoch _ clip auseq rseq start _ _ => w16 epoch && w32 clip && w32 auseq && w32 rseq && w64 start
  | .handoverReq _ start => w64 start
  | .handoverGo _ _ => true
  | .handoverDone epoch _ => w16 epoch
  | .detach _ => true
  | .attachReq _ major => w16 major
  | .attachRefuse _ reason => w32 reason
  | .hot _ => true
  | .twinMsg epoch _ _ => w16 epoch
  | .attachBaseFreeze => true
  | .twCntRead m => okMaster m
  | .sync h frame edge send => h.wf && w64 frame && w64 edge && w64 send
  | .action h _ => h.wf
  | .chainMsg h _ => h.wf
  | .media h pt _ ctag p1 _ => h.wf && w8 pt && w16 ctag && w64 p1
  | .probe h send reply => h.wf && w64 send && w64 reply
  | .probeSend => true
  | .topo h serial => h.wf && w64 serial
  | .chCntRead m => okMaster m
  | .twinInfo r => r.wf
  | .twinModeSet r => r.wf
  | .twinAttach r => r.wf
  | .twinDetach r => r.wf
  | .twinHandover r => r.wf
  | .twinStatus r => r.wf
  | .chainInfo r => r.wf
  | .chainJoin r => r.wf
  | .chainLeave r => r.wf
  | .chainRouteSet r => r.wf
  | .chainAction r => r.wf
  | .chainSend r => r.wf
  | .chainTopo r => r.wf
  | .thermSample _ fails => okTries fails
  | .thSampleWrite m _ _ => okMaster m
  | .fastScheduleExit => true
  | .riseBonusEnd => true
  | .selftestDone u _ fails => okUnit u && okTries fails
  | .selftestRetest u => okUnit u
  | .rollTick => true
  | .eventHandling fails => okTries fails
  | .healthInfo r => r.wf
  | .healthTemp r _ => r.wf
  | .healthThermAck r => r.wf
  | .healthSensorClear r => r.wf
  | .healthSelftest r => r.wf
  | .healthTestInfo r => r.wf
  | .healthRollSet r => r.wf
  | .healthRollNow r => r.wf
  | .healthUnitList r => r.wf
  | .healthEqStats r => r.wf
  | .ozEccRead m => okMaster m
  | .standbySelfRefreshReentry _ => true
  | .refOkReturn _ _ => true
  | .perstNRelease => true
  | .dpLinkTrainingDone _ _ => true
  | .mbUnknownVerb r svc verb => r.wf && w8 svc && w8 verb
  | .blockLockAcquired _ => true

end Sys2Proof
end

