-- ==== Sys2Proof/Tests/Slice0.lean ====
section
/-! SUPPORT. The model's own tests: a term each well-formedness check refuses, the manual's worked examples, one step of a few
commands, and for every statement with hypotheses a state and operands that meet them. -/
namespace Sys2Proof.Tests
open Sys2Proof.Machine

/-! ### Devices and requests to test with -/

/-- A device whose firmware serves, with one open mailbox of PF0's (request queue 5, reply 6, event 7). -/
def served : Dev :=
  { (Dev.reset.fs F.ozStatus_svcReady 1 uOzder) with
    oz := { Dev.reset.oz with mboxes := [⟨5, 6, 7, 0, false, 1, false, []⟩] } }

/-- The same with the mailbox of function 5's, which is not privileged. -/
def servedVf : Dev := { served with oz := { served.oz with mboxes := [⟨5, 6, 7, 5, false, 1, false, []⟩] } }

/-- A request of master m through that mailbox, version 1, no ranges. -/
def reqOf (m : Nat) : Req := ⟨5, 1, m, 7, 6, 0, 0, m, 1, 0, 0, false, 0, 0, 0, 0, 0, []⟩

/-- A device on which function 5 is held. -/
def heldFive : Dev := { Dev.reset with fab := { Dev.reset.fab with holds := [⟨false, 5, 1, 0, 0x42, 0x10⟩] } }

/-- A device with unit u in state st. -/
def unitAt (u st : Nat) : Dev := Dev.reset.fs F.ucbState_state st u

/-- The device after a step, if the step answers a next state. -/
def after (c : Instr) (d : Dev) : Dev :=
  match exec c { nv := State.reset.nv, dev := d, pending := [] } with
  | .next t => t.dev
  | _ => d

/-! ### Terms that well-formedness refuses -/

theorem test_wf_master : (Instr.ucbWake 0x50 1).wf = false := by decide
theorem test_wf_unit : (Instr.ucbWake 0 0x1000).wf = false := by decide
theorem test_wf_qid : (Instr.dbStart 0 0x100000).wf = false := by decide
theorem test_wf_function : (Instr.mbBootReopenDone 64).wf = false := by decide
theorem test_wf_vector : (Instr.holdoffExpiry 0 2048).wf = false := by decide
theorem test_wf_region : (Instr.rgnRead 0 512).wf = false := by decide
theorem test_wf_tries : (Instr.thermSample [] 3).wf = false := by decide
theorem test_wf_bits8 : (Instr.pcieLinkUp 16 256).wf = false := by decide
theorem test_wf_bits16 : (Instr.pmbAlert 0x10000 0 0).wf = false := by decide
theorem test_wf_bits28 : (Instr.regWrite 0 (2 ^ 28) 4 [] ⟨[], [], [], 0⟩).wf = false := by decide
theorem test_wf_bits32 : (Instr.counter64LowRead 0 (2 ^ 32)).wf = false := by decide
theorem test_wf_bits36 : (Instr.bar1Access 0 (2 ^ 36) false 1 [] [] [] 0).wf = false := by decide
theorem test_wf_bits64 : (Instr.handoverReq true (2 ^ 64)).wf = false := by decide
theorem test_wf_request : (Instr.sysInfo { reqOf 0 with hdrMaster := 1024 }).wf = false := by decide
theorem test_wf_request_version : (Instr.sysInfo { reqOf 0 with ifver := 16 }).wf = false := by decide
theorem test_wf_chain_head : (Instr.action ⟨0, true, 0x1000, 0, 0, 0, 0⟩ []).wf = false := by decide
theorem test_wf_beat : (Instr.heartbeat ⟨2 ^ 16, 0, true, 0, false, false, false, 0, 0, 0, 0, 0, 0, 0, 0⟩).wf = false := by decide
theorem test_wf_accepts : (Instr.sysInfo (reqOf 0)).wf = true := by decide

/-! ### The manual's worked examples -/

/-- 03, a VF held and released: the violation holds function 5 with SEQ 0x42, cause 1 and INFO 0x10. -/
theorem test_vf_held :
    (after (.privVfWrite 5 false 0x20) { Dev.reset with fab := { Dev.reset.fab with holdSeq := 0x41 } }).fab.holds =
      [⟨false, 5, 1, 0, 0x42, 0x10⟩] := by rfl

/-- The same example: a doorbell of the held function is refused and counted. -/
theorem test_vf_refused : (after (.dbStart 5 0x100) heldFive).fab.holds = [⟨false, 5, 1, 1, 0x42, 0x10⟩] := by rfl

/-- The same example: a release with an old SEQ ends nothing; the right SEQ ends the hold. -/
theorem test_stale_release : (after (.holdReleaseWrite 0 0x00050041) heldFive).fab.holds = heldFive.fab.holds := by rfl
theorem test_release : (after (.holdReleaseWrite 0 0x00050042) heldFive).fab.holds = [] := by rfl

/-- 14: CRC-32C of "123456789" is 0xE306_9283. -/
theorem test_crc32c : crc32c [0x31, 0x32, 0x33, 0x34, 0x35, 0x36, 0x37, 0x38, 0x39] = 0xE3069283 := by decide +kernel

/-- 15: address 0x2_3456_7890 in order 2 lies in pseudo-channel 36 at local address 0x8D1_5990. -/
theorem test_pseudo_channel : pcOf 2 0x234567890 = 36 := by decide
theorem test_local_address : localAddr 2 0x234567890 = 0x8D15990 := by decide

/-- 18, R474: with INC_NS 3 and INC_FRAC 0xFFFC_B926 a tick adds 3 + 0xFFFCB926/2^32 ns. -/
theorem test_clock_tick : (({ incNs := 3, incFrac := 0xFFFCB926 } : Clock).tick) =
    { incNs := 3, incFrac := 0xFFFCB926, ns := 3, frac := 0xFFFCB926 } := by rfl

/-- 14, the alive table: 0x03 after 0x00 is a skip of two, E_RC_ALIVE_SKIP. -/
def aliveDev : Dev :=
  let d := (Dev.reset.wr .cvuCtl (uCvu 2) 0 0xC0000064).fs F.cvuAlive_value 0 (uCvu 2)
  { d with
    integ := { d.integ with seen := [2] },
    qf := { d.qf with ops := [⟨9, 0x100, 1,
      ⟨0x51, 1, false, true, false, false, 0, 0, 0, 5, 9, 0, 0, 0, 0, [3, 0]⟩, uCvu 2, 3, false, false⟩] } }
theorem test_alive_skip : (after (.cvuAlive 2 9) aliveDev).fg F.cvuAlive_skips (uCvu 2) = 1 := by decide
theorem test_alive_last : (after (.cvuAlive 2 9) aliveDev).fg F.ucbEvent_lastEvent (uCvu 2) = 0x0D04 := by decide

/-! ### One step -/

/-- R18: SLEEP takes a READY tile to SLEEP with REASON 0xA. -/
theorem test_sleep : (after (.ucbSleep 0 (uTile 0)) (unitAt (uTile 0) stReady)).fg F.ucbState_state (uTile 0) = stSleep ∧
    (after (.ucbSleep 0 (uTile 0)) (unitAt (uTile 0) stReady)).fg F.ucbState_reason (uTile 0) = 0xA := by decide +kernel

/-- R19: SLEEP of an ACTIVE tile raises E_STATE_CMD. -/
theorem test_sleep_refused :
    (after (.ucbSleep 0 (uTile 0)) (unitAt (uTile 0) stActive)).fg F.ucbEvent_lastEvent (uTile 0) = 0x0101 := by decide

/-- R74: master 0x48 is never issued. -/
theorem test_never_issued :
    (exec (.bankOvrRead 0x48) State.reset matches .fault (.neverIssued 0x48)) = true := by decide

/-- R53: RST_N low clears a unit's state. -/
theorem test_reset : (after .rstNAssert (unitAt (uTile 0) stActive)).own (uTile 0) = stOff := by decide

/-- R108: the doorbell of a queue of another owner holds its writer with cause 4. -/
theorem test_doorbell_owner : (after (.dbStart 5 0x100) Dev.reset).fab.holds = [⟨false, 5, 4, 0, 1, 0x100⟩] := by decide

/-! ### Every statement's hypotheses are met -/

/-- IdleStepTicks, StepKeepsCanonicalForms, StepOnlyBlowsFuses: a state with no command waiting, in form, that steps. -/
theorem witness_idle : State.reset.pending = [] ∧ State.reset.inv ∧ step State.reset = .next { State.reset with dev := State.reset.dev.tick } :=
  ⟨rfl, by unfold State.inv; decide, rfl⟩

/-- CommandsStopOnlyOnUnissuedMasters, and every statement with an issued master: one that R74 issues, one that it does not. -/
theorem witness_master : issued 0 = true ∧ issued 0x47 = true ∧ issued 0x48 = false ∧ busMaster (.ucbWake 0x48 1) = some 0x48 := by decide

/-- The request statements: PF0's request through the open mailbox is taken up, for every service and verb. -/
theorem witness_accepted (svc verb : Nat) (priv : Bool) : served.Accepts (reqOf 0) svc verb priv :=
  ⟨⟨⟨5, 6, 7, 0, false, 1, false, []⟩, rfl, rfl⟩, rfl, rfl, .inl rfl, fun _ => rfl, ⟨rfl, rfl⟩, ⟨rfl, rfl, rfl⟩⟩

/-- SystemAndLogRequests, PRIV_SET: PF0 is its caller above; any other master is turned away. -/
theorem witness_priv_set : (reqOf 0).master = 0 ∧ (reqOf 5).master ≠ 0 ∧ servedVf.Accepts (reqOf 5) 1 5 false :=
  ⟨rfl, by decide, ⟨⟨5, 6, 7, 5, false, 1, false, []⟩, rfl, rfl⟩, rfl, rfl, .inl rfl, nofun, ⟨rfl, rfl⟩, ⟨rfl, rfl, rfl⟩⟩

/-- CounterReadsClear: PF0 reads LN_CTL's count, function 5 may not; any master reads a count that is not PRIV. -/
theorem witness_read :
    (Reg.lnCtl.isPriv && !Dev.reset.priv 5) = true ∧ (Reg.lnCtl.isPriv && !Dev.reset.priv 0) = false ∧
    (Reg.ucbEvent.isPriv && !Dev.reset.priv 5) = false := by decide

/-- UnitBankAndFabricWrites and WindowCommandWrites: a held master, one without privilege on a PRIV register, a locked register, a
third value in a WOO field, and a write that no check turns away. -/
theorem witness_write_held : heldFive.isHeld 5 = true := by rfl
theorem witness_write_unprivileged : Dev.reset.isHeld 5 = false ∧ Reg.ucbState.isPriv = true ∧ Dev.reset.priv 5 = false := by decide
theorem witness_write_locked :
    Reg.privVfLo.isLk = true ∧ Dev.isLocked { Dev.reset with fab := { Dev.reset.fab with lockGlobal := true } } .privVfLo 0 = true ∧
    Dev.isLocked Dev.reset .privVfLo 0 = false := by decide
theorem witness_write_open (u : Nat) : Dev.reset.open 0 .ucbState u 0 0 := ⟨rfl, fun _ => rfl, nofun, rfl⟩
theorem witness_unit : (kindOf 0xBB).isSome = true ∧ (kindOf 0xBC).isSome = false := by decide

/-- BusAccesses, DoorbellWrites and the frame statements: an issued master, as above. -/
theorem witness_bus : issued 0x110 = true ∧ issued 0x104 = false := by decide

/-- ResetState: an AON unit, a unit with a power domain. -/
theorem witness_reset_units : isAon uBank = true ∧ uBank ∈ allUnits ∧ (domainOf (uTile 0)).isSome = true ∧ uTile 0 ∈ allUnits := by decide

/-- RefusedUnitCommands: each clause, at a unit in a state without the transition, and at an AON unit. -/
theorem witness_refused :
    (kindOf (uTile 0)).isSome = true ∧ isGroup (uTile 0) = false ∧ isAon (uTile 0) = false ∧
    ¬((unitAt (uTile 0) stReady).own (uTile 0) = stOff ∨ (unitAt (uTile 0) stReady).own (uTile 0) = stSleep) ∧
    (unitAt (uTile 0) stReady).own (uTile 0) ≠ stActive ∧ (unitAt (uTile 0) stActive).own (uTile 0) ≠ stReady ∧
    (unitAt (uTile 0) stDraining).own (uTile 0) ≠ stReady ∧
    ¬((unitAt (uTile 0) stActive).own (uTile 0) = stReady ∨ (unitAt (uTile 0) stActive).own (uTile 0) = stSleep ∨
      (unitAt (uTile 0) stActive).own (uTile 0) = stUnusable) ∧
    isAon uTherm = true ∧ (kindOf uTherm).isSome = true ∧ isGroup uTherm = false := by decide

/-- UnitCommandTransitions: each clause's state, with the write open. -/
theorem witness_transitions :
    uTile 0 ∈ allUnits ∧ (unitAt (uTile 0) stActive).own (uTile 0) = stActive ∧ (unitAt (uTile 0) stReady).own (uTile 0) = stReady ∧
    Dev.reset.own (uTile 0) = stOff ∧ (unitAt (uTile 0) stSleep).own (uTile 0) = stSleep ∧
    Dev.reset.bank.reqs.any (fun r => decide (r.unit = uTile 0) && decide (r.kind = .wake)) = false := by decide
theorem witness_transitions_open (u st : Nat) : (unitAt u st).open 0 .ucbState u 0 0 := ⟨rfl, fun _ => rfl, nofun, rfl⟩

/-- ForgedSenderIsHeld: a request that names another master; one of service 0xE and one of another. -/
theorem witness_forged :
    (∃ b, served.mbox (reqOf 0).qid = some b) ∧ served.serving = true ∧ ({ reqOf 0 with hdrMaster := 1 } : Req).hdrMaster ≠ (reqOf 0).master ∧
    asRequest (.sysPing { reqOf 0 with hdrMaster := 1 }) = some ({ reqOf 0 with hdrMaster := 1 }, 1, 0xC, false) ∧
    asRequest (.healthInfo { reqOf 0 with hdrMaster := 1 }) = some ({ reqOf 0 with hdrMaster := 1 }, 0xE, 0, false) :=
  ⟨⟨⟨5, 6, 7, 0, false, 1, false, []⟩, rfl⟩, rfl, by decide, rfl, rfl⟩

/-- PrivilegedVerbsNeedPrivilege: function 5 calls a PRIV verb. -/
theorem witness_unprivileged :
    (∃ b, servedVf.mbox (reqOf 5).qid = some b ∧ b.closing = false) ∧ servedVf.serving = true ∧ (reqOf 5).hdrMaster = (reqOf 5).master ∧
    (reqOf 5).ifver = 1 ∧ servedVf.priv (reqOf 5).master = false ∧ asRequest (.sysBankSet (reqOf 5)) = some (reqOf 5, 1, 6, true) :=
  ⟨⟨⟨5, 6, 7, 5, false, 1, false, []⟩, rfl, rfl⟩, rfl, rfl, rfl, rfl, rfl⟩

/-- CheckOnlyActsOnNothing: a check of a SYS verb and of a HEALTH verb. -/
theorem witness_check :
    asRequest (.sysPing { reqOf 0 with checkOnly := true }) = some ({ reqOf 0 with checkOnly := true }, 1, 0xC, false) ∧
    asRequest (.healthInfo { reqOf 0 with checkOnly := true }) = some ({ reqOf 0 with checkOnly := true }, 0xE, 0, false) := ⟨rfl, rfl⟩

/-- UnknownServicesAndVerbs: services 0 and 0x12; verb 0x0D of SYS and 0xFF of LOG. -/
theorem witness_unknown :
    (∃ b, served.mbox (reqOf 0).qid = some b ∧ b.closing = false) ∧ served.serving = true ∧ (reqOf 0).hdrMaster = (reqOf 0).master ∧
    0x11 < 0x12 ∧ lastVerb 1 < 0x0D ∧ lastVerb 0x11 < 0xFF ∧ (reqOf 0).ifver = 1 :=
  ⟨⟨⟨5, 6, 7, 0, false, 1, false, []⟩, rfl, rfl⟩, rfl, rfl, by decide, by decide, by decide, rfl⟩

/-- ResettingQueueRefuses: function 5's queue 0x100, RESETTING, its ring in HBM, not NOABORT. -/
def resetting : Dev := Dev.reset.setQ 0x100 { Queue.disabled with owner := 5, rstate := 3 }
theorem witness_resetting :
    resetting.isHeld 5 = false ∧ resetting.ownsQ 5 0x100 = true ∧ (resetting.q 0x100).rstate = 3 ∧ (List.replicate 64 (0 : Byte)).length = 64 ∧
    (resetting.q 0x100).ringHost = false ∧ (resetting.q 0x100).noabort = false := by decide

/-- SnapLatchesOneTick: SNAP alone. -/
theorem witness_snap :
    Dev.reset.open 0 .tmCtl uTime 0 (setF 0 31 31 1) ∧ getF (0 : Word) 15 0 ≤ 1000 ∧ getF (0 : Word) 30 30 = 0 ∧
    getF (1000 : Word) 15 0 ≤ 1000 := ⟨⟨rfl, fun _ => rfl, nofun, rfl⟩, by decide, by decide, by decide⟩

/-- StalePairEpochDiscarded: after reset the pair epoch is 0, and 1 and 0x1FFFF are others. -/
theorem witness_stale : 1 % 65536 ≠ Dev.reset.pairEpoch ∧ 0x1FFFF % 65536 ≠ Dev.reset.pairEpoch := by decide

/-- HbmReadsWhatWasWritten: PF0 writes the last byte of HBM; an Ozder master writes, PF0 reads. -/
def hbmUp : Dev := Dev.reset.fs F.hbmState_ready 1 uHbm
theorem witness_hbm :
    hbmUp.isHeld 0 = false ∧ hbmUp.priv 0 = true ∧ hbmUp.reserved (hbmBytes - 1) 1 = false ∧ isOz 0x40 = true ∧ hbmUp.priv 0x40 = true ∧
    hbmUp.standby = false ∧ hbmUp.fb F.hbmState_ready uHbm = true ∧ 0 < [(1 : Byte)].length ∧ (hbmBytes - 1) + [(1 : Byte)].length ≤ hbmBytes ∧
    (after (.bar1Access 0 (hbmBytes - 1) true 0 [1] [] [] 0) hbmUp).priv 0 = true := by decide

/-- RegisterWriteSizes: a 32-bit write off its place, a 16-bit one, and one to offset 4 of the globals, which names no register. -/
theorem witness_sizes :
    sizeOk 2 4 = false ∧ sizeOk 2 2 = true ∧ sizeOk 0x28 4 = true ∧ regAt 0x28 = none ∧ msixAt 0 0x28 = none ∧
    ¬(0x7F00 ≤ 0x28 ∧ 0x28 < 0x8000) ∧ sizeOk 0x100FFFF 1 = true ∧ 0x100FFFF < 0x1010000 := by decide

/-- SplitWriteIsTwoAccesses: function 5's 64-bit write at 0x10, PRIV_VF_LO. -/
theorem witness_split :
    isOz 5 = false ∧ Dev.reset.isHeld 5 = false ∧ 0x10 < 0x1010000 ∧ sizeOk 0x10 8 = true ∧ msixAt 5 0x10 = none ∧
    ¬(0x7F00 ≤ 0x10 ∧ 0x10 < 0x8000) ∧ regAt 0x10 = some (.privVfLo, 0, 0) ∧ Reg.privVfLo ≠ .mqCqh ∧ Reg.privVfLo ≠ .bootHostCtl ∧
    instFor .privVfLo 5 0 = 0 ∧ Reg.privVfLo.isPriv = true ∧ Dev.reset.priv 5 = false := by decide

/-- OzderViolationsRaiseAndDrop: an Ozder master and function 5's queue. -/
theorem witness_ozder : isOz 0x40 = true ∧ resetting.isHeld 0x40 = false ∧ resetting.ownsQ 0x40 0x100 = false := by decide

/-- Cvu7IsFirmwaresOwn: an accepted request with an argument block of 32 bytes whose unit is CVU7. -/
def cvu7Req : Req := { reqOf 0 with range0 := 0x0001000040000010, argLen := 32, arg := [] }
def cvu7Bytes : List Byte := leBytes 16 0 ++ leBytes 4 (uCvu 7) ++ leBytes 12 0
theorem witness_cvu7 :
    served.Accepts { cvu7Req with arg := cvu7Bytes } 1 3 false ∧ 32 ≤ ({ cvu7Req with arg := cvu7Bytes } : Req).argLen ∧
    (served.queueSpec { cvu7Req with arg := cvu7Bytes }).unit = uCvu 7 :=
  ⟨⟨⟨⟨5, 6, 7, 0, false, 1, false, []⟩, rfl, rfl⟩, rfl, rfl, .inl rfl, fun _ => rfl, ⟨by decide, by decide⟩, ⟨rfl, rfl, rfl⟩⟩,
    by decide, by decide⟩

end Sys2Proof.Tests
end

section
/-! Chapter 01: what an event leaves as it was, what a refused unit command makes (R18, R19, R581), the bus accesses with
effects of their own, and the state after reset. -/
namespace Sys2Proof.Machine

/-! ### What raising an event leaves as it was -/

/-- An error record is posted to Ozder's queues and to no register. -/
@[simp] theorem Dev.postErr_regs (d : Dev) (r : EvRec) : (d.postErr r).regs = d.regs := by
  unfold Dev.postErr
  simp only
  repeat' split
  all_goals rfl

/-- An event holds no master and changes nothing else of the register fabric. -/
@[simp] theorem Dev.raise_fab (d : Dev) (e : Ev) : (d.raise e).fab = d.fab := by
  change ((d.raise e).without []).fab = (d.without []).fab
  rw [Dev.raise_keep]

theorem Dev.rd_postErr (d : Dev) (r : EvRec) (x : Reg) (u k : Nat) : (d.postErr r).rd x u k = d.rd x u k := by
  unfold Dev.rd
  rw [Dev.postErr_regs]

/-- An event writes no register but UCB_EVENT of its unit (R16). -/
theorem Dev.rd_raise (d : Dev) (e : Ev) (r : Reg) (u k : Nat) (hk : r.key u k ≠ Reg.ucbEvent.key e.unit 0) :
    (d.raise e).rd r u k = d.rd r u k :=
  calc (d.raise e).rd r u k
      = ((d.fs F.ucbEvent_lastEvent e.code e.unit).fadd F.ucbEvent_evCount 1 e.unit).rd r u k := Dev.rd_postErr _ _ _ _ _
    _ = (d.fs F.ucbEvent_lastEvent e.code e.unit).rd r u k := Dev.rd_wr _ _ _ _ _ _ _ _ hk
    _ = d.rd r u k := Dev.rd_wr _ _ _ _ _ _ _ _ hk

/-! ### Unit indices -/

/-- An index that names a unit fits the 12 bits of a store key. -/
theorem kindOf_lt (u : Nat) (h : (kindOf u).isSome = true) : u < 0x1000 := by
  have hrun : (runOf u).isSome = true := by simpa [kindOf] using h
  obtain ⟨r, hr⟩ := Option.isSome_iff_exists.1 hrun
  have hin : r.base ≤ u ∧ u < r.base + r.count := by simpa using List.find?_some hr
  have hend : ∀ r ∈ runs, r.base + r.count ≤ 0x1000 := by decide
  have := hend r (List.mem_of_find?_eq_some hr)
  omega

theorem allUnits_lt (u : Nat) (h : u ∈ allUnits) : u < 0x1000 := by
  simp only [allUnits, List.mem_append, List.mem_range, List.mem_map] at h
  obtain h | ⟨n, hn, rfl⟩ := h <;> omega

/-- A unit with a power domain does not lie on unswitched supplies (R54, R581). -/
theorem isAon_eq_false_of_domainOf (u : Nat) (h : (domainOf u).isSome = true) : isAon u = false := by
  unfold domainOf at h
  unfold isAon
  cases hk : kindOf u with
  | none => rfl
  | some kd => cases kd <;> simp_all

/-- An event changes no unit's own state (R16, R17). -/
theorem Dev.raise_own (d : Dev) (e : Ev) (v : Nat) (he : e.unit < 0x1000) (hv : v < 0x1000) : (d.raise e).own v = d.own v := by
  have hk : Reg.ucbState.key v 0 ≠ Reg.ucbEvent.key e.unit 0 := fun h =>
    absurd (Reg.key_inj _ _ _ _ _ _ hv he (by decide) (by decide) h).1 (by decide)
  unfold Dev.own Dev.fg
  exact congrArg (getF · _ _) (Dev.rd_raise d e _ v 0 hk)

/-! ### UCB commands to a leaf unit (R18, R19, R581) -/

theorem Dev.cmd1_wake (d : Dev) (u : Nat) : d.cmd1 1 u =
    if isAon u then d.refuseCmd u
    else if d.own u = stOff ∨ d.own u = stSleep then d.ask u .wake (d.workCls u) else d.refuseCmd u := rfl

theorem Dev.cmd1_drain (d : Dev) (u : Nat) : d.cmd1 2 u =
    if isAon u then d.refuseCmd u else if d.own u = stActive then d.setUst u stDraining 0x8 else d.refuseCmd u := rfl

theorem Dev.cmd1_sleep (d : Dev) (u : Nat) : d.cmd1 3 u =
    if isAon u then d.refuseCmd u
    else if d.own u = stReady then ((d.withdraw u).setUst u stSleep 0xA).comeDown u 0 else d.refuseCmd u := rfl

theorem Dev.cmd1_off (d : Dev) (u : Nat) : d.cmd1 4 u =
    if isAon u then d.refuseCmd u
    else if d.own u = stReady ∨ d.own u = stSleep ∨ d.own u = stUnusable then
      (((d.withdraw u).setUst u stOff 0xB).comeDown u 0).domainCheck u
    else d.refuseCmd u := rfl

theorem Dev.cmd1_reload (d : Dev) (u : Nat) : d.cmd1 5 u =
    if isAon u then d.refuseCmd u else if d.own u = stReady then d.setUst u stQuarantine 0x4 else d.refuseCmd u := rfl

/-- The shape of each command's equation: an AON unit, or one whose state has no transition p, refuses. -/
theorem refused_of_not_or_aon {α : Type} {p : Prop} [Decidable p] {aon : Bool} (refuse take : α) (h : ¬p ∨ aon = true) :
    (if aon then refuse else if p then take else refuse) = refuse := by
  obtain h | h := h <;> simp [h]

/-- A leaf unit judges a command by itself (R14). -/
theorem Dev.ucbCmd_leaf (d : Dev) (cmd u : Nat) (h : isGroup u = false) : d.ucbCmd cmd u = d.cmd1 cmd u := by
  simp [Dev.ucbCmd, Dev.cmdN, h]

/-- A command written to a leaf unit past every check is judged by that unit. -/
theorem Dev.ucbCmdBy_leaf (d : Dev) (m u cmd : Nat) (hu : (kindOf u).isSome = true) (hg : isGroup u = false)
    (ho : d.open m .ucbState u 0 0) : d.ucbCmdBy m u cmd = d.cmd1 cmd u := by
  obtain ⟨kd, hkd⟩ := Option.isSome_iff_exists.1 hu
  unfold Dev.ucbCmdBy
  rw [hkd]
  exact (Dev.gated_open d m .ucbState u 0 0 _ ho).trans (d.ucbCmd_leaf cmd u hg)

/-! ### What an access by an issued master makes (R74) -/

theorem makes_of_access {c : Instr} {m : Nat} {f : Dev → Dev} (hm : issued m = true) (hc : ∀ s, exec c s = s.access m f) (d : Dev) :
    Makes c d (f d) := fun nv q => by
  rw [hc, State.access_eq _ _ _ hm]

theorem makesBoth_of_issued {c : Instr} {m : Nat} {f : Nv → Dev → Nv × Dev} (hm : issued m = true)
    (hc : ∀ s, exec c s = if issued m then s.onBoth f else .fault (.neverIssued m)) (nv : Nv) (d : Dev) :
    MakesBoth c nv d (f nv d) := fun q => by
  rw [hc, if_pos hm, State.onBoth_eq]

/-- A command that an open leaf unit refuses makes the state in which it has raised E_STATE_CMD (R19). -/
theorem makes_refusal {c : Instr} {d : Dev} {m u cmd : Nat} (hm : issued m = true) (hu : (kindOf u).isSome = true)
    (hg : isGroup u = false) (ho : d.open m .ucbState u 0 0) (hc : ∀ s, exec c s = s.access m fun e => e.ucbCmdBy m u cmd)
    (hr : d.cmd1 cmd u = d.refuseCmd u) : Makes c d (d.raise { code := 0x0101, sev := 1, unit := u }) := by
  have h := makes_of_access hm hc d
  rwa [Dev.ucbCmdBy_leaf d m u cmd hu hg ho, hr] at h

/-- Settles O43: each command's equation refuses it to an AON unit and to a state without its transition; the event raised writes
only UCB_EVENT and the error queues. -/
theorem refusedUnitCommands : Obligations.RefusedUnitCommands := by
  unfold Obligations.RefusedUnitCommands
  intro d m u hm hu hg ho
  refine ⟨fun h => ?wake, fun h => ?drain, fun h => ?sleep, fun h => ?off, fun h => ?reload, d.raise_fab _, fun v hv => ?states⟩
  case wake => exact makes_refusal hm hu hg ho (fun _ => rfl) ((d.cmd1_wake u).trans (refused_of_not_or_aon _ _ h))
  case drain => exact makes_refusal hm hu hg ho (fun _ => rfl) ((d.cmd1_drain u).trans (refused_of_not_or_aon _ _ h))
  case sleep => exact makes_refusal hm hu hg ho (fun _ => rfl) ((d.cmd1_sleep u).trans (refused_of_not_or_aon _ _ h))
  case off => exact makes_refusal hm hu hg ho (fun _ => rfl) ((d.cmd1_off u).trans (refused_of_not_or_aon _ _ h))
  case reload => exact makes_refusal hm hu hg ho (fun _ => rfl) ((d.cmd1_reload u).trans (refused_of_not_or_aon _ _ h))
  case states => exact d.raise_own _ v (kindOf_lt u hu) (allUnits_lt v hv)

/-! ### Bus accesses -/

/-- A read of UCB_PACE_MIN: every field of it is read-only, so no reader is turned away (R81); the word stands as it was read, and
an asynchronous unit's fields are reset (R16). -/
theorem Dev.readPaceMin_eq (d : Dev) (m u : Nat) : d.readPaceMin m u =
    { (if isAsync u then (d.fs F.ucbPaceMin_below 0 u).fs F.ucbPaceMin_paceMin 0xFFFF u else d) with
      fab := { d.fab with rdata := d.rd .ucbPaceMin u } } := by
  have hpub : Reg.ucbPaceMin.isPriv = false := by decide
  unfold Dev.readPaceMin Dev.readReg
  rw [hpub]
  cases isAsync u <;> rfl

/-- Settles O20: each access is one call of its meaning, which an issued master reaches. -/
theorem busAccesses : Obligations.BusAccesses := by
  unfold Obligations.BusAccesses
  refine ⟨fun nv d m a size ws x hm => ?regWrite, fun nv d m a size ws x hm => ?bitAlias,
    fun nv d m a wr n bytes se ue die hm => ?bar1, fun nv d m v raw hm => ?thSample, fun nv d m v img hm => ?bootHost,
    fun d m hm => ?holdScan, fun d m u hm => ?paceMin, fun d m addr hm => ?low64⟩
  case regWrite => exact makesBoth_of_issued hm (fun _ => rfl) nv d
  case bitAlias => exact makesBoth_of_issued hm (fun _ => rfl) nv d
  case bar1 =>
    exact makesBoth_of_issued hm (f := fun nv d => nvFlush 0 nv
      (if wr then (d.injectEcc se ue).bar1Write m a bytes else (d.injectEcc se ue).bar1Read m a n die)) (fun _ => rfl) nv d
  case thSample =>
    exact makesBoth_of_issued hm (f := fun nv d => nvFlush 0 nv (d.gated m .thCtl uTherm 0 (v ||| BitVec.ofNat 32 (2 ^ 31))
      fun e => e.effThCtl m (v ||| BitVec.ofNat 32 (2 ^ 31)) raw)) (fun _ => rfl) nv d
  case bootHost => exact makesBoth_of_issued hm (fun _ => rfl) nv d
  case holdScan => exact makes_of_access hm (fun _ => rfl) d
  case paceMin =>
    rw [← Dev.readPaceMin_eq d m u]
    exact makes_of_access hm (f := (·.readPaceMin m u)) (fun _ => rfl) d
  case low64 => exact makes_of_access hm (f := (·.readLow64 m addr)) (fun _ => rfl) d

/-! ### The state after reset -/

/-- The register store lists nothing after reset, so every register reads its reset word (R53). -/
theorem Dev.reset_rd (r : Reg) (u k : Nat) : Dev.reset.rd r u k = r.reset u := rfl

theorem Dev.reset_own (u : Nat) : Dev.reset.own u = if isAon u then stReady else stOff := by
  unfold Dev.own Dev.fg
  rw [Dev.reset_rd]
  show getF (if isAon u then 3 else 0) 3 0 = _
  cases isAon u <;> decide

/-- Settles O42: the register store is empty and every other part holds its initial value (R53, R58). -/
theorem resetState : Obligations.ResetState := by
  unfold Obligations.ResetState
  refine ⟨rfl, Dev.reset_rd, by decide, by decide, by decide, by decide, fun u _ haon => ?aon, fun u _ hdom => ?switched,
    fun _ => rfl, rfl, rfl, rfl, rfl⟩
  case aon => exact (Dev.reset_own u).trans (if_pos haon)
  case switched =>
    have hoff : Dev.reset.own u = stOff := (Dev.reset_own u).trans (if_neg (by simp [isAon_eq_false_of_domainOf u hdom]))
    have hepoch : Dev.reset.fg F.ucbEpoch_epoch u = getF Reg.ucbEpoch.row.resetWord 15 0 := rfl
    have hgen : Dev.reset.fg F.ucbGen_gen u = getF Reg.ucbGen.row.resetWord 15 0 := rfl
    exact ⟨hoff, hepoch.trans (by decide), hgen.trans (by decide)⟩

end Sys2Proof.Machine
end

section
/-! Chapter 02: what a write of a unit's, the bank's or a global register makes (R58, R72, R84, R85, R87, R89, R94), and what a low RST_N
leaves (R53). -/
namespace Sys2Proof.Machine

/-! ### A gated write -/

/-- The ends of a write are those of `Dev.gated`, one lemma each. -/
theorem writes_of_gated {c : Instr} {m : Nat} {g f : Dev → Dev} {r : Reg} {u k : Nat} {v : Word} (hc : ∀ s, exec c s = s.access m g) (d : Dev)
    (hg : g d = d.gated m r u k v f) : Writes c d m r u k v (f d) := by
  intro hm
  have hmakes : ∀ e, d.gated m r u k v f = e → Makes c d e := fun e he => he ▸ hg ▸ makes_of_access hm hc d
  refine ⟨fun hheld => ?held, fun hfree hpriv hno => ?unprivileged, fun hfree hmay hlk hlocked => ?locked,
    fun hfree hmay hunlocked hthird => ?woo, fun hopen => ?effect⟩
  case held => exact hmakes _ (d.gated_held m r u k v f hheld)
  case unprivileged => exact hmakes _ (d.gated_unprivileged m r u k v f hfree hpriv hno)
  case locked => exact hmakes _ (d.gated_locked m r u k v f hfree hmay hlk hlocked)
  case woo => exact hmakes _ (d.gated_woo m r u k v f hfree hmay hunlocked hthird)
  case effect => exact hmakes _ (d.gated_open m r u k v f hopen)

/-! ### A write to a unit's window (R72) -/

theorem Dev.ucbCmdBy_unit (d : Dev) (m u cmd : Nat) (hu : (kindOf u).isSome = true) :
    d.ucbCmdBy m u cmd = d.gated m .ucbState u 0 0 (·.ucbCmd cmd u) := by
  obtain ⟨kd, hkd⟩ := Option.isSome_iff_exists.1 hu
  unfold Dev.ucbCmdBy
  rw [hkd]

theorem Dev.ucbCmdBy_noUnit (d : Dev) (m u cmd : Nat) (hu : (kindOf u).isSome = false) :
    d.ucbCmdBy m u cmd = if d.isHeld m then d.refuse m else d.unmapped m (0x10008 + u * 0x1000) := by
  have hnone : kindOf u = none := by simpa using hu
  unfold Dev.ucbCmdBy
  rw [hnone]
  rfl

/-- A UCB command written to a unit that exists, whichever of the five it is. -/
theorem writes_ucbCmd {c : Instr} {m u cmd : Nat} (hc : ∀ s, exec c s = s.access m (·.ucbCmdBy m u cmd)) (d : Dev)
    (hu : (kindOf u).isSome = true) : Writes c d m .ucbState u 0 0 (d.ucbCmd cmd u) :=
  writes_of_gated (f := (·.ucbCmd cmd u)) hc d (d.ucbCmdBy_unit m u cmd hu)

/-- A UCB command written to the window of no unit. -/
theorem makes_ucbCmd_noUnit {c : Instr} {m u cmd : Nat} (hc : ∀ s, exec c s = s.access m (·.ucbCmdBy m u cmd)) (d : Dev)
    (hu : (kindOf u).isSome = false) (hm : issued m = true) :
    Makes c d (if d.isHeld m then d.refuse m else d.unmapped m (0x10008 + u * 0x1000)) :=
  d.ucbCmdBy_noUnit m u cmd hu ▸ makes_of_access hm hc d

theorem exec_actLevelSet_unit (m u : Nat) (v : Word) (hu : (kindOf u).isSome = true) (s : State) :
    exec (.actLevelSet m u v) s = s.access m (·.gated m .ucbPip u 0 v (·.setLevel u (getF v 14 12))) := by
  obtain ⟨kd, hkd⟩ := Option.isSome_iff_exists.1 hu
  show execActLevelSet m u v s = _
  unfold execActLevelSet
  rw [hkd]

theorem exec_actLevelSet_noUnit (m u : Nat) (v : Word) (hu : (kindOf u).isSome = false) (s : State) :
    exec (.actLevelSet m u v) s =
      s.access m fun d => if d.isHeld m then d.refuse m else d.unmapped m (0x10014 + u * 0x1000) := by
  have hnone : kindOf u = none := by simpa using hu
  show execActLevelSet m u v s = _
  unfold execActLevelSet
  rw [hnone]
  rfl

/-- Settles O17: each write is gated by its own register, and past every check its effect is the register's own; the lock of a
PRIV_VF register comes before E_SEC_ONLY (log entry 50). -/
theorem unitBankAndFabricWrites : Obligations.UnitBankAndFabricWrites := by
  unfold Obligations.UnitBankAndFabricWrites
  refine ⟨fun d m u hu => ?wake, fun d m u hu hm => ?wakeNoUnit, fun d m u hu => ?drain, fun d m u hu hm => ?drainNoUnit,
    fun d m u hu => ?sleep, fun d m u hu hm => ?sleepNoUnit, fun d m u hu => ?off, fun d m u hu hm => ?offNoUnit,
    fun d m u hu => ?reload, fun d m u hu hm => ?reloadNoUnit, fun d m u v hu => ?level, fun d m u v hu hm => ?levelNoUnit,
    fun d m v => ?ceil, fun d m v => ?reserve, fun d m v => ?volt, fun d m index => ?lock, fun d m v => ?lockGlobal,
    fun d m hi v => ?privVf, fun d m v => ?release⟩
  case wake => exact writes_ucbCmd (fun _ => rfl) d hu
  case wakeNoUnit => exact makes_ucbCmd_noUnit (fun _ => rfl) d hu hm
  case drain => exact writes_ucbCmd (fun _ => rfl) d hu
  case drainNoUnit => exact makes_ucbCmd_noUnit (fun _ => rfl) d hu hm
  case sleep => exact writes_ucbCmd (fun _ => rfl) d hu
  case sleepNoUnit => exact makes_ucbCmd_noUnit (fun _ => rfl) d hu hm
  case off => exact writes_ucbCmd (fun _ => rfl) d hu
  case offNoUnit => exact makes_ucbCmd_noUnit (fun _ => rfl) d hu hm
  case reload => exact writes_ucbCmd (fun _ => rfl) d hu
  case reloadNoUnit => exact makes_ucbCmd_noUnit (fun _ => rfl) d hu hm
  case level => exact writes_of_gated (f := (·.setLevel u (getF v 14 12))) (exec_actLevelSet_unit m u v hu) d rfl
  case levelNoUnit => exact makes_of_access hm (exec_actLevelSet_noUnit m u v hu) d
  case ceil => exact writes_of_gated (f := (·.effBankCeil m v)) (fun _ => rfl) d rfl
  case reserve => exact writes_of_gated (f := (·.effBankReserve m v)) (fun _ => rfl) d rfl
  case volt => exact writes_of_gated (f := (·.effBankVolt m v)) (fun _ => rfl) d rfl
  case lock => exact writes_of_gated (f := (·.effLockCtl (BitVec.ofNat 32 (2 ^ 31 + index % 0x1000)))) (fun _ => rfl) d rfl
  case lockGlobal => exact writes_of_gated (f := (·.effLockCtl (v ||| BitVec.ofNat 32 (2 ^ 30)))) (fun _ => rfl) d rfl
  case privVf => exact writes_of_gated (f := (·.effPrivVf m hi v)) (fun _ => rfl) d rfl
  case release => exact writes_of_gated (f := (·.effHoldRelease v)) (fun _ => rfl) d rfl

/-! ### A low RST_N (R53) -/

/-- The device once RST_N has fallen: what a reset leaves, with RST_N low and THERM_TRIP_N as it was (R543). -/
def Dev.rstLow (d : Dev) : Dev :=
  { d.afterReset with pins := { d.afterReset.pins with rstN := false, thermTripN := d.pins.thermTripN } }

theorem exec_rstNAssert (s : State) : exec .rstNAssert s = .next { s with dev := s.dev.rstLow } := rfl

theorem Dev.rstLow_rd (d : Dev) (r : Reg) (u k : Nat) : d.rstLow.rd r u k = r.reset u := Dev.reset_rd r u k

theorem Dev.rstLow_works (d : Dev) : d.rstLow.works = ({ Dev.reset with pins := d.rstLow.pins } : Dev).works := rfl

/-- A domain is off in BANK_DOM's reset word (R58). -/
theorem bankDom_reset_on (u : Nat) : getF (Reg.bankDom.reset u) F.bankDom_on.hi F.bankDom_on.lo = 0 := by
  change getF Reg.bankDom.row.resetWord F.bankDom_on.hi F.bankDom_on.lo = 0
  decide

theorem Dev.rstLow_on (d : Dev) (u n : Nat) : d.rstLow.fg F.bankDom_on u n = 0 :=
  (congrArg (getF · _ _) (d.rstLow_rd .bankDom u n)).trans (bankDom_reset_on u)

/-- Settles O49: of the device before, only host memory, the free values and the levels on its pins outlast a low RST_N. -/
theorem lowRstNResetsEverything : Obligations.LowRstNResetsEverything := by
  unfold Obligations.LowRstNResetsEverything
  intro s
  exact ⟨_, exec_rstNAssert s, rfl, rfl, s.dev.rstLow_rd, fun n _ => s.dev.rstLow_on uBank n, s.dev.rstLow_works,
    rfl, rfl, rfl, rfl, rfl⟩

end Sys2Proof.Machine
end

section
/-! Chapter 03: what a command can end in (R74), the reads that clear (R81), the writes and doorbells that checks turn away (R76 to R78,
R84, R85, R87, R89), the ends of holds (R92), and BAR1 (R73). -/
namespace Sys2Proof.Machine

/-! ### What a command can end in (R74) -/

/-- The ends of an access by master m: a next state that keeps the waiting commands, or the fault of an ID that R74 never issues. -/
def AccessEnds (c : Instr) (m : Nat) (s : State) : Prop :=
  (issued m = true → ∃ t, exec c s = .next t ∧ t.pending = s.pending) ∧ (issued m = false → exec c s = .fault (.neverIssued m))

theorem accessEnds_of_access {c : Instr} {m : Nat} {f : Dev → Dev} (hc : ∀ s, exec c s = s.access m f) (s : State) :
    AccessEnds c m s :=
  ⟨fun hm => ⟨_, (hc s).trans (s.access_eq m f hm), rfl⟩, fun hm => (hc s).trans (s.access_fault m f hm)⟩

/-- The accesses that may also change what survives RST_N. -/
theorem accessEnds_of_issued {c : Instr} {m : Nat} {f : Nv → Dev → Nv × Dev}
    (hc : ∀ s, exec c s = if issued m then s.onBoth f else .fault (.neverIssued m)) (s : State) : AccessEnds c m s :=
  ⟨fun hm => ⟨_, (hc s).trans (if_pos hm), rfl⟩, fun hm => (hc s).trans (if_neg (by simp [hm]))⟩

/-- Settles O6: an access's one check that can stop it is that of its master ID; every other command is a change of the device, or of
the device and what survives RST_N, and answers it. -/
theorem commandsStopOnlyOnUnissuedMasters : Obligations.CommandsStopOnlyOnUnissuedMasters := by
  unfold Obligations.CommandsStopOnlyOnUnissuedMasters
  intro c s
  cases c with
  | regWrite | bitAliasWrite | bootHostGo => exact accessEnds_of_issued (fun _ => rfl) s
  | bar1Access m a wr n bytes se ue die =>
    exact accessEnds_of_issued (f := fun nv d => nvFlush 0 nv
      (if wr then (d.injectEcc se ue).bar1Write m a bytes else (d.injectEcc se ue).bar1Read m a n die)) (fun _ => rfl) s
  | thSampleWrite m v raw =>
    exact accessEnds_of_issued (f := fun nv d => nvFlush 0 nv (d.gated m .thCtl uTherm 0 (v ||| BitVec.ofNat 32 (2 ^ 31))
      fun e => e.effThCtl m (v ||| BitVec.ofNat 32 (2 ^ 31)) raw)) (fun _ => rfl) s
  | ucbWake | ucbDrain | ucbSleep | ucbOff | ucbReload | ucbPaceMinRead | ucbEventRead | actLevelSet | bankCeilWrite | bankReserveWrite
  | bankVoltReq | bankOvrRead | bankPeakRead | counter64LowRead | lockCtlGo | lockCtlGlobal | privVfWrite | holdScanRead
  | holdReleaseWrite | accLogRead | parLogRead | dbTailWrite | dbPush | dbStart | dbStop | dbReset | qfRead | qfCreate | qfDestroy
  | qfRetarget | qfStart | qfStop | qfReset | qfOpUnused | qfRoleRead | mbBootGo | quadCfgWrite | lnkMapWrite | lnCtlRetrain | lnCtlFull
  | lnkStatRead | lnCounterRead | camEnable | camDisable | dfStatRead | srcStatRead | camFlagsRead | pxCounterRead | clCounterRead
  | outCounterRead | psCounterRead | mqCqhWrite | mpCntRead | cvuCtlWrite | cvuCounterRead | rcMismRead | rgnRead | rgnWrite | rgnClear
  | rgnOpUnused | pcTrGo | pcCounterRead | scTimGo | scanCounterRead | auCntRead | dIncWrite | dSetGo | dAdjGo | tmSnap | tmSwitch
  | tmSwitchForce | timeCounterRead | twCntRead | chCntRead | ozEccRead => exact accessEnds_of_access (fun _ => rfl) s
  | _ => exact ⟨_, rfl, rfl⟩

/-! ### Reads that clear (R81) -/

/-- Fields of one register that do not overlap, from checks that evaluate. -/
theorem apartIn_of_pairwise {r : Reg} {fs : List Fld} (hr : ∀ f ∈ fs, f.reg = r ∧ f.hi < 32)
    (hp : fs.Pairwise fun f g => g.hi < f.lo ∨ f.hi < g.lo) : apartIn r fs := by
  induction fs with
  | nil => trivial
  | cons f fs ih =>
    obtain ⟨hf, hfs⟩ := List.forall_mem_cons.1 hr
    obtain ⟨hg, hp⟩ := List.pairwise_cons.1 hp
    exact ⟨hf.1, hf.2, hg, ih hfs hp⟩

/-- A read through `Dev.readClear` clears the fields it names, and those alone. -/
theorem readsAndClears_of_readClear {c : Instr} {d : Dev} {m : Nat} {r : Reg} {u k : Nat} {fs : List Fld}
    (hc : ∀ s, exec c s = s.access m (·.readClear m r u k fs)) (ha : apartIn r fs) : ReadsAndClears c d m r u k fs := by
  intro hm
  have hmakes := makes_of_access hm hc d
  refine ⟨fun hhidden => ?hidden, fun hseen => ?seen⟩
  case hidden => rwa [d.readClear_hidden m r u k fs hhidden] at hmakes
  case seen =>
    rw [d.readClear_seen m r u k fs hseen] at hmakes
    refine ⟨_, hmakes, rfl, Dev.cleared_zero fs r d u k ha, fun hi lo h => ?bits, fun r' u' k' h => ?others, ?rest⟩
    case bits => exact Dev.cleared_other fs r d u k ha hi lo h
    case others => exact Dev.cleared_rd fs r d u k ha r' u' k' h
    case rest => exact congrArg (fun e : Dev => { e with fab := d.fab }) (Dev.cleared_keeps fs d u k)

/-- Settles O16: each command is one call of `Dev.readClear`, on fields of its register that do not overlap. -/
theorem counterReadsClear : Obligations.CounterReadsClear := by
  unfold Obligations.CounterReadsClear
  and_intros <;> intros <;>
    exact readsAndClears_of_readClear (fun _ => rfl) (apartIn_of_pairwise (by decide) (by decide))

/-! ### Writes that start something in a unit's window (R84, R85, R87, R89, R584) -/

/-- A command that is one gated write of its register. -/
theorem writes_of_gate {c : Instr} {m : Nat} {r : Reg} {u k : Nat} {v : Word} {f : Dev → Dev}
    (hc : ∀ s, exec c s = s.access m (·.gated m r u k v f)) (d : Dev) : Writes c d m r u k v (f d) :=
  writes_of_gated hc d rfl

/-- A write of MQ_CQH by the owner of its pair. -/
theorem Dev.mqCqhBy_owner (d : Dev) (m n : Nat) (v : Word) (h : (tget d.md.qps n).any (fun p => decide (p.owner = m)) = true) :
    d.mqCqhBy m n v = d.gated m .mqCqh uMedia n v (·.effMqCqh m n v) := by
  unfold Dev.mqCqhBy
  cases hq : tget d.md.qps n <;> simp_all

/-- A write of MQ_CQH by any other master. -/
theorem Dev.mqCqhBy_other (d : Dev) (m n : Nat) (v : Word) (h : (tget d.md.qps n).any (fun p => decide (p.owner = m)) = false) :
    d.mqCqhBy m n v = if d.isHeld m then d.refuse m else d.effMqCqh m n v := by
  unfold Dev.mqCqhBy Dev.unlessHeld
  cases hq : tget d.md.qps n <;> simp_all

/-- Settles O18: each command is one gated write of its register, but for MQ_CQH, which is gated for its pair's owner alone. -/
theorem windowCommandWrites : Obligations.WindowCommandWrites := by
  unfold Obligations.WindowCommandWrites
  refine ⟨?qfRead, ?qfCreate, ?qfDestroy, ?qfRetarget, ?qfStart, ?qfStop, ?qfReset, ?qfOpUnused, ?rgnRead, ?rgnWrite, ?rgnClear,
    ?rgnOpUnused, ?mbBootGo, ?quadCfgWrite, ?lnkMapWrite, ?lnCtlRetrain, ?lnCtlFull, ?camEnable, ?camDisable, ?cvuCtlWrite, ?pcTrGo,
    ?scTimGo, ?dIncWrite, ?dSetGo, ?dAdjGo, ?tmSnap, ?tmSwitch, ?tmSwitchForce, fun d m n v hown => ?mqCqhOwner,
    fun d m n v hother hm => ?mqCqhOther⟩
  case mqCqhOwner => exact writes_of_gated (f := (·.effMqCqh m n v)) (fun _ => rfl) d (d.mqCqhBy_owner m n v hown)
  case mqCqhOther => exact d.mqCqhBy_other m n v hother ▸ makes_of_access (f := (·.mqCqhBy m n v)) hm (fun _ => rfl) d
  all_goals
    intros
    apply writes_of_gate
    exact fun _ => rfl

/-! ### Doorbells (R87, R89, R105 to R110, R117 to R120) -/

theorem Dev.slotWrite_true (d : Dev) (m qid : Nat) (f : Dev → Dev) : d.slotWrite m qid true f = d.submit m qid f := rfl

theorem Dev.slotWrite_false (d : Dev) (m qid : Nat) (f : Dev → Dev) :
    d.slotWrite m qid false f = if d.isHeld m then d.refuse m else d.dbSize m qid := rfl

/-- The checks of a submission: a held master's is refused, another's than the owner's is a violation. -/
theorem Dev.submit_eq (d : Dev) (m qid : Nat) (f : Dev → Dev) :
    d.submit m qid f = if d.isHeld m then d.refuse m else if !d.ownsQ m qid then d.violate m 4 qid else f d := by
  unfold Dev.submit Dev.unlessHeld
  cases h : d.ownsQ m qid <;> simp [h]

/-- The checks of a slot write of two conditions on its place and size: these come after the hold and before the owner. -/
theorem Dev.slotWrite_eq (d : Dev) (m qid : Nat) (p q : Prop) [Decidable p] [Decidable q] (f : Dev → Dev) :
    d.slotWrite m qid (decide p && decide q) f = if d.isHeld m then d.refuse m else if ¬(p ∧ q) then d.dbSize m qid
      else if !d.ownsQ m qid then d.violate m 4 qid else f d := by
  rw [← Bool.decide_and]
  by_cases h : p ∧ q
  · rw [decide_eq_true h, if_neg (not_not_intro h), Dev.slotWrite_true, Dev.submit_eq]
  · rw [decide_eq_false h, if_pos h, Dev.slotWrite_false]

/-- Settles O19: each doorbell is one submission or slot write, whose checks come in the order the statement gives. -/
theorem doorbellWrites : Obligations.DoorbellWrites := by
  unfold Obligations.DoorbellWrites
  refine ⟨fun d m qid off size v ring hm => ?tail, fun d m qid off bytes hm => ?push, fun d m qid hm => ?start,
    fun d m qid hm => ?stop, fun d m qid hm => ?reset⟩
  case tail =>
    have h := makes_of_access (c := .dbTailWrite m qid off size v ring) hm (fun _ => rfl) d
    rwa [Dev.dbTail, Dev.slotWrite_eq] at h
  case push =>
    have h := makes_of_access (c := .dbPush m qid off bytes) hm (fun _ => rfl) d
    rwa [Dev.push, Dev.slotWrite_eq] at h
  case start => exact makes_of_access (f := (·.submit m qid (·.startQ qid))) hm (fun _ => rfl) d
  case stop => exact makes_of_access (f := (·.submit m qid (·.stopQ qid))) hm (fun _ => rfl) d
  case reset => exact makes_of_access (f := (·.submit m qid (·.resetQ m qid))) hm (fun _ => rfl) d

/-! ### Violations by Ozder masters (R76) -/

theorem issued_of_isOz {m : Nat} (h : isOz m = true) : issued m = true := by
  simp only [isOz, Bool.and_eq_true, decide_eq_true_eq] at h
  simp [issued, Nat.lt_of_le_of_lt h.2 (by decide : 0x47 < 0x48)]

/-- A violation by an Ozder master raises E_OZ_VIOL and holds nothing. -/
theorem Dev.violate_isOz (d : Dev) (m cause info : Nat) (h : isOz m = true) :
    d.violate m cause info = d.raise { code := 0x0213, sev := 4, master := m, d0 := cause, d1 := info } := if_pos h

/-- Settles O58: of a doorbell's ends, the owner's check is the one that such a master meets, and it holds no Ozder master. -/
theorem ozderViolationsRaiseAndDrop : Obligations.OzderViolationsRaiseAndDrop := by
  unfold Obligations.OzderViolationsRaiseAndDrop
  intro d m qid v ring bytes hoz hfree hown e
  have hm := issued_of_isOz hoz
  have he : d.violate m 4 qid = e := d.violate_isOz m 4 qid hoz
  obtain ⟨tail, push, start, stop, reset⟩ := doorbellWrites
  refine ⟨?start, ?stop, ?reset, ?tail, fun hlen => ?push, congrArg FabSt.holds (d.raise_fab _)⟩
  case start => simpa [hfree, hown, he] using start d m qid hm
  case stop => simpa [hfree, hown, he] using stop d m qid hm
  case reset => simpa [hfree, hown, he] using reset d m qid hm
  case tail => simpa [hfree, hown, he] using tail d m qid 0 4 v ring hm
  case push => simpa [hfree, hown, he, hlen] using push d m qid 0 bytes hm

/-! ### Parts that a frame leaves: the register fabric and HBM -/

/-- A frame that does not name the fabric leaves the holds, locks and last read as they were. -/
theorem Dev.fab_of_without {pts : List Part} {d e : Dev} (hp : .fab ∉ pts) (h : e.without pts = d.without pts) :
    e.fab = d.fab := by
  have := congrArg Dev.fab h
  simpa [Dev.without, hp] using this

/-- The same for HBM. -/
theorem Dev.hbm_of_without {pts : List Part} {d e : Dev} (hp : .hbm ∉ pts) (h : e.without pts = d.without pts) :
    e.hbm = d.hbm := by
  have := congrArg Dev.hbm h
  simpa [Dev.without, hp] using this

/-- Closing a function's mailboxes holds no master and ends no hold. -/
theorem Dev.closeAll_fab (d : Dev) (f : Nat) : (d.closeAll f).fab = d.fab :=
  Dev.fab_of_without (pts := [.qf]) (by decide) (d.closeAll_keep f rfl)

theorem Dev.setUst_fab (d : Dev) (u st reason : Nat) : (d.setUst u st reason).fab = d.fab :=
  Dev.fab_of_without (pts := []) (by decide) (d.setUst_keep u st reason)

theorem nvFlush_fab (fails : Nat) (nv : Nv) (d : Dev) : (nvFlush fails nv d).2.fab = d.fab :=
  Dev.fab_of_without (pts := [.boot]) (by decide) (nvFlush_keep fails nv d rfl)

/-- What no step of a fold changes, the fold does not change. -/
theorem foldl_same {σ α β : Type} (g : σ → β) {f : σ → α → σ} (h : ∀ e x, g (f e x) = g e) (xs : List α) (d : σ) :
    g (xs.foldl f d) = g d := by
  induction xs generalizing d with
  | nil => rfl
  | cons x xs ih => exact (ih _).trans (h d x)

/-! ### PERST_N and function-level resets (R92) -/

/-- The end of a hold takes that entity's hold off the list and no other (R91). -/
theorem Dev.endHold_holds (d : Dev) (isUnit : Bool) (id : Nat) :
    (d.endHold isUnit id).fab.holds = d.fab.holds.filter fun h => !((h.isUnit == isUnit) && decide (h.id = id)) := by
  unfold Dev.endHold
  extract_lets fab d1 u d2 d3
  clear_value u
  have h2 : d2.fab = d1.fab := by
    simp only [d2]
    split
    · rfl
    · split
      · exact d1.setUst_fab _ _ _
      · rfl
  have h3 : d3.fab = d2.fab := by
    simp only [d3]
    split
    · rfl
    · split <;> rfl
  rw [Dev.raise_fab, h3, h2]

/-- The ends of several masters' holds leave the holds of everyone else. -/
theorem Dev.endHolds_holds (hs : List Hold) (d : Dev) :
    (hs.foldl (fun e h => e.endHold false h.id) d).fab.holds =
      d.fab.holds.filter fun h => hs.all fun x => !((h.isUnit == false) && decide (h.id = x.id)) := by
  induction hs generalizing d with
  | nil => exact (List.filter_eq_self.2 fun _ _ => rfl).symm
  | cons x hs ih =>
    rw [List.foldl_cons, ih, Dev.endHold_holds, List.filter_filter]
    exact List.filter_congr fun h _ => by rw [List.all_cons, Bool.and_comm]

/-- Ending the hold of each PCIe function that is listed leaves exactly the holds of units and of other masters. -/
theorem filter_of_function_holds (hs : List Hold) :
    (hs.filter fun h => (hs.filter fun x => !x.isUnit && isFn x.id).all fun x => !((h.isUnit == false) && decide (h.id = x.id))) =
      hs.filter fun h => h.isUnit || !isFn h.id := by
  refine List.filter_congr fun h hh => ?_
  cases hkept : h.isUnit || !isFn h.id with
  | false =>
    obtain ⟨hmaster, hfn⟩ := Bool.or_eq_false_iff.1 hkept
    have hlisted : h ∈ hs.filter fun x => !x.isUnit && isFn x.id :=
      List.mem_filter.2 ⟨hh, by rw [hmaster, Bool.not_false, Bool.true_and, (Bool.not_eq_false' _).mp hfn]⟩
    exact List.all_eq_false.2 ⟨h, hlisted, by rw [hmaster, decide_eq_true rfl]; decide⟩
  | true =>
    refine List.all_eq_true.2 fun x hx => ?_
    obtain ⟨-, hx⟩ := List.mem_filter.1 hx
    obtain ⟨-, hxfn⟩ := Bool.and_eq_true_iff.1 hx
    by_cases hid : h.id = x.id
    · rw [hid, hxfn, Bool.not_true, Bool.or_false] at hkept
      rw [hkept]
      rfl
    · rw [decide_eq_false hid, Bool.and_false]
      rfl

theorem Dev.perst_holds (d : Dev) : d.perst.fab.holds = d.fab.holds.filter fun h => h.isUnit || !isFn h.id := by
  unfold Dev.perst
  extract_lets d1 fs d2
  have h1 : d1.fab.holds = d.fab.holds.filter fun h => h.isUnit || !isFn h.id :=
    (Dev.endHolds_holds _ d).trans (filter_of_function_holds d.fab.holds)
  have h2 : d2.fab = d1.fab := foldl_same Dev.fab Dev.closeAll_fab fs d1
  exact (congrArg FabSt.holds h2).trans h1

/-- Settles O50: PERST_N ends each function's hold; mailboxes and vectors, which a function-level reset also takes, hold nobody. -/
theorem perstEndsFunctionHolds : Obligations.PerstEndsFunctionHolds := by
  unfold Obligations.PerstEndsFunctionHolds
  exact ⟨fun s => ⟨_, rfl, s.dev.perst_holds⟩, fun s f => ⟨_, rfl, congrArg FabSt.holds (s.dev.closeAll_fab f)⟩⟩

/-! ### Register writes of every size (R72, R77, R78) -/

theorem spaceOf_regs {a : Nat} (h : a < 0x1010000) : spaceOf a = .regs := if_pos h

/-- A write to the registers: first its place and size, then its dwords one by one. -/
theorem busWrite_regs {a : Nat} (h : a < 0x1010000) (m size : Nat) (ws : List (Word × Bool)) (x : Shown) (nv : Nv) (d : Dev) :
    busWrite m a size ws x nv d =
      if !sizeOk a size then (nv, d.unlessHeld m fun d => d.unaligned 3 m a)
      else if size < 4 then (nv, d.unlessHeld m fun d => d.narrowWrite 1 m a)
      else busWords m x a ws nv d := by
  unfold busWrite
  rw [spaceOf_regs h]

/-- A whole dword by a master that is not held, to an address that is not BOOT_HOST_CTL's. -/
theorem busWord_regs {m a : Nat} {d : Dev} (h : a < 0x1010000) (hfree : d.isHeld m = false)
    (hboot : (regAt a).map (fun p => p.1) ≠ some .bootHostCtl) (v : Word) (x : Shown) (nv : Nv) :
    busWord m a v true x nv d = nvFlush 0 nv (d.write32 m a v x) := by
  unfold busWord
  rw [if_neg (by simp [hfree]), spaceOf_regs h]
  simp [hboot]

/-- A dword at an address that is in no MSI-X table and names no register (R72). -/
theorem Dev.write32_unmapped {m a : Nat} (hmsix : msixAt m a = none) (hpba : ¬(0x7F00 ≤ a ∧ a < 0x8000)) (hreg : regAt a = none)
    (d : Dev) (v : Word) (x : Shown) : d.write32 m a v x = d.unmapped m a := by
  unfold Dev.write32
  rw [hmsix, hreg]
  exact if_neg hpba

/-- A dword at a register's address, MQ_CQH apart, is a gated write of that register. -/
theorem Dev.write32_gated {m a : Nat} {r : Reg} {u k : Nat} (hmsix : msixAt m a = none) (hpba : ¬(0x7F00 ≤ a ∧ a < 0x8000))
    (hreg : regAt a = some (r, u, k)) (hcqh : r ≠ .mqCqh) (d : Dev) (v : Word) (x : Shown) :
    d.write32 m a v x = d.gated m r u (instFor r m k) v (·.regEffect m r u (instFor r m k) v x) := by
  unfold Dev.write32
  rw [hmsix, hreg]
  exact (if_neg hpba).trans (if_neg hcqh)

theorem Dev.unlessHeld_free {d : Dev} {m : Nat} (h : d.isHeld m = false) (f : Dev → Dev) : d.unlessHeld m f = f d :=
  if_neg (by simp [h])

theorem makesBoth_regWrite {m : Nat} (hm : issued m = true) (a size : Nat) (ws : List (Word × Bool)) (x : Shown) (nv : Nv) (d : Dev) :
    MakesBoth (.regWrite m a size ws x) nv d (busWrite m a size ws x nv d) :=
  makesBoth_of_issued hm (fun _ => rfl) nv d

/-- Settles O56: place and size are judged before any register is looked at, and an access error is logged and raised alone. -/
theorem registerWriteSizes : Obligations.RegisterWriteSizes := by
  unfold Obligations.RegisterWriteSizes
  intro nv d m a size ws x hm hfree ha
  refine ⟨fun hbad => ?place, fun hok hnarrow => ?narrow, fun v hsize hok hreg hmsix hpba => ?unmapped, fun e ev k => ?holds⟩
  case place =>
    have h := makesBoth_regWrite hm a size ws x nv d
    rwa [busWrite_regs ha, if_pos (by simp [hbad]), Dev.unlessHeld_free hfree] at h
  case narrow =>
    have h := makesBoth_regWrite hm a size ws x nv d
    rwa [busWrite_regs ha, if_neg (by simp [hok]), if_pos hnarrow, Dev.unlessHeld_free hfree] at h
  case unmapped =>
    subst hsize
    have h := makesBoth_regWrite hm a 4 [(v, true)] x nv d
    rw [busWrite_regs ha, if_neg (by simp [hok]), if_neg (by decide)] at h
    simp only [busWords] at h
    rwa [busWord_regs ha hfree (by simp [hreg]), Dev.write32_unmapped hmsix hpba hreg] at h
  case holds => exact (Dev.raise_fab _ ev).trans rfl

/-! ### Split writes (R78) -/

theorem Dev.addHold_isHeld (d : Dev) (m cause info : Nat) : (d.addHold false m cause info).isHeld m = true := by
  simp [Dev.addHold, Dev.isHeld, Dev.holdOf]

/-- Being held is a matter of the fabric alone. -/
theorem Dev.isHeld_of_fab {d e : Dev} (h : e.fab = d.fab) (m : Nat) : e.isHeld m = d.isHeld m := by
  unfold Dev.isHeld Dev.holdOf
  rw [h]

/-- A master that commits a violation is held from then on (R87); Ozder's are not (R76). -/
theorem Dev.violate_isHeld (d : Dev) (m cause info : Nat) (hoz : isOz m = false) : (d.violate m cause info).isHeld m = true := by
  unfold Dev.violate
  rw [if_neg (by simp [hoz])]
  split
  · assumption
  · extract_lets d1 d2 d3
    have h1 : d1.isHeld m = true := d.addHold_isHeld m cause info
    have h2 : d2.fab = d1.fab := Dev.fab_of_without (pts := [.qf, .hbm, .host]) (by decide) (d1.holdQueues_keep m rfl rfl rfl)
    have h3 : d3.isHeld m = true := (Dev.isHeld_of_fab ((d2.raise_fab _).trans h2) m).trans h1
    clear_value d3
    split
    · exact h3
    · extract_lets risk d4
      have h4 : d4.fab = d3.fab := Dev.fab_of_without (pts := []) (by decide) (d3.holdUnit_keep _)
      split
      · exact (Dev.isHeld_of_fab ((d4.raise_fab _).trans h4) m).trans h3
      · exact (Dev.isHeld_of_fab h4 m).trans h3

/-- A held master's dword is refused, wherever it goes (R89). -/
theorem busWord_held {m a : Nat} {d : Dev} (h : d.isHeld m = true) (v : Word) (full : Bool) (x : Shown) (nv : Nv) :
    busWord m a v full x nv d = (nv, d.refuse m) := if_pos h

/-- Settles O57: the violation of the first half holds the master, whom the second half then finds held. -/
theorem splitWriteIsTwoAccesses : Obligations.SplitWriteIsTwoAccesses := by
  unfold Obligations.SplitWriteIsTwoAccesses
  intro nv d m a v w x r u k hm hoz hfree ha hok hmsix hpba hreg hcqh hboot hinst hpriv hno
  have hheld : (nvFlush 0 nv (d.violate m 1 (regOffset r u k))).2.isHeld m = true :=
    (Dev.isHeld_of_fab (nvFlush_fab 0 nv _) m).trans (d.violate_isHeld m 1 _ hoz)
  have hfirst : busWord m a v true x nv d = nvFlush 0 nv (d.violate m 1 (regOffset r u k)) := by
    rw [busWord_regs ha hfree (by simp [hreg, hboot]), Dev.write32_gated hmsix hpba hreg hcqh, hinst,
      Dev.gated_unprivileged d m r u k v _ hfree hpriv hno]
  refine ⟨_, rfl, hheld, ?_⟩
  have h := makesBoth_regWrite hm a 8 [(v, true), (w, true)] x nv d
  rw [busWrite_regs ha, if_neg (by simp [hok]), if_neg (by decide)] at h
  simp only [busWords, hfirst] at h
  rwa [busWord_held hheld] at h

/-! ### BAR1 (R73, R428) -/

/-- What the bytes of a BAR1 access depend on: HBM's bytes, and HBM_STATE, which says whether it is ready or in standby. -/
def Dev.hbmView (d : Dev) : Tab Byte × Word := (d.hbm.mem, d.rd .hbmState uHbm)

theorem Dev.hbmView_mem {d e : Dev} (h : e.hbmView = d.hbmView) : e.hbm.mem = d.hbm.mem := congrArg Prod.fst h

theorem Dev.hbmView_rd {d e : Dev} (h : e.hbmView = d.hbmView) : e.rd .hbmState uHbm = d.rd .hbmState uHbm := congrArg Prod.snd h

/-- A field of HBM_STATE reads the same where the view is the same. -/
theorem Dev.hbmView_fb {d e : Dev} (h : e.hbmView = d.hbmView) (f : Fld) (hf : f.reg = .hbmState) : e.fb f uHbm = d.fb f uHbm := by
  unfold Dev.fb Dev.fg
  rw [hf, Dev.hbmView_rd h]

/-- HBM_STATE's key is no other register's. -/
theorem hbmState_key_ne {r : Reg} {u k : Nat} (hr : r ≠ .hbmState) (hu : u < 0x1000) (hk : k < 0x100) :
    Reg.hbmState.key uHbm 0 ≠ r.key u k := fun h =>
  hr (Reg.key_inj _ _ _ _ _ _ (by decide) hu (by decide) hk h).1.symm

theorem Dev.fs_hbmView (d : Dev) (f : Fld) (v : Nat) {u : Nat} (hf : f.reg ≠ .hbmState) (hu : u < 0x1000) :
    (d.fs f v u).hbmView = d.hbmView :=
  congrArg (Prod.mk d.hbm.mem) (Dev.rd_wr d _ _ _ _ _ _ _ (hbmState_key_ne hf hu (by decide)))

theorem Dev.fadd_hbmView (d : Dev) (f : Fld) (n : Nat) {u : Nat} (hf : f.reg ≠ .hbmState) (hu : u < 0x1000) :
    (d.fadd f n u).hbmView = d.hbmView := d.fs_hbmView f _ hf hu

theorem Dev.raise_hbmView (d : Dev) (e : Ev) (hu : e.unit < 0x1000) : (d.raise e).hbmView = d.hbmView := by
  have hm : (d.raise e).hbm = d.hbm := Dev.hbm_of_without (pts := []) (by decide) (d.raise_keep e)
  unfold Dev.hbmView
  rw [hm, d.rd_raise e _ _ _ (hbmState_key_ne (by decide) hu (by decide))]

theorem Dev.raiseOnce_hbmView (d : Dev) (obj ns : Nat) (e : Ev) (hu : e.unit < 0x1000) :
    (d.raiseOnce obj ns e).hbmView = d.hbmView := by
  unfold Dev.raiseOnce
  extract_lets k
  split
  · split
    · rfl
    · exact d.raise_hbmView e hu
  · exact d.raise_hbmView e hu

/-- The mover of an address's pseudo-channel is a unit (R429). -/
theorem uMover_pcOf_lt (order a : Nat) : uMover (pcOf order a) < 0x1000 := by
  have h : pcOf order a < 64 := by
    unfold pcOf
    split <;> exact Nat.mod_lt _ (by decide)
  unfold uMover
  omega

/-! Errors found by a check are counted, told and recorded; no byte moves (R436). -/

theorem Dev.foundCe_hbmView (d : Dev) (w : Nat) : (d.foundCe w).hbmView = d.hbmView := by
  have hu := uMover_pcOf_lt d.order (w * 32)
  unfold Dev.foundCe
  extract_lets pc d1 hbm d2
  exact (d2.raiseOnce_hbmView pc _ _ hu).trans (d.fadd_hbmView F.pcEcc_ce 1 (by decide) hu)

theorem Dev.nvPut_hbmView (d : Dev) (kind : Nat) (err : EvRec) (info : List Byte) : (d.nvPut kind err info).hbmView = d.hbmView := rfl

theorem Dev.foundUe_hbmView (d : Dev) (w : Nat) : (d.foundUe w).hbmView = d.hbmView := by
  have hu := uMover_pcOf_lt d.order (w * 32)
  unfold Dev.foundUe
  extract_lets pc l d1 e r d2 hbm
  have h1 : d1.hbmView = d.hbmView :=
    (Dev.fs_hbmView _ F.pcUeAddr_addr w (by decide) hu).trans (d.fadd_hbmView F.pcEcc_ue 1 (by decide) hu)
  have h2 : d2.hbmView = d1.hbmView := (Dev.nvPut_hbmView _ 4 r _).trans (d1.raise_hbmView e hu)
  clear_value d2
  exact h2.trans h1

theorem Dev.eccRead_hbmView (d : Dev) (a n : Nat) : (d.eccRead a n).hbmView = d.hbmView := by
  unfold Dev.eccRead
  refine foldl_same Dev.hbmView (fun e w => ?_) _ d
  split
  · exact e.foundUe_hbmView w
  · split
    · exact e.foundCe_hbmView w
    · rfl

/-- A store checks the words it covers in part, then writes its bytes (R436). -/
theorem Dev.eccWrite_hbmView (d : Dev) (a : Nat) (bs : List Byte) :
    (d.eccWrite a bs).hbmView = (mwrite 0 d.hbm.mem a bs, d.rd .hbmState uHbm) := by
  unfold Dev.eccWrite
  extract_lets part
  have h := foldl_same Dev.hbmView (fun e w => e.eccRead_hbmView (w * 32) 1) part d
  exact Prod.ext (congrArg (mwrite 0 · a bs) (Dev.hbmView_mem h)) (Dev.hbmView_rd h :)

theorem nvPlace_hbmView (nv : Nv) (d : Dev) (j : NvJob) (good : Bool) : (nvPlace nv d j good).2.hbmView = d.hbmView :=
  (Dev.fs_hbmView _ F.nvStat_count _ (by decide) (by decide)).trans (d.fs_hbmView F.nvStat_next _ (by decide) (by decide))

theorem nvWrite_hbmView (fails : Nat) (nv : Nv) (d : Dev) (j : NvJob) : (nvWrite fails nv d j).2.hbmView = d.hbmView := by
  unfold nvWrite
  extract_lets p1 p2 nv0 nv' d'
  have h1 : p1.2.hbmView = d.hbmView := by
    simp only [p1]
    split
    · rfl
    · exact nvPlace_hbmView nv d j false
  have h2 : p2.2.hbmView = p1.2.hbmView := by
    simp only [p2]
    split
    · exact nvPlace_hbmView p1.1 p1.2 j true
    · exact nvPlace_hbmView p1.1 p1.2 j false
  have h3 : d'.hbmView = p2.2.hbmView := p2.2.fs_hbmView F.nvSeq_nseq _ (by decide) (by decide)
  have h4 : d'.hbmView = d.hbmView := h3.trans (h2.trans h1)
  split
  · exact h4
  · exact (d'.raise_hbmView _ (by decide : uNvm < 0x1000)).trans h4

/-- Records written to the event NVM move no byte of HBM. -/
theorem nvFlush_hbmView (fails : Nat) (nv : Nv) (d : Dev) : (nvFlush fails nv d).2.hbmView = d.hbmView := by
  unfold nvFlush
  extract_lets jobs boot d'
  refine (foldl_same (fun p : Nv × Dev => p.2.hbmView) (fun p j => ?_) jobs.zipIdx (nv, d')).trans rfl
  exact nvWrite_hbmView _ p.1 p.2 j.1

/-- Without new errors in the cells the device stands as it was. -/
theorem Dev.injectEcc_nil (d : Dev) : d.injectEcc [] [] = d := by
  simp [Dev.injectEcc]

theorem Dev.keptLen_awake {d : Dev} (h : d.standby = false) (a n : Nat) : d.keptLen a n = n := if_neg (by simp [h])

/-- A write inside HBM by a privileged master that is not held is one store (R73). -/
theorem Dev.bar1Write_inside {d : Dev} {m a : Nat} {bs : List Byte} (hfree : d.isHeld m = false) (hpriv : d.priv m = true)
    (hmay : isOz m = true ∨ d.reserved a bs.length = false) (hawake : d.standby = false) (hsome : 0 < bs.length)
    (hin : a + bs.length ≤ hbmBytes) : d.bar1Write m a bs = d.eccWrite a bs := by
  have hbelow : min bs.length (hbmBytes - a) = bs.length := by omega
  have hwake : d.wakeStack a = d := if_neg (by simp [hawake])
  have hopen : (!isOz m && d.reserved a bs.length) = false := by
    obtain h | h := hmay <;> simp [h]
  unfold Dev.bar1Write
  rw [Dev.unlessHeld_free hfree]
  simp only [hpriv, hbelow, Dev.keptLen_awake hawake, hopen, hwake, Nat.ne_of_gt hsome, List.take_length, Nat.lt_irrefl, Bool.not_true,
    Bool.false_eq_true, if_false]

/-- A read inside HBM by a privileged master answers the bytes that stand there (R73). -/
theorem Dev.bar1Read_inside {d : Dev} {m a n die : Nat} (hpriv : d.priv m = true) (hawake : d.standby = false)
    (hready : d.fb F.hbmState_ready uHbm = true) (hin : a + n ≤ hbmBytes) :
    (d.bar1Read m a n die).fab.rbytes = mread 0 d.hbm.mem a n := by
  have hbelow : min n (hbmBytes - a) = n := by omega
  unfold Dev.bar1Read
  simp only [hpriv, hready, hbelow, Dev.keptLen_awake hawake, Bool.not_true, Bool.false_eq_true, if_false, Nat.sub_self,
    List.replicate_zero, List.append_nil]
  rfl

/-- Settles O55: the write is one store, and neither its checks nor the event NVM's records touch HBM's bytes or HBM_STATE. -/
theorem hbmReadsWhatWasWritten : Obligations.HbmReadsWhatWasWritten := by
  unfold Obligations.HbmReadsWhatWasWritten
  intro nv q d m m' a die bs hm hm' hfree hpriv hmay hawake hready hsome hin
  obtain ⟨-, -, bar1, -⟩ := busAccesses
  have hview : (nvFlush 0 nv (d.bar1Write m a bs)).2.hbmView = (mwrite 0 d.hbm.mem a bs, d.rd .hbmState uHbm) :=
    (nvFlush_hbmView 0 nv _).trans
      ((congrArg Dev.hbmView (Dev.bar1Write_inside hfree hpriv hmay hawake hsome hin)).trans (d.eccWrite_hbmView a bs))
  have hwrite := bar1 nv d m a true 0 bs [] [] 0 hm q
  simp only [Dev.injectEcc_nil, if_true] at hwrite
  generalize nvFlush 0 nv (d.bar1Write m a bs) = p at hview hwrite
  obtain ⟨nv1, d1⟩ := p
  have hmem : d1.hbm.mem = mwrite 0 d.hbm.mem a bs := congrArg Prod.fst hview
  have hstate : ∀ f : Fld, f.reg = .hbmState → d1.fb f uHbm = d.fb f uHbm :=
    Dev.hbmView_fb (d := { d with hbm := { d.hbm with mem := mwrite 0 d.hbm.mem a bs } }) hview
  refine ⟨_, hwrite, fun x => ?bytes, fun hpriv' => ?back⟩
  case bytes => exact (congrArg (mget 0 · x) hmem).trans (mget_mwrite 0 bs _ a x)
  case back =>
    have hread := bar1 nv1 d1 m' a false bs.length [] [] [] die hm' q
    simp only [Dev.injectEcc_nil] at hread
    refine ⟨_, hread, (congrArg FabSt.rbytes (nvFlush_fab 0 nv1 _)).trans ?_⟩
    have hawake1 : d1.standby = false := (hstate F.hbmState_standby rfl).trans hawake
    have hready1 : d1.fb F.hbmState_ready uHbm = true := (hstate F.hbmState_ready rfl).trans hready
    exact (Dev.bar1Read_inside hpriv' hawake1 hready1 hin).trans (hmem ▸ mread_mwrite d.hbm.mem a bs)

end Sys2Proof.Machine
end

section
/-! Chapter 04: a queue that is RESETTING (R120). -/
namespace Sys2Proof.Machine

/-- A push or TAIL write dropped for the ring's state raises E_Q_OVERFLOW and does nothing else (R106, R120). -/
theorem Dev.qOverflow_eq (d : Dev) (m qid : Nat) :
    d.qOverflow m qid = d.raise { code := 0x0301, sev := 1, unit := uQf, master := m, d0 := qid } := rfl

/-- Settles O51: past the checks of the hold, the place and the owner, RESETTING is the state a TAIL write and a push meet, and RESET
begins only in the two states before it. -/
theorem resettingQueueRefuses : Obligations.ResettingQueueRefuses := by
  unfold Obligations.ResettingQueueRefuses
  intro d m qid v ring bytes hm hfree hown hresetting
  obtain ⟨tail, push, -, -, reset⟩ := doorbellWrites
  refine ⟨?tail, fun hlen hring => ?push, fun habort => ?reset, fun e => ⟨d.raise_fab e, d.raise_qf e⟩⟩
  case tail => simpa [hfree, hown, hresetting, Dev.qOverflow_eq] using tail d m qid 0 4 v ring hm
  case push => simpa [hfree, hown, hresetting, hlen, hring, Dev.qOverflow_eq] using push d m qid 0 bytes hm
  case reset => simpa [hfree, hown, hresetting, habort] using reset d m qid hm

end Sys2Proof.Machine
end

section
/-! Chapter 05: the gate that every mailbox request passes (R138 to R149, R155), what each service's requests come to once firmware takes
them up, what those come to that it turns away, and the SRAM errors of Ozder's core pairs (R130). -/
namespace Sys2Proof.Machine

/-! ### The checks before a verb, in their order (R146) -/

section
variable {d : Dev} {r : Req} {b : Mbox} (hbox : d.mbox r.qid = some b) (hserving : d.serving = true)
include hbox hserving

/-- A request that names another master is looked at no further, not even for a mailbox that is closing (R155). -/
theorem Dev.preGate_forged (hforged : r.hdrMaster ≠ r.master) (svc verb : Nat) (known svcKnown deny : Bool) :
    d.preGate r svc verb known svcKnown deny = some ((d.replyErr r svc verb 0x0406 0xFFFF).violate r.master 6 r.qid) := by
  simp [Dev.preGate, hbox, hserving, hforged]

variable (hopen : b.closing = false) (hsender : r.hdrMaster = r.master)
include hopen hsender

theorem Dev.preGate_unknownService (svc verb : Nat) (known deny : Bool) :
    d.preGate r svc verb known false deny = some (d.replyErr r svc verb 0x0402 0xFFFF) := by
  simp [Dev.preGate, hbox, hserving, hopen, hsender]

variable (hversion : r.ifver = 1)
include hversion

theorem Dev.preGate_unknownVerb (svc verb : Nat) (deny : Bool) :
    d.preGate r svc verb false true deny = some (d.replyErr r svc verb 0x0403 0xFFFF) := by
  simp [Dev.preGate, hbox, hserving, hopen, hsender, hversion]

theorem Dev.preGate_denied {deny : Bool} (hdeny : deny = true) (svc verb : Nat) :
    d.preGate r svc verb true true deny = some (d.replyErr r svc verb 0x0405 0xFFFF) := by
  simp [Dev.preGate, hbox, hserving, hopen, hsender, hversion, hdeny]

end

theorem Dev.verbD_refused {d e : Dev} {r : Req} {svc verb : Nat} {deny : Bool} (h : d.preGate r svc verb true true deny = some e)
    (body : Dev → VRes Dev) : d.verbD r svc verb deny body = e := by
  simp [Dev.verbD, h]

theorem verbNv_refused {nv : Nv} {d e : Dev} {r : Req} {svc verb : Nat} {priv : Bool}
    (h : d.preGate r svc verb true true (priv && !d.priv r.master) = some e) (body : Nv → Dev → VRes (Nv × Dev)) :
    verbNv nv d r svc verb priv body = (nv, e) := by
  simp [verbNv, h]

/-! ### What a command makes that is one change of the device, or of the device and the survivors -/

theorem makes_of_onDev {c : Instr} {f : Dev → Dev} (hc : ∀ s, exec c s = s.onDev f) (d : Dev) : Makes c d (f d) :=
  fun nv q => hc ⟨nv, d, q⟩

theorem makesBoth_of_onBoth {c : Instr} {f : Nv → Dev → Nv × Dev} (hc : ∀ s, exec c s = s.onBoth f) (nv : Nv) (d : Dev) :
    MakesBoth c nv d (f nv d) := fun q => hc ⟨nv, d, q⟩

/-! ### Requests that firmware takes up (R146, R148)

Each service's commands run their verb's own answer behind the gate in one of three ways, with one lemma each. -/

/-- A verb whose effect lies in the device. -/
theorem answers_of_verb {c : Instr} {r : Req} {svc verb : Nat} {priv : Bool} {body : Dev → VRes Dev} {d : Dev}
    (hc : ∀ s, exec c s = s.onDev (·.verb r svc verb priv body)) : Answers c d r svc verb priv (body d) :=
  fun h => Dev.verb_settled d r svc verb priv body h ▸ makes_of_onDev hc d

/-- A verb that may also change what survives RST_N. -/
theorem answersBoth_of_verbNv {c : Instr} {r : Req} {svc verb : Nat} {priv : Bool} {body : Nv → Dev → VRes (Nv × Dev)} {nv : Nv}
    {d : Dev} (hc : ∀ s, exec c s = s.onBoth (verbNv · · r svc verb priv body)) : AnswersBoth c nv d r svc verb priv (body nv d) :=
  fun h => verbNv_settled nv d r svc verb priv body h ▸ makesBoth_of_onBoth hc nv d

/-- A verb of HEALTH, whose event NVM records are written at its end (R545). -/
theorem answersLogged_of_verb {c : Instr} {r : Req} {svc verb : Nat} {priv : Bool} {body : Dev → VRes Dev} {nv : Nv} {d : Dev}
    (hc : ∀ s, exec c s = s.onNvm 0 (·.verb r svc verb priv body)) : AnswersLogged c nv d r svc verb priv (body d) :=
  fun h => Dev.verb_settled d r svc verb priv body h ▸ makesBoth_of_onBoth hc nv d

/-- SYS.PRIV_SET asks for PF0 itself where the other PRIV verbs ask for privilege (R150). -/
theorem exec_sysPrivSet (r : Req) (s : State) :
    exec (.sysPrivSet r) s = s.onDev fun d => d.verbD r 0x1 0x5 (decide (r.master ≠ 0)) (·.sysPrivSet r) := rfl

theorem answers_sysPrivSet (d : Dev) (r : Req) (hpf0 : r.master = 0) : Answers (.sysPrivSet r) d r 0x1 0x5 true (d.sysPrivSet r) :=
  fun h => Dev.verbD_settled d r 0x1 0x5 true (decide (r.master ≠ 0)) (·.sysPrivSet r) h (by simp [hpf0]) ▸
    makes_of_onDev (exec_sysPrivSet r) d

theorem makes_sysPrivSet_denied (d : Dev) (r : Req) (hother : r.master ≠ 0) (h : d.Accepts r 0x1 0x5 false) :
    Makes (.sysPrivSet r) d (d.replyErr r 0x1 0x5 0x0405 0xFFFF) := by
  obtain ⟨⟨b, hbox, hopen⟩, hserving, hsender, hversion, -, -, -⟩ := h
  have hversion1 : r.ifver = 1 := by simpa using hversion
  have hdenied := Dev.preGate_denied hbox hserving hopen hsender hversion1 (decide_eq_true hother) 0x1 0x5
  exact Dev.verbD_refused hdenied (·.sysPrivSet r) ▸ makes_of_onDev (exec_sysPrivSet r) d

/-- Settles O8: every verb but PRIV_SET is its own answer behind the gate; PRIV_SET's gate asks for PF0. The argument and reply layouts
inside the verbs' operations are the model's choice (log entry 12). -/
theorem systemAndLogRequests : Obligations.SystemAndLogRequests := by
  unfold Obligations.SystemAndLogRequests
  refine ⟨?sysInfo, ?sysOpen, ?sysClose, ?queueCreate, ?queueDestroy, ?privSet, ?privSetDenied, ?bankSet, ?holdList, ?holdRelease,
    ?unitQuery, ?unitCmd, ?jobStatus, ?ping, ?logInfo, ?subscribe, ?unsubscribe, ?logRead, ?mark, ?logStats⟩
  case privSet => exact answers_sysPrivSet
  case privSetDenied => exact makes_sysPrivSet_denied
  all_goals
    intros
    apply answers_of_verb
    exact fun _ => rfl

/-- Settles O9: each verb is its own answer behind the gate, on the device and what survives RST_N; UPDATE's but INFO are shut while the
twin hands over or attaches. -/
theorem updateAndAttestRequests : Obligations.UpdateAndAttestRequests := by
  unfold Obligations.UpdateAndAttestRequests
  and_intros
  all_goals
    intros
    apply answersBoth_of_verbNv
    exact fun _ => rfl

/-- Settles O10: each verb is its own answer behind the gate. That LINK_OFF clears DF_CTL.EN and BC_EN is the model's choice
(log entry 66). -/
theorem ingestRequests : Obligations.IngestRequests := by
  unfold Obligations.IngestRequests
  and_intros
  all_goals
    intros
    apply answers_of_verb
    exact fun _ => rfl

/-- Settles O11: each verb is its own answer behind the gate. The reply layouts of PIPE.TABLE_INFO and COLOUR.QUERY are the model's choice
(log entry 12). -/
theorem pipeAndColourRequests : Obligations.PipeAndColourRequests := by
  unfold Obligations.PipeAndColourRequests
  and_intros
  all_goals
    intros
    apply answers_of_verb
    exact fun _ => rfl

/-- Settles O12: each verb is its own answer behind the gate. The reply layouts of OUT.STREAM_INFO and CODEC.STREAM_INFO are the
model's choice (log entry 12), and that long verbs act when they are accepted is its reading (log entry 67). -/
theorem outputAndCodecRequests : Obligations.OutputAndCodecRequests := by
  unfold Obligations.OutputAndCodecRequests
  and_intros
  all_goals
    intros
    apply answers_of_verb
    exact fun _ => rfl

/-- Settles O13: each verb is its own answer behind the gate. That unmounting removes the VOLUME namespaces is the model's reading
(log entry 72). -/
theorem mediaRequests : Obligations.MediaRequests := by
  unfold Obligations.MediaRequests
  and_intros
  all_goals
    intros
    apply answers_of_verb
    exact fun _ => rfl

/-- Settles O14: each verb is its own answer behind the gate. The free row at which LAYER_SET and PALETTE_SET take effect is the model's
reading (log entry 75). -/
theorem scanAudioAndTimeRequests : Obligations.ScanAudioAndTimeRequests := by
  unfold Obligations.ScanAudioAndTimeRequests
  and_intros
  all_goals
    intros
    apply answers_of_verb
    exact fun _ => rfl

/-- Settles O15: each verb is its own answer behind the gate, and HEALTH's write their event NVM records at their end. The period that
ROLL_SET answers and the skip of ROLL_NOW are the model's reading (log entry 78), the bytes of CHAIN.TOPO's reply its choice. -/
theorem sessionTwinChainAndHealthRequests : Obligations.SessionTwinChainAndHealthRequests := by
  unfold Obligations.SessionTwinChainAndHealthRequests
  refine ⟨?sessionInfo, ?save, ?load, ?standby, ?resume, ?twinInfo, ?modeSet, ?attach, ?detach, ?handover, ?twinStatus, ?chainInfo, ?join,
    ?leave, ?routeSet, ?action, ?send, ?topo, ?healthInfo, ?temp, ?thermAck, ?sensorClear, ?selftest, ?testInfo, ?rollSet, ?rollNow,
    ?unitList, ?eqStats⟩
  case healthInfo | temp | thermAck | sensorClear | selftest | testInfo | rollSet | rollNow | unitList | eqStats =>
    intros
    apply answersLogged_of_verb
    exact fun _ => rfl
  all_goals
    intros
    apply answers_of_verb
    exact fun _ => rfl

/-! ### Requests that the gate turns away (R138, R145, R146, R155) -/

/-- Command c makes of a request that the gate turns away the refusal's device and nothing else, but that HEALTH writes its event NVM
records (R146, R545); of a PRIV verb, the gate turns away every master without privilege. -/
def RefusedAtGate (c : Instr) (r : Req) (svc verb : Nat) (priv : Bool) : Prop :=
  ∃ deny : Dev → Bool, (priv = true → ∀ d : Dev, d.priv r.master = false → deny d = true) ∧
    ∀ (nv : Nv) (d e : Dev), d.preGate r svc verb true true (deny d) = some e →
      MakesBoth c nv d (if svc = 0xE then nvFlush 0 nv e else (nv, e))

theorem denied_of_unprivileged {priv : Bool} {r : Req} (hpriv : priv = true) (d : Dev) (h : d.priv r.master = false) :
    (priv && !d.priv r.master) = true := by
  simp [hpriv, h]

theorem ne_zero_of_unprivileged {d : Dev} {m : Nat} (h : d.priv m = false) : m ≠ 0 := by
  rintro rfl
  simp [Dev.priv] at h

theorem refusedAtGate_of_verbD {c : Instr} {r : Req} {svc verb : Nat} {priv : Bool} {deny : Dev → Bool} {body : Dev → VRes Dev}
    (hc : ∀ s, exec c s = s.onDev fun d => d.verbD r svc verb (deny d) body) (hsvc : svc ≠ 0xE)
    (hdeny : priv = true → ∀ d : Dev, d.priv r.master = false → deny d = true) : RefusedAtGate c r svc verb priv :=
  ⟨deny, hdeny, fun nv d e h q => by rw [hc, State.onDev_eq, if_neg hsvc, Dev.verbD_refused h]⟩

theorem refusedAtGate_of_verb {c : Instr} {r : Req} {svc verb : Nat} {priv : Bool} {body : Dev → VRes Dev}
    (hc : ∀ s, exec c s = s.onDev (·.verb r svc verb priv body)) (hsvc : svc ≠ 0xE) : RefusedAtGate c r svc verb priv :=
  refusedAtGate_of_verbD hc hsvc denied_of_unprivileged

theorem refusedAtGate_of_verbNv {c : Instr} {r : Req} {svc verb : Nat} {priv : Bool} {body : Nv → Dev → VRes (Nv × Dev)}
    (hc : ∀ s, exec c s = s.onBoth (verbNv · · r svc verb priv body)) (hsvc : svc ≠ 0xE) : RefusedAtGate c r svc verb priv :=
  ⟨_, denied_of_unprivileged, fun nv d e h q => by rw [hc, State.onBoth_eq, if_neg hsvc, verbNv_refused h]⟩

theorem refusedAtGate_of_healthVerb {c : Instr} {r : Req} {verb : Nat} {priv : Bool} {body : Dev → VRes Dev}
    (hc : ∀ s, exec c s = s.onNvm 0 (·.verb r 0xE verb priv body)) : RefusedAtGate c r 0xE verb priv :=
  ⟨_, denied_of_unprivileged, fun nv d e h q => by
    rw [hc, State.onNvm, State.onBoth_eq, if_pos rfl, Dev.verb, Dev.verbD_refused h]⟩

/-- Every one of the 174 requests passes the gate with its own service and verb. -/
theorem refusedAtGate_of_asRequest {c : Instr} {r : Req} {svc verb : Nat} {priv : Bool} (h : asRequest c = some (r, svc, verb, priv)) :
    RefusedAtGate c r svc verb priv := by
  cases c with
  | sysPrivSet =>
    cases h
    exact refusedAtGate_of_verbD (exec_sysPrivSet r) (by decide) fun _ _ h => decide_eq_true (ne_zero_of_unprivileged h)
  | logNvmRead | updateInfo | updateBegin | updateWrite | updateVerify | updateActivate | updateConfirm | updateAbort | updateRestart
  | updateSvnAdvance | updateKeyAdd | updateRevoke | attestInfo | attestReport | attestCert | attestDebugChallenge | attestDebugUnlock =>
    cases h
    exact refusedAtGate_of_verbNv (fun _ => rfl) (by decide)
  | healthInfo | healthTemp | healthThermAck | healthSensorClear | healthSelftest | healthTestInfo | healthRollSet | healthRollNow
  | healthUnitList | healthEqStats =>
    cases h
    exact refusedAtGate_of_healthVerb (fun _ => rfl)
  | sysInfo | sysOpen | sysClose | sysQueueCreate | sysQueueDestroy | sysBankSet | sysHoldList | sysHoldRelease | sysUnitQuery
  | sysUnitCmd | sysJobStatus | sysPing | logInfo | logSubscribe | logUnsubscribe | logRead | logMark | logStats | ingestInfo
  | ingestLinkSet | ingestLinkOff | ingestSourceSet | ingestCameraSet | ingestCameraStart | ingestCameraStop | ingestFrameInfo
  | ingestHeadWrite | ingestHeadRead | ingestHeadTrigger | ingestStats | pipeInfo | pipeSensorSet | pipeMosaicSet | pipeDefectLoad
  | pipeFlatLoad | pipeSpectralLoad | pipeMatrixLoad | pipeIrSet | pipeCommit | pipeDiscard | pipeTableInfo | pipeTileStats
  | colourInfo | colourOtSet | colourShaperLoad | colourLutLoad | colourTnrSet | colourStatSet | colourFrameSet | colourAutoSet
  | colourStats | colourQuery | colourTileStats | outInfo | outCameraAlloc | outCameraFree | outPoolSet | outStreamSet
  | outStreamStart | outStreamStop | outCoefLoad | outAlignSet | outAlignJoin | outCompatSet | outRotate | outStreamInfo | outStats
  | codecInfo | codecStreamSet | codecStreamStart | codecStreamStop | codecStreamInfo | codecDecode | codecCtxSave | codecCtxLoad
  | codecMove | codecKey | codecEngineStats | mediaInfo | mediaPortSet | mediaPackInfo | mediaConfigSet | mediaQpCreate
  | mediaQpDelete | mediaNsCreate | mediaNsDelete | mediaVolumeFormat | mediaVolumeMount | mediaVolumeUnmount | mediaRecordStart
  | mediaRecordStop | mediaClipList | mediaClipInfo | mediaClipMap | mediaClipDelete | mediaBurstArm | mediaBurstTrigger
  | mediaBurstDisarm | mediaOffload | mediaMark | mediaStats | sessionInfo | sessionSave | sessionLoad | sessionStandby
  | sessionResume | scanInfo | scanTimingSet | scanOutputSet | scanBaseBind | scanLayerBind | scanLayerUnbind | scanLayerSet
  | scanPaletteSet | scanSinkInfo | scanStats | audioInfo | audioPortSet | audioStart | audioStop | audioMute | audioStatus
  | audioStats | timeInfo | timeNow | timeSelect | timeFrameSet | timeEthBind | timeEthUnbind | timeActionArm | timeActionCancel
  | timeTrigInSet | timeStats | twinInfo | twinModeSet | twinAttach | twinDetach | twinHandover | twinStatus | chainInfo | chainJoin
  | chainLeave | chainRouteSet | chainAction | chainSend | chainTopo =>
    cases h
    exact refusedAtGate_of_verb (fun _ => rfl) (by decide)
  | _ => cases h

/-- Settles O45: the sender is the gate's first check once the mailbox is known and firmware serves. -/
theorem forgedSenderIsHeld : Obligations.ForgedSenderIsHeld := by
  unfold Obligations.ForgedSenderIsHeld
  intro c nv d r svc verb priv hc ⟨b, hbox⟩ hserving hforged
  obtain ⟨deny, -, hrefused⟩ := refusedAtGate_of_asRequest hc
  exact hrefused nv d _ (Dev.preGate_forged hbox hserving hforged svc verb true true (deny d))

/-- Settles O46: with the checks before it passed, the privilege check turns the request away; PRIV_SET's is for PF0, which is
privileged (R74). -/
theorem privilegedVerbsNeedPrivilege : Obligations.PrivilegedVerbsNeedPrivilege := by
  unfold Obligations.PrivilegedVerbsNeedPrivilege
  intro c nv d r svc verb hc ⟨b, hbox, hopen⟩ hserving hsender hversion hunprivileged
  obtain ⟨deny, hdeny, hrefused⟩ := refusedAtGate_of_asRequest hc
  exact hrefused nv d _ (Dev.preGate_denied hbox hserving hopen hsender hversion (hdeny rfl d hunprivileged) svc verb)

theorem makes_mbUnknownService (d : Dev) (r : Req) (svc verb : Nat) :
    Makes (.mbUnknownService r svc verb) d (d.badVerb r svc verb (decide (1 ≤ svc) && decide (svc ≤ 0x11)) true) :=
  fun _ _ => rfl

theorem makes_mbUnknownVerb (d : Dev) (r : Req) (svc verb : Nat) :
    Makes (.mbUnknownVerb r svc verb) d
      (d.badVerb r svc verb (decide (1 ≤ svc) && decide (svc ≤ 0x11)) (decide (verb ≤ lastVerb svc))) :=
  fun _ _ => rfl

/-- Settles O48: past the sender's check the gate asks for the service, then the version, then the verb. -/
theorem unknownServicesAndVerbs : Obligations.UnknownServicesAndVerbs := by
  unfold Obligations.UnknownServicesAndVerbs
  intro d r svc verb ⟨b, hbox, hopen⟩ hserving hsender
  refine ⟨fun hsvc => ?service, fun hlo hhi hverb hversion => ?verb⟩
  case service =>
    have h := makes_mbUnknownService d r svc verb
    have hunknown : (decide (1 ≤ svc) && decide (svc ≤ 0x11)) = false := by simp; omega
    rwa [Dev.badVerb, hunknown, Dev.preGate_unknownService hbox hserving hopen hsender] at h
  case verb =>
    have h := makes_mbUnknownVerb d r svc verb
    have hknown : (decide (1 ≤ svc) && decide (svc ≤ 0x11)) = true := by simp [hlo, hhi]
    have hunknown : decide (verb ≤ lastVerb svc) = false := decide_eq_false (Nat.not_le.2 hverb)
    rwa [Dev.badVerb, hknown, hunknown, Dev.preGate_unknownVerb hbox hserving hopen hsender hversion] at h

/-! ### SRAM errors (R130) -/

theorem makes_sramError (d : Dev) (pairB double : Bool) : Makes (.ozSramEccError pairB double) d (d.sramEcc pairB double) :=
  fun _ _ => rfl

theorem makes_lockstepMismatch (d : Dev) (pairB : Bool) : Makes (.ozLockstepMismatch pairB) d (d.pairFault pairB) :=
  fun _ _ => rfl

/-- Settles O52: a double-bit error, once counted and raised, is the fault of the pair that a lockstep mismatch is. -/
theorem sramErrors : Obligations.SramErrors := by
  unfold Obligations.SramErrors
  intro d pairB
  exact ⟨makes_sramError d pairB false, d.sramEcc pairB true, makes_sramError d pairB true, makes_lockstepMismatch _ pairB⟩

end Sys2Proof.Machine
end

section
/-! Chapter 06: what a command may make of what survives RST_N: flash is written and erased, event NVM records are placed in their slots,
fuses are burnt (R161, R166, R175, R545). -/
namespace Sys2Proof.Machine

/-! ### The answers of UPDATE, ATTEST and LOG.NVM_READ -/

/-- The survivors in a verb's answer, where it has any, follow on nv. -/
def VRes.Grows (nv : Nv) : VRes (Nv × Dev) → Prop
  | .err .. => True
  | .turned p _ => nv.Grows p.1
  | .ok p .. => nv.Grows p.1
  | .job p .. => nv.Grows p.1

theorem VRes.Grows.err {nv : Nv} {status off detail : Nat} : VRes.Grows nv (.err status off detail) := trivial

theorem VRes.Grows.guarded {nv : Nv} {c : Prop} [Decidable c] {status off : Nat} {v : VRes (Nv × Dev)} (h : v.Grows nv) :
    VRes.Grows nv (if c then .err status off else v) := by
  split
  · exact .err
  · exact h

/-- The gate and the reply leave the survivors to the verb's own answer. -/
theorem verbNv_grows {body : Nv → Dev → VRes (Nv × Dev)} (hbody : ∀ nv d, (body nv d).Grows nv) (r : Req) (svc verb : Nat)
    (priv : Bool) (nv : Nv) (d : Dev) : nv.Grows (verbNv nv d r svc verb priv body).1 := by
  refine Nv.Grows.verbNv nv d r svc verb priv body fun e => ?_
  have h := hbody nv e
  revert h
  cases body nv e <;> exact id

/-- BEGIN erases the inactive bank (R180). -/
theorem updBegin_grows (r : Req) (nv : Nv) (d : Dev) : (updBegin r nv d).Grows nv :=
  .guarded (.guarded (Nv.Grows.setFlash nv d.inactive [] fun _ => rfl))

theorem updWrite_grows (r : Req) (nv : Nv) (d : Dev) : (updWrite r nv d).Grows nv := by
  refine .guarded (.guarded ?_)
  split
  · exact .err
  · exact .guarded (Nv.Grows.flashW nv _ _ _)

/-- VERIFY only reads the bank. -/
theorem updVerify_grows (r : Req) (nv : Nv) (d : Dev) : (updVerify r nv d).Grows nv := by
  unfold updVerify
  split
  · exact .err
  · dsimp only
    split <;> exact Nv.Grows.refl nv

theorem updActivate_grows (r : Req) (nv : Nv) (d : Dev) : (updActivate r nv d).Grows nv := by
  unfold updActivate
  split
  · exact .err
  · exact .guarded (Nv.Grows.flashW nv _ _ _)

theorem updConfirm_grows (nv : Nv) (d : Dev) : (updConfirm nv d).Grows nv := by
  unfold updConfirm
  split
  · exact .err
  · split
    · exact Nv.Grows.flashW nv _ _ _
    · exact .err

theorem updAbort_grows (r : Req) (nv : Nv) (d : Dev) : (updAbort r nv d).Grows nv := by
  unfold updAbort
  split
  · exact .err
  · exact Nv.Grows.refl nv

theorem updRestart_grows (r : Req) (nv : Nv) (d : Dev) : (updRestart r nv d).Grows nv := .guarded (Nv.Grows.refl nv)

theorem updSvn_grows (r : Req) (nv : Nv) (d : Dev) : (updSvn r nv d).Grows nv := .guarded (.guarded (Nv.Grows.svn nv r.a0))

theorem updKeyAdd_grows (r : Req) (nv : Nv) (d : Dev) : (updKeyAdd r nv d).Grows nv :=
  .guarded (.guarded (.guarded (.guarded (Nv.Grows.burn nv _ _ _ (FuseSlot.le_program _)))))

theorem updRevoke_grows (r : Req) (nv : Nv) (d : Dev) : (updRevoke r nv d).Grows nv :=
  .guarded (.guarded (.guarded (Nv.Grows.burn nv _ _ _ FuseSlot.le_revoke)))

theorem attReport_grows (r : Req) (nv : Nv) (d : Dev) : (attReport r nv d).Grows nv := .guarded (Nv.Grows.refl nv)

theorem attChallenge_grows (r : Req) (nv : Nv) (d : Dev) : (attChallenge r nv d).Grows nv := .guarded (Nv.Grows.refl nv)

/-- A debug token is judged against the fuses and burns none (R179). -/
theorem attUnlock_grows (r : Req) (nv : Nv) (d : Dev) : (attUnlock r nv d).Grows nv := by
  refine .guarded ?_
  split <;> exact Nv.Grows.refl nv

theorem logNvmRead_grows (nv : Nv) (d : Dev) (r : Req) : (logNvmRead nv d r).Grows nv := .guarded (.guarded (.guarded (Nv.Grows.refl nv)))

/-! ### The commands outside mailboxes that write survivors -/

/-- The record of a power failure, cut short or whole (R52, R545). -/
theorem pwrGoodFall_grows (cut : Bool) (nv : Nv) (d : Dev) : nv.Grows (pwrGoodFall cut nv d).1 := by
  unfold pwrGoodFall
  dsimp only
  split
  · exact Nv.Grows.place nv _ _ false
  · exact Nv.Grows.flush 0 nv _

/-- The reset that UPDATE.RESTART asked for is a release of RST_N (R181). -/
theorem restartReset_grows (nv : Nv) (d : Dev) : nv.Grows (if d.boot.restart then rstRelease d.pins.bootSel nv d else (nv, d)).1 := by
  split
  · exact Nv.Grows.rstRelease _ nv d
  · exact Nv.Grows.refl nv

/-! ### Commands and steps -/

theorem State.issued_grows (s t : State) (m : Nat) (f : Nv → Dev → Nv × Dev) (hf : ∀ (nv : Nv) (d : Dev), nv.Grows (f nv d).1)
    (h : (if issued m then s.onBoth f else .fault (.neverIssued m)) = .next t) : s.nv.Grows t.nv := by
  split at h
  · exact State.onBoth_grows s t f hf h
  · cases h

theorem State.verbNv_grows (s t : State) {r : Req} {svc verb : Nat} {priv : Bool} {body : Nv → Dev → VRes (Nv × Dev)}
    (h : (s.onBoth fun nv d => verbNv nv d r svc verb priv body) = .next t) (hbody : ∀ nv d, (body nv d).Grows nv) : s.nv.Grows t.nv :=
  State.onBoth_grows s t _ (Machine.verbNv_grows hbody r svc verb priv) h

/-- UPDATE's verbs but INFO are shut while the twin hands over or attaches (R180). -/
theorem State.upd_grows (s t : State) {r : Req} {verb : Nat} {body : Nv → Dev → VRes (Nv × Dev)} (h : upd r verb body s = .next t)
    (hbody : ∀ nv d, (body nv d).Grows nv) : s.nv.Grows t.nv :=
  State.verbNv_grows s t h fun nv d => .guarded (hbody nv d)

/-- HEALTH's verbs write their event NVM records at their end (R545). -/
theorem State.vHealth_grows (s t : State) {r : Req} {verb : Nat} {priv : Bool} {body : Dev → VRes Dev}
    (h : vHealth r verb priv body s = .next t) : s.nv.Grows t.nv :=
  State.onNvm_grows s t 0 (·.verb r 0x0E verb priv body) h

/-- What survives RST_N changes by UPDATE's verbs, the boot, the load of segments and event NVM records, or by a bus write that brings one
of these; every other command at most reads it. -/
theorem exec_grows (c : Instr) (s t : State) (h : exec c s = .next t) : s.nv.Grows t.nv := by
  cases c with
  | rstNRelease => exact State.onBoth_grows s t _ (Nv.Grows.rstRelease _) h
  | updateRestartReset => exact State.onBoth_grows s t _ restartReset_grows h
  | pwrGoodFall => exact State.onBoth_grows s t _ (pwrGoodFall_grows _) h
  | hbmSegmentLoad img =>
    exact State.onBoth_grows s t _ (fun nv d => (Nv.Grows.loadSegments img nv d).trans (Nv.Grows.flush 0 _ _)) h
  | serviceReady quads => exact State.onBoth_grows s t (fun nv d => (nv, serviceReady quads nv d)) (fun nv _ => Nv.Grows.refl nv) h
  | longVerbComplete job => exact State.onBoth_grows s t (fun nv d => (nv, Dev.completeJob nv d job)) (fun nv _ => Nv.Grows.refl nv) h
  | regWrite | bitAliasWrite => exact State.issued_grows s t _ _ (Nv.Grows.busWrite _ _ _ _ _) h
  | bootHostGo => exact State.issued_grows s t _ _ (Nv.Grows.bootHostGo _ _ _) h
  | bar1Access m a wr n bytes se ue die =>
    exact State.issued_grows s t m (fun nv d => nvFlush 0 nv
      (if wr then (d.injectEcc se ue).bar1Write m a bytes else (d.injectEcc se ue).bar1Read m a n die)) (fun _ _ => Nv.Grows.flush 0 _ _) h
  | thSampleWrite m v raw =>
    exact State.issued_grows s t m (fun nv d => nvFlush 0 nv (d.gated m .thCtl uTherm 0 (v ||| BitVec.ofNat 32 (2 ^ 31))
      fun e => e.effThCtl m (v ||| BitVec.ofNat 32 (2 ^ 31)) raw)) (fun _ _ => Nv.Grows.flush 0 _ _) h
  | updateBegin r => exact State.upd_grows s t h (updBegin_grows r)
  | updateWrite r => exact State.upd_grows s t h (updWrite_grows r)
  | updateVerify r => exact State.upd_grows s t h (updVerify_grows r)
  | updateActivate r => exact State.upd_grows s t h (updActivate_grows r)
  | updateConfirm => exact State.upd_grows s t h updConfirm_grows
  | updateAbort r => exact State.upd_grows s t h (updAbort_grows r)
  | updateRestart r => exact State.upd_grows s t h (updRestart_grows r)
  | updateSvnAdvance r => exact State.upd_grows s t h (updSvn_grows r)
  | updateKeyAdd r => exact State.upd_grows s t h (updKeyAdd_grows r)
  | updateRevoke r => exact State.upd_grows s t h (updRevoke_grows r)
  | updateInfo | attestInfo => exact State.verbNv_grows s t h fun nv _ => Nv.Grows.refl nv
  | attestCert => exact State.verbNv_grows s t h fun nv _ => .guarded (Nv.Grows.refl nv)
  | attestReport r => exact State.verbNv_grows s t h (attReport_grows r)
  | attestDebugChallenge r => exact State.verbNv_grows s t h (attChallenge_grows r)
  | attestDebugUnlock r => exact State.verbNv_grows s t h (attUnlock_grows r)
  | logNvmRead r => exact State.verbNv_grows s t h (logNvmRead_grows · · r)
  | hbmScrubStep n se ue => exact State.onNvm_grows s t 0 (·.hbmScrub n se ue) h
  | hbmTrainDone spares failed sizes div => exact State.onNvm_grows s t 0 (·.trained spares failed sizes div) h
  | cvuCheck n tag host => exact State.onNvm_grows s t 0 (fun d => d.cvuOp n tag fun d o => d.cvuCheck n o host) h
  | thermSample raw fails => exact State.onNvm_grows s t fails (·.thermSample raw true) h
  | hbmTempRead stack temp fails => exact State.onNvm_grows s t fails (·.stackTemp stack.val temp) h
  | selftestDone u res fails => exact State.onNvm_grows s t fails (·.selftestDone u res) h
  | eventHandling fails => exact State.onNvm_grows s t fails Dev.handleEvent h
  | healthInfo | healthTemp | healthThermAck | healthSensorClear | healthSelftest | healthTestInfo | healthRollSet | healthRollNow
  | healthUnitList | healthEqStats => exact State.vHealth_grows s t h
  | ucbWake | ucbDrain | ucbSleep | ucbOff | ucbReload | ucbPaceMinRead | ucbEventRead | actLevelSet | bankCeilWrite | bankReserveWrite
  | bankVoltReq | bankOvrRead | bankPeakRead | counter64LowRead | lockCtlGo | lockCtlGlobal | privVfWrite | holdScanRead
  | holdReleaseWrite | accLogRead | parLogRead | dbTailWrite | dbPush | dbStart | dbStop | dbReset | qfRead | qfCreate | qfDestroy
  | qfRetarget | qfStart | qfStop | qfReset | qfOpUnused | qfRoleRead | mbBootGo | quadCfgWrite | lnkMapWrite | lnCtlRetrain | lnCtlFull
  | lnkStatRead | lnCounterRead | camEnable | camDisable | dfStatRead | srcStatRead | camFlagsRead | pxCounterRead | clCounterRead
  | outCounterRead | psCounterRead | mqCqhWrite | mpCntRead | cvuCtlWrite | cvuCounterRead | rcMismRead | rgnRead | rgnWrite | rgnClear
  | rgnOpUnused | pcTrGo | pcCounterRead | scTimGo | scanCounterRead | auCntRead | dIncWrite | dSetGo | dAdjGo | tmSnap | tmSwitch
  | tmSwitchForce | timeCounterRead | twCntRead | chCntRead | ozEccRead => exact State.access_grows s t _ _ h
  | _ =>
    cases h
    exact Nv.Grows.refl s.nv

/-- A step is one command or an idle tick, which touches no survivor. -/
theorem step_grows (s t : State) (h : step s = .next t) : s.nv.Grows t.nv := by
  unfold step at h
  split at h
  next =>
    cases h
    exact Nv.Grows.refl s.nv
  next c q _ => exact exec_grows c (s.withPending q) t h

/-- Settles O4: a step leaves survivors that follow on those before it, and what follows on a canonical form is canonical. -/
theorem stepKeepsCanonicalForms : Obligations.StepKeepsCanonicalForms := by
  unfold Obligations.StepKeepsCanonicalForms
  intro s t hinv hstep
  exact (step_grows s t hstep).wf hinv

end Sys2Proof.Machine
end

section
/-! Chapter 14: the CVU that firmware keeps for its own use (R423). -/
namespace Sys2Proof.Machine

/-- A long enough block that names CVU7 is refused whatever its other fields ask for: the target stands among the checks of one error, and
no check but that of the length comes before them. That the block's first byte is the failed argument is the model's reading
(log entry 61). -/
theorem Dev.sysQueueCreate_cvu7 (d : Dev) (r : Req) (hlen : 32 ≤ r.argLen) (hcvu7 : (d.queueSpec r).unit = uCvu 7) :
    d.sysQueueCreate r = .err 0x0404 (offBlk 0) := by
  have hlong : ¬ r.argLen < 32 := Nat.not_lt.2 hlen
  simp only [Dev.sysQueueCreate, if_neg hlong]
  exact if_pos (.inr (.inr (.inr (.inr (.inr (.inl hcvu7))))))

/-- Settles O59: an accepted request is settled by the verb's own answer (SystemAndLogRequests), here the refusal of CVU7. R423 gives
E_MB_ARG alone; the offset of the block's first byte is the model's reading (log entry 61), the block's layout of 32 bytes its choice
(log entry 12). -/
theorem cvu7IsFirmwaresOwn : Obligations.Cvu7IsFirmwaresOwn := by
  unfold Obligations.Cvu7IsFirmwaresOwn
  intro d r haccepts hlen hcvu7
  obtain ⟨-, -, -, hcreate, -⟩ := systemAndLogRequests
  have hanswers : Makes (.sysQueueCreate r) d (d.settled r 1 3 (d.sysQueueCreate r)).sweep := hcreate d r haccepts
  rwa [d.sysQueueCreate_cvu7 r hlen hcvu7] at hanswers

end Sys2Proof.Machine
end

section
/-! Chapter 18: the snapshot of both domain clocks and device time (R482, R484). -/
namespace Sys2Proof.Machine

/-! ### Registers of one unit -/

/-- Another register, or another instance of one, has another key. -/
theorem Reg.key_ne {r r' : Reg} {u k k' : Nat} (hu : u < 0x1000) (hk : k < 0x100) (hk' : k' < 0x100) (h : r ≠ r' ∨ k ≠ k') :
    r.key u k ≠ r'.key u k' := fun heq => by
  obtain ⟨hr, -, hkk⟩ := Reg.key_inj r r' u u k k' hu hu hk hk' heq
  exact h.elim (· hr) (· hkk)

theorem Dev.rd_set64_lo (d : Dev) {lo hi : Reg} (v u k : Nat) (h : lo.key u k ≠ hi.key u k) :
    (d.set64 lo hi v u k).rd lo u k = BitVec.ofNat 32 v := by
  unfold Dev.set64
  rw [Dev.rd_wr _ _ _ _ _ _ _ _ h, Dev.rd_wr_same]

theorem Dev.rd_set64_hi (d : Dev) (lo hi : Reg) (v u k : Nat) :
    (d.set64 lo hi v u k).rd hi u k = BitVec.ofNat 32 (v / 2 ^ 32) :=
  Dev.rd_wr_same _ _ _ _ _

/-- A register apart from the pair keeps its word. -/
theorem Dev.rd_set64_other (d : Dev) {lo hi r : Reg} (v u k : Nat) {k' : Nat} (hlo : r.key u k' ≠ lo.key u k)
    (hhi : r.key u k' ≠ hi.key u k) : (d.set64 lo hi v u k).rd r u k' = d.rd r u k' := by
  unfold Dev.set64
  rw [Dev.rd_wr _ _ _ _ _ _ _ _ hhi, Dev.rd_wr _ _ _ _ _ _ _ _ hlo]

/-! ### One domain's snapshot registers (R482) -/

/-- The clock of one domain latched into its snapshot registers. -/
def Dev.latchDomain (d : Dev) (dom : Nat) : Dev :=
  (((d.wr .dSnapSlo uTime dom (BitVec.ofNat 32 (d.tm.clock dom).sec)).fs F.dSnapShi_frac ((d.tm.clock dom).frac / 2 ^ 16) uTime dom).fs
    F.dSnapShi_secHi ((d.tm.clock dom).sec / 2 ^ 32) uTime dom).fs F.dSnapNs_ns (d.tm.clock dom).ns uTime dom

theorem Dev.snap_eq (d : Dev) :
    d.snap = ((d.latchDomain 0).latchDomain 1).set64 .devSnapLo .devSnapHi d.stamp uTime := rfl

/-- The snapshot registers of a domain show a clock: 48 bits of seconds, the nanoseconds, the upper 16 bits of the fraction. -/
def Dev.Shows (d : Dev) (dom : Nat) (c : Clock) : Prop :=
  (d.rd .dSnapSlo uTime dom).toNat = c.sec % 2 ^ 32 ∧ d.fg F.dSnapShi_secHi uTime dom = c.sec / 2 ^ 32 % 2 ^ 16 ∧
  d.fg F.dSnapNs_ns uTime dom = c.ns % 2 ^ 30 ∧ d.fg F.dSnapShi_frac uTime dom = c.frac / 2 ^ 16 % 2 ^ 16

/-- The registers that show a domain's clock. -/
def snapRegs : List Reg := [.dSnapSlo, .dSnapShi, .dSnapNs]

/-- A clock is still shown where its snapshot registers keep their words. -/
theorem Dev.Shows.of_rd {d e : Dev} {dom : Nat} {c : Clock} (h : d.Shows dom c)
    (hrd : ∀ r ∈ snapRegs, e.rd r uTime dom = d.rd r uTime dom) : e.Shows dom c := by
  have hslo := hrd .dSnapSlo (by decide)
  have hshi := hrd .dSnapShi (by decide)
  have hns := hrd .dSnapNs (by decide)
  simpa [Dev.Shows, Dev.fg, F.dSnapShi_secHi, F.dSnapShi_frac, F.dSnapNs_ns, hslo, hshi, hns] using h

@[simp] theorem Dev.latchDomain_tm (d : Dev) (dom : Nat) : (d.latchDomain dom).tm = d.tm := rfl

/-- Latching a domain makes its registers show its clock. -/
theorem Dev.latchDomain_shows (d : Dev) {dom : Nat} (hdom : dom < 0x100) : (d.latchDomain dom).Shows dom (d.tm.clock dom) := by
  have apart : ∀ {r r' : Reg}, r ≠ r' → r.key uTime dom ≠ r'.key uTime dom := fun h => Reg.key_ne (by decide) hdom hdom (.inl h)
  refine ⟨?secLo, ?secHi, ?ns, ?frac⟩
  case secLo =>
    unfold Dev.latchDomain Dev.fs
    rw [Dev.rd_wr _ _ _ _ _ _ _ _ (apart (by decide)), Dev.rd_wr _ _ _ _ _ _ _ _ (apart (by decide)),
      Dev.rd_wr _ _ _ _ _ _ _ _ (apart (by decide)), Dev.rd_wr_same, BitVec.toNat_ofNat]
  case secHi =>
    unfold Dev.latchDomain
    rw [Dev.fg_fs_reg _ _ _ _ _ _ _ _ (apart (by decide)), Dev.fg_fs_same _ _ _ _ _ (by decide)]
    rfl
  case ns => exact Dev.fg_fs_same _ _ _ _ _ (by decide)
  case frac =>
    unfold Dev.latchDomain
    rw [Dev.fg_fs_reg _ _ _ _ _ _ _ _ (apart (by decide)), Dev.fg_fs_apart _ F.dSnapShi_secHi F.dSnapShi_frac _ _ _ rfl (by decide),
      Dev.fg_fs_same _ _ _ _ _ (by decide)]
    rfl

/-- Latching a domain leaves the registers of another as they were. -/
theorem Dev.rd_latchDomain_other (d : Dev) {dom k : Nat} (r : Reg) (hdom : dom < 0x100) (hk : k < 0x100) (h : k ≠ dom) :
    (d.latchDomain dom).rd r uTime k = d.rd r uTime k := by
  have apart : ∀ r' : Reg, r.key uTime k ≠ r'.key uTime dom := fun r' => Reg.key_ne (by decide) hk hdom (.inr h)
  unfold Dev.latchDomain Dev.fs
  rw [Dev.rd_wr _ _ _ _ _ _ _ _ (apart _), Dev.rd_wr _ _ _ _ _ _ _ _ (apart _), Dev.rd_wr _ _ _ _ _ _ _ _ (apart _),
    Dev.rd_wr _ _ _ _ _ _ _ _ (apart _)]

/-! ### The whole snapshot (R484) -/

theorem Dev.snap_tm (d : Dev) : d.snap.tm = d.tm := by
  rw [Dev.snap_eq, Dev.set64_tm, Dev.latchDomain_tm, Dev.latchDomain_tm]

/-- The two domains' registers are apart, and the device time is latched into a pair apart from both. -/
theorem Dev.snap_shows (d : Dev) {dom : Nat} (hdom : dom < 2) : d.snap.Shows dom (d.tm.clock dom) := by
  have hboth : ((d.latchDomain 0).latchDomain 1).Shows dom (d.tm.clock dom) := by
    obtain rfl | rfl : dom = 0 ∨ dom = 1 := by omega
    · exact (d.latchDomain_shows (by decide)).of_rd fun r _ => Dev.rd_latchDomain_other _ r (by decide) (by decide) (by decide)
    · exact (d.latchDomain 0).latchDomain_shows (by decide)
  have hlo : ∀ r ∈ snapRegs, r ≠ .devSnapLo := by decide
  have hhi : ∀ r ∈ snapRegs, r ≠ .devSnapHi := by decide
  rw [Dev.snap_eq]
  exact hboth.of_rd fun r hr => Dev.rd_set64_other _ _ _ _ (Reg.key_ne (by decide) (by omega) (by decide) (.inl (hlo r hr)))
    (Reg.key_ne (by decide) (by omega) (by decide) (.inl (hhi r hr)))

theorem Dev.snap_devSnapLo (d : Dev) : (d.snap.rd .devSnapLo uTime).toNat = d.stamp % 2 ^ 32 := by
  rw [Dev.snap_eq, Dev.rd_set64_lo _ _ _ _ (by decide), BitVec.toNat_ofNat]

theorem Dev.snap_devSnapHi (d : Dev) : (d.snap.rd .devSnapHi uTime).toNat = d.stamp / 2 ^ 32 % 2 ^ 32 := by
  rw [Dev.snap_eq, Dev.rd_set64_hi, BitVec.toNat_ofNat]

/-! ### The write of TM_CTL (R500) -/

/-- A write of a register's fields moves no clock. -/
theorem Dev.putFields_tm (d : Dev) (r : Reg) (u k : Nat) (v : Word) : (d.putFields r u k v).tm = d.tm := by
  change ((d.putFields r u k v).without [.fab]).tm = (d.without [.fab]).tm
  rw [Dev.putFields_keep d r u k v rfl]

/-- Device time is the selected domain's clock and OFS (R485). -/
theorem Dev.stamp_of_tm {d e : Dev} (h : e.tm = d.tm) : e.stamp = d.stamp := by
  simp [Dev.stamp, Dev.devNs, h]

/-- SNAP without a switch latches after the register's own fields are written. -/
theorem Dev.effTmCtl_snap (d : Dev) (m : Nat) (v : Word) (hslew : getF v 15 0 ≤ 1000) (hswitch : getF v 30 30 = 0) :
    d.effTmCtl m (setF v 31 31 1) = (d.putFields .tmCtl uTime 0 (setF v 31 31 1)).snap := by
  have hsnap : getF (setF v 31 31 1) 31 31 = 1 := getF_setF_same v 31 31 1 (by decide)
  have hslew' : ¬ 1000 < getF (setF v 31 31 1) 15 0 := by
    rw [getF_setF_other v 31 31 1 15 0 (by decide)]
    exact Nat.not_lt.2 hslew
  have hswitch' : ¬ getF (setF v 31 31 1) 30 30 = 1 := by
    rw [getF_setF_other v 31 31 1 30 30 (by decide), hswitch]
    decide
  simp only [Dev.effTmCtl, if_neg hslew', if_neg hswitch', if_pos hsnap]

/-- Settles O53: the write reaches TM_CTL, whose fields hold no clock, and the snapshot that follows shows the clocks as they stand. -/
theorem snapLatchesOneTick : Obligations.SnapLatchesOneTick := by
  unfold Obligations.SnapLatchesOneTick
  intro d m v hm hopen hslew hswitch
  have hmakes : Makes (.tmSnap m v) d (d.tmCtlBy m (setF v 31 31 1)) :=
    makes_of_access (f := (·.tmCtlBy m (setF v 31 31 1))) hm (fun _ => rfl) d
  rw [Dev.tmCtlBy, Dev.gated_open _ _ _ _ _ _ _ hopen, d.effTmCtl_snap m v hslew hswitch] at hmakes
  have htm : (d.putFields .tmCtl uTime 0 (setF v 31 31 1)).tm = d.tm := d.putFields_tm _ _ _ _
  generalize d.putFields .tmCtl uTime 0 (setF v 31 31 1) = e at hmakes htm
  refine ⟨e.snap, hmakes, e.snap_tm.trans htm, fun k hk => ?domains, ?low, ?high⟩
  case domains =>
    have hshows := e.snap_shows hk
    rwa [htm] at hshows
  case low => exact e.snap_devSnapLo.trans (by rw [Dev.stamp_of_tm htm])
  case high => exact e.snap_devSnapHi.trans (by rw [Dev.stamp_of_tm htm])

end Sys2Proof.Machine
end

section
/-! Chapter 19: Bastu-T packets of another pair epoch (R505). -/
namespace Sys2Proof.Machine

/-- Neither the packet's CRC nor its content is looked at once its epoch is another (R505). -/
theorem Dev.twRx_otherEpoch {d : Dev} {epoch : Nat} (hepoch : epoch % 65536 ≠ d.pairEpoch) (crcOk : Bool) (f : Dev → Dev) :
    d.twRx epoch crcOk f = d.fadd F.twCnt_stale 1 uTwin := if_pos hepoch

/-- MIRROR has a receiver of its own, which also judges the epoch first (R505, R512). -/
theorem Dev.mirrorIn_otherEpoch {d : Dev} {epoch : Nat} (hepoch : epoch % 65536 ≠ d.pairEpoch) (crcOk : Bool) (mseq link : Nat)
    (inner : List (Nat × Inner)) : d.mirrorIn epoch crcOk mseq link inner = d.fadd F.twCnt_stale 1 uTwin := if_pos hepoch

/-- The packet types that pass `Dev.twRx` are one case: of another epoch, each makes the count alone. -/
theorem makes_stale_of_twRx {c : Instr} {d : Dev} {epoch : Nat} {crcOk : Bool} {f : Dev → Dev} (hepoch : epoch % 65536 ≠ d.pairEpoch)
    (hc : ∀ s, exec c s = s.onDev (·.twRx epoch crcOk f)) : Makes c d (d.fadd F.twCnt_stale 1 uTwin) := by
  have hmakes := makes_of_onDev hc d
  rwa [Dev.twRx_otherEpoch hepoch] at hmakes

theorem makes_mirror (d : Dev) (epoch : Nat) (crcOk : Bool) (mseq : Nat) (link : Fin 8) (inner : List (Nat × Inner)) :
    Makes (.mirror epoch crcOk mseq link inner) d (d.mirrorIn epoch crcOk mseq link inner) :=
  makes_of_onDev (f := (·.mirrorIn epoch crcOk mseq link inner)) (fun _ => rfl) d

/-- Settles O54: MIRROR's receiver and the one that the other four types share each judge the epoch before all else. -/
theorem stalePairEpochDiscarded : Obligations.StalePairEpochDiscarded := by
  unfold Obligations.StalePairEpochDiscarded
  intro d epoch crcOk hepoch
  refine ⟨fun mseq link inner => ?mirror, fun seg off bytes => ?state, fun bytes => ?stateAck,
    fun clip auseq rseq start bytes sha => ?clipsync, fun bytes => ?msg⟩
  case mirror =>
    have hmakes := makes_mirror d epoch crcOk mseq link inner
    rwa [Dev.mirrorIn_otherEpoch hepoch] at hmakes
  case state => exact makes_stale_of_twRx hepoch fun _ => rfl
  case stateAck => exact makes_stale_of_twRx hepoch fun _ => rfl
  case clipsync => exact makes_stale_of_twRx hepoch fun _ => rfl
  case msg => exact makes_stale_of_twRx hepoch fun _ => rfl

end Sys2Proof.Machine
end

section
/-! The step and the invariant of what survives RST_N (R175), the idle tick (R482, R483, log entry 6), and a command's blindness to what
waits behind it. -/
namespace Sys2Proof.Machine

/-! ### The step -/

/-- Settles O1: the step takes the front command off the queue and runs it. -/
theorem stepRunsFrontCommand : Obligations.StepRunsFrontCommand := by
  unfold Obligations.StepRunsFrontCommand
  exact fun _ _ => rfl

/-- The slew of device time moves neither domain's clock (R485). -/
theorem slewTick_clocks (slew : Nat) (t : TimeSt) : (slewTick slew t).c0 = t.c0 ∧ (slewTick slew t).c1 = t.c1 := by
  unfold slewTick
  split
  · exact ⟨rfl, rfl⟩
  · dsimp only
    split <;> exact ⟨rfl, rfl⟩

theorem Dev.tick_tm (d : Dev) :
    d.tick.tm = slewTick (d.fg F.tmCtl_slew uTime) { d.tm with c0 := d.tm.c0.tick, c1 := d.tm.c1.tick } := rfl

theorem Dev.tick_clocks (d : Dev) : d.tick.tm.c0 = d.tm.c0.tick ∧ d.tick.tm.c1 = d.tm.c1.tick :=
  d.tick_tm ▸ slewTick_clocks _ _

theorem step_of_idle {s : State} (h : s.pending = []) : step s = .next { s with dev := s.dev.tick } := by
  rw [step, h]

/-- Settles O2: the idle step is the clock's tick (the model's choice, log entry 6); the slew of device time, which follows in the same
tick (R483), moves neither domain's clock. -/
theorem idleStepTicks : Obligations.IdleStepTicks := by
  unfold Obligations.IdleStepTicks
  exact fun s hidle => ⟨step_of_idle hidle, rfl, s.dev.tick_clocks⟩

/-- Settles O3: at reset flash and the event NVM hold nothing, and each algorithm has its four slots. -/
theorem resetMeetsInvariant : Obligations.ResetMeetsInvariant := by
  unfold Obligations.ResetMeetsInvariant State.inv
  decide

/-- Settles O5: the growth of what survives RST_N, which every step keeps (R175), holds the order of the fuses. -/
theorem stepOnlyBlowsFuses : Obligations.StepOnlyBlowsFuses := by
  unfold Obligations.StepOnlyBlowsFuses
  exact fun s t hstep => (step_grows s t hstep).fuses

/-! ### What waits in the queue -/

/-- The same end with other commands waiting. -/
def withQueue (q : List Instr) : Host.Outcome State Fault Refusal → Host.Outcome State Fault Refusal
  | .next t => .next { t with pending := q }
  | .fault e => .fault e
  | .refused e => .refused e

/-- The command c never reads the queue. -/
def QueueBlind (c : Instr) : Prop :=
  ∀ (s : State) (q : List Instr), exec c { s with pending := q } = withQueue q (exec c s)

/-- A meaning that is a next state whose survivors and device never look at the queue. -/
theorem queueBlind_of_next {c : Instr} {f : State → Nv} {g : State → Dev} (hc : ∀ s, exec c s = .next { s with nv := f s, dev := g s })
    (hf : ∀ s q, f { s with pending := q } = f s) (hg : ∀ s q, g { s with pending := q } = g s) : QueueBlind c := by
  intro s q
  rw [hc, hc, hf, hg]
  rfl

/-- The check of the master's ID reads no queue either (R74). -/
theorem queueBlind_of_issued {c : Instr} {m : Nat} {f : Nv → Dev → Nv × Dev}
    (hc : ∀ s, exec c s = if issued m then s.onBoth f else .fault (.neverIssued m)) : QueueBlind c := by
  intro s q
  rw [hc, hc]
  split <;> rfl

theorem queueBlind_of_access {c : Instr} {m : Nat} {f : Dev → Dev} (hc : ∀ s, exec c s = s.access m f) : QueueBlind c :=
  queueBlind_of_issued (f := fun nv d => (nv, f d)) hc

/-- A command is a change of the device, or of the device and what survives RST_N, under a check of its master's ID where it is an
access. -/
theorem exec_queueBlind (c : Instr) : QueueBlind c := by
  cases c with
  | regWrite | bitAliasWrite | bootHostGo => exact queueBlind_of_issued fun _ => rfl
  | bar1Access m a wr n bytes se ue die =>
    exact queueBlind_of_issued (f := fun nv d => nvFlush 0 nv
      (if wr then (d.injectEcc se ue).bar1Write m a bytes else (d.injectEcc se ue).bar1Read m a n die)) fun _ => rfl
  | thSampleWrite m v raw =>
    exact queueBlind_of_issued (f := fun nv d => nvFlush 0 nv (d.gated m .thCtl uTherm 0 (v ||| BitVec.ofNat 32 (2 ^ 31))
      fun e => e.effThCtl m (v ||| BitVec.ofNat 32 (2 ^ 31)) raw)) fun _ => rfl
  | ucbWake | ucbDrain | ucbSleep | ucbOff | ucbReload | ucbPaceMinRead | ucbEventRead | actLevelSet | bankCeilWrite | bankReserveWrite
  | bankVoltReq | bankOvrRead | bankPeakRead | counter64LowRead | lockCtlGo | lockCtlGlobal | privVfWrite | holdScanRead
  | holdReleaseWrite | accLogRead | parLogRead | dbTailWrite | dbPush | dbStart | dbStop | dbReset | qfRead | qfCreate | qfDestroy
  | qfRetarget | qfStart | qfStop | qfReset | qfOpUnused | qfRoleRead | mbBootGo | quadCfgWrite | lnkMapWrite | lnCtlRetrain | lnCtlFull
  | lnkStatRead | lnCounterRead | camEnable | camDisable | dfStatRead | srcStatRead | camFlagsRead | pxCounterRead | clCounterRead
  | outCounterRead | psCounterRead | mqCqhWrite | mpCntRead | cvuCtlWrite | cvuCounterRead | rcMismRead | rgnRead | rgnWrite | rgnClear
  | rgnOpUnused | pcTrGo | pcCounterRead | scTimGo | scanCounterRead | auCntRead | dIncWrite | dSetGo | dAdjGo | tmSnap | tmSwitch
  | tmSwitchForce | timeCounterRead | twCntRead | chCntRead | ozEccRead => exact queueBlind_of_access fun _ => rfl
  | _ => exact queueBlind_of_next (fun _ => rfl) (fun _ _ => rfl) fun _ _ => rfl

/-- Settles O7: no command's meaning reads the queue. -/
theorem commandsIgnoreTheQueue : Obligations.CommandsIgnoreTheQueue := by
  unfold Obligations.CommandsIgnoreTheQueue
  intro c s q
  rw [exec_queueBlind c s q]
  cases exec c s <;> rfl

end Sys2Proof.Machine
end

section
/-! The events of the simulated block and of what lies around it (chapters 1 to 20): each takes its own effect. -/
namespace Sys2Proof.Machine

/-! ### Events that change the device alone -/

/-- Settles O21: each event's meaning is one change of the device, which its clause writes out; the governor's own read of PACE_MIN at
the end of its run rests on log entry 58. -/
theorem unitAndGovernorEvents : Obligations.UnitAndGovernorEvents := by
  unfold Obligations.UnitAndGovernorEvents
  and_intros <;> intros <;> exact fun _ _ => rfl

/-- Settles O22: each event's meaning is one change of the device, which its clause writes out. -/
theorem bankEvents : Obligations.BankEvents := by
  unfold Obligations.BankEvents
  and_intros <;> intros <;> exact fun _ _ => rfl

/-- Settles O24: each event's meaning is one change of the device, which its clause writes out. -/
theorem hostLinkAndLaneEvents : Obligations.HostLinkAndLaneEvents := by
  unfold Obligations.HostLinkAndLaneEvents
  and_intros <;> intros <;> exact fun _ _ => rfl

/-- Settles O26: each event's meaning is one change of the device, which its clause writes out; a packet's arrival and its effect are two
events by log entry 44. -/
theorem ingestEvents : Obligations.IngestEvents := by
  unfold Obligations.IngestEvents
  and_intros <;> intros <;> exact fun _ _ => rfl

/-- Settles O27: each event's meaning is one change of the device, which its clause writes out. -/
theorem pipelineEvents : Obligations.PipelineEvents := by
  unfold Obligations.PipelineEvents
  and_intros <;> intros <;> exact fun _ _ => rfl

/-- Settles O29: each event's meaning is one change of the device, which its clause writes out; that QRESET_DONE is only recorded, and
that the states M2 and M3 end a connection silently, rest on log entry 71. -/
theorem mediaEvents : Obligations.MediaEvents := by
  unfold Obligations.MediaEvents
  and_intros <;> intros <;> exact fun _ _ => rfl

/-- Settles O30: each event's meaning is one change of the device, which its clause writes out; the hot-plug pulse as two events rests on
log entry 75, MCLK_OK cleared on a stopped port too on log entry 73. -/
theorem scanAndAudioEvents : Obligations.ScanAndAudioEvents := by
  unfold Obligations.ScanAndAudioEvents
  and_intros <;> intros <;> exact fun _ _ => rfl

/-- Settles O31: each event's meaning is one change of the device, which its clause writes out. -/
theorem timeEvents : Obligations.TimeEvents := by
  unfold Obligations.TimeEvents
  and_intros <;> intros <;> exact fun _ _ => rfl

/-- Settles O32: each event's meaning is one change of the device, which its clause writes out; ATTACH_BASE_FREEZE's free transfer bytes
rest on log entry 39, its extra empty segment on log entry 76. -/
theorem twinEvents : Obligations.TwinEvents := by
  unfold Obligations.TwinEvents
  and_intros <;> intros <;> exact fun _ _ => rfl

/-- Settles O33: each event's meaning is one change of the device, which its clause writes out; the TOPO that goes out with every PROBE
rests on log entry 41. -/
theorem chainEvents : Obligations.ChainEvents := by
  unfold Obligations.ChainEvents
  and_intros <;> intros <;> exact fun _ _ => rfl

/-! ### Events of which some change what survives RST_N -/

/-- Settles O23: each event's meaning is one change of the device, or of the device and what survives RST_N, which its clause writes out.
-/
theorem startUpEvents : Obligations.StartUpEvents := by
  unfold Obligations.StartUpEvents
  refine ⟨?pwrGoodFall, ?rstNAssert, ?rstNRelease, ?hbmTrainDone, ?hbmSegmentLoad, ?serviceReady, ?updateRestartReset, ?debugNonceExpiry⟩
  case rstNAssert | debugNonceExpiry =>
    intros
    exact fun _ _ => rfl
  case pwrGoodFall | rstNRelease | hbmTrainDone | hbmSegmentLoad | serviceReady | updateRestartReset =>
    intros
    exact fun _ => rfl

/-- Settles O25: each event's meaning is one change of the device, or of the device and what survives RST_N, which its clause writes out;
that a refused reopening closes the mailbox, and its next epoch, rest on log entry 62. -/
theorem queueAndOzderEvents : Obligations.QueueAndOzderEvents := by
  unfold Obligations.QueueAndOzderEvents
  refine ⟨?queueDispatch, ?operationEnd, ?replyPostResume, ?tagWaitTimeout, ?queueResetDone, ?holdoffExpiry, ?ozLockstepMismatch,
    ?ozWatchdogExpiry, ?ozPairRejoin, ?ozSramEccError, ?mbBootReopenDone, ?mbUnknownService, ?longVerbComplete, ?mbUnknownVerb⟩
  case queueDispatch | operationEnd | replyPostResume | tagWaitTimeout | queueResetDone | holdoffExpiry | ozLockstepMismatch |
    ozWatchdogExpiry | ozPairRejoin | ozSramEccError | mbBootReopenDone | mbUnknownService | mbUnknownVerb =>
    intros
    exact fun _ _ => rfl
  case longVerbComplete =>
    intros
    exact fun _ => rfl

/-- Settles O28: each event's meaning is one change of the device, or of the device and what survives RST_N, which its clause writes out.
-/
theorem codecAndIntegrityEvents : Obligations.CodecAndIntegrityEvents := by
  unfold Obligations.CodecAndIntegrityEvents
  refine ⟨?lineCommit, ?chunkCode, ?srcVerdict, ?sliceMove, ?engineFail, ?codecStarvedTimeout, ?cvuCheck, ?cvuAlive, ?aliveTimeout⟩
  case lineCommit | chunkCode | srcVerdict | sliceMove | engineFail | codecStarvedTimeout | cvuAlive | aliveTimeout =>
    intros
    exact fun _ _ => rfl
  case cvuCheck =>
    intros
    exact fun _ => rfl

/-- Settles O34: each event's meaning is one change of the device, or of the device and what survives RST_N, which its clause writes out.
-/
theorem healthEvents : Obligations.HealthEvents := by
  unfold Obligations.HealthEvents
  refine ⟨?hbmScrubStep, ?hbmTempRead, ?thermSample, ?fastScheduleExit, ?riseBonusEnd, ?selftestDone, ?selftestRetest, ?rollTick,
    ?eventHandling, ?standbySelfRefreshReentry⟩
  case fastScheduleExit | riseBonusEnd | selftestRetest | rollTick | standbySelfRefreshReentry =>
    intros
    exact fun _ _ => rfl
  case hbmScrubStep | hbmTempRead | thermSample | selftestDone | eventHandling =>
    intros
    exact fun _ => rfl

end Sys2Proof.Machine
end

section
/-! What the commands of each group of chapters leave unchanged: every frame but that of chapters 7 and 8, whose clause of META fails. -/
namespace Sys2Proof.Machine

/-- A choice between two changes reaches what they reach. -/
theorem ite_keep {pts : List Part} {p : Prop} [Decidable p] {d a b : Dev} (ha : a.without pts = d.without pts)
    (hb : b.without pts = d.without pts) : (if p then a else b).without pts = d.without pts := by
  split <;> assumption

/-- A frame that names every part compares none. -/
theorem without_all (d e : Dev) : d.without Part.all = e.without Part.all := rfl

/-- A checking unit's operation reaches what its effect reaches, in each of its cases. -/
theorem Dev.cvuOp_keep {pts : List Part} (d : Dev) (n tag : Nat) (f : Dev → Op → Dev)
    (hf : ∀ o, (f d o).without pts = d.without pts) : (d.cvuOp n tag f).without pts = d.without pts := by
  unfold Dev.cvuOp
  split
  · exact ite_keep (hf _) rfl
  · rfl

/-! ### What each kind of meaning leaves of the frame

One lemma for each way a command's meaning is built: a change of the device, an access, a gated write, a verb, and those that also reach
what survives RST_N. -/

section
variable {c : Instr} {s : State} {pts : List Part}

theorem completes_of_onDev {e : Dev} (hc : exec c s = .next { s with dev := e }) (he : e.without pts = s.dev.without pts) :
    Completes c s pts := ⟨_, hc, rfl, rfl, he⟩

theorem completes_of_access {m : Nat} {f : Dev → Dev} (hc : exec c s = s.access m f) (hm : issued m = true)
    (hf : (f s.dev).without pts = s.dev.without pts) : Completes c s pts :=
  completes_of_onDev (hc.trans (s.access_eq m f hm)) hf

theorem completes_of_readClear {m : Nat} {r : Reg} {u k : Nat} {fs : List Fld} (hc : exec c s = s.access m (·.readClear m r u k fs))
    (hm : issued m = true) : Completes c s [.fab] :=
  completes_of_access hc hm (Dev.readClear_keep _ m r u k fs rfl)

/-- A write behind its window's gate reaches what its effect reaches, and what a refusal's answer reaches. -/
theorem completes_of_gated {m : Nat} {r : Reg} {u k : Nat} {v : Word} {eff : Dev → Dev}
    (hc : exec c s = s.access m (·.gated m r u k v eff)) (hm : issued m = true) (heff : ∀ e, (eff e).without pts = e.without pts)
    (hp : ∀ p ∈ Part.answer, pts.contains p = true := by decide) : Completes c s pts :=
  completes_of_access hc hm (Dev.gated_keep _ m r u k v eff (hp .fab (by decide)) (hp .qf (by decide)) (hp .hbm (by decide))
    (hp .host (by decide)) heff)

/-- A verb reaches what its body reaches, and what its reply reaches. -/
theorem completes_of_verb {r : Req} {svc verb : Nat} {priv : Bool} {body : Dev → VRes Dev}
    (hc : exec c s = .next { s with dev := s.dev.verb r svc verb priv body }) (hb : ∀ e, VKeeps pts e (body e))
    (hp : ∀ p ∈ Part.answerAnd [.tw], pts.contains p = true := by decide) : Completes c s pts :=
  completes_of_onDev hc (Dev.verb_keep _ r svc verb priv body (hp .fab (by decide)) (hp .qf (by decide)) (hp .hbm (by decide))
    (hp .host (by decide)) (hp .tw (by decide)) hb)

/-- Fuses only blow in every command. -/
theorem stores_of_onBoth {p : Nv × Dev} (hc : exec c s = .next { s with nv := p.1, dev := p.2 })
    (hp : p.2.without pts = s.dev.without pts) : Stores c s pts :=
  ⟨_, hc, rfl, (exec_grows c s _ hc).fuses, hp⟩

theorem stores_of_issued {m : Nat} {p : Nv × Dev}
    (hc : exec c s = if issued m then .next { s with nv := p.1, dev := p.2 } else .fault (.neverIssued m)) (hm : issued m = true)
    (hp : p.2.without pts = s.dev.without pts) : Stores c s pts :=
  stores_of_onBoth (hc.trans (if_pos hm)) hp

/-- The write of the event NVM at the end reaches chapter 6's state alone. -/
theorem stores_of_onNvm {fails : Nat} {e : Dev}
    (hc : exec c s = .next { s with nv := (nvFlush fails s.nv e).1, dev := (nvFlush fails s.nv e).2 })
    (he : e.without pts = s.dev.without pts) (hboot : pts.contains .boot = true := by decide) : Stores c s pts :=
  stores_of_onBoth hc ((nvFlush_keep fails s.nv e hboot).trans he)

theorem stores_of_verbNv {r : Req} {svc verb : Nat} {priv : Bool} {body : Nv → Dev → VRes (Nv × Dev)}
    (hc : exec c s = s.onBoth (verbNv · · r svc verb priv body)) (hb : NKeeps pts s.dev (body s.nv s.dev))
    (hp : ∀ p ∈ Part.answerAnd [.tw], pts.contains p = true := by decide) : Stores c s pts :=
  stores_of_onBoth hc (verbNv_keep s.nv s.dev r svc verb priv body (hp .fab (by decide)) (hp .qf (by decide)) (hp .hbm (by decide))
    (hp .host (by decide)) (hp .tw (by decide)) hb)

theorem stores_of_upd {r : Req} {verb : Nat} {body : Nv → Dev → VRes (Nv × Dev)} (hc : exec c s = upd r verb body s)
    (hb : NKeeps pts s.dev (body s.nv s.dev)) (hp : ∀ p ∈ Part.answerAnd [.tw], pts.contains p = true := by decide) :
    Stores c s pts :=
  stores_of_verbNv hc (upd_guard_keep _ _ _ hb) hp

/-- HEALTH's verbs write the event NVM at their end. -/
theorem stores_of_vHealth {r : Req} {verb : Nat} {priv : Bool} {body : Dev → VRes Dev}
    (hc : exec c s = vHealth r verb priv body s) (hb : ∀ e, VKeeps pts e (body e))
    (hp : ∀ p ∈ Part.answerAnd [.boot, .tw], pts.contains p = true := by decide) : Stores c s pts :=
  stores_of_onNvm hc (Dev.verb_keep _ r 0x0E verb priv body (hp .fab (by decide)) (hp .qf (by decide)) (hp .hbm (by decide))
    (hp .host (by decide)) (hp .tw (by decide)) hb) (hp .boot (by decide))

end

/-! ### Chapters 1 to 3, 6, 14 and 15 -/

/-- Settles O35: each command is one change of the device, behind the check of its master, its window's gate or the write of the event
NVM where it has one; that change's own law says which parts it may reach, and what survives RST_N only grows. -/
theorem coreFrames : Obligations.CoreFrames := by
  unfold Obligations.CoreFrames
  refine ⟨?ucbWake, ?ucbDrain, ?ucbSleep, ?ucbOff, ?ucbReload, ?domainPowerGood, ?reloadComplete, ?drainComplete, ?domainPowerLost,
    ?paceWindow, ?paceOkTimeout, ?bandRiseDeferred, ?governorRun, ?ucbPaceMinRead, ?ucbEventRead, ?actLevelSet, ?bankDecide, ?pipRelease,
    ?bankCeilWrite, ?bankReserveWrite, ?bankVoltReq, ?c0GrantLateTimeout, ?grantWaitTimeout, ?currentMonitorWindow, ?overdraw,
    ?overdrawOff, ?forceShedTimeout, ?peerValidLost, ?bankOvrRead, ?bankPeakRead, ?pwrGoodFall, ?rstNAssert, ?rstNRelease, ?pmbAlert,
    ?regWrite, ?heldOpsClosed, ?bitAliasWrite, ?counter64LowRead, ?lockCtlGo, ?lockCtlGlobal, ?privVfWrite, ?holdScanRead,
    ?holdReleaseWrite, ?accLogRead, ?parLogRead, ?scrubVisit, ?bar1Access, ?bootHostGo, ?hbmTrainDone, ?hbmSegmentLoad,
    ?updateRestartReset, ?debugNonceExpiry, ?lineCommit, ?cvuCheck, ?cvuAlive, ?aliveTimeout, ?cvuCtlWrite, ?cvuCounterRead, ?rcMismRead,
    ?rgnRead, ?rgnWrite, ?rgnClear, ?rgnOpUnused, ?pcTrGo, ?hbmScrubStep, ?hbmTempRead, ?pcCounterRead, ?standbySelfRefreshReentry⟩
  all_goals intros
  case ucbWake | ucbDrain | ucbSleep | ucbOff | ucbReload =>
    exact completes_of_access rfl ‹_› (Dev.ucbCmdBy_keep _ _ _ _ rfl rfl rfl rfl rfl)
  case domainPowerGood => exact completes_of_onDev rfl (Dev.powerGood_keep _ _ rfl)
  case reloadComplete => exact completes_of_onDev rfl (Dev.reloadDone_keep _ _ _ rfl rfl)
  case drainComplete => exact completes_of_onDev rfl ((Dev.testReady_keep _ _ rfl rfl).trans (Dev.drained_keep _ _ rfl))
  case domainPowerLost => exact completes_of_onDev rfl (Dev.domainLost_keep _ _ rfl rfl)
  case paceWindow => exact completes_of_onDev rfl (Dev.paceWindow_keep _ _ _)
  case paceOkTimeout => exact completes_of_onDev rfl (ite_keep ((Dev.raise_keep _ _).trans (upd_bank_keep _ _ rfl)) rfl)
  case bandRiseDeferred =>
    exact completes_of_onDev rfl (by
      dsimp only
      split
      · exact Dev.bandSwitch_keep _ _ _ rfl
      · rfl)
  case governorRun => exact completes_of_onDev rfl (Dev.governorRun_keep _ rfl)
  case ucbPaceMinRead => exact completes_of_access rfl ‹_› (Dev.readPaceMin_keep _ _ _ rfl)
  case ucbEventRead | bankOvrRead | bankPeakRead | accLogRead | parLogRead => exact completes_of_readClear rfl ‹_›
  case actLevelSet =>
    exact completes_of_access rfl ‹_› (by
      split
      · exact Dev.unlessHeld_keep _ _ _ rfl fun e => Dev.unmapped_keep e _ _
      · exact Dev.gated_keep _ _ _ _ _ _ _ rfl rfl rfl rfl fun e => Dev.setLevel_keep e _ _ rfl)
  case bankDecide => exact completes_of_onDev rfl (Dev.decide60_keep _ rfl)
  case pipRelease =>
    exact completes_of_onDev rfl (by
      dsimp only
      split
      · exact upd_bank_keep _ _ rfl
      · rfl)
  case bankCeilWrite => exact completes_of_gated rfl ‹_› fun _ => Dev.effBankCeil_keep _ _ _ rfl
  case bankReserveWrite => exact completes_of_gated rfl ‹_› fun _ => Dev.effBankReserve_keep _ _ _ rfl
  case bankVoltReq => exact completes_of_gated rfl ‹_› fun _ => Dev.effBankVolt_keep _ _ _ rfl rfl
  case c0GrantLateTimeout | grantWaitTimeout => exact completes_of_onDev rfl (Dev.grantLate_keep _ _ _ rfl)
  case currentMonitorWindow =>
    exact completes_of_onDev rfl ((Dev.fs_keep _ _ _ _ _).trans (foldl_keep _ _ _ fun e _ => Dev.domWindow_keep e _ _ rfl))
  case overdraw => exact completes_of_onDev rfl (Dev.overdraw_keep _ _ rfl rfl rfl)
  case overdrawOff => exact completes_of_onDev rfl (Dev.overdrawOff_keep _ _ rfl rfl)
  case forceShedTimeout => exact completes_of_onDev rfl (ite_keep (Dev.forceShed_keep _ rfl) rfl)
  case peerValidLost => exact completes_of_onDev rfl (Dev.setPeerValid_keep _ _)
  case pwrGoodFall => exact stores_of_onBoth rfl (pwrGoodFall_keep _ _ _ rfl rfl rfl rfl)
  case rstNAssert => exact completes_of_onDev rfl (without_all _ _)
  case rstNRelease | updateRestartReset => exact stores_of_onBoth rfl (without_all _ _)
  case pmbAlert => exact completes_of_onDev rfl (Dev.raise_keep _ _)
  case regWrite | bitAliasWrite => exact stores_of_issued rfl ‹_› (without_all _ _)
  case heldOpsClosed => exact completes_of_onDev rfl (Dev.heldOpsClosed_keep _ _ _ rfl rfl rfl)
  case counter64LowRead => exact completes_of_access rfl ‹_› (Dev.readLow64_keep _ _ _ rfl)
  case lockCtlGo | lockCtlGlobal => exact completes_of_gated rfl ‹_› fun _ => Dev.effLockCtl_keep _ _ rfl
  case privVfWrite => exact completes_of_gated rfl ‹_› fun _ => Dev.effPrivVf_keep _ _ _ _ rfl
  case holdScanRead => exact completes_of_access rfl ‹_› (Dev.readHoldScan_keep _ rfl)
  case holdReleaseWrite => exact completes_of_gated rfl ‹_› fun _ => Dev.effHoldRelease_keep _ _ rfl
  case scrubVisit => exact completes_of_onDev rfl (Dev.scrub_keep _ _ _ rfl rfl)
  case bar1Access =>
    exact stores_of_issued (p := nvFlush 0 _ _) rfl ‹_› ((nvFlush_keep 0 _ _ rfl).trans
      (ite_keep ((Dev.bar1Write_keep _ _ _ _ rfl rfl rfl rfl rfl).trans (Dev.injectEcc_keep _ _ _ rfl))
        ((Dev.bar1Read_keep _ _ _ _ _ rfl rfl rfl).trans (Dev.injectEcc_keep _ _ _ rfl))))
  case bootHostGo => exact stores_of_issued rfl ‹_› (bootHostGo_keep _ _ _ _ _ rfl rfl rfl rfl rfl rfl)
  case hbmTrainDone => exact stores_of_onNvm rfl (Dev.trained_keep _ _ _ _ _ rfl rfl)
  case hbmSegmentLoad => exact stores_of_onBoth rfl ((nvFlush_keep 0 _ _ rfl).trans (loadSegments_keep _ _ _ rfl rfl rfl rfl))
  case debugNonceExpiry => exact completes_of_onDev rfl (upd_boot_keep _ _ rfl)
  case lineCommit => exact completes_of_onDev rfl (Dev.commitLine_keep _ _ rfl rfl)
  case cvuCheck => exact stores_of_onNvm rfl (Dev.cvuOp_keep _ _ _ _ fun _ => Dev.cvuCheck_keep _ _ _ _ rfl rfl rfl rfl rfl)
  case cvuAlive => exact completes_of_onDev rfl (Dev.cvuOp_keep _ _ _ _ fun _ => Dev.cvuAlive_keep _ _ _ rfl rfl rfl rfl)
  case aliveTimeout =>
    exact completes_of_onDev rfl (ite_keep ((Dev.cvuEv_keep _ _ _ _ _ _).trans ((Dev.fadd_keep _ _ _ _ _).trans
      (upd_integ_keep _ _ rfl))) rfl)
  case cvuCtlWrite => exact completes_of_gated rfl ‹_› fun _ => Dev.effCvuCtl_keep _ _ _ _ rfl rfl
  case cvuCounterRead | rcMismRead | pcCounterRead =>
    exact completes_of_access rfl ‹_› (ite_keep (Dev.readClear_keep _ _ _ _ _ _ rfl) (Dev.readClear_keep _ _ _ _ _ _ rfl))
  case rgnRead | rgnWrite | rgnClear | rgnOpUnused => exact completes_of_access rfl ‹_› (Dev.rgnGo_keep _ _ _ _ rfl rfl rfl rfl)
  case pcTrGo => exact completes_of_gated rfl ‹_› fun _ => Dev.effPcTr_keep _ _ _ _ rfl
  case hbmScrubStep => exact stores_of_onNvm rfl (Dev.hbmScrub_keep _ _ _ _ rfl rfl)
  case hbmTempRead => exact stores_of_onNvm rfl (Dev.stackTemp_keep _ _ _ rfl rfl rfl rfl rfl rfl)
  case standbySelfRefreshReentry => exact completes_of_onDev rfl (ite_keep ((Dev.fs_keep _ _ _ _ _).trans (upd_hbm_keep _ _ rfl)) rfl)

/-! ### Chapters 4 and 5, and the services SYS, LOG, UPDATE and ATTEST -/

/-- Settles O36: a service's verb reaches what its body reaches and what the reply reaches; every other command is one change of the
device, whose own law says which parts it may reach. -/
theorem queueAndOzderFrames : Obligations.QueueAndOzderFrames := by
  unfold Obligations.QueueAndOzderFrames
  refine ⟨?paceLowTimeout, ?dbTailWrite, ?dbPush, ?dbStart, ?dbStop, ?dbReset, ?queueDispatch, ?operationEnd, ?replyPostResume,
    ?tagWaitTimeout, ?holdoffExpiry, ?qfRead, ?qfCreate, ?qfDestroy, ?qfRetarget, ?qfStart, ?qfStop, ?qfReset, ?qfOpUnused, ?qfRoleRead,
    ?ozLockstepMismatch, ?ozWatchdogExpiry, ?ozPairRejoin, ?ozSramEccError, ?mbBootGo, ?mbBootReopenDone, ?mbUnknownService,
    ?longVerbComplete, ?sysInfo, ?sysOpen, ?sysClose, ?sysQueueCreate, ?sysQueueDestroy, ?sysPrivSet, ?sysBankSet, ?sysHoldList,
    ?sysHoldRelease, ?sysUnitQuery, ?sysUnitCmd, ?sysJobStatus, ?sysPing, ?logInfo, ?logSubscribe, ?logUnsubscribe, ?logRead,
    ?logNvmRead, ?logMark, ?logStats, ?serviceReady, ?updateInfo, ?updateBegin, ?updateWrite, ?updateVerify, ?updateActivate,
    ?updateConfirm, ?updateAbort, ?updateRestart, ?updateSvnAdvance, ?updateKeyAdd, ?updateRevoke, ?attestInfo, ?attestReport,
    ?attestCert, ?attestDebugChallenge, ?attestDebugUnlock, ?bastuPacketRx, ?ozEccRead, ?mbUnknownVerb⟩
  all_goals intros
  case paceLowTimeout => exact completes_of_onDev rfl (Dev.paceLow_keep _ _ rfl rfl rfl rfl)
  case dbTailWrite => exact completes_of_access rfl ‹_› (Dev.dbTail_keep _ _ _ _ _ _ _ rfl rfl rfl rfl)
  case dbPush => exact completes_of_access rfl ‹_› (Dev.push_keep _ _ _ _ _ rfl rfl rfl rfl)
  case dbStart => exact completes_of_access rfl ‹_› (Dev.submit_keep _ _ _ _ rfl rfl rfl rfl fun e => Dev.startQ_keep e _ rfl)
  case dbStop => exact completes_of_access rfl ‹_› (Dev.submit_keep _ _ _ _ rfl rfl rfl rfl fun e => Dev.stopQ_keep e _ rfl)
  case dbReset => exact completes_of_access rfl ‹_› (Dev.submit_keep _ _ _ _ rfl rfl rfl rfl fun e => Dev.resetQ_keep e _ _ rfl)
  case queueDispatch => exact completes_of_onDev rfl (Dev.queueDispatch_keep _ rfl rfl rfl rfl rfl rfl)
  case operationEnd => exact completes_of_onDev rfl (Dev.endOp_keep _ _ _ _ rfl rfl rfl)
  case replyPostResume => exact completes_of_onDev rfl (Dev.consume_keep _ _ _ rfl rfl rfl)
  case tagWaitTimeout => exact completes_of_onDev rfl (ite_keep (Dev.raise_keep _ _) rfl)
  case holdoffExpiry =>
    exact completes_of_onDev rfl (by
      dsimp only
      split
      · rfl
      · exact ite_keep (ite_keep (upd_qf_keep _ _ rfl) (upd_qf_keep _ _ rfl)) (upd_qf_keep _ _ rfl))
  case qfRead | qfCreate | qfDestroy | qfRetarget | qfStart | qfStop | qfReset | qfOpUnused =>
    exact completes_of_access rfl ‹_› (Dev.qfGo_keep _ _ _ _ rfl rfl rfl rfl)
  case qfRoleRead | ozEccRead => exact completes_of_readClear rfl ‹_›
  case ozLockstepMismatch | ozWatchdogExpiry => exact completes_of_onDev rfl (Dev.pairFault_keep _ _)
  case ozPairRejoin => exact completes_of_onDev rfl (Dev.pairRejoin_keep _ _)
  case ozSramEccError => exact completes_of_onDev rfl (Dev.sramEcc_keep _ _ _)
  case mbBootGo => exact completes_of_gated rfl ‹_› fun _ => Dev.effMbBootCtl_keep _ _ _ rfl rfl
  case mbBootReopenDone => exact completes_of_onDev rfl (Dev.bootReopened_keep _ _ rfl rfl rfl)
  case mbUnknownService | mbUnknownVerb => exact completes_of_onDev rfl (Dev.badVerb_keep _ _ _ _ _ _ rfl rfl rfl rfl)
  case longVerbComplete => exact completes_of_onDev rfl (Dev.completeJob_keep _ _ _ rfl rfl rfl rfl rfl rfl rfl rfl rfl rfl)
  case sysInfo | sysHoldList | sysJobStatus | sysPing | logInfo | logStats => exact completes_of_verb rfl fun _ => rfl
  case sysOpen => exact completes_of_verb rfl fun _ => Dev.sysOpen_keep _ _ rfl
  case sysClose => exact completes_of_verb rfl fun _ => Dev.sysClose_keep _ _
  case sysQueueCreate => exact completes_of_verb rfl fun _ => Dev.sysQueueCreate_keep _ _ rfl
  case sysQueueDestroy => exact completes_of_verb rfl fun _ => Dev.sysQueueDestroy_keep _ _ rfl
  case sysPrivSet => exact completes_of_onDev rfl (Dev.verbD_keep _ _ _ _ _ _ rfl rfl rfl rfl rfl fun _ => Dev.sysPrivSet_keep _ _ rfl)
  case sysBankSet => exact completes_of_verb rfl fun _ => Dev.sysBankSet_keep _ _ rfl rfl rfl rfl
  case sysHoldRelease => exact completes_of_verb rfl fun _ => Dev.sysHoldRelease_keep _ _ rfl
  case sysUnitQuery => exact completes_of_verb rfl fun _ => Dev.sysUnitQuery_keep _ _
  case sysUnitCmd => exact completes_of_verb rfl fun _ => Dev.sysUnitCmd_keep _ _ rfl rfl
  case logSubscribe => exact completes_of_verb rfl fun _ => Dev.logSubscribe_keep _ _
  case logUnsubscribe => exact completes_of_verb rfl fun _ => Dev.setSubs_keep _ _ _
  case logRead => exact completes_of_verb rfl fun _ => Dev.logRead_keep _ _
  case logNvmRead => exact stores_of_verbNv rfl (logNvmRead_keep _ _ _)
  case logMark => exact completes_of_verb rfl fun _ => Dev.logMark_keep _ _ rfl rfl rfl
  case serviceReady => exact completes_of_onDev rfl (serviceReady_keep _ _ _ rfl rfl rfl rfl rfl rfl rfl rfl rfl rfl)
  case updateInfo | attestInfo => exact stores_of_verbNv rfl rfl
  case updateBegin => exact stores_of_upd rfl (updBegin_keep _ _ _ rfl)
  case updateWrite => exact stores_of_upd rfl (updWrite_keep _ _ _ rfl)
  case updateVerify => exact stores_of_upd rfl (updVerify_keep _ _ _ rfl)
  case updateActivate => exact stores_of_upd rfl (updActivate_keep _ _ _ rfl)
  case updateConfirm => exact stores_of_upd rfl (updConfirm_keep _ _)
  case updateAbort => exact stores_of_upd rfl (updAbort_keep _ _ _ rfl)
  case updateRestart => exact stores_of_upd rfl (updRestart_keep _ _ _ rfl)
  case updateSvnAdvance => exact stores_of_upd rfl (updSvn_keep _ _ _)
  case updateKeyAdd => exact stores_of_upd rfl (updKeyAdd_keep _ _ _)
  case updateRevoke => exact stores_of_upd rfl (updRevoke_keep _ _ _)
  case attestReport => exact stores_of_verbNv rfl (attReport_keep _ _ _)
  case attestCert => exact stores_of_verbNv rfl (nk_ite _ _ rfl)
  case attestDebugChallenge => exact stores_of_verbNv rfl (attChallenge_keep _ _ _ rfl rfl)
  case attestDebugUnlock => exact stores_of_verbNv rfl (attUnlock_keep _ _ _ rfl)
  case bastuPacketRx =>
    exact completes_of_onDev rfl (ite_keep rfl (ite_keep (Dev.delivered_keep _ _ _ rfl rfl) (Dev.headerErr_keep _ _ rfl)))

/-! ### Chapters 7 and 8: META leaves its mark on INGEST (R223) -/

/-- What a frame says of a command whose next device is known. -/
theorem Makes.without_eq {c : Instr} {d e : Dev} {pts : List Part} (hmakes : Makes c d e) (h : ∀ s, Completes c s pts) :
    e.without pts = d.without pts := by
  obtain ⟨t, ht, -, -, hdev⟩ := h { nv := State.reset.nv, dev := d, pending := [] }
  obtain rfl := Host.Outcome.next.inj ((hmakes _ _).symm.trans ht)
  exact hdev

theorem makes_metaPkt (d : Dev) (link : Fin 8) (src : Fin 16) (crcOk : Bool) (typ : Nat) (bytes : List Byte) :
    Makes (.metaPkt link src crcOk typ bytes) d (d.upPacket ⟨link, src⟩ crcOk (·.metaIn ⟨link, src⟩ typ bytes)) := fun _ _ => rfl

/-- A deframer at work discards a packet of a source that is not enabled. -/
theorem Dev.upPacket_disabled {d : Dev} {x : SrcId} (hen : d.fb F.dfCtl_en (uDeframer x.link) = true)
    (hwork : d.accepts (uDeframer x.link) = true) (hsrc : d.srcEn x = false) (crcOk : Bool) (f : Dev → Dev) :
    d.upPacket x crcOk f = d.ptErr x.link true := by
  simp [Dev.upPacket, hen, hwork, hsrc]

/-- The device after reset but for deframer 0, which is READY and enabled; no source is enabled. -/
def deframing : Dev := (Dev.reset.fs F.ucbState_state stReady (uDeframer 0)).fs F.dfCtl_en 1 (uDeframer 0)

theorem makes_meta_deframing : Makes (.metaPkt 0 0 true 0 []) deframing (deframing.ptErr 0 true) := by
  have hmakes := makes_metaPkt deframing 0 0 true 0 []
  rwa [Dev.upPacket_disabled (by decide) (by decide) (by decide)] at hmakes

/-- The discarded packet's time is kept in INGEST's state, for the limit on its events. -/
theorem deframing_ptErr_errAt : (deframing.ptErr 0 true).ing.errAt ≠ deframing.ing.errAt := by decide

/-- Refutes O37: its clause of META names no part, yet META of a source that is not enabled, at a deframer that is, is a packet
discarded for its source, whose time stays in INGEST's state (R223, R244). -/
theorem not_laneAndIngestFrames : ¬ Obligations.LaneAndIngestFrames := by
  unfold Obligations.LaneAndIngestFrames
  intro h
  obtain ⟨-, -, -, -, -, -, -, -, -, -, -, -, -, -, -, -, -, -, -, -, -, -, -, -, -, hmeta, -⟩ := h
  have hframe := makes_meta_deframing.without_eq fun s => hmeta s 0 0 true 0 []
  exact deframing_ptErr_errAt (congrArg (·.ing.errAt) hframe)

/-! ### Chapters 9 to 12 -/

/-- Settles O38: the verbs run a body behind the gate of requests, most on one camera; the events and reads are one change of the device
each. The body's or the change's own law says which parts it may reach. -/
theorem pipelineFrames : Obligations.PipelineFrames := by
  unfold Obligations.PipelineFrames
  refine ⟨?stripeStart, ?stripeEnd, ?tileTableUe, ?pxCounterRead, ?pipeInfo, ?pipeSensorSet, ?pipeMosaicSet, ?pipeDefectLoad,
    ?pipeFlatLoad, ?pipeSpectralLoad, ?pipeMatrixLoad, ?pipeIrSet, ?pipeCommit, ?pipeDiscard, ?pipeTableInfo, ?pipeTileStats,
    ?autoControlRun, ?autoLimitTimeout, ?lutSlotUe, ?clCounterRead, ?colourInfo, ?colourOtSet, ?colourShaperLoad, ?colourLutLoad,
    ?colourTnrSet, ?colourStatSet, ?colourFrameSet, ?colourAutoSet, ?colourStats, ?colourQuery, ?colourTileStats, ?stripeJobDispatch,
    ?tileFail, ?compatSlotWait, ?streamFrameDone, ?alignDeadline, ?pointCVerdict, ?outCounterRead, ?outInfo, ?outCameraAlloc,
    ?outCameraFree, ?outPoolSet, ?outStreamSet, ?outStreamStart, ?outStreamStop, ?outCoefLoad, ?outAlignSet, ?outAlignJoin,
    ?outCompatSet, ?outRotate, ?outStreamInfo, ?outStats, ?chunkCode, ?srcVerdict, ?sliceMove, ?engineFail, ?codecStarvedTimeout,
    ?psCounterRead, ?codecInfo, ?codecStreamSet, ?codecStreamStart, ?codecStreamStop, ?codecStreamInfo, ?codecDecode, ?codecCtxSave,
    ?codecCtxLoad, ?codecMove, ?codecKey, ?codecEngineStats⟩
  all_goals intros
  case stripeStart => exact completes_of_onDev rfl (Dev.stripeStart_keep _ _ rfl rfl rfl rfl rfl rfl)
  case stripeEnd => exact completes_of_onDev rfl (Dev.stripeEnd_keep _ _ rfl rfl rfl rfl rfl)
  case tileTableUe =>
    exact completes_of_onDev rfl ((Dev.drainTile_keep _ _ _ rfl).trans ((Dev.failTile_keep _ _ rfl rfl rfl).trans
      (ite_keep ((Dev.raise_keep _ _).trans (Dev.fadd_keep _ _ _ _ _)) ((Dev.raise_keep _ _).trans (Dev.fadd_keep _ _ _ _ _)))))
  case pxCounterRead | clCounterRead | outCounterRead =>
    exact completes_of_access rfl ‹_› (by split <;> exact Dev.readClear_keep _ _ _ _ _ _ rfl)
  case pipeInfo | colourInfo | outInfo | codecInfo => exact completes_of_verb rfl fun _ => rfl
  case pipeSensorSet => exact completes_of_verb rfl fun _ => Dev.onCam_keep _ _ _ fun _ => Dev.pipeSensorSet_keep _ _ _ rfl
  case pipeMosaicSet => exact completes_of_verb rfl fun _ => Dev.onCam_keep _ _ _ fun _ => Dev.pipeMosaicSet_keep _ _ _ rfl
  case pipeDefectLoad => exact completes_of_verb rfl fun _ => Dev.onCam_keep _ _ _ fun _ => Dev.pipeDefectLoad_keep _ _ _ rfl
  case pipeFlatLoad => exact completes_of_verb rfl fun _ => Dev.onCam_keep _ _ _ fun _ => Dev.pipeFlatLoad_keep _ _ _ rfl
  case pipeSpectralLoad => exact completes_of_verb rfl fun _ => Dev.onCam_keep _ _ _ fun _ => Dev.pipeSpectralLoad_keep _ _ _ rfl
  case pipeMatrixLoad => exact completes_of_verb rfl fun _ => Dev.onCam_keep _ _ _ fun _ => Dev.pipeMatrixLoad_keep _ _ _ rfl
  case pipeIrSet => exact completes_of_verb rfl fun _ => Dev.onCam_keep _ _ _ fun _ => Dev.pipeIrSet_keep _ _ _ rfl
  case pipeCommit => exact completes_of_verb rfl fun _ => Dev.onCam_keep _ _ _ fun _ => Dev.pipeCommit_keep _ _ rfl
  case pipeDiscard =>
    exact completes_of_verb rfl fun _ => Dev.onCam_keep _ _ _ fun _ => (Dev.fs_keep _ _ _ _ _).trans (Dev.setPcam_keep _ _ _ rfl)
  case pipeTableInfo => exact completes_of_verb rfl fun _ => Dev.onCam_keep _ _ _ fun _ => rfl
  case pipeTileStats | colourTileStats => exact completes_of_verb rfl fun _ => Dev.tileStats_keep _ _ _ _
  case autoControlRun => exact completes_of_onDev rfl (Dev.autoRun_keep _ _ _ rfl)
  case autoLimitTimeout => exact completes_of_onDev rfl (ite_keep (Dev.raise_keep _ _) rfl)
  case lutSlotUe =>
    exact completes_of_onDev rfl ((foldl_keep _ _ _ fun e _ => by
      split
      · exact ite_keep (Dev.failTile_keep e _ rfl rfl rfl) rfl
      · rfl).trans ((Dev.raise_keep _ _).trans (Dev.fadd_keep _ _ _ _ _)))
  case colourOtSet => exact completes_of_verb rfl fun _ => Dev.onCam_keep _ _ _ fun _ => Dev.colourOtSet_keep _ _ _ rfl
  case colourShaperLoad => exact completes_of_verb rfl fun _ => Dev.onCam_keep _ _ _ fun _ => Dev.colourShaperLoad_keep _ _ _ rfl
  case colourLutLoad => exact completes_of_verb rfl fun _ => Dev.onCam_keep _ _ _ fun _ => Dev.colourLutLoad_keep _ _ _ rfl
  case colourTnrSet => exact completes_of_verb rfl fun _ => Dev.onCam_keep _ _ _ fun _ => Dev.colourTnrSet_keep _ _ _ rfl rfl
  case colourStatSet =>
    exact completes_of_verb rfl fun _ => Dev.onCam_keep _ _ _ fun _ => vk_ite _ _ (vk_ite _ _ (Dev.setPend_keep _ _ _ rfl))
  case colourFrameSet => exact completes_of_verb rfl fun _ => Dev.onCam_keep _ _ _ fun _ => Dev.colourFrameSet_keep _ _ _ rfl
  case colourAutoSet =>
    exact completes_of_verb rfl fun _ => Dev.onCam_keep _ _ _ fun _ =>
      vk_ite _ _ (vk_ite _ _ (vk_ite _ _ (vk_ite _ _ (Dev.setPcam_keep _ _ _ rfl))))
  case colourStats =>
    exact completes_of_verb rfl fun _ => camOnly_keep _ _ _ fun _ => by
      split
      · trivial
      · split <;> trivial
  case colourQuery => exact completes_of_verb rfl fun _ => camOnly_keep _ _ _ fun _ => rfl
  case stripeJobDispatch => exact completes_of_onDev rfl (Dev.dispatchJob_keep _ _ rfl rfl)
  case tileFail => exact completes_of_onDev rfl (Dev.failTile_keep _ _ rfl rfl rfl)
  case compatSlotWait =>
    refine completes_of_onDev rfl ((ite_keep rfl ?_).trans (Dev.takeJobs_keep _ rfl rfl))
    split
    · rfl
    · exact Dev.nextSlot_keep _ rfl
  case streamFrameDone => exact completes_of_onDev rfl (Dev.strDone_keep _ _ _ _ rfl rfl rfl rfl rfl)
  case alignDeadline => exact completes_of_onDev rfl (Dev.alignDeadline_keep _ _ _ rfl rfl rfl rfl rfl rfl)
  case pointCVerdict => exact completes_of_onDev rfl ((Dev.verdictC_keep _ _ _ _ _ _ rfl rfl).trans (Dev.takeJobs_keep _ rfl rfl))
  case outCameraAlloc => exact completes_of_verb rfl fun _ => Dev.outCameraAlloc_keep _ _ rfl rfl rfl
  case outCameraFree =>
    exact completes_of_verb rfl fun _ => vk_ite _ _ (vk_ite _ _ ((Dev.freeArea_keep _ _ rfl).trans
      ((Dev.freeArea_keep _ _ rfl).trans (Dev.freeAlloc_keep _ _ rfl rfl))))
  case outPoolSet => exact completes_of_verb rfl fun _ => Dev.outPoolSet_keep _ _ rfl rfl
  case outStreamSet => exact completes_of_verb rfl fun _ => Dev.outStreamSet_keep _ _ rfl rfl rfl rfl
  case outStreamStart => exact completes_of_verb rfl fun _ => Dev.outStreamStart_keep _ _ rfl
  case outStreamStop =>
    exact completes_of_verb rfl fun _ => vk_ite _ _ (vk_ite _ _ ((Dev.settleStops_keep _ rfl rfl rfl rfl).trans
      (Dev.modStr_keep _ _ _ rfl)))
  case outCoefLoad => exact completes_of_verb rfl fun _ => Dev.outCoefLoad_keep _ _ rfl
  case outAlignSet => exact completes_of_verb rfl fun _ => Dev.outAlignSet_keep _ _ rfl
  case outAlignJoin => exact completes_of_verb rfl fun _ => vk_ite _ _ (vk_ite _ _ (vk_ite _ _ (Dev.modStr_keep _ _ _ rfl)))
  case outCompatSet => exact completes_of_verb rfl fun _ => Dev.outCompatSet_keep _ _ rfl rfl
  case outRotate => exact completes_of_verb rfl fun _ => Dev.outRotate_keep _ _ rfl rfl rfl
  case outStreamInfo | codecStreamInfo => exact completes_of_verb rfl fun _ => vk_ite _ _ rfl
  case outStats =>
    exact completes_of_verb rfl fun _ => (Dev.fs_keep _ _ _ _ _).trans ((Dev.fs_keep _ _ _ _ _).trans (Dev.fs_keep _ _ _ _ _))
  case chunkCode => exact completes_of_onDev rfl (Dev.chunkCode_keep _ _ _ rfl rfl rfl rfl rfl rfl rfl rfl)
  case srcVerdict => exact completes_of_onDev rfl (Dev.srcVerdict_keep _ _ _ _ _ rfl rfl rfl rfl rfl rfl)
  case sliceMove => exact completes_of_onDev rfl (Dev.sliceMove_keep _ _ _ rfl rfl rfl rfl rfl rfl rfl)
  case engineFail =>
    exact completes_of_onDev rfl ((Dev.engineFail_keep _ _ _ rfl rfl rfl rfl).trans
      ((ite_keep (Dev.fadd_keep _ _ _ _ _) rfl).trans (Dev.psAdmit_keep _ rfl rfl)))
  case codecStarvedTimeout =>
    exact completes_of_onDev rfl ((ite_keep (Dev.raiseOnce_keep _ _ _ _) rfl).trans (Dev.psAdmit_keep _ rfl rfl))
  case psCounterRead =>
    exact completes_of_access rfl ‹_› (ite_keep (Dev.readClear_keep _ _ _ _ _ _ rfl) (Dev.readClear_keep _ _ _ _ _ _ rfl))
  case codecStreamSet => exact completes_of_verb rfl fun _ => Dev.codecStreamSet_keep _ _ rfl rfl rfl rfl
  case codecStreamStart => exact completes_of_verb rfl fun _ => Dev.codecStreamStart_keep _ _ rfl rfl rfl rfl rfl rfl
  case codecStreamStop =>
    exact completes_of_verb rfl fun _ => vk_ite _ _ (vk_ite _ _ ((Dev.psSettle_keep _ _ rfl rfl rfl rfl rfl rfl).trans
      (Dev.modPs_keep _ _ _ rfl)))
  case codecDecode => exact completes_of_verb rfl fun _ => Dev.codecDecode_keep _ _ rfl
  case codecCtxSave =>
    exact completes_of_verb rfl fun _ => vk_ite _ _ (vk_ite _ _ (vk_ite _ _ ((Dev.saveNow_keep _ _ rfl rfl).trans
      (Dev.modPs_keep _ _ _ rfl))))
  case codecCtxLoad => exact completes_of_verb rfl fun _ => Dev.codecCtxLoad_keep _ _ rfl rfl rfl rfl rfl rfl
  case codecMove => exact completes_of_verb rfl fun _ => Dev.codecMove_keep _ _ rfl
  case codecKey => exact completes_of_verb rfl fun _ => vk_ite _ _ (vk_ite _ _ (Dev.modPs_keep _ _ _ rfl))
  case codecEngineStats => exact completes_of_verb rfl fun _ => vk_ite _ _ (foldl_keep _ _ _ fun e _ => Dev.fs_keep e _ _ _ _)

/-! ### Chapter 13 -/

/-- Settles O39: packets, timers and ends of work are one change of the device each, the verbs a body behind the gate of requests; the
law of each says which parts it may reach. -/
theorem mediaFrames : Obligations.MediaFrames := by
  unfold Obligations.MediaFrames
  refine ⟨?queueResetDone, ?cmd, ?xferRdy, ?dataOut, ?dataIn, ?resp, ?qreset, ?qresetDone, ?connect, ?connectAck, ?pm, ?pmAck,
    ?xferTimeout, ?packTimeout, ?mediaReconnect, ?idleTimerExpiry, ?hostMediaSubmit, ?mqCqhWrite, ?auWriteDone, ?pointEAssembly,
    ?flushTimer, ?burstFrameCopy, ?burstDrainDone, ?mpCntRead, ?mediaInfo, ?mediaPortSet, ?mediaPackInfo, ?mediaConfigSet,
    ?mediaQpCreate, ?mediaQpDelete, ?mediaNsCreate, ?mediaNsDelete, ?mediaVolumeFormat, ?mediaVolumeMount, ?mediaVolumeUnmount,
    ?mediaRecordStart, ?mediaRecordStop, ?mediaClipList, ?mediaClipInfo, ?mediaClipMap, ?mediaClipDelete, ?mediaBurstArm,
    ?mediaBurstTrigger, ?mediaBurstDisarm, ?mediaOffload, ?mediaMark, ?mediaStats, ?sessionInfo, ?sessionSave, ?sessionLoad,
    ?sessionStandby, ?sessionResume⟩
  all_goals intros
  case queueResetDone => exact completes_of_onDev rfl (Dev.resetDoneMd_keep _ _ _ rfl rfl rfl rfl)
  case cmd => exact completes_of_onDev rfl (Dev.tgtCmd_keep _ _ _ _ _ rfl rfl rfl rfl rfl rfl)
  case xferRdy => exact completes_of_onDev rfl (Dev.iniXferRdy_keep _ _ _ _ _ _ rfl rfl)
  case dataOut => exact completes_of_onDev rfl (Dev.tgtDataOut_keep _ _ _ _ _ _ rfl rfl rfl rfl rfl rfl)
  case dataIn => exact completes_of_onDev rfl (Dev.iniDataIn_keep _ _ _ _ _ _ rfl rfl)
  case resp => exact completes_of_onDev rfl (Dev.iniResp_keep _ _ _ _ _ rfl rfl rfl rfl rfl rfl rfl rfl rfl)
  case qreset => exact completes_of_onDev rfl (Dev.tgtReset_keep _ _ _ rfl rfl)
  case qresetDone => exact completes_of_onDev rfl (Dev.modPport_keep _ _ _ rfl)
  case connect => exact completes_of_onDev rfl (Dev.tgtConnect_keep _ _ _ _ rfl rfl)
  case connectAck => exact completes_of_onDev rfl (Dev.connectAck_keep _ _ _ _ _ _ rfl rfl rfl rfl rfl rfl)
  case pm => exact completes_of_onDev rfl (Dev.tgtPm_keep _ _ _ rfl rfl)
  case pmAck => exact completes_of_onDev rfl (Dev.pmAck_keep _ _ _ _ rfl rfl rfl)
  case xferTimeout => exact completes_of_onDev rfl (Dev.tgtTimeout_keep _ _ _ _ rfl rfl rfl rfl rfl rfl)
  case packTimeout =>
    exact completes_of_onDev rfl (ite_keep ((Dev.packFails_keep _ _ rfl rfl rfl rfl rfl rfl rfl).trans (Dev.fadd_keep _ _ _ _ _)) rfl)
  case mediaReconnect => exact completes_of_onDev rfl (Dev.pkReconnect_keep _ _ rfl rfl rfl rfl rfl rfl rfl)
  case idleTimerExpiry => exact completes_of_onDev rfl (ite_keep (Dev.mdSend_keep _ _ _ rfl rfl) rfl)
  case hostMediaSubmit => exact completes_of_onDev rfl (Dev.hostSubmit_keep _ _ _ rfl rfl rfl rfl rfl rfl)
  case mqCqhWrite => exact completes_of_access rfl ‹_› (Dev.mqCqhBy_keep _ _ _ _ rfl rfl rfl rfl rfl)
  case auWriteDone => exact completes_of_onDev rfl (Dev.auDone_keep _ _ _ rfl rfl rfl rfl rfl rfl rfl rfl rfl rfl rfl)
  case pointEAssembly => exact completes_of_onDev rfl (Dev.pointE_keep _ _ _ rfl rfl rfl rfl rfl rfl rfl rfl rfl rfl)
  case flushTimer =>
    exact completes_of_onDev rfl (ite_keep (foldl_keep _ _ _ fun e _ => ite_keep (Dev.flushAu_keep e _ rfl rfl rfl rfl rfl rfl) rfl) rfl)
  case burstFrameCopy => exact completes_of_onDev rfl (Dev.burstCopy_keep _ _ rfl rfl rfl rfl rfl rfl)
  case burstDrainDone => exact completes_of_onDev rfl (Dev.drainDone_keep _ _ rfl rfl)
  case mpCntRead => exact completes_of_readClear rfl ‹_›
  case mediaInfo | sessionInfo => exact completes_of_verb rfl fun _ => rfl
  case mediaPortSet => exact completes_of_verb rfl fun _ => Dev.mdPortSet_keep _ _ rfl rfl
  case mediaPackInfo => exact completes_of_verb rfl fun _ => vk_ite _ _ (vk_ite _ _ rfl)
  case mediaConfigSet => exact completes_of_verb rfl fun _ => vk_ite _ _ (vk_ite _ _ (Dev.fs_keep _ _ _ _ _))
  case mediaQpCreate => exact completes_of_verb rfl fun _ => Dev.mdQpCreate_keep _ _ rfl rfl
  case mediaQpDelete => exact completes_of_verb rfl fun _ => vk_ite _ _ ((Dev.qpSettle_keep _ _ rfl rfl).trans (Dev.modQp_keep _ _ _ rfl))
  case mediaNsCreate => exact completes_of_verb rfl fun _ => Dev.mdNsCreate_keep _ _ rfl
  case mediaNsDelete => exact completes_of_verb rfl fun _ => vk_ite _ _ (vk_ite _ _ (Dev.modMd_keep _ _ rfl))
  case mediaVolumeFormat => exact completes_of_verb rfl fun _ => Dev.mdFormat_keep _ _ rfl rfl rfl rfl rfl rfl
  case mediaVolumeMount => exact completes_of_verb rfl fun _ => Dev.mdMount_keep _ _ _ rfl rfl rfl rfl rfl rfl
  case mediaVolumeUnmount => exact completes_of_verb rfl fun _ => vk_ite _ _ (Dev.modMd_keep _ _ rfl)
  case mediaRecordStart => exact completes_of_verb rfl fun _ => Dev.mdRecordStart_keep _ _ rfl rfl rfl rfl rfl rfl rfl rfl rfl rfl
  case mediaRecordStop => exact completes_of_verb rfl fun _ => Dev.mdRecordStop_keep _ _ rfl rfl rfl rfl rfl rfl rfl rfl rfl rfl
  case mediaClipList => exact completes_of_verb rfl fun _ => vk_ite _ _ rfl
  case mediaClipInfo =>
    exact completes_of_verb rfl fun _ => by
      split
      · trivial
      · exact vk_ite _ _ rfl
  case mediaClipMap => exact completes_of_verb rfl fun _ => by split <;> trivial
  case mediaClipDelete => exact completes_of_verb rfl fun _ => Dev.mdClipDelete_keep _ _ rfl rfl rfl rfl rfl rfl
  case mediaBurstArm => exact completes_of_verb rfl fun _ => Dev.mdBurstArm_keep _ _ rfl rfl
  case mediaBurstTrigger =>
    exact completes_of_verb rfl fun _ => by
      split
      · trivial
      · split
        · exact Dev.modRing_keep _ _ _ rfl
        · exact Dev.burstTrigger_keep _ _ _ rfl rfl rfl rfl rfl rfl
  case mediaBurstDisarm =>
    exact completes_of_verb rfl fun _ => by
      split
      · trivial
      · exact vk_ite _ _ ((Dev.syncClips_keep _).trans ((Dev.freeArea_keep _ _ rfl).trans (Dev.modMd_keep _ _ rfl)))
  case mediaOffload => exact completes_of_verb rfl fun _ => Dev.mdOffload_keep _ _ _ rfl rfl rfl rfl rfl rfl
  case mediaMark =>
    exact completes_of_verb rfl fun _ => by
      split
      · trivial
      · exact vk_ite _ _ (Dev.modRec_keep _ _ _ rfl)
  case mediaStats =>
    exact completes_of_verb rfl fun _ => vk_ite _ _ ((Dev.set64_keep _ _ _ _ _ _).trans
      (foldl_keep _ _ _ fun e _ => Dev.fs_keep e _ _ _ _))
  case sessionSave => exact completes_of_verb rfl fun _ => Dev.sessSave_keep _ _ rfl rfl rfl
  case sessionLoad => exact completes_of_verb rfl fun _ => Dev.sessLoad_keep _ _ _ rfl rfl
  case sessionStandby => exact completes_of_verb rfl fun _ => Dev.sessStandby_keep _ rfl rfl rfl rfl rfl rfl rfl rfl
  case sessionResume => exact completes_of_verb rfl fun _ => Dev.sessResume_keep _ _ rfl rfl rfl rfl rfl rfl rfl rfl rfl rfl rfl

/-! ### Chapters 16 to 18 -/

/-- Settles O40: events and writes are one change of the device each, the verbs a body behind the gate of requests; the law of each says
which parts it may reach. -/
theorem scanAudioAndTimeFrames : Obligations.ScanAudioAndTimeFrames := by
  unfold Obligations.ScanAudioAndTimeFrames
  refine ⟨?scanFrameStart, ?vbMaxExpiry, ?layerUnderrun, ?hpdChange, ?hpdLowTimeout, ?dpTrainRetry, ?scTimGo, ?flipEntry,
    ?scanCounterRead, ?scanInfo, ?scanTimingSet, ?scanOutputSet, ?scanBaseBind, ?scanLayerBind, ?scanLayerUnbind, ?scanLayerSet,
    ?scanPaletteSet, ?scanSinkInfo, ?scanStats, ?audioBlockDone, ?zcTimeout, ?mclkLost, ?mclkReturn, ?audioRateChange, ?fsGlitch,
    ?aesUnlock, ?aesRelock, ?nonaudioDetect, ?nonaudioClear, ?auCntRead, ?audioInfo, ?audioPortSet, ?audioStart, ?audioStop, ?audioMute,
    ?audioStatus, ?audioStats, ?dIncWrite, ?dSetGo, ?dAdjGo, ?tmSnap, ?tmSwitch, ?tmSwitchForce, ?ethFrameRx, ?ethLaunch, ?frameEdge,
    ?refInEdge, ?refWindowClose, ?timedActionFire, ?trigOutPulseEnd, ?trigInEdge, ?timeCounterRead, ?timeInfo, ?timeNow, ?timeSelect,
    ?timeFrameSet, ?timeEthBind, ?timeEthUnbind, ?timeActionArm, ?timeActionCancel, ?timeTrigInSet, ?timeStats, ?dpLinkTrainingDone⟩
  all_goals intros
  case scanFrameStart => exact completes_of_onDev rfl (Dev.scFrame_keep _ rfl rfl rfl rfl)
  case vbMaxExpiry => exact completes_of_onDev rfl (Dev.scExpire_keep _ rfl rfl rfl rfl)
  case layerUnderrun => exact completes_of_onDev rfl (Dev.scUnderrun_keep _ _ _ rfl)
  case hpdChange => exact completes_of_onDev rfl (Dev.hpdChange_keep _ _ _ _ _ _ rfl)
  case hpdLowTimeout =>
    exact completes_of_onDev rfl (ite_keep rfl ((Dev.modSink_keep _ _ _ rfl).trans ((Dev.fs_keep _ _ _ _ _).trans
      (Dev.fs_keep _ _ _ _ _))))
  case dpTrainRetry => exact completes_of_onDev rfl (ite_keep (Dev.dpTrain_keep _ _ rfl) rfl)
  case scTimGo => exact completes_of_gated rfl ‹_› fun _ => Dev.effScGo_keep _ _ _ rfl rfl rfl rfl rfl
  case flipEntry => exact completes_of_onDev rfl (Dev.flipEntry_keep _ _ rfl rfl rfl rfl)
  case scanCounterRead | timeCounterRead => exact completes_of_access rfl ‹_› (by split <;> exact Dev.readClear_keep _ _ _ _ _ _ rfl)
  case scanInfo | audioInfo | timeInfo | timeNow => exact completes_of_verb rfl fun _ => rfl
  case scanTimingSet => exact completes_of_verb rfl fun _ => Dev.scTimingSet_keep _ _ rfl rfl rfl rfl rfl
  case scanOutputSet => exact completes_of_verb rfl fun _ => Dev.scOutputSet_keep _ _ rfl
  case scanBaseBind => exact completes_of_verb rfl fun _ => Dev.scBaseBind_keep _ _ rfl rfl rfl rfl rfl
  case scanLayerBind => exact completes_of_verb rfl fun _ => Dev.scLayerBind_keep _ _ rfl rfl
  case scanLayerUnbind => exact completes_of_verb rfl fun _ => Dev.scLayerUnbind_keep _ _ rfl rfl rfl rfl
  case scanLayerSet =>
    exact completes_of_verb rfl fun _ => vk_ite _ _ (vk_ite _ _ (vk_ite _ _ (vk_ite _ _ (vk_ite _ _ ((Dev.fs_keep _ _ _ _ _).trans
      ((Dev.wr_keep _ _ _ _ _).trans ((Dev.fs_keep _ _ _ _ _).trans (Dev.drawSome_keep _ rfl))))))))
  case scanPaletteSet =>
    exact completes_of_verb rfl fun _ => vk_ite _ _ ((foldl_keep _ _ _ fun e _ => Dev.wr_keep e _ _ _ _).trans (Dev.drawSome_keep _ rfl))
  case scanSinkInfo => exact completes_of_verb rfl fun _ => vk_ite _ _ (vk_ite _ _ (vk_ite _ _ rfl))
  case scanStats =>
    exact completes_of_verb rfl fun _ => (foldl_keep _ _ _ fun e _ => foldl_keep _ _ _ fun e _ => Dev.fs_keep e _ _ _ _).trans
      (foldl_keep _ _ _ fun e _ => Dev.fs_keep e _ _ _ _)
  case audioBlockDone =>
    exact completes_of_onDev rfl (ite_keep rfl ((Dev.audGather_keep _ _ _ _ _ rfl rfl rfl rfl rfl).trans
      (ite_keep rfl (Dev.modAud_keep _ _ _ rfl))))
  case zcTimeout =>
    exact completes_of_onDev rfl (ite_keep ((Dev.raiseOnce_keep _ _ _ _).trans ((Dev.fadd_keep _ _ _ _ _).trans
      (Dev.audNote_keep _ _ _ _ rfl))) rfl)
  case mclkLost =>
    exact completes_of_onDev rfl ((ite_keep ((Dev.audHold_keep _ _ rfl).trans (Dev.modAud_keep _ _ _ rfl)) rfl).trans
      ((Dev.raise_keep _ _).trans (Dev.audFs_keep _ _ _ _)))
  case mclkReturn =>
    exact completes_of_onDev rfl ((ite_keep ((Dev.audRelease_keep _ _ rfl).trans (Dev.modAud_keep _ _ _ rfl)) rfl).trans
      ((Dev.raise_keep _ _).trans ((Dev.audFs_keep _ _ _ _).trans (Dev.audFs_keep _ _ _ _))))
  case audioRateChange =>
    exact completes_of_onDev rfl ((ite_keep rfl (Dev.audFs_keep _ _ _ _)).trans (Dev.audRateChange_keep _ _ _ _ rfl rfl rfl rfl rfl))
  case fsGlitch =>
    exact completes_of_onDev rfl (ite_keep ((ite_keep (Dev.audRateChange_keep _ _ _ _ rfl rfl rfl rfl rfl) rfl).trans
      ((Dev.raiseOnce_keep _ _ _ _).trans ((Dev.fadd_keep _ _ _ _ _).trans (Dev.audNote_keep _ _ _ _ rfl)))) rfl)
  case aesUnlock | nonaudioDetect =>
    exact completes_of_onDev rfl (ite_keep ((Dev.audHold_keep _ _ rfl).trans ((Dev.modAud_keep _ _ _ rfl).trans
      ((Dev.raise_keep _ _).trans (Dev.audFs_keep _ _ _ _)))) rfl)
  case aesRelock =>
    exact completes_of_onDev rfl (ite_keep ((Dev.audRelease_keep _ _ rfl).trans ((Dev.raise_keep _ _).trans (Dev.audFs_keep _ _ _ _))) rfl)
  case nonaudioClear => exact completes_of_onDev rfl (ite_keep ((Dev.audRelease_keep _ _ rfl).trans (Dev.audFs_keep _ _ _ _)) rfl)
  case auCntRead => exact completes_of_readClear rfl ‹_›
  case audioPortSet => exact completes_of_verb rfl fun _ => Dev.audPortSet_keep _ _ rfl rfl rfl rfl
  case audioStart => exact completes_of_verb rfl fun _ => Dev.audStart_keep _ _ rfl
  case audioStop =>
    exact completes_of_verb rfl fun _ => vk_ite _ _ (vk_ite _ _ ((ite_keep (Dev.audFs_keep _ _ _ _) rfl).trans
      ((Dev.modAud_keep _ _ _ rfl).trans (Dev.audNote_keep _ _ _ _ rfl))))
  case audioMute => exact completes_of_verb rfl fun _ => vk_ite _ _ (vk_ite _ _ (vk_ite _ _ (vk_ite _ _ (Dev.audNote_keep _ _ _ _ rfl))))
  case audioStatus => exact completes_of_verb rfl fun _ => vk_ite _ _ rfl
  case audioStats => exact completes_of_verb rfl fun _ => vk_ite _ _ (foldl_keep _ _ _ fun e _ => Dev.audFs_keep e _ _ _)
  case dIncWrite => exact completes_of_gated rfl ‹_› fun _ => Dev.effDInc_keep _ _ _ _ rfl rfl
  case dSetGo => exact completes_of_gated rfl ‹_› fun _ => Dev.effDSet_keep _ _ _ _ rfl rfl rfl rfl rfl rfl rfl rfl rfl rfl rfl rfl
  case dAdjGo => exact completes_of_gated rfl ‹_› fun _ => Dev.effDAdj_keep _ _ _ rfl rfl rfl rfl rfl rfl rfl rfl rfl rfl rfl rfl
  case tmSnap | tmSwitch | tmSwitchForce =>
    exact completes_of_access rfl ‹_› (Dev.tmCtlBy_keep _ _ _ rfl rfl rfl rfl rfl rfl rfl rfl rfl rfl rfl rfl)
  case ethFrameRx => exact completes_of_onDev rfl (Dev.ethRx_keep _ _ _ rfl rfl rfl rfl)
  case ethLaunch => exact completes_of_onDev rfl (Dev.ethLaunch_keep _ _ _ rfl rfl rfl rfl rfl)
  case frameEdge => exact completes_of_onDev rfl (Dev.frameEdge_keep _ rfl rfl)
  case refInEdge => exact completes_of_onDev rfl (Dev.refEdge_keep _ rfl rfl)
  case refWindowClose => exact completes_of_onDev rfl (Dev.windowClose_keep _ rfl rfl rfl)
  case timedActionFire => exact completes_of_onDev rfl (Dev.fire_keep _ _ rfl rfl rfl rfl rfl rfl rfl rfl rfl rfl rfl)
  case trigOutPulseEnd =>
    exact completes_of_onDev rfl (by
      dsimp only
      split
      · rfl
      · exact Dev.drivePin_keep _ _ _ rfl)
  case trigInEdge => exact completes_of_onDev rfl (Dev.trigEdge_keep _ _ _ rfl rfl rfl rfl rfl rfl rfl)
  case timeSelect =>
    exact completes_of_verb rfl fun _ => vk_ite _ _ (vk_ite _ _ (by
      split
      · exact rfl
      · split
        · trivial
        case _ h => exact Dev.tmSwitch_keep _ _ rfl rfl rfl rfl rfl rfl rfl rfl rfl rfl rfl h))
  case timeFrameSet => exact completes_of_verb rfl fun _ => Dev.tmFrameSet_keep _ _ rfl rfl rfl
  case timeEthBind => exact completes_of_verb rfl fun _ => Dev.tmEthBind_keep _ _ rfl rfl
  case timeEthUnbind => exact completes_of_verb rfl fun _ => Dev.tmEthUnbind_keep _ _ rfl
  case timeActionArm => exact completes_of_verb rfl fun _ => Dev.tmActionArm_keep _ _ rfl rfl rfl rfl rfl rfl rfl rfl rfl rfl rfl
  case timeActionCancel =>
    exact completes_of_verb rfl fun _ => by
      split
      · trivial
      · split
        · exact Dev.disarm_keep _ _ rfl
        · trivial
  case timeTrigInSet => exact completes_of_verb rfl fun _ => Dev.tmTrigInSet_keep _ _ rfl rfl
  case timeStats => exact completes_of_verb rfl fun _ => foldl_keep _ _ _ fun e _ => Dev.fs_keep e _ _ _ _
  case dpLinkTrainingDone => exact completes_of_onDev rfl (Dev.dpDone_keep _ _ _ rfl)

/-! ### Chapters 19 and 20 -/

/-- Settles O41: Bastu-T packets and timers are one change of the device each, the verbs a body behind the gate of requests, and HEALTH's
also write the event NVM; the law of each says which parts it may reach. -/
theorem twinChainAndHealthFrames : Obligations.TwinChainAndHealthFrames := by
  unfold Obligations.TwinChainAndHealthFrames
  refine ⟨?heartbeatSend, ?heartbeat, ?heartbeatTimeout, ?twinPresentChange, ?twinLinkWaitTimeout, ?takeover, ?mirror,
    ?mirrorCloseTimeout, ?state, ?stateAck, ?clipsync, ?handoverReq, ?handoverGo, ?handoverDone, ?detach, ?attachReq, ?attachRefuse,
    ?hot, ?twinMsg, ?attachBaseFreeze, ?twCntRead, ?sync, ?action, ?chainMsg, ?media, ?probe, ?probeSend, ?topo, ?chCntRead, ?twinInfo,
    ?twinModeSet, ?twinAttach, ?twinDetach, ?twinHandover, ?twinStatus, ?chainInfo, ?chainJoin, ?chainLeave, ?chainRouteSet,
    ?chainAction, ?chainSend, ?chainTopo, ?thermSample, ?thSampleWrite, ?fastScheduleExit, ?riseBonusEnd, ?selftestDone, ?selftestRetest,
    ?rollTick, ?eventHandling, ?healthInfo, ?healthTemp, ?healthThermAck, ?healthSensorClear, ?healthSelftest, ?healthTestInfo,
    ?healthRollSet, ?healthRollNow, ?healthUnitList, ?healthEqStats⟩
  all_goals intros
  case heartbeatSend => exact completes_of_onDev rfl (Dev.sendBeat_keep _ rfl rfl rfl rfl rfl rfl rfl rfl)
  case heartbeat => exact completes_of_onDev rfl (Dev.beat_keep _ _ rfl rfl rfl rfl rfl rfl rfl rfl rfl rfl)
  case heartbeatTimeout => exact completes_of_onDev rfl ((Dev.partnerLost_keep _ _ rfl).trans (Dev.missBeats_keep _ _ rfl))
  case twinPresentChange =>
    exact completes_of_onDev rfl ((ite_keep (Dev.partnerLost_keep _ _ rfl) rfl).trans
      ((upd_pins_keep _ _ rfl).trans (Dev.fs_keep _ _ _ _ _)))
  case twinLinkWaitTimeout =>
    exact completes_of_onDev rfl (ite_keep ((Dev.twEv_keep _ _ _ _).trans ((Dev.modTw_keep _ _ rfl).trans (Dev.setTwRole_keep _ _))) rfl)
  case takeover =>
    exact completes_of_onDev rfl (ite_keep ((Dev.leadOn_keep _ _ rfl rfl rfl rfl rfl rfl).trans ((Dev.twEv_keep _ _ _ _).trans
      ((Dev.modTw_keep _ _ rfl).trans (Dev.takeRole_keep _ rfl rfl rfl)))) rfl)
  case mirror => exact completes_of_onDev rfl (Dev.mirrorIn_keep _ _ _ _ _ _ rfl rfl rfl rfl rfl rfl rfl rfl rfl)
  case mirrorCloseTimeout => exact completes_of_onDev rfl (Dev.closeMirror_keep _ rfl)
  case state =>
    exact completes_of_onDev rfl (Dev.twRx_keep _ _ _ _ fun e => Dev.twState_keep e _ _ _ rfl rfl rfl rfl rfl rfl rfl rfl rfl rfl rfl rfl)
  case stateAck | twinMsg => exact completes_of_onDev rfl (Dev.twRx_keep _ _ _ _ fun e => Dev.modTw_keep e _ rfl)
  case clipsync => exact completes_of_onDev rfl (Dev.twRx_keep _ _ _ _ fun e => ite_keep (Dev.clipMark_keep e _ _ rfl rfl) rfl)
  case handoverReq | hot => exact completes_of_onDev rfl (ite_keep (Dev.modTw_keep _ _ rfl) rfl)
  case handoverGo => exact completes_of_onDev rfl (ite_keep (Dev.handoverGo_keep _ _ rfl rfl rfl rfl rfl rfl rfl rfl rfl) rfl)
  case handoverDone => exact completes_of_onDev rfl (ite_keep (Dev.handoverDone_keep _ _ rfl) rfl)
  case detach => exact completes_of_onDev rfl (ite_keep ((Dev.twEv_keep _ _ _ _).trans (Dev.modTw_keep _ _ rfl)) rfl)
  case attachReq => exact completes_of_onDev rfl (ite_keep (Dev.attachReq_keep _ _ rfl) rfl)
  case attachRefuse => exact completes_of_onDev rfl (ite_keep (Dev.attachRefused_keep _ _ rfl) rfl)
  case attachBaseFreeze => exact completes_of_onDev rfl (Dev.freezeBase_keep _ rfl)
  case twCntRead | chCntRead => exact completes_of_readClear rfl ‹_›
  case sync => exact completes_of_onDev rfl (Dev.flooded_keep _ _ _ _ _ rfl fun e => Dev.syncIn_keep e _ _ _ rfl)
  case action =>
    exact completes_of_onDev rfl (Dev.flooded_keep _ _ _ _ _ rfl fun e => Dev.actionIn_keep e _ _ rfl rfl rfl rfl rfl rfl rfl rfl rfl rfl rfl)
  case chainMsg => exact completes_of_onDev rfl (Dev.flooded_keep _ _ _ _ _ rfl fun e => Dev.msgIn_keep e _ _ _ rfl)
  case media => exact completes_of_onDev rfl (Dev.mediaHop_keep _ _ _ _ _ _ _ rfl rfl rfl rfl rfl rfl)
  case probe => exact completes_of_onDev rfl (ite_keep (Dev.probeIn_keep _ _ _ _ rfl) rfl)
  case probeSend => exact completes_of_onDev rfl (Dev.probes_keep _ rfl)
  case topo => exact completes_of_onDev rfl (ite_keep (Dev.topoIn_keep _ _ _ rfl) rfl)
  case twinInfo | twinStatus | chainInfo | chainTopo => exact completes_of_verb rfl fun _ => rfl
  case twinModeSet => exact completes_of_verb rfl fun _ => Dev.twModeSet_keep _ _
  case twinAttach => exact completes_of_verb rfl fun _ => vk_ite _ _ ((Dev.modTw_keep _ _ rfl).trans (Dev.attachNow_keep _ rfl))
  case twinDetach => exact completes_of_verb rfl fun _ => Dev.twDetach_keep _ rfl rfl rfl rfl rfl rfl rfl rfl
  case twinHandover => exact completes_of_verb rfl fun _ => Dev.twHandover_keep _ _ rfl
  case chainJoin => exact completes_of_verb rfl fun _ => Dev.chJoin_keep _ _ rfl
  case chainLeave => exact completes_of_verb rfl fun _ => Dev.chLeave_keep _ rfl
  case chainRouteSet => exact completes_of_verb rfl fun _ => vk_ite _ _ (vk_ite _ _ (Dev.wr_keep _ _ _ _ _))
  case chainAction => exact completes_of_verb rfl fun _ => Dev.chAction_keep _ _ rfl rfl
  case chainSend => exact completes_of_verb rfl fun _ => Dev.chSendMsg_keep _ _ rfl
  case thermSample => exact stores_of_onNvm rfl (Dev.thermSample_keep _ _ _ rfl rfl rfl rfl rfl rfl)
  case thSampleWrite =>
    exact stores_of_issued (p := nvFlush 0 _ _) rfl ‹_› ((nvFlush_keep 0 _ _ rfl).trans
      (Dev.gated_keep _ _ _ _ _ _ _ rfl rfl rfl rfl fun e => Dev.effThCtl_keep e _ _ _ rfl rfl rfl rfl rfl rfl))
  case fastScheduleExit => exact completes_of_onDev rfl (ite_keep (Dev.setFast_keep _ _ _ _) rfl)
  case riseBonusEnd => exact completes_of_onDev rfl ((Dev.syncLevel_keep _ rfl).trans (Dev.fs_keep _ _ _ _ _))
  case selftestDone => exact stores_of_onNvm rfl (Dev.selftestDone_keep _ _ _ rfl rfl rfl rfl rfl rfl)
  case selftestRetest =>
    exact completes_of_onDev rfl (ite_keep ((Dev.askTest_keep _ _ _ _ rfl rfl).trans (Dev.setHist_keep _ _ _ rfl)) rfl)
  case rollTick => exact completes_of_onDev rfl (ite_keep rfl (Dev.rollStep_keep _ rfl rfl rfl rfl))
  case eventHandling => exact stores_of_onNvm rfl (Dev.handleEvent_keep _ rfl rfl rfl rfl rfl rfl rfl rfl)
  case healthInfo | healthUnitList => exact stores_of_vHealth rfl fun _ => rfl
  case healthTemp => exact stores_of_vHealth rfl fun _ => Dev.healthTemp_keep _ _ _ rfl rfl rfl rfl rfl rfl
  case healthThermAck => exact stores_of_vHealth rfl fun _ => Dev.thermAck_keep _ rfl rfl
  case healthSensorClear => exact stores_of_vHealth rfl fun _ => Dev.sensorClear_keep _ _ rfl
  case healthSelftest => exact stores_of_vHealth rfl fun _ => Dev.healthSelftest_keep _ _ rfl rfl
  case healthTestInfo => exact stores_of_vHealth rfl fun _ => vk_ite _ _ rfl
  case healthRollSet => exact stores_of_vHealth rfl fun _ => vk_ite _ _ (upd_hl_keep _ _ rfl)
  case healthRollNow =>
    exact stores_of_vHealth rfl fun _ => by
      split
      · exact Dev.rollSkip_keep _ rfl
      · exact (Dev.rollStep_keep _ rfl rfl rfl rfl).trans (upd_hl_keep _ _ rfl)
  case healthEqStats => exact stores_of_vHealth rfl fun _ => upd_oz_keep _ _

end Sys2Proof.Machine
end
